-- ==== Sys2Proof/Word.lean ====
section
/-! DEFINITION. The word and byte types of the Zamet (R4, R5). -/

namespace Sys2Proof

/-- A byte of any memory (R5). -/
abbrev Byte := BitVec 8
/-- A register of register space, or a scalar register: 64 bits. -/
abbrev Word := BitVec 64
/-- One lane of a vector register or one accumulator element: 32 bits (R48). -/
abbrev Lane := BitVec 32

end Sys2Proof
end

