-- ==== Sys2Proof/Syntax.lean ====
section
/-! DEFINITION. The commands that reach the block, one constructor per row of the table of operations and events, with
the operands each carries. A register access carries who issues it, in which world and with which width. -/

namespace Sys2Proof

/-- Who issues a register access (R441, R450). -/
inductive Requester where
  | companion | i3c | mgmt | fender
deriving DecidableEq, Repr

/-- Width of a register access: all 64 bits, or the low or the high 32 (R445). -/
inductive Width where
  | full | low | high
deriving DecidableEq, Repr

/-- One register access: the issuer, its world (R399) and its width. -/
structure Access where
  by_ : Requester
  secure : Bool
  width : Width
deriving DecidableEq, Repr

/-- Operations on embers (R392). -/
inductive EmberOp where
  | add (n : Word) | arrive | set | clear
deriving DecidableEq, Repr

/-- One transfer of a cache ship: page tile `tile` of page `page`, its parameter record, or the sequence record (R210). -/
inductive ShipItem where
  | tile (page tile : Nat) (data : List Byte)
  | params (page tile : Nat) (data : List Byte)
  | record (data : List Byte) (kv4 : Bool) (tpp dh : Nat)
deriving DecidableEq, Repr

/-- One slab of a mirrored shard entry on the fabric: the device and partition that sent it, the entry of the receiver it
names, the sender's group, range and step, and its b, r and m bytes; `isFirst` and `isLast` mark the first and the last
slab (R279, R280). -/
structure MirrorEntry where
  srcDev : Nat
  srcPart : Nat
  entry : Nat
  group : Nat
  first : Nat
  count : Nat
  step : Nat
  slab : Nat
  isFirst : Bool
  isLast : Bool
  complete : Bool
  b : List Byte
  r : List Byte
  m : List Byte
deriving DecidableEq, Repr

/-- How a fetch attempt ended: the last byte has arrived, or the connection has failed after the bytes given (R296,
R297). -/
inductive ChunkResult where
  | arrived (data : List Byte)
  | error (data : List Byte)
deriving DecidableEq, Repr

/-- A hello packet (R312). -/
structure Hello where
  id : Nat
  idValid : Bool
  master : Nat
  port : Nat
  verLo : Nat
  verHi : Nat
  caps : Nat
  sleep : Bool
deriving DecidableEq, Repr

/-- A fabric packet: the fields of its 32-byte header and its payload (R322). -/
structure Packet where
  dst : Nat
  src : Nat
  vc : Nat
  cls : Nat
  type : Nat
  ver : Nat
  fseq : Nat
  group : Nat
  part : Nat
  digest : Nat
  cseq : Nat
  place : Nat
  arg : Nat
  payload : List Byte
deriving DecidableEq, Repr

/-- A collective segment as it arrives from the ring predecessor or the tree parent: group, sequence number, digest, the
device that sent it, the port it came in by, block, segment within the block, whether it is gathered rather than reduced, and
its data (R336, R337). -/
structure Segment where
  group : Fin 1024
  cseq : Nat
  digest : Nat
  src : Nat
  port : Fin 24
  block : Nat
  seg : Nat
  gather : Bool
  data : List Byte
deriving DecidableEq, Repr

/-- What an abort says: the number of the collective and the status with which it ended at the sender (R334). -/
structure AbortStatus where
  cseq : BitVec 32
  status : Byte
deriving DecidableEq, Repr

/-- A chunk of the manifest, and its bytes that have arrived when its time is over (R297). -/
structure ChunkPart where
  number : Nat
  data : List Byte
deriving DecidableEq, Repr

/-- A request of the companion at companion addresses (R341, R342). Accesses to registers, doorbells and pops have rows of their
own too. `share` asks for a cached copy of the line, `own` for one to modify; `recall` snoops a line of the
window, which the companion is home of (R346). -/
inductive CompanionReq where
  | read (addr n : Nat)
  | write (addr : Nat) (data : List Byte) (poisoned : Bool)
  | share (line : Nat)
  | own (line : Nat)
  | writeBack (line : Nat) (data : List Byte) (poisoned : Bool)
  | recall (line : Nat)
deriving DecidableEq, Repr

/-- A response of the companion (R346, R347). -/
inductive CompanionResp where
  | writeAck (id : Nat)
  | readData (addr : Nat) (data : List Byte) (poisoned : Bool)
  | snoop (line : Nat) (data : Option (List Byte)) (poisoned : Bool)
deriving DecidableEq, Repr

/-- What Fender finds when it checks an image of one copy (R407): the header fields, whether each signature verifies,
and whether the digests agree. -/
structure ImageCheck where
  present : Bool
  formOk : Bool
  svn : Nat
  rootOk : Bool
  ecdsaOk : Bool
  lmsOk : Bool
  digestOk : Bool
  digest : List Byte
  /-- The root public keys in the header: ECDSA, 96 bytes, and LMS, 56 bytes (R406). -/
  ekey : List Byte
  lkey : List Byte
deriving DecidableEq, Repr

/-- The images that FEN verifies (R408). -/
inductive ImageKind where
  | mgt | dev
deriving DecidableEq, Repr

/-- A debug unlock token as verified: signed by each root key, and naming a DeviceID digest (R410). -/
structure UnlockToken where
  ecdsaOk : Bool
  lmsOk : Bool
  namesDevice : Bool
deriving DecidableEq, Repr

/-- What bring-up finds on the way to the next service level (R417, R419): for each compute die whether its HBM trained
and which physical cores pass their self-test; whether the SerDes and the LPDDR5X trained; the frames of each tier
found good. -/
structure BringUp where
  hbmOk : List Bool
  corePass : List (BitVec 72)
  serdesOk : Bool
  lpddrOk : Bool
  afterMs : Nat
deriving DecidableEq, Repr

/-- Unit kinds of the error record (R438). -/
inductive UnitKind where
  | core | segment | hbmRow | slowRow | frame | serdesLane | hbmLane | dmaChannel | engine | fabricLink | clock
deriving DecidableEq, Repr

/-- A hardware error as detected: the unit, where it lies (core, segment, frame, lane or channel number), the register
page of its block, the device address concerned, the partition affected and how many errors form the record (R438). -/
structure HwError where
  unit : UnitKind
  place : Nat
  page : Nat
  addr : Nat
  part : Fin 64
  count : Nat
deriving DecidableEq, Repr

/-- How a targeted self-test ended (R428, R432): whether the unit passed, and, for a row of HBM or of the slow tier, whether a spare row repaired
it; `retire` says that the row's frame must be retired. -/
structure TestResult where
  pass : Bool
  spareRow : Bool
  retire : Bool
deriving DecidableEq, Repr


/-- The commands of the block: one constructor per row of the spec's table of operations and events. -/
inductive Instr where
  /-- PWR_EN_RISE (R460): The board raises PWR_EN, and the module waits until the input has lain in range for 5 ms with PWR_EN high before it ramps its rails. -/
  | pwrEnRise (lowMs : Nat)
  /-- RAIL_RAMP_START (R460): Once PWR_EN is high and the input has lain in range for 5 ms, the module starts the ramp of its rails by itself. -/
  | railRampStart (inRangeMs : Nat)
  /-- PWR_GOOD_RISE (R34): The ramp completes and the module raises PWR_GOOD, 20 ms to 60 ms after its reference. -/
  | pwrGoodRise (afterMs : Nat)
  /-- POWER_ON_RESET_END (R460): The power-on reset ends at the release of MOD_RST_N or 1 ms after PWR_GOOD rises, whichever is later; the LTC starts counting and SLOT_ID is sampled. -/
  | powerOnResetEnd (slot : Fin 16)
  /-- PWR_EN_FALL (R35): The board lowers PWR_EN; the module abandons any ramp or enters cold reset, lowers PWR_GOOD within 1 ms and discharges its rails. -/
  | pwrEnFall
  /-- RAILS_DISCHARGED (R35): The rails finish discharging within 20 ms of PWR_EN falling, after which the board may remove the input. -/
  | railsDischarged
  /-- BROWN_OUT (R36): The input stays below 46.0 V for more than 10 µs; the module lowers PWR_GOOD and powers down until PWR_EN has been held low for 100 ms and raised again. -/
  | brownOut (deciVolts us : Nat)
  /-- COLD_RESET (R38): MOD_RST_N has been low without a break for 1 µs after a power-on reset ended, and a cold reset takes effect and lasts until the pin rises. -/
  | coldReset (lowNs : Nat)
  /-- COLD_RESET_RELEASE (R45): MOD_RST_N rises and ends the cold reset; the LTC starts counting from 0. -/
  | coldResetRelease (slot : Fin 16)
  /-- WARM_RST_N_ASSERT (R38): WARM_RST_N has been low without a break for 1 µs and a warm reset trigger takes effect. -/
  | warmRstNAssert (lowNs : Nat)
  /-- WARM_RST_N_RISE (R38): The rising edge of WARM_RST_N ends the warm trigger, and the 50 ms completion bound starts. -/
  | warmRstNRise
  /-- MOD_RST_CTL_WARM (R38): A write of 1 to MOD_RST_CTL.warm starts a warm reset and ends its trigger. -/
  | modRstCtlWarm (a : Access) (v : Word)
  /-- WARM_RESET_DONE (R38): A warm reset completes within 50 ms of the end of its last absorbed trigger, records its causes in MOD_RST_CAUSE and returns the device to SL0. -/
  | warmResetDone
  /-- PWRBRK_N_FALL (R33): PWRBRK_N falls and the 2,000 W cap applies, with input power at or below 2,100 W within 50 µs. -/
  | pwrbrkNFall
  /-- PWRBRK_N_RISE (R33): PWRBRK_N rises and MOD_PWR.cap applies again within 1 ms. -/
  | pwrbrkNRise
  /-- MOD_PWR_CAP_WRITE (R33): A write to MOD_PWR.cap selects a new power cap, which takes effect within 1 ms; a write of 11b is ignored. -/
  | modPwrCapWrite (a : Access) (v : Word)
  /-- TEMPERATURE_READ (R41): Every 100 µs the 40 die sensors are read, MOD_PWR.tj_max is updated, and throttling or a thermal trip follows from the readings. -/
  | temperatureRead (temps : List Nat) (watts : Nat)
  /-- REFCLK_B_LOSS (R42): Loss of REFCLK_B is detected within 2 µs and every SerDes link goes down. -/
  | refclkBLoss
  /-- REFCLK_B_RETURN (R42): REFCLK_B returns and the SerDes links are rediscovered with no reset. -/
  | refclkBReturn
  /-- REFCLK_A_LOSS (R42): Loss of REFCLK_A is detected within 2 µs and is a fatal error of the device. -/
  | refclkALoss
  /-- MOD_LTC_READ (R47): A read of MOD_LTC returns the LTC taken in one cycle; a 32-bit read of bits [31:0] also latches bits [63:32] into MOD_LTC_HI. -/
  | modLtcRead (a : Access)
  /-- TASK_START (R71): An idle core of the current context takes the first task of the highest-priority non-empty queue, loads s1 to s7 and checks done_ember. -/
  | taskStart (p : Fin 64)
  /-- IBUF_LINE_ARRIVAL (R461): A missing 4 KiB instruction line arrives from the tier range, replaces the oldest line, and issue resumes. -/
  | ibufLineArrival (k : Fin 512)
  /-- SOP (R124): Scalar operation on two registers, selected by sub. -/
  | sop (k : Fin 512) (w : BitVec 128)
  /-- SOPI (R124): Scalar operation on a register and the immediate, selected by sub. -/
  | sopi (k : Fin 512) (w : BitVec 128)
  /-- SMUL (R125): Scalar multiplication giving the low half, or the signed or unsigned high half, of the product. -/
  | smul (k : Fin 512) (w : BitVec 128)
  /-- SDIV (R125): Signed or unsigned scalar division giving the quotient or the remainder; division by zero is defined. -/
  | sdiv (k : Fin 512) (w : BitVec 128)
  /-- SLI (R126): Loads the 64-bit immediate into a scalar register. -/
  | sli (k : Fin 512) (w : BitVec 128)
  /-- SLD (R126): Loads 8 bytes from the scratchpad into a scalar register. -/
  | sld (k : Fin 512) (w : BitVec 128)
  /-- SST (R126): Stores a scalar register to 8 bytes of the scratchpad. -/
  | sst (k : Fin 512) (w : BitVec 128)
  /-- BR (R127): Conditional relative branch; its target is checked only when the condition holds. -/
  | br (k : Fin 512) (w : BitVec 128)
  /-- JMP (R127): Jump to a register plus the immediate, writing the return address to s[d]. -/
  | jmp (k : Fin 512) (w : BitVec 128)
  /-- RDLTC (R128): Reads the compute die's copy of the LTC into a scalar register. -/
  | rdltc (k : Fin 512) (w : BitVec 128)
  /-- NOP (R123): An instruction that does nothing. -/
  | nop (k : Fin 512) (w : BitVec 128)
  /-- VOP (R136): Vector float or integer operation on all 128 lanes, selected by sub. -/
  | vop (k : Fin 512) (w : BitVec 128)
  /-- VFMA (R137): Vector fused multiply-add with one rounding. -/
  | vfma (k : Fin 512) (w : BitVec 128)
  /-- VCMP (R138): Vector compare that writes a lane mask. -/
  | vcmp (k : Fin 512) (w : BitVec 128)
  /-- VSEL (R138): Vector select of lanes between two registers by a mask. -/
  | vsel (k : Fin 512) (w : BitVec 128)
  /-- VFN (R139): Vector exp, log, reciprocal or reciprocal square root, correctly rounded. -/
  | vfn (k : Fin 512) (w : BitVec 128)
  /-- VCVT (R140): Converts each lane between formats. -/
  | vcvt (k : Fin 512) (w : BitVec 128)
  /-- VRED (R141): Sum or maximum over the 128 lanes in fixed tree order. -/
  | vred (k : Fin 512) (w : BitVec 128)
  /-- VMVS (R141): Moves values between vector lanes and scalar registers. -/
  | vmvs (k : Fin 512) (w : BitVec 128)
  /-- VLD (R142): Loads one row record from the scratchpad into a vector register. -/
  | vld (k : Fin 512) (w : BitVec 128)
  /-- VST (R142): Stores a vector register to the scratchpad as one row record. -/
  | vst (k : Fin 512) (w : BitVec 128)
  /-- VACR (R143): Reads one accumulator row into a vector register. -/
  | vacr (k : Fin 512) (w : BitVec 128)
  /-- VACW (R143): Writes a vector register into one accumulator row and sets the tile's live bit and kind. -/
  | vacw (k : Fin 512) (w : BitVec 128)
  /-- VRND (R144): Writes keyed or free-running random words to the lanes. -/
  | vrnd (k : Fin 512) (w : BitVec 128)
  /-- MMA (R130): Matrix multiply-accumulate into an accumulator tile. -/
  | mma (k : Fin 512) (w : BitVec 128)
  /-- MMA_DONE (R60): The last result row of a matrix instruction is written at done(i), releasing its dependants. -/
  | mmaDone (k : Fin 512)
  /-- ASTEP (R145): Attention block step: masks and scales scores, rescales the running state and writes P. -/
  | astep (k : Fin 512) (w : BitVec 128)
  /-- ANORM (R146): Normalises output rows by their running denominators. -/
  | anorm (k : Fin 512) (w : BitVec 128)
  /-- KVQ (R147): Quantises one complete cache block, or makes its KV4 shadow. -/
  | kvq (k : Fin 512) (w : BitVec 128)
  /-- KVD (R148): Decodes one cache block into BF16, FP16 or E4M3. -/
  | kvd (k : Fin 512) (w : BitVec 128)
  /-- DRN (R132): Drains accumulator rows to the scratchpad with optional fused operation and recipe. -/
  | drn (k : Fin 512) (w : BitVec 128)
  /-- TLD (R149): Copies bytes from a device address into the scratchpad. -/
  | tld (k : Fin 512) (w : BitVec 128)
  /-- TLD_COMPLETE (R149): The last byte of a TLD lands, completing it in issue order and setting the shadow flag if used. -/
  | tldComplete (k : Fin 512)
  /-- TST (R150): Records a scratchpad-to-device copy as a pending output of the tile. -/
  | tst (k : Fin 512) (w : BitVec 128)
  /-- SREL (R152): Clears the live bits of the named segments. -/
  | srel (k : Fin 512) (w : BitVec 128)
  /-- AREL (R152): Clears the live bits and add counters of the named accumulator tiles. -/
  | arel (k : Fin 512) (w : BitVec 128)
  /-- SUBMIT (R153): Passes a 64-byte descriptor to the Geyser, Flue or Bellows engine as a tile output. -/
  | submit (k : Fin 512) (w : BitVec 128)
  /-- TEND (R154): Closes the current tile, starting the commit of its outputs, and opens the next. -/
  | tend (k : Fin 512) (w : BitVec 128)
  /-- TILE_COMMIT_DONE (R74): The outputs of a tile finish committing in issue order, waiting on full engine queues as needed. -/
  | tileCommitDone (k : Fin 512)
  /-- END (R73): Ends the task: closes the last tile and waits until all its outputs are committed. -/
  | endTask (k : Fin 512) (w : BitVec 128)
  /-- TASK_END (R73): With every output visible, the core signals done_ember, ORs the flags into the context, clears live bits and becomes idle. -/
  | taskEnd (k : Fin 512)
  /-- EWAIT (R155): Waits on an ember condition with an optional timeout. -/
  | ewait (k : Fin 512) (w : BitVec 128)
  /-- EWAIT_SATISFIED (R395): The ember value crossing into CCLK meets the wait condition and the wait completes with s[d] := 0. -/
  | ewaitSatisfied (k : Fin 512)
  /-- EWAIT_TIMEOUT (R395): The LTC copy reaches the wait's deadline without the condition met; the wait completes with 1 and PART_STAT.timeouts rises. -/
  | ewaitTimeout (k : Fin 512)
  /-- ESIG (R156): Signals an ember as a tile output. -/
  | esig (k : Fin 512) (w : BitVec 128)
  /-- GKEY (R157): Writes the step, layer and tile key fields of the generators. -/
  | gkey (k : Fin 512) (w : BitVec 128)
  /-- SAVE (R159): Performs a tile end and writes the live state to a save area. -/
  | save (k : Fin 512) (w : BitVec 128)
  /-- RSTR (R160): Checks a save area and replaces the live state with it. -/
  | rstr (k : Fin 512) (w : BitVec 128)
  /-- TASK_RESUME_AFTER_REFETCH (R180): When the granule returns to stable, a suspended task resumes at the refused instruction and a requeued task may run its tile again. -/
  | taskResumeAfterRefetch (k : Fin 512)
  /-- TILE_OVERRUN (R75): A tile passes 16 µs with a tile-boundary pre-emption pending; the core pre-empts it at once and sets CORE_STS.overrun. -/
  | tileOverrun (k : Fin 512)
  /-- CORE_CTL_HALT (R82): A write of CORE_CTL.halt stops issue at the next instruction boundary, or resumes issue. -/
  | coreCtlHalt (a : Access) (k : Fin 512) (v : Word)
  /-- CORE_CTL_DRAIN (R82): A write of CORE_CTL.drain stops or allows new tasks on the core. -/
  | coreCtlDrain (a : Access) (k : Fin 512) (v : Word)
  /-- CORE_TILE_MAX_READ (R75): A read of CORE_TILE_MAX returns the longest tile and clears it. -/
  | coreTileMaxRead (a : Access) (k : Fin 512)
  /-- MAP (R169): Tier command that maps a granule to a free frame in state zeroing. -/
  | map (a : Access) (v : Word)
  /-- UNMAP (R169): Tier command that abandons migration and clears a granule's mapping once earlier accesses complete. -/
  | unmap (a : Access) (v : Word)
  /-- SET_ATTRIBUTES (R169): Tier command that replaces kind, place, pin and the shadow fields of a mapped granule. -/
  | setAttributes (a : Access) (v : Word)
  /-- MOVE (R169): Tier command that starts a migration of a granule to the other tier. -/
  | move (a : Access) (v : Word)
  /-- UNMAP_DONE (R170): Every access accepted before an unmap completes, valid clears, frames return to the pool and busy clears. -/
  | unmapDone
  /-- ZEROING_DONE (R171): The tier engine finishes zeroing a granule's tiles and sets it stable. -/
  | zeroingDone (g : Fin 49152)
  /-- MIGRATION_START (R173): The tier engine starts migrating a hot or cold granule with place 00b and pin 0 on its own. -/
  | migrationStart (g : Fin 49152)
  /-- MIGRATION_PASS_END (R172): A copy pass ends; the migration enters switching, continues, or is abandoned after its 8th pass. -/
  | migrationPassEnd (g : Fin 49152)
  /-- MIGRATION_SWITCH_DONE (R172): The last dirty tiles are copied, the entry is rewritten, held writes go to the new frame and the granule is stable. -/
  | migrationSwitchDone (g : Fin 49152)
  /-- HEAT_HALVE (R166): Every 10 ms the heat field of every tier map entry is halved. -/
  | heatHalve
  /-- REFETCH_TILE_DONE (R180): A poisoned tile is re-read from replica or manifest, its still-poisoned lines are written and ptiles falls. -/
  | refetchTileDone (g : Fin 49152) (tile : Fin 1024) (chunk : Option ChunkResult)
  /-- TIER_PQ_WRITE (R177): A write to TIER_PQp changes a partition's quotas whole, or is refused and sets refused. -/
  | tierPqWrite (a : Access) (p : Fin 64) (v : Word)
  /-- STAGE_CACHE_ADJUST (R177): After a stage change, stage-cache frames are freed or taken within 100 µs. -/
  | stageCacheAdjust (p : Fin 64)
  /-- STRM_CTL_WRITE (R187): A write of STRMp_s_CTL enables a prefetch stream with D set to dinit, or leaves en 0 on bad values. -/
  | strmCtlWrite (a : Access) (p : Fin 64) (st : Fin 4) (v : Word)
  /-- STREAM_ADVANCE (R184): The progress ember moves to layer c; the stream stops staging layer c and stages layers c + 1 to c + D. -/
  | streamAdvance (p : Fin 64) (st : Fin 4)
  /-- STAGING_READ_DONE (R183): A staging read completes and the tile's staged copy becomes valid. -/
  | stagingReadDone (p : Fin 64) (tile : Nat)
  /-- STRM_STS_READ (R187): A read of STRMp_s_STS returns and clears direct_tiles and late_layers. -/
  | strmStsRead (a : Access) (p : Fin 64) (st : Fin 4)
  /-- TIER_STAT_READ (R166): A read of TIER_STAT returns and clears the tier-engine event counts. -/
  | tierStatRead (a : Access)
  /-- CACHE_CQ_PI_WRITE (R213): A write of CACHE_CQ_IDX.pi adds commands to the cache manager's ring for the next step boundary. -/
  | cacheCqPiWrite (a : Access) (p : Fin 64) (v : Word)
  /-- CACHE_STEP_BOUNDARY (R204): At a step boundary the cache manager executes commands, gives headroom, banks paused sequences and marks sequences awaiting page. -/
  | cacheStepBoundary (p : Fin 64)
  /-- OPEN (R202): Cache command that opens a free sequence for its prompt positions with a headroom page. -/
  | cacheOpen (p : Fin 64)
  /-- PAUSE (R206): Cache command that closes open blocks and pauses a sequence with a time to live. -/
  | cachePause (p : Fin 64)
  /-- RESUME (R206): Cache command that returns a paused, banking or banked sequence toward active. -/
  | cacheResume (p : Fin 64)
  /-- FREE (R206): Cache command that frees a sequence and all its pages. -/
  | cacheFree (p : Fin 64)
  /-- RECEIVE (R210): Cache command that reserves pages for an arriving shipped sequence. -/
  | cacheReceive (p : Fin 64)
  /-- SHIP (R210): Cache command that closes a sequence's open blocks and sends its pages to another device. -/
  | cacheShip (p : Fin 64)
  /-- BANKING_COPY_DONE (R207): A banking copy completes; the sequence is banked and its pool pages are freed. -/
  | bankingCopyDone (p : Fin 64) (q : Fin 16384)
  /-- RESTORING_COPY_DONE (R206): A restoring copy completes and the sequence becomes active or awaiting page. -/
  | restoringCopyDone (p : Fin 64) (q : Fin 16384)
  /-- SEQUENCE_EXPIRY (R208): The LTC reaches a paused, banking or banked sequence's expiry and it is freed with expired = 1. -/
  | sequenceExpiry (p : Fin 64) (q : Fin 16384)
  /-- SHIP_TILE_ARRIVAL (R210): The destination receives a shipped tile or record, checks its CRC and asks again up to 4 times. -/
  | shipTileArrival (p : Fin 64) (q : Fin 16384) (item : ShipItem) (crcOk : Bool)
  /-- ARRIVAL_COMPLETE (R210): Every tile and the record have landed; the destination sets the sequence active and acknowledges. -/
  | arrivalComplete (p : Fin 64) (q : Fin 16384)
  /-- SHIP_ACKNOWLEDGEMENT (R210): The source receives the acknowledgement and frees its pages with shipped = 1. -/
  | shipAcknowledgement (p : Fin 64) (q : Fin 16384)
  /-- SHIP_ABORT_RECEIVE (R212): An abort or ship failure arrives from the peer and the arrival or ship fails. -/
  | shipAbortReceive (p : Fin 64) (q : Fin 16384)
  /-- ARRIVAL_TIMEOUT (R212): An arrival receives nothing for ship_to µs and fails. -/
  | arrivalTimeout (p : Fin 64) (q : Fin 16384)
  /-- SHIP_ACK_TIMEOUT (R212): A ship has no acknowledgement after twice ship_to and the source treats it as failed. -/
  | shipAckTimeout (p : Fin 64) (q : Fin 16384)
  /-- CACHE_CTL_WRITE (R214): A write of CACHE_CTL enables the cache manager after its checks, or is ignored while sequences are not free. -/
  | cacheCtlWrite (a : Access) (p : Fin 64) (v : Word)
  /-- CACHE_STAT_READ (R213): A read of CACHE_STAT returns and clears the cache manager's event counts. -/
  | cacheStatRead (a : Access) (p : Fin 64)
  /-- ADMIT (R216): Request command that moves a free record to running and pins the newest committed epoch. -/
  | admitReq (a : Access) (p : Fin 64) (v : Word)
  /-- CANCEL (R216): Request command that writes a running request's state word to cancelled. -/
  | cancel (a : Access) (p : Fin 64) (v : Word)
  /-- RELEASE (R216): Request command that moves a finished, cancelled or failed request to free. -/
  | release (a : Access) (p : Fin 64) (v : Word)
  /-- DRAFT_ON (R216): Request command that re-enables drafting for a request. -/
  | draftOn (a : Access) (p : Fin 64) (v : Word)
  /-- GEYSER_DESCRIPTOR_START (R218): The Geyser takes the next descriptor from its queue, or refuses it whole on a malformed field. -/
  | geyserDescriptorStart (die : Fin 8)
  /-- GEYSER_ROW_COMMIT (R227): The Geyser finishes a row, verifies drafts, draws tokens and commits them against the request's state word. -/
  | geyserRowCommit (die : Fin 8)
  /-- GEYSER_DESCRIPTOR_DONE (R220): After the last completion record is visible the Geyser signals the descriptor's ember. -/
  | geyserDescriptorDone (die : Fin 8)
  /-- GEYSER_POISON_RESUME (R230): A logits row held on a poisoned line resumes once the line is rewritten or re-fetched. -/
  | geyserPoisonResume (die : Fin 8)
  /-- DAMP_STEP_WRITE (R231): A write of k to DAMP_STEP starts step k of the partition. -/
  | dampStepWrite (a : Access) (p : Fin 64) (v : Word)
  /-- DAMPER_STEP_END (R232): The Geysers commit nlast last-marked descriptors of step k; the Damper updates debt and level and publishes the next budget. -/
  | damperStepEnd (p : Fin 64) (k : Word)
  /-- DAMP_CTL_WRITE (R234): A write of DAMP_CTL sets the Damper policy, its mode and level taking effect at the next step end. -/
  | dampCtlWrite (a : Access) (p : Fin 64) (v : Word)
  /-- DAMP_STAT_READ (R233): A read of DAMP_STAT returns and clears the Damper's counts. -/
  | dampStatRead (a : Access) (p : Fin 64)
  /-- LRN_GEN_WRITE (R249): A write of LRN_GENc sets the generator mode, refusing free-running for group members or recorded contexts. -/
  | lrnGenWrite (a : Access) (p : Fin 64) (c : Fin 16) (v : Word)
  /-- LRN_PSTEP_WRITE (R255): A write to LRN_PSTEP closes the open phase step, moves its counts to LRN_PLAST and opens step k. -/
  | lrnPstepWrite (a : Access) (p : Fin 64) (v : Word)
  /-- LRN_PTRACE_WRITE (R256): A write of LRN_PTRACE.en claims or releases trace memory for the phase trace. -/
  | lrnPtraceWrite (a : Access) (p : Fin 64) (v : Word)
  /-- ASH_RECORD_START (R257): A write of LRN_ASH_CTL.rec = 1 claims trace memory and writes the begin record, or is refused. -/
  | ashRecordStart (a : Access) (p : Fin 64) (v : Word)
  /-- ASH_RECORD_STOP (R259): A write of rec = 0 ends recording, writes the end record and releases trace memory. -/
  | ashRecordStop (a : Access) (p : Fin 64) (v : Word)
  /-- LRN_ASH_APP_WRITE (R260): A write of LRN_ASH_APP appends a prepared runtime record to the ash log. -/
  | lrnAshAppWrite (a : Access) (p : Fin 64) (v : Word)
  /-- STOVE_WINDOW_WRITE (R265): A write into an enabled accumulate window adds each FP32 word into its gradient buffer element. -/
  | stoveWindowWrite (p : Fin 64) (win : Fin 16) (offset : Nat) (data : List Byte) (poisoned : Bool)
  /-- STV_WIN_WRITE (R268): A write of STV_WINw enables or disables a window; a write of its tag latches rounding mode and seed. -/
  | stvWinWrite (a : Access) (p : Fin 64) (win : Fin 16) (word : Fin 4) (v : Word)
  /-- UPDATE (R270): Stove command that applies the update recurrence to every owned entry and mirrors it. -/
  | update (a : Access) (p : Fin 64) (v : Word)
  /-- SCAN (R281): Stove command that scans owned gradients and writes sum_g2 and nonfin. -/
  | scan (a : Access) (p : Fin 64) (v : Word)
  /-- ZERO (R268): Stove command that writes +0 to every element of a window's buffer. -/
  | zero (a : Access) (p : Fin 64) (v : Word)
  /-- MIRROR (R279): Stove command that resends owned entries to the buddy. -/
  | mirror (a : Access) (p : Fin 64) (v : Word)
  /-- PULL (R280): Stove command that copies the mirror of owned entries back from the buddy. -/
  | pull (a : Access) (p : Fin 64) (v : Word) (slabs : List MirrorEntry)
  /-- STOVE_COMMAND_DONE (R281): A Stove command's results are visible; result is written, busy clears and the ember is signalled. -/
  | stoveCommandDone (p : Fin 64)
  /-- MIRROR_RECEIVE (R279): A buddy receives mirror slabs, clearing complete on the first and setting held and complete on the last before acknowledging. -/
  | mirrorReceive (p : Fin 64) (m : MirrorEntry)
  /-- MIRROR_ACK_RECEIVE (R279): The owner receives the buddy's acknowledgement of an entry's mirror. -/
  | mirrorAckReceive (p : Fin 64) (entry : Nat) (accepted : Bool)
  /-- MIRROR_TIMEOUT (R279): A mirror is not acknowledged within STV_CTL.mto µs and the command fails with 0x06. -/
  | mirrorTimeout (p : Fin 64)
  /-- STOVE_POISON_RESUME (R282): A Stove die waiting on a poisoned slab resumes after re-fetch, or ends the command with 0x05. -/
  | stovePoisonResume (p : Fin 64)
  /-- OPEN_SLOT (R286): Weights command that moves a free epoch slot to loading with its region list. -/
  | openSlot (a : Access) (p : Fin 64) (v : Word)
  /-- VERIFY (R295): Weights command that checks a manifest's form, signatures, partition and regions and latches it. -/
  | verify (a : Access) (p : Fin 64) (v : Word)
  /-- FETCH (R296): Weights command that fetches a verified slot's chunks from storage. -/
  | fetch (a : Access) (p : Fin 64) (v : Word)
  /-- ABORT (R298): Weights command that ends a fetch with 0x0A. -/
  | abort (a : Access) (p : Fin 64) (v : Word)
  /-- COMMIT_OPEN (R301): Weights command at the master that broadcasts open(e + 1) to the group. -/
  | commitOpen (a : Access) (p : Fin 64) (v : Word)
  /-- READY (R301): Weights command that arrives at the commit barrier with a yes vote. -/
  | ready (a : Access) (p : Fin 64) (v : Word)
  /-- FAIL (R301): Weights command that arrives at the commit barrier with a no vote. -/
  | fail (a : Access) (p : Fin 64) (v : Word)
  /-- FREEZE (R302): Weights command that makes a member discard barrier messages of the commit. -/
  | freeze (a : Access) (p : Fin 64) (v : Word)
  /-- FORCE_COMMIT (R302): Weights command that commits a voted slot when another member is already current with e + 1. -/
  | forceCommit (a : Access) (p : Fin 64) (v : Word)
  /-- ABANDON (R302): Weights command that returns a voted slot to loading. -/
  | abandon (a : Access) (p : Fin 64) (v : Word)
  /-- RELEASE_SLOT (R309): Weights command that releases a loading slot. -/
  | releaseSlot (a : Access) (p : Fin 64) (v : Word)
  /-- CHUNK_ATTEMPT_END (R297): A fetch attempt ends with the digest checked; on failure another source is tried or the load fails. -/
  | chunkAttemptEnd (p : Fin 64) (chunk : Nat) (r : ChunkResult)
  /-- CHUNK_ATTEMPT_TIMEOUT (R297): A fetch attempt runs for WGT_CTL.ato ms and fails. -/
  | chunkAttemptTimeout (p : Fin 64) (chunk : ChunkPart)
  /-- LOAD_FAILED (R298): After a chunk fails its last attempt and in-flight attempts end, the slot's failed bit is set and 0x07 reported. -/
  | loadFailed (p : Fin 64)
  /-- COMMIT_OPEN_RECEIVE (R301): A member receives open(e + 1), checks its epoch and starts its commit timeout. -/
  | commitOpenReceive (p : Fin 64) (slot : Fin 4) (group : Fin 1024) (epoch : BitVec 32)
  /-- COMMIT_TIMEOUT (R301): WGT_CTL.cto expires and the member arrives at the barrier with no. -/
  | commitTimeout (p : Fin 64)
  /-- COMMIT_BARRIER_COMPLETE (R301): A member's vote barrier completes and it commits on an all-yes vote or returns its slot to loading. -/
  | commitBarrierComplete (p : Fin 64) (allYes : Bool)
  /-- FLUE_DESCRIPTOR_START (R306): A Flue engine takes the next descriptor and checks it whole. -/
  | flueDescriptorStart (die : Fin 8)
  /-- FLUE_DESCRIPTOR_DONE (R306): A Flue descriptor finishes, writes its status word and signals its ember. -/
  | flueDescriptorDone (die : Fin 8)
  /-- FLUE_POISON_RESUME (R306): A Flue engine stopped on a poisoned source resumes after re-fetch, or ends with 0x04. -/
  | fluePoisonResume (die : Fin 8)
  /-- FABRIC_PORT_TRAINED (R310): A fabric port completes link training at x4, x2 or x1. -/
  | fabricPortTrained (n : Fin 24) (lanes : Fin 3)
  /-- HELLO_SEND (R312): Every 2 µs a port that is not asleep sends a hello on VC0. -/
  | helloSend (n : Fin 24)
  /-- HELLO_RECEIVE (R312): A hello arrives; the port goes up, negotiates the version, fills peer fields or enters conflict. -/
  | helloReceive (n : Fin 24) (h : Hello)
  /-- FABRIC_PORT_LOSS (R314): A port that is not asleep receives nothing for 10 µs, goes down and retrains. -/
  | fabricPortLoss (n : Fin 24)
  /-- PORT_SLEEP_REQUEST (R311): A port idle for 100 µs asks for sleep, and enters asleep when both ends ask. -/
  | portSleepRequest (n : Fin 24)
  /-- PORT_WAKE (R311): Queued traffic wakes an asleep port within 40 µs. -/
  | portWake (n : Fin 24)
  /-- PORT_HALF_IDLE (R311): In half power, lanes 2 and 3 go idle after the queue held under 16 KiB for 10 µs, and return when it exceeds 16 KiB. -/
  | portHalfIdle (n : Fin 24) (idle : Bool)
  /-- FAB_ID_WRITE (R315): A write of FAB_ID sets the device ID and domain, ignored while any group is not free. -/
  | fabIdWrite (a : Access) (v : Word)
  /-- STACK_JOIN_RECEIVE (R315): A master receives a stack join and records or refuses the member. -/
  | stackJoinReceive (src : Fin 16384) (index : Fin 16)
  /-- FAB_FLOOD_WRITE (R316): A write of FAB_FLOOD at a master sends a stack or system reset flood and enters warm reset. -/
  | fabFloodWrite (a : Access) (v : Word)
  /-- FLOOD_RECEIVE (R316): A device receives a flood from an accepted source, forwards it as its scope requires and enters warm reset. -/
  | floodReceive (src : Fin 16384) (system : Bool)
  /-- FAB_RT_DATA_ACCESS (R317): An access to FAB_RT_DATA reads or writes a routing entry and advances FAB_RT_ADDR.index. -/
  | fabRtDataAccess (a : Access) (write : Option Word)
  /-- PACKET_RECEIVE (R320): A packet arrives, is CRC-checked, forwarded or accepted in flow order, and acknowledged. -/
  | packetReceive (n : Fin 24) (pkt : Packet) (crc : BitVec 32)
  /-- ACK_RECEIVE (R320): A cumulative acknowledgement frees the flow's acknowledged packets. -/
  | ackReceive (src : Fin 16384) (vc : Fin 8) (fseq : BitVec 32)
  /-- FLOW_RESEND_TIMEOUT (R320): A flow has no acknowledgement for 50 µs and is resent from its oldest unacknowledged packet. -/
  | flowResendTimeout (dst : Fin 16384) (vc : Fin 8)
  /-- CREATE (R324): Group command that checks and creates a collective group in state joining. -/
  | create (a : Access) (v : Word)
  /-- DESTROY (R328): Group command that ends the group's collectives, returns its buffers and sets it free. -/
  | destroy (a : Access) (v : Word)
  /-- GROUP_JOIN_DONE (R325): The join barrier completes and the group becomes ready or enters error on a CRC difference. -/
  | groupJoinDone (g : Fin 1024) (crcsEqual anyV1 : Bool)
  /-- GROUP_JOIN_TIMEOUT (R325): A join not complete within FAB_CTL.jto gives 0x08 and state error. -/
  | groupJoinTimeout (g : Fin 1024)
  /-- FAB_BLW_SUB_WRITE (R330): A write of a descriptor address to FAB_BLWe_SUB queues it, or sets full_drop. -/
  | fabBlwSubWrite (a : Access) (e : Fin 4) (v : Word)
  /-- BELLOWS_DESCRIPTOR_START (R332): A Bellows engine starts a descriptor of a group in acceptance order after checking it whole. -/
  | bellowsDescriptorStart (e : Fin 4)
  /-- SEGMENT_ARRIVAL (R337): A collective segment arrives; it claims a reduction slot or lands in a group buffer and is added and passed on. -/
  | segmentArrival (seg : Segment)
  /-- COLLECTIVE_COMPLETE (R333): A collective completes; destination bytes become visible, the status word is written and the ember signalled. -/
  | collectiveComplete (g : Fin 1024)
  /-- COLLECTIVE_ABORT_RECEIVE (R334): An abort from a member ends the group's collective with the sender's status. -/
  | collectiveAbortReceive (g : Fin 1024) (status : AbortStatus)
  /-- BELLOWS_POISON_RESUME (R334): An engine stopped on a poisoned source resumes after re-fetch, or ends the collective with 0x04. -/
  | bellowsPoisonResume (g : Fin 1024)
  /-- EMBER_OPERATION_RECEIVE (R394): A remote ember operation arrives and is applied or discarded at the target. -/
  | emberOperationReceive (p : Fin 64) (e : Fin 16384) (op : EmberOp)
  /-- FAB_STAT_READ (R338): A read of FAB_STAT or FAB_PERRn returns and clears the fabric counts. -/
  | fabStatRead (a : Access) (port : Option (Fin 24))
  /-- VEXIO_CAPABILITY_EXCHANGE (R344): After training a Vexio port exchanges capability messages and negotiates version and features. -/
  | vexioCapabilityExchange (n : Fin 2) (lowest highest : Nat) (feat : Word)
  /-- IDLE_FLIT_SEND (R349): A port that has sent nothing for 1 µs sends an idle flit. -/
  | idleFlitSend (n : Fin 2)
  /-- VEXIO_PORT_LOSS (R349): A Vexio port receives no flit for 10 µs, goes down and retrains, its traffic moving to the other port. -/
  | vexioPortLoss (n : Fin 2)
  /-- VEXIO_SLEEP (R345): A port idle for 100 µs asks the companion for sleep and enters asleep when it agrees. -/
  | vexioSleep (n : Fin 2) (agreed : Bool)
  /-- LINK_LOST (R350): VEX_CTL.lto expires with neither port up; modified lines are poisoned or discarded and held requests end. -/
  | linkLost
  /-- COMPANION_REQUEST (R342): A class C, M or X request from the companion reaches its device address. -/
  | companionRequest (secure : Bool) (r : CompanionReq)
  /-- VWQ_DB_WRITE (R353): A doorbell write of pi hands entries to the Zamet, or is ignored and sets overrun. -/
  | vwqDbWrite (a : Access) (p : Fin 64) (q : Fin 16) (v : Word)
  /-- VWQ_WQ_EN_WRITE (R354): A write of VWQ_WQq.en enables the queue and writes its credit word, or disables it and releases credits. -/
  | vwqWqEnWrite (a : Access) (p : Fin 64) (q : Fin 16) (v : Word)
  /-- WORK_ENTRY_PASS (R353): A fetched work packet passes to its task queue when there is room, and ci advances. -/
  | workEntryPass (p : Fin 64) (q : Fin 16)
  /-- VWQ_NPOP_READ (R356): A read of VWQ_NPOP removes the oldest notice of the highest class, or is held. -/
  | vwqNpopRead (a : Access) (p : Fin 64)
  /-- NOTICE_POP_HOLD_EXPIRY (R356): A held pop waits hold µs without a notice and returns empty. -/
  | noticePopHoldExpiry (p : Fin 64)
  /-- VEX_VEC_WRITE (R357): A write of a vector's mask; unmasking a pending vector sends it. -/
  | vexVecWrite (a : Access) (i : Fin 512) (v : Word)
  /-- VEX_STS_READ (R350): A read of VEX_STS returns and clears the loss counts. -/
  | vexStsRead (a : Access)
  /-- DMA_IDX_WRITE (R363): A tail write to DMA_CHc_IDX starts the channel, or is ignored and sets overrun. -/
  | dmaIdxWrite (a : Access) (c : Fin 192) (v : Word)
  /-- DMA_CTL_EN_WRITE (R377): A write of DMA_CHc_CTL.en enables the channel with indices at 0, or aborts and disables it. -/
  | dmaCtlEnWrite (a : Access) (c : Fin 192) (v : Word)
  /-- DMA_ABORT (R370): A write of abort stops the channel after the burst in progress and writes back status 0x06. -/
  | dmaAbort (a : Access) (c : Fin 192) (v : Word)
  /-- DMA_RESUME (R364): A write of resume restarts a stalled or stopped channel at head. -/
  | dmaResume (a : Access) (c : Fin 192) (v : Word)
  /-- DMA_DESCRIPTOR_START (R365): A channel reaches its next descriptor, checks it whole, or stalls on own at 0. -/
  | dmaDescriptorStart (c : Fin 192)
  /-- DMA_BURST_DONE (R368): A burst completes, or is retried up to 3 times on a recoverable error. -/
  | dmaBurstDone (c : Fin 192) (error : Bool)
  /-- DMA_DESCRIPTOR_COMPLETE (R367): A descriptor completes: destination visible, write-back, own cleared, head advanced, ember and interrupt. -/
  | dmaDescriptorComplete (c : Fin 192)
  /-- DMA_CRC_FEED_WRITE (R373): A write to DMA_CRCc_FEED feeds bytes into the check-value unit, or sets badfeed. -/
  | dmaCrcFeedWrite (a : Access) (c : Fin 192) (nbytes : Nat) (v : Word)
  /-- DMA_CRC_VAL_WRITE (R372): A write to DMA_CRCc_VAL sets the running value between two feeds. -/
  | dmaCrcValWrite (a : Access) (c : Fin 192) (v : Word)
  /-- DMA_CRC_INIT (R372): A write of init loads VAL with the initial value of the selected polynomial. -/
  | dmaCrcInit (a : Access) (c : Fin 192) (v : Word)
  /-- PART_CTL_EN_WRITE (R378): A write of PART_CTL.en = 1 runs the enable checks and reserves save areas. -/
  | partCtlEnWrite (a : Access) (p : Fin 64) (v : Word)
  /-- PART_CTL_DISABLE (R380): A write of PART_CTL.en = 0 disables the partition and returns its save-area frames. -/
  | partCtlDisable (a : Access) (p : Fin 64) (v : Word)
  /-- PART_CTX_EN_WRITE (R381): A write of PART_CTXc.en creates the context idle, or disables it in state idle or held. -/
  | partCtxEnWrite (a : Access) (p : Fin 64) (c : Fin 16) (v : Word)
  /-- PART_CTX_PRIO_WRITE (R385): A write of a context's prio is a scheduling choice point. -/
  | partCtxPrioWrite (a : Access) (p : Fin 64) (c : Fin 16) (v : Word)
  /-- PART_TPOST_WRITE (R464): A write of PART_TPOST posts a descriptor into a task queue, or sets tfull. -/
  | partTpostWrite (a : Access) (p : Fin 64) (v : Word)
  /-- TPOST_DESCRIPTOR_READ (R464): The posted descriptor is read and queued, or the post is refused and sets tbad. -/
  | tpostDescriptorRead (p : Fin 64)
  /-- SLICE_EXPIRY (R385): The current context's time slice expires, a scheduling choice point. -/
  | sliceExpiry (p : Fin 64)
  /-- CONTEXT_SWITCH_START (R385): The scheduler chooses another context and the outgoing cores are brought to rest. -/
  | contextSwitchStart (p : Fin 64)
  /-- CORE_AT_REST (R387): A core comes to rest at its tile end or instruction boundary under its task's pre-emption mode. -/
  | coreAtRest (k : Fin 512)
  /-- SWITCH_SAVE_DONE (R388): The outgoing context's live state is written to its save areas. -/
  | switchSaveDone (p : Fin 64)
  /-- SWITCH_RESTORE_DONE (R389): The incoming context's state is restored, its cores resume and PART_SW records the switch. -/
  | switchRestoreDone (p : Fin 64) (badCores : List Nat)
  /-- PART_SW_READ (R389): A read of PART_SW returns and clears the switch count. -/
  | partSwRead (a : Access) (p : Fin 64)
  /-- PART_STAT_READ (R397): A read of PART_STAT returns and clears timeouts, kindmis and faults. -/
  | partStatRead (a : Access) (p : Fin 64)
  /-- EMBER_SIGNAL (R392): A committed signal is applied to an ember, or forwarded if remote, or discarded if it fits no kind. -/
  | emberSignal (p : Fin 64) (e : Fin 16384) (op : EmberOp)
  /-- EMB_CFG_WRITE (R391): A write of EMB_CFGe configures an ember and sets its value to 0. -/
  | embCfgWrite (a : Access) (e : Fin 16384) (v : Word)
  /-- BOOT_ROM_START (R408): After a power-on, cold or warm reset the boot ROM verifies FEN, derives DeviceID keys and runs the accepted FEN. -/
  | bootRomStart (fenA fenB : ImageCheck)
  /-- IMAGE_VERIFY (R407): FEN verifies MGT and DEV images from the copies, falling back to the other copy or entering recovery. -/
  | imageVerify (which : ImageKind) (first second : ImageCheck)
  /-- FEN_KEY_LOCK (R403): A write of lock = 1 to a key slot makes Fender check the key and set valid. -/
  | fenKeyLock (a : Access) (slot : Fin 32) (v : Word)
  /-- FEN_ARB_WRITE (R411): A write of FEN_ARB.target starts burning anti-rollback bits up to the target. -/
  | fenArbWrite (a : Access) (v : Word)
  /-- ARB_BIT_BURNED (R411): One anti-rollback bit finishes burning, within 2 ms. -/
  | arbBitBurned
  /-- DEBUG_UNLOCK_TOKEN (R410): Fender verifies a debug unlock token, taking effect at the next warm reset. -/
  | debugUnlockToken (tok : UnlockToken)
  /-- SPDM_REQUEST (R414): Fender answers one SPDM request over I3C or the ATT mailbox. -/
  | spdmRequest (i3c : Bool) (msg : List Byte)
  /-- RECOVERY_FIRMWARE_UPDATE (R408): In recovery Fender accepts PLDM firmware update that writes copy B. -/
  | recoveryFirmwareUpdate (flashOffset : Nat) (data : List Byte)
  /-- SERVICE_LEVEL_RISE (R417): Bring-up reaches the next service level, or records a failure class in MOD_SL.fail. -/
  | serviceLevelRise (r : BringUp)
  /-- MOD_SL_TARGET_WRITE (R419): A write of a higher MOD_SL.target resumes bring-up. -/
  | modSlTargetWrite (a : Access) (v : Word)
  /-- CCLK_CHANGE (R420): At the rise to SL2, once the SL1 die is at rest, CCLK changes to 940 MHz and the cores resume. -/
  | cclkChange
  /-- CORRECTED_ERROR (R423): A corrected error is counted against its unit, running a self-test at threshold. -/
  | correctedError (e : HwError)
  /-- DEFERRED_ERROR (R421): An uncorrectable tier-range line error poisons the line. -/
  | deferredError (e : HwError)
  /-- CONTAINED_ERROR (R424): A contained error requeues or contains the affected task and takes the unit out of service. -/
  | containedError (e : HwError)
  /-- FATAL_ERROR (R426): A fatal error stops every core, engine and link, lowers ALERT_N and writes the record. -/
  | fatalError (e : HwError)
  /-- SELF_TEST_DONE (R428): A targeted self-test ends; the unit returns to service or is judged lasting and retired. -/
  | selfTestDone (unit : UnitKind) (place : Nat) (r : TestResult)
  /-- FRAME_RETIRE_DONE (R434): A retiring granule's migration completes and the frame leaves service. -/
  | frameRetireDone (g : Fin 49152)
  /-- ERR_STAT_READ (R438): A read of ERR_STAT returns and clears the error counts. -/
  | errStatRead (a : Access)
  /-- BLK_CTL_RESET (R448): A write of BLK_CTL.reset starts a block reset if the block is at rest, else sets rst_refused. -/
  | blkCtlReset (a : Access) (page : Nat) (v : Word)
  /-- BLOCK_RESET_DONE (R448): A block reset completes within 100 µs and the page's registers take their reset values. -/
  | blockResetDone (page : Nat)
  /-- INT_SET_WRITE (R449): A write to INT_SET sets INT_STS bits as their causes would, sending interrupts for enabled bits. -/
  | intSetWrite (a : Access) (page : Nat) (v : Word)
  /-- INT_EN_WRITE (R449): A write to INT_EN that enables a bit already set sends one interrupt. -/
  | intEnWrite (a : Access) (page : Nat) (v : Word)
  /-- SOFTWARE_CLAIM (R454): A claim register write with op 01b claims the resource for software, or is refused. -/
  | softwareClaim (a : Access) (page off : Nat) (v : Word)
  /-- SOFTWARE_RELEASE (R455): A claim register write with op 10b releases a software claim with matching rid, or is refused. -/
  | softwareRelease (a : Access) (page off : Nat) (v : Word)
  /-- WORLD_WRITE (R452): A Secure write of WORLD sets a page's world, propagating from a PART page to its partition's pages. -/
  | worldWrite (a : Access) (page : Nat) (v : Word)
  /-- RESERVED_REGISTER_ACCESS (R443): An access to a reserved page or offset reads 0, ignores writes and logs an error. -/
  | reservedRegisterAccess (a : Access) (page off : Nat)
  /-- BAD_WIDTH_ACCESS (R445): An access of a width or alignment not permitted changes nothing and is logged. -/
  | badWidthAccess (a : Access) (page off : Nat) (nbytes : Nat) (isWrite : Bool)
  /-- MOD_TCLM_ARM_WRITE (R457): A write of arm = 1 arms an LTC comparator, firing at once if the LTC is already past value. -/
  | modTclmArmWrite (a : Access) (n : Fin 4) (v : Word)
  /-- COMPARATOR_FIRE (R457): An armed comparator finds the LTC at or above value, clears arm, sets fired and raises its interrupt. -/
  | comparatorFire (n : Fin 4)
  /-- ETH_PORT_EN_WRITE (R458): A write of ETH_PORT.en claims the check-value unit and trains, or fails attempts and releases it. -/
  | ethPortEnWrite (a : Access) (n : Fin 2) (v : Word)
  /-- ETH_PORT_READ (R376): A read of ETH_PORT returns and clears icrc_bad. -/
  | ethPortRead (a : Access) (n : Fin 2)
  /-- ATT_REQ_GO (R459): A write of ATT_REQ.go with len hands a request packet to Fender. -/
  | attReqGo (a : Access) (v : Word)
  /-- ATT_RESPONSE_READY (R459): Fender writes a response packet, sets ready and raises INT_STS bit 1. -/
  | attResponseReady (packet : List Byte)
  /-- ATT_RSP_READY_CLEAR (R459): A clear of ATT_RSP.ready frees the response buffer. -/
  | attRspReadyClear (a : Access) (v : Word)
  /-- REGISTER_WRITE (R8): A write to a register without behaviour of its own stores its RW, W1C and W1S fields as the access codes give. -/
  | registerWrite (a : Access) (page off : Nat) (v : Word)
  /-- TRACE_RECORD_WRITTEN (R256): A record waiting in trace memory is written out to its ring or log; after the last one following en = 0, or after the end record, the trace-memory claim is released and LRN_ASH_STS.busy clears. -/
  | traceRecordWritten (p : Fin 64)
  /-- COMPANION_RESPONSE (R347): A response from the companion arrives over the Vexio Link: the home's acknowledgement of a window write, read data for a window read, or a snoop response returning a device line. -/
  | companionResponse (r : CompanionResp)
  /-- VEXIO_PORT_WAKE (R345): Queued traffic at either end wakes an asleep Vexio port, which carries traffic again within 40 µs. -/
  | vexioPortWake (n : Fin 2)
  /-- ETHERNET_PORT_TRAINED (R458): An enabled Ethernet port completes link training and ETH_PORT.state becomes up. -/
  | ethernetPortTrained (n : Fin 2)
  /-- ETHERNET_LINK_DOWN (R291): An Ethernet port loses its link or reports a connection lost, and attempts through it fail at once. -/
  | ethernetLinkDown (n : Fin 2) (conn : Option (Fin 64 × Fin 512))
  /-- ETHERNET_PACKET_RECEIVE (R376): A RoCEv2 packet arrives on an Ethernet port; its ICRC is checked and stripped, and a bad packet is dropped and counted in icrc_bad. -/
  | ethernetPacketReceive (n : Fin 2) (frame : List Byte)
deriving DecidableEq, Repr

end Sys2Proof
end

