-- ==== Sys2Proof/Machine/Bits.lean ====
section
/-! DEFINITION. Bit-field, sign-extension and byte-order helpers (R4, R5, R10). -/

namespace Sys2Proof

/-- The field `v[hi:lo]` of a number, as an unsigned integer (R4, `bits` of R10). -/
def bits (v hi lo : Nat) : Nat := (v >>> lo) % 2 ^ (hi + 1 - lo)

/-- A number with the field `[hi:lo]` replaced by `n`. -/
def putBits (v hi lo n : Nat) : Nat :=
  let w := 2 ^ (hi + 1 - lo)
  v - (bits v hi lo) * 2 ^ lo + (n % w) * 2 ^ lo

/-- Truth value as a bit. -/
def b2n (b : Bool) : Nat := if b then 1 else 0

/-- Sum that stops at a ceiling (every saturating count of the spec). -/
def satAdd (ceil a n : Nat) : Nat := if a + n ≤ ceil then a + n else ceil

/-- A value of `w` bits read as two's complement. -/
def signed (w v : Nat) : Int :=
  if v % 2 ^ w < 2 ^ (w - 1) then ((v % 2 ^ w : Nat) : Int) else ((v % 2 ^ w : Nat) : Int) - ((2 ^ w : Nat) : Int)

/-- The low `w` bits of an integer, as an unsigned number. -/
def unsigned (w : Nat) (i : Int) : Nat := (i % ((2 ^ w : Nat) : Int)).toNat

/-- Bytes in ascending address order as one little-endian number (R5). -/
def leNat : List Byte → Nat
  | [] => 0
  | b :: bs => b.toNat + 256 * leNat bs

/-- A number as `n` bytes, lowest first (R5). -/
def natLe : Nat → Nat → List Byte
  | 0, _ => []
  | n + 1, v => BitVec.ofNat 8 v :: natLe n (v / 256)

end Sys2Proof
end

