-- ==== Sys2Proof/Machine/Numerics.lean ====
section
/-! DEFINITION. Number formats, exact values, rounding and conversion (R83 to R97), the correctly rounded
functions of the vector unit (R69), the block sum and the running sum (R99 to R102), the scale recipes (R105 to
R107), the remainder tensor (R108) and the counter generator (R109, R110). -/

namespace Sys2Proof.Machine

/-! ### Flags -/

/-- The four sticky numeric flags of R97. -/
structure NFlags where
  ovf : Bool := false
  inv : Bool := false
  nan : Bool := false
  isat : Bool := false
deriving DecidableEq, Repr

/-- Flags raised by either of two pieces of work. -/
def NFlags.or (a b : NFlags) : NFlags :=
  ⟨a.ovf || b.ovf, a.inv || b.inv, a.nan || b.nan, a.isat || b.isat⟩

def NFlags.none : NFlags := {}
def NFlags.ofOvf (b : Bool) : NFlags := { ovf := b }
def NFlags.ofInv (b : Bool) : NFlags := { inv := b }
def NFlags.ofNan (b : Bool) : NFlags := { nan := b }
def NFlags.ofIsat (b : Bool) : NFlags := { isat := b }

/-- The flags as the four bits of CORE_NFLAG and of PART_CTXc.flags (R98): ovf 0, inv 1, nan 2, isat 3. -/
def NFlags.toNat (f : NFlags) : Nat := b2n f.ovf + 2 * b2n f.inv + 4 * b2n f.nan + 8 * b2n f.isat

/-- The flags read back from their four bits. -/
def NFlags.ofNat (n : Nat) : NFlags :=
  ⟨bits n 0 0 == 1, bits n 1 1 == 1, bits n 2 2 == 1, bits n 3 3 == 1⟩

/-! ### Exact values -/

/-- An exact value: NaN, an infinity, or a signed magnitude `n / d * 2 ^ e` (`d` is not 0). A zero has `n = 0` and keeps
its sign (R85). -/
inductive FVal where
  | nan
  | inf (neg : Bool)
  | num (neg : Bool) (n d : Nat) (e : Int)
deriving DecidableEq, Repr

def FVal.zero (neg : Bool) : FVal := .num neg 0 1 0
def FVal.ofNat (n : Nat) : FVal := .num false n 1 0
def FVal.ofInt (i : Int) : FVal := .num (i < 0) i.natAbs 1 0

def FVal.isNan : FVal → Bool
  | .nan => true
  | _ => false

def FVal.isInf : FVal → Bool
  | .inf _ => true
  | _ => false

def FVal.isZero : FVal → Bool
  | .num _ n _ _ => n == 0
  | _ => false

def FVal.isNeg : FVal → Bool
  | .nan => false
  | .inf s => s
  | .num s _ _ _ => s

def FVal.neg : FVal → FVal
  | .nan => .nan
  | .inf s => .inf (!s)
  | .num s n d e => .num (!s) n d e

def FVal.abs : FVal → FVal
  | .nan => .nan
  | .inf _ => .inf false
  | .num _ n d e => .num false n d e

/-- Multiplication by a power of two, exact. -/
def FVal.scale (k : Int) : FVal → FVal
  | .num s n d e => .num s n d (e + k)
  | v => v

/-- `2 ^ k` for a non-negative integer exponent, 1 below it. -/
def pow2 (k : Int) : Nat := 2 ^ k.toNat

/-- Exact sum. Infinities of opposite sign give NaN. A zero sum is -0 only when both terms are -0 (IEEE 754-2019 under
round to nearest even, R69, R100). -/
def FVal.add : FVal → FVal → FVal
  | .nan, _ => .nan
  | _, .nan => .nan
  | .inf a, .inf b => if a == b then .inf a else .nan
  | .inf a, _ => .inf a
  | _, .inf b => .inf b
  | .num s₁ n₁ d₁ e₁, .num s₂ n₂ d₂ e₂ =>
    let e := min e₁ e₂
    let (a₁, a₂, d) :=
      if d₁ == d₂ then (n₁ * pow2 (e₁ - e), n₂ * pow2 (e₂ - e), d₁)
      else (n₁ * pow2 (e₁ - e) * d₂, n₂ * pow2 (e₂ - e) * d₁, d₁ * d₂)
    if s₁ == s₂ then .num s₁ (a₁ + a₂) d e
    else if a₁ == a₂ then .num false 0 1 0
    else if a₂ < a₁ then .num s₁ (a₁ - a₂) d e
    else .num s₂ (a₂ - a₁) d e

def FVal.sub (a b : FVal) : FVal := a.add b.neg

/-- Exact product. Zero times infinity gives NaN. -/
def FVal.mul : FVal → FVal → FVal
  | .nan, _ => .nan
  | _, .nan => .nan
  | .inf a, .inf b => .inf (a != b)
  | .inf a, .num s n _ _ => if n == 0 then .nan else .inf (a != s)
  | .num s n _ _, .inf b => if n == 0 then .nan else .inf (s != b)
  | .num s₁ n₁ d₁ e₁, .num s₂ n₂ d₂ e₂ => .num (s₁ != s₂) (n₁ * n₂) (d₁ * d₂) (e₁ + e₂)

/-- Exact quotient. 0/0 and infinity/infinity give NaN; a finite number over zero gives an infinity (IEEE 754-2019). -/
def FVal.div : FVal → FVal → FVal
  | .nan, _ => .nan
  | _, .nan => .nan
  | .inf _, .inf _ => .nan
  | .inf a, .num s _ _ _ => .inf (a != s)
  | .num s _ _ _, .inf b => FVal.zero (s != b)
  | .num s₁ n₁ d₁ e₁, .num s₂ n₂ d₂ e₂ =>
    if n₂ == 0 then (if n₁ == 0 then .nan else .inf (s₁ != s₂))
    else .num (s₁ != s₂) (n₁ * d₂) (d₁ * n₂) (e₁ - e₂)

/-- Signed comparison of two finite values: negative, zero or positive as `a - b`. -/
def FVal.cmpNum (a b : FVal) : Int :=
  match a.sub b with
  | .num s n _ _ => if n == 0 then 0 else if s then -1 else 1
  | .inf s => if s then -1 else 1
  | .nan => 0

/-- `a < b` on values that are not NaN; both zeros are equal (R85). -/
def FVal.lt : FVal → FVal → Bool
  | .nan, _ => false
  | _, .nan => false
  | .inf a, .inf b => a && !b
  | .inf a, .num .. => a
  | .num .., .inf b => !b
  | a, b => FVal.cmpNum a b < 0

/-- `a = b` as numbers. -/
def FVal.eq : FVal → FVal → Bool
  | .nan, _ => false
  | _, .nan => false
  | .inf a, .inf b => a == b
  | .inf _, .num .. => false
  | .num .., .inf _ => false
  | a, b => FVal.cmpNum a b == 0

def FVal.le (a b : FVal) : Bool := a.lt b || a.eq b

/-! ### Formats -/

/-- Formats of R118, by their four-bit code. -/
inductive Fmt where
  | fp32 | bf16 | fp16 | e4m3 | e5m2 | bs8 | bs6 | bs4 | int8 | int32 | kv8 | kv4
deriving DecidableEq, Repr

/-- The format that a code of R118 names; codes 1100b to 1111b are reserved. -/
def Fmt.ofCode : Nat → Option Fmt
  | 0 => some .fp32 | 1 => some .bf16 | 2 => some .fp16 | 3 => some .e4m3 | 4 => some .e5m2
  | 5 => some .bs8 | 6 => some .bs6 | 7 => some .bs4 | 8 => some .int8 | 9 => some .int32
  | 10 => some .kv8 | 11 => some .kv4 | _ => none

/-- Layout of one floating-point element format (R84): exponent bits, mantissa bits, bias, whether infinities exist,
and how NaN is encoded (0: none; 1: exponent all ones and mantissa not 0; 2: all ones only). -/
structure FLayout where
  e : Nat
  m : Nat
  bias : Nat
  hasInf : Bool
  nanKind : Nat
deriving DecidableEq, Repr

def layFp32 : FLayout := ⟨8, 23, 127, true, 1⟩
def layBf16 : FLayout := ⟨8, 7, 127, true, 1⟩
def layFp16 : FLayout := ⟨5, 10, 15, true, 1⟩
def layE4m3 : FLayout := ⟨4, 3, 7, false, 2⟩
def layE5m2 : FLayout := ⟨5, 2, 15, true, 1⟩
def layE3m2 : FLayout := ⟨3, 2, 3, false, 0⟩
def layE2m1 : FLayout := ⟨2, 1, 1, false, 0⟩

/-- The element layout of a format that holds floating-point elements; BS8, BS6 and BS4 hold E4M3, E3M2 and E2M1
elements (R83). Integer formats have none. -/
def Fmt.layout : Fmt → Option FLayout
  | .fp32 => some layFp32 | .bf16 => some layBf16 | .fp16 => some layFp16 | .e4m3 => some layE4m3
  | .e5m2 => some layE5m2 | .bs8 => some layE4m3 | .bs6 => some layE3m2 | .bs4 => some layE2m1
  | _ => none

/-- Bits of one stored element (R83). -/
def Fmt.elemBits : Fmt → Nat
  | .fp32 => 32 | .bf16 => 16 | .fp16 => 16 | .e4m3 => 8 | .e5m2 => 8 | .bs8 => 8 | .bs6 => 6 | .bs4 => 4
  | .int8 => 8 | .int32 => 32 | .kv8 => 8 | .kv4 => 4

/-- Block-scaled formats: one E8M0 byte per 32 elements (R88). -/
def Fmt.scaled : Fmt → Bool
  | .bs8 | .bs6 | .bs4 => true
  | _ => false

/-- Cache formats, which only cache blocks use (R118). -/
def Fmt.isKv : Fmt → Bool
  | .kv8 | .kv4 => true
  | _ => false

/-- Unscaled floating-point formats. -/
def Fmt.isFloat : Fmt → Bool
  | .fp32 | .bf16 | .fp16 | .e4m3 | .e5m2 => true
  | _ => false

/-- Bytes of a row record of `k` elements (R89): elements, then one scale byte per 32 elements. -/
def Fmt.recordBytes (f : Fmt) (k : Nat) : Nat := k * f.elemBits / 8 + (if f.scaled then k / 32 else 0)

/-- Largest finite magnitude as mantissa integer and exponent (R84). -/
def FLayout.maxFin (f : FLayout) : Nat × Int :=
  if f.hasInf then (2 ^ (f.m + 1) - 1, (2 ^ f.e - 2 : Int) - f.bias - f.m)
  else if f.nanKind == 2 then (2 ^ (f.m + 1) - 2, (2 ^ f.e - 1 : Int) - f.bias - f.m)
  else (2 ^ (f.m + 1) - 1, (2 ^ f.e - 1 : Int) - f.bias - f.m)

/-- `value(w, f)` of R85. -/
def FLayout.value (f : FLayout) (w : Nat) : FVal :=
  let s := bits w (f.e + f.m) (f.e + f.m) == 1
  let ef := bits w (f.e + f.m - 1) f.m
  let mf := bits w (f.m - 1) 0
  let top := 2 ^ f.e - 1
  if f.nanKind == 1 && ef == top && mf != 0 then .nan
  else if f.nanKind == 2 && ef == top && mf == 2 ^ f.m - 1 then .nan
  else if f.hasInf && ef == top then .inf s
  else if ef == 0 then .num s mf 1 (1 - (f.bias : Int) - f.m)
  else .num s (2 ^ f.m + mf) 1 ((ef : Int) - f.bias - f.m)

/-- Canonical NaN of a format (R86). The formats without NaN have none; the caller resolves it (R95). -/
def FLayout.canonNan (f : FLayout) : Nat :=
  if f.nanKind == 2 then 2 ^ (f.e + f.m) - 1
  else (2 ^ f.e - 1) * 2 ^ f.m + 2 ^ (f.m - 1)

/-- `floor(log2(n / d * 2 ^ e))` of a positive magnitude. -/
def floorLog2 (n d : Nat) (e : Int) : Int :=
  let k : Int := (Nat.log2 n : Int) - (Nat.log2 d : Int)
  let ge := if 0 ≤ k then d * pow2 k ≤ n else d ≤ n * pow2 (-k)
  (if ge then k else k - 1) + e

/-- Rounding mode: to nearest even, or stochastic with a 16-bit draw (R93). -/
inductive RMode where
  | rne
  | sr (rb : Nat)
deriving DecidableEq, Repr

/-- Count of whole spacings `2 ^ qe` in the magnitude `n / d * 2 ^ e`, rounded under the mode (R93). -/
def roundCount (n d : Nat) (e qe : Int) (mode : RMode) : Nat :=
  let sh := e - qe
  let N := if 0 ≤ sh then n * pow2 sh else n
  let D := if 0 ≤ sh then d else d * pow2 (-sh)
  let k := N / D
  let r := N % D
  let up := match mode with
    | .rne => D < 2 * r || (2 * r == D && k % 2 == 1)
    | .sr rb => 65536 ≤ r * 65536 / D + rb
  if up then k + 1 else k

/-- `round_to(x, f, mode, rb)` of R93 on a finite non-zero magnitude: the result's mantissa integer and exponent, and
whether it saturated. -/
def FLayout.roundMag (f : FLayout) (n d : Nat) (e : Int) (mode : RMode) : Nat × Int × Bool :=
  let ex := max (floorLog2 n d e) (1 - (f.bias : Int))
  let qe := ex - f.m
  let k := roundCount n d e qe mode
  let (mx, me) := f.maxFin
  let past := if me ≤ qe then mx < k * pow2 (qe - me) else mx * pow2 (me - qe) < k
  if past then (mx, me, true) else (k, qe, false)

/-- `round_to` as a value: saturates at the largest finite magnitude; a zero keeps the sign of `x` (R93). -/
def FLayout.roundTo (f : FLayout) (mode : RMode) : FVal → FVal × Bool
  | .num s n d e =>
    if n == 0 then (.num s 0 1 0, false)
    else let (k, q, sat) := f.roundMag n d e mode
         (.num s k 1 q, sat)
  | v => (v, false)

/-- Rounding as IEEE 754-2019 gives it under round to nearest even: an overflow becomes an infinity (R69). -/
def FLayout.roundIeee (f : FLayout) (v : FVal) : FVal × Bool :=
  match f.roundTo .rne v with
  | (y, true) => (.inf y.isNeg, true)
  | r => r

/-- `convert(v, f)` of R94. A NaN stays NaN; the caller of a format without NaN resolves it (R95). -/
def FLayout.convert (f : FLayout) (v : FVal) : FVal × NFlags :=
  match v with
  | .nan => (.nan, {})
  | .inf s =>
    if f.hasInf then (.inf s, {})
    else let (k, e) := f.maxFin
         (.num s k 1 e, .ofOvf true)
  | v => let (y, sat) := f.roundTo .rne v
         (y, .ofOvf sat)

/-- Encoding of a value that the format represents exactly; NaN gives the canonical encoding (R86). -/
def FLayout.encode (f : FLayout) : FVal → Nat
  | .nan => f.canonNan
  | .inf s => b2n s * 2 ^ (f.e + f.m) + (2 ^ f.e - 1) * 2 ^ f.m
  | .num s n d e =>
    let sg := b2n s * 2 ^ (f.e + f.m)
    if n == 0 then sg
    else
      let ex := max (floorLog2 n d e) (1 - (f.bias : Int))
      let k := roundCount n d e (ex - f.m) .rne
      if k < 2 ^ f.m then sg + k
      else sg + (ex + f.bias).toNat * 2 ^ f.m + (k - 2 ^ f.m)

/-- The FP32 value of a lane. -/
def f32 (w : Lane) : FVal := layFp32.value w.toNat
/-- The lane that encodes a value exact in FP32. -/
def toF32 (v : FVal) : Lane := BitVec.ofNat 32 (layFp32.encode v)
/-- `convert(v, fp32)` as a lane (R94). -/
def cvt32 (v : FVal) : Lane := toF32 (layFp32.convert v).1
/-- An FP32 constant from its 32-bit pattern. -/
def f32c (n : Nat) : FVal := layFp32.value n

/-! ### Vector-unit arithmetic (R69) -/

/-- The flags of a vector operation with the given operands and exact result (R97): nan for a NaN operand, inv for a
NaN made from operands of which none was NaN, ovf for an overflow to infinity from finite operands. -/
def opFlags (ops : List FVal) (exact rounded : FVal) : NFlags :=
  let anyNan := ops.any FVal.isNan
  let allFin := ops.all fun v => !v.isNan && !v.isInf
  { nan := anyNan
    inv := exact.isNan && !anyNan
    ovf := rounded.isInf && !exact.isInf && allFin }

/-- An FP32 operation of the vector unit: exact result rounded once, IEEE overflow (R69). -/
def vecRound (ops : List FVal) (exact : FVal) : Lane × NFlags :=
  let y := (layFp32.roundIeee exact).1
  (toF32 y, opFlags ops exact y)

def vAdd (a b : Lane) : Lane × NFlags := vecRound [f32 a, f32 b] ((f32 a).add (f32 b))
def vSub (a b : Lane) : Lane × NFlags := vecRound [f32 a, f32 b] ((f32 a).sub (f32 b))
def vMul (a b : Lane) : Lane × NFlags := vecRound [f32 a, f32 b] ((f32 a).mul (f32 b))
/-- Fused multiply-add with one rounding; `negp` negates the product (R137). -/
def vFma (negp : Bool) (a b c : Lane) : Lane × NFlags :=
  let p := (f32 a).mul (f32 b)
  vecRound [f32 a, f32 b, f32 c] ((if negp then p.neg else p).add (f32 c))

/-- Minimum or maximum of R136: −0 lies below +0, and a NaN operand gives the canonical NaN. -/
def vMinMax (isMax : Bool) (a b : Lane) : Lane × NFlags :=
  let x := f32 a
  let y := f32 b
  if x.isNan || y.isNan then (toF32 .nan, { nan := true })
  else
    let less := x.lt y || (x.isZero && y.isZero && x.isNeg && !y.isNeg)
    (if less == isMax then b else a, {})

/-! ### Correctly rounded functions (R69)

Each function below evaluates its argument in fixed point with 256 fraction bits, far more than any FP32 rounding case
of these functions needs, marks the result inexact in one further low bit, and rounds once. -/

/-- Fraction bits of the fixed-point evaluations. -/
def fxBits : Nat := 256

/-- Largest integer whose square is at most `n`, built bit by bit from bit `k - 1` down. -/
def isqrtAux (n : Nat) : Nat → Nat → Nat
  | 0, r => r
  | k + 1, r => let c := r + 2 ^ k
                isqrtAux n k (if c * c ≤ n then c else r)

def isqrt (n : Nat) : Nat := isqrtAux n (Nat.log2 n / 2 + 1) 0

/-- Sum of a fixed-point series: `term` is multiplied by `num` and shifted, then divided by `den i`. -/
def fxSeries (num : Int) (den : Nat → Int) : Nat → Nat → Int → Int → Int
  | 0, _, _, acc => acc
  | fuel + 1, i, term, acc =>
    let t := (term * num / (2 ^ fxBits : Nat)) / den i
    fxSeries num den fuel (i + 1) t (acc + t)

/-- `2 * atanh(z)` in fixed point for a fixed-point `z` of magnitude at most 1/3. -/
def fxAtanh2 (z : Int) : Int :=
  let z2 := z * z / (2 ^ fxBits : Nat)
  let rec go : Nat → Nat → Int → Int → Int
    | 0, _, _, acc => acc
    | fuel + 1, i, pw, acc =>
      let pw' := pw * z2 / (2 ^ fxBits : Nat)
      go fuel (i + 1) pw' (acc + pw' / (2 * i + 1 : Nat))
  2 * go 90 1 z z

/-- The natural logarithm of 2 in fixed point. -/
def fxLn2 : Int := fxAtanh2 ((2 ^ fxBits : Nat) / 3)

/-- The arctangent of `1 / q` in fixed point. -/
def fxAtanInv (q : Nat) : Int :=
  let rec go : Nat → Nat → Int → Int → Int
    | 0, _, _, acc => acc
    | fuel + 1, i, pw, acc =>
      let pw' := pw / ((q * q : Nat) : Int)
      go fuel (i + 1) pw' (if i % 2 == 1 then acc - pw' / (2 * i + 1 : Nat) else acc + pw' / (2 * i + 1 : Nat))
  let p0 := ((2 ^ fxBits : Nat) : Int) / (q : Int)
  go 120 1 p0 p0

/-- The circle number in fixed point, by Machin's formula. -/
def fxPi : Int := 4 * (4 * fxAtanInv 5 - fxAtanInv 239)

/-- A magnitude `x` as an integer multiple of `2 ^ -fxBits`, rounded down. -/
def fxOf (n d : Nat) (e : Int) : Nat :=
  let sh := e + fxBits
  if 0 ≤ sh then n * pow2 sh / d else n / (d * pow2 (-sh))

/-- An inexact positive result `t * 2 ^ e`, with a low bit below its last that marks it inexact. -/
def inexact (neg : Bool) (t : Nat) (e : Int) : FVal := .num neg (2 * t + 1) 1 (e - 1)

/-- The exponential (R69, R139). -/
def expVal : FVal → FVal
  | .nan => .nan
  | .inf true => .zero false
  | .inf false => .inf false
  | .num s n d e =>
    if n == 0 then .num false 1 1 0
    else if 200 < floorLog2 n d e || (7 ≤ floorLog2 n d e) then
      (if s then .num false 1 1 (-400) else .num false 1 1 400)
    else
      let X : Int := if s then -(fxOf n d e : Int) else (fxOf n d e : Int)
      let k := X / fxLn2
      let r := X - k * fxLn2
      let one : Int := (2 ^ fxBits : Nat)
      let E := fxSeries r (fun i => (i : Int)) 70 1 one one
      inexact false E.toNat (k - fxBits)

/-- The natural logarithm: −infinity at zero, NaN for a negative argument (R69, R97). -/
def logVal : FVal → FVal
  | .nan => .nan
  | .inf true => .nan
  | .inf false => .inf false
  | .num s n d e =>
    if n == 0 then .inf true
    else if s then .nan
    else if FVal.eq (.num s n d e) (.ofNat 1) then .zero false
    else
      let k := floorLog2 n d e
      let m : Int := fxOf n d (e - k)
      let one : Int := (2 ^ fxBits : Nat)
      let z := (m - one) * one / (m + one)
      let L := k * fxLn2 + fxAtanh2 z
      inexact (L < 0) L.natAbs (-(fxBits : Int))

/-- The reciprocal: infinite at zero, with the sign of the zero (IEEE 754-2019). -/
def recipVal (v : FVal) : FVal := (FVal.ofNat 1).div v

/-- A square root as a value with an inexact mark: `n / d * 2 ^ e` of an even exponent. -/
def sqrtVal : FVal → FVal
  | .nan => .nan
  | .inf true => .nan
  | .inf false => .inf false
  | .num s n d e =>
    if n == 0 then .num s 0 1 0
    else if s then .nan
    else
      let e2 := e - 2 * fxBits
      let par := e2 % 2
      let N := n * pow2 (2 * fxBits + par) / d
      let r := isqrt N
      if r * r == N && n * pow2 (2 * fxBits + par) % d == 0 then .num false r 1 ((e2 - par) / 2)
      else inexact false r ((e2 - par) / 2)

/-- The reciprocal square root: infinite at zero with the sign of the zero (IEEE 754-2019 rSqrt), +0 at infinity, NaN
below zero. -/
def rsqrtVal : FVal → FVal
  | .nan => .nan
  | .inf true => .nan
  | .inf false => .zero false
  | .num s n d e => if n == 0 then .inf s else if s then .nan else sqrtVal (.num false d n (-e))

/-- `hc(x) = (1 + cos(pi x)) / 2` of R275, on 0 to 1. -/
def hcVal : FVal → FVal
  | .num s n d e =>
    if n == 0 then .ofNat 1
    else if FVal.eq (.num s n d e) (.ofNat 1) then .zero false
    else if FVal.eq (.num s n d e) (.num false 1 1 (-1)) then .num false 1 1 (-1)
    else
      let one : Int := (2 ^ fxBits : Nat)
      let t := (fxOf n d e : Int) * fxPi / one
      let t2 := t * t / one
      let c := fxSeries (-t2) (fun i => ((2 * i - 1) * (2 * i) : Nat)) 60 1 one one
      inexact false ((one + c) / 2).toNat (-(fxBits : Int))
  | v => v

/-- Big-mantissa product used by `pownVal`: mantissas are kept to 512 bits. -/
def bigTrim (n : Nat) (e : Int) : Nat × Int :=
  let k := Nat.log2 n
  if 512 ≤ k then (n / 2 ^ (k - 511), e + (k - 511 : Nat)) else (n, e)

/-- Positive integer power by squaring, from the highest bit of the exponent down. -/
def bigPow (n : Nat) (e : Int) (c : Nat) : Nat → Nat × Int → Nat × Int
  | 0, acc => acc
  | i + 1, (a, ae) =>
    let (s, se) := bigTrim (a * a) (ae + ae)
    let acc' := if bits c i i == 1 then bigTrim (s * n) (se + e) else (s, se)
    bigPow n e c i acc'

/-- A magnitude with its factors of 2 moved into the exponent, as far as the fuel goes. -/
def stripTwos : Nat → Nat → Int → Nat × Int
  | 0, n, e => (n, e)
  | fuel + 1, n, e => if n % 2 == 0 then stripTwos fuel (n / 2) (e + 1) else (n, e)

/-- `pown(gamma, cyc)` of IEEE 754-2019 (R275): `gamma ^ 0` is 1 for every gamma. The power of the odd part is exact up to
510 bits; past that it is odd and too long to be representable or a tie, so the inexact mark rounds it right. -/
def pownVal (g : FVal) (cyc : Nat) : FVal :=
  if cyc == 0 then .ofNat 1
  else match g with
    | .nan => .nan
    | .inf s => .inf (s && cyc % 2 == 1)
    | .num s n d e =>
      let neg := s && cyc % 2 == 1
      if n == 0 then .zero neg
      else
        let (z, ze) := stripTwos 32 (if d == 1 then n else n / d) e
        let (m, me) := bigPow z ze cyc (Nat.log2 cyc + 1) (1, 0)
        if Nat.log2 m < 510 then .num neg m 1 me else inexact neg m me

/-- A correctly rounded FP32 function of one lane, with its flags (R69, R97). -/
def vFn (f : FVal → FVal) (a : Lane) : Lane × NFlags :=
  let x := f32 a
  let y := f x
  let r := (layFp32.roundIeee y).1
  (toF32 r, { nan := x.isNan, inv := y.isNan && !x.isNan,
              ovf := r.isInf && !y.isInf && !x.isInf })

/-- Sum over lanes in the fixed order of a balanced binary tree: lanes 2j and 2j + 1 first (R69). -/
def treeLevel (f : Lane → Lane → Lane × NFlags) : List Lane → List Lane × NFlags
  | a :: b :: rest =>
    let (c, g) := f a b
    let (cs, gs) := treeLevel f rest
    (c :: cs, g.or gs)
  | l => (l, {})

def treeReduce (f : Lane → Lane → Lane × NFlags) : Nat → List Lane → Lane × NFlags
  | 0, l => (l.headD 0, {})
  | k + 1, l =>
    let (l', g) := treeLevel f l
    let (r, g') := treeReduce f k l'
    (r, g.or g')

/-! ### Conversions -/

/-- `round_to` into the integers under rne (R93, R95): a zero of either sign is 0. -/
def roundInt : FVal → Int
  | .num s n d e =>
    let k : Int := roundCount n d e 0 .rne
    if s then -k else k
  | _ => 0

def clampInt (lo hi i : Int) : Int := if i < lo then lo else if hi < i then hi else i

/-- Conversion of a value into an integer range (R95, R140): NaN gives 0 and inv; an infinity gives a bound and isat. -/
def toIntRange (lo hi : Int) (v : FVal) : Int × NFlags :=
  match v with
  | .nan => (0, .ofInv true)
  | .inf s => (if s then lo else hi, .ofIsat true)
  | v => let r := roundInt v
         let c := clampInt lo hi r
         (c, .ofIsat (c != r))

/-- The block scale byte as a power of two; 0xFF is NaN (R87). -/
def scaleVal (x : Nat) (v : FVal) : FVal := if x == 255 then .nan else v.scale ((x : Int) - 127)

/-- The value of one stored element of any format but a cache format; `x` is its block scale (R85, R88, R91). -/
def elemValue (f : Fmt) (w x : Nat) : FVal :=
  match f.layout with
  | some l => if f.scaled then scaleVal x (l.value w) else l.value w
  | none => match f with
    | .int8 => .ofInt (signed 8 w)
    | .int32 => .ofInt (signed 32 w)
    | _ => .zero false

/-- Conversion of a value into an unscaled output element (recipe 0, R94, R95, R140). -/
def encodeElem (f : Fmt) (v : FVal) : Nat × NFlags :=
  match f with
  | .int8 => let (i, g) := toIntRange (-128) 127 v; (unsigned 8 i, g)
  | .int32 => let (i, g) := toIntRange (-(2 ^ 31 : Nat)) ((2 ^ 31 : Nat) - 1) v; (unsigned 32 i, g)
  | f => match f.layout with
    | some l => let (y, g) := l.convert v; (l.encode y, g)
    | none => (0, {})

/-! ### Products and sums of the matrix engine -/

/-- Exact sum of a list, from left to right; only its exact value matters (R99). -/
def sumExact (l : List FVal) : FVal := l.foldl FVal.add (.num true 0 1 0)

/-- `block_sum` of R99 over the values of the 32 element pairs of one block, without their scales. -/
def blockSum (xa xb : Nat) (scaled : Bool) (ab : List (FVal × FVal)) : FVal × NFlags :=
  if scaled && (xa == 255 || xb == 255) then (.nan, .ofNan true)
  else
    let nanOp := ab.any fun p => p.1.isNan || p.2.isNan
    let zi := ab.any fun p => (p.1.isZero && p.2.isInf) || (p.1.isInf && p.2.isZero)
    let g : NFlags := { nan := nanOp, inv := zi }
    if nanOp || zi then (.nan, g)
    else
      let ps := ab.map fun p => p.1.mul p.2
      let pi := ps.any fun v => v.isInf && !v.isNeg
      let ni := ps.any fun v => v.isInf && v.isNeg
      if pi && ni then (.nan, { g with inv := true })
      else if pi then (.inf false, g)
      else if ni then (.inf true, g)
      else
        let s := sumExact ps
        let s := if s.isZero then FVal.zero (ps.all FVal.isNeg) else s
        (if scaled then s.scale ((xa : Int) - 127 + ((xb : Int) - 127)) else s, g)

/-- A running add into an element of layout `f`: saturates, never becomes infinite (R100, R266, R335). -/
def runAdd (f : FLayout) (mode : RMode) (acc s : FVal) : FVal × NFlags :=
  if acc.isNan || s.isNan then (.nan, {})
  else if acc.isInf && s.isInf && acc.isNeg != s.isNeg then (.nan, .ofInv true)
  else if acc.isInf then (acc, {})
  else if s.isInf then (s, {})
  else
    let x := acc.add s
    if x.isZero then (.zero (acc.isZero && acc.isNeg && s.isZero && s.isNeg), {})
    else let (y, sat) := f.roundTo mode x
         (y, .ofOvf sat)

/-- `acc_add` of R100 on an FP32 accumulator element. -/
def accAdd (mode : RMode) (acc s : FVal) : FVal × NFlags := runAdd layFp32 mode acc s

/-- The integer running add of R102. -/
def accAddInt (acc s : Int) : Int × NFlags :=
  let c := clampInt (-(2 ^ 31 : Nat)) ((2 ^ 31 : Nat) - 1) (acc + s)
  (c, .ofIsat (c != acc + s))

/-! ### Scale recipes -/

/-- `ceil(log2(n / d * 2 ^ e))`. -/
def ceilLog2 (n d : Nat) (e : Int) : Int :=
  let k := floorLog2 n d e
  if FVal.eq (.num false n d e) (.num false 1 1 k) then k else k + 1

/-- Largest magnitude of a list of finite values. -/
def maxAbs (l : List FVal) : FVal := l.foldl (fun m v => if m.lt v.abs then v.abs else m) (.zero false)

/-- `quantise_group` of R106: the scale byte and the element encodings. `noClip` selects the no-clip rule. A NaN sets flag
nan here also where the instruction itself made it (DEDUCED, log entry 21). -/
def quantiseGroup (f : FLayout) (noClip : Bool) (v : List FVal) : Nat × List Nat × NFlags :=
  if v.any FVal.isNan then (255, v.map fun _ => 0, .ofNan true)
  else
    let anyInf := v.any FVal.isInf
    let (mx, me) := f.maxFin
    let x0 : Int :=
      if anyInf then 127
      else match maxAbs v with
        | .num _ n d e =>
          if n == 0 then -127
          else if noClip then ceilLog2 n (d * mx) (e - me)
          else floorLog2 n d e - floorLog2 mx 1 me
        | _ => 127
    let x := max (min x0 127) (-127)
    let step := fun u : FVal =>
      let u := u.scale (-x)
      match u with
      | .inf s => (f.encode (.num s mx 1 me), NFlags.none)
      | .num s n d e =>
        if n == 0 then (f.encode (.num s 0 1 0), NFlags.none)
        else let (y, sat) := f.roundTo .rne (.num s n d e)
             (f.encode y, NFlags.ofOvf (sat && noClip))
      | .nan => (0, NFlags.none)
    let es := v.map step
    let g : NFlags := { ovf := anyInf || (127 < x0 && !anyInf) }
    ((x + 127).toNat, es.map Prod.fst, es.foldl (fun g p => g.or p.2) g)

/-- The smallest FP16 value at or above a magnitude, saturating at 65,504 (R107). -/
def roundUpFp16 (n d : Nat) (e : Int) : Nat × NFlags :=
  if n == 0 then (0, {})
  else
    let ex := max (floorLog2 n d e) (1 - (layFp16.bias : Int))
    let qe := ex - layFp16.m
    let sh := e - qe
    let N := if 0 ≤ sh then n * pow2 sh else n
    let D := if 0 ≤ sh then d else d * pow2 (-sh)
    let k := (N + D - 1) / D
    let (mx, me) := layFp16.maxFin
    if (FVal.num false mx 1 me).lt (.num false k 1 qe) then (layFp16.encode (.num false mx 1 me), .ofOvf true)
    else (layFp16.encode (.num false k 1 qe), {})

/-- A cache block as quantised: scale in FP16, zero-point and one integer per element (R107). -/
structure CacheBlock where
  scale : Nat
  z : Nat
  q : List Int
deriving DecidableEq, Repr

/-- `quantise_block` of R107. `none` stands for an unwritten position; `kv4` selects the KV4 rule. -/
def quantiseBlock (kv4 : Bool) (v : List (Option FVal)) : CacheBlock × NFlags :=
  let ws := v.filterMap id
  if ws.any FVal.isNan then (⟨0, 0, v.map fun _ => 0⟩, .ofNan true)
  else
    let anyInf := ws.any FVal.isInf
    let fin := fun u : FVal => if u.isInf then (.num u.isNeg 65504 1 0 : FVal) else u
    let g0 : NFlags := .ofOvf anyInf
    let fs := ws.map fin
    if !kv4 then
      match maxAbs fs with
      | .num _ n d e =>
        let (sc, g1) := roundUpFp16 n (d * 127) e
        let sv := layFp16.value sc
        let q := v.map fun o => match o with
          | none => 0
          | some u => if sv.isZero then 0 else clampInt (-127) 127 (roundInt ((fin u).div sv))
        (⟨sc, 0, q⟩, g0.or g1)
      | _ => (⟨0, 0, v.map fun _ => 0⟩, g0)
    else
      let lo := fs.foldl (fun m u => if u.lt m then u else m) (.zero false)
      let hi := fs.foldl (fun m u => if m.lt u then u else m) (.zero false)
      match hi.sub lo with
      | .num _ n d e =>
        let (sc, g1) := roundUpFp16 n (d * 15) e
        let sv := layFp16.value sc
        if sv.isZero then (⟨0, 0, v.map fun _ => 0⟩, g0.or g1)
        else
          let z := clampInt 0 15 (roundInt (lo.neg.div sv))
          let q := v.map fun o => match o with
            | none => z
            | some u => clampInt 0 15 (roundInt ((fin u).div sv) + z)
          (⟨sc, z.toNat, q⟩, g0.or g1)
      | _ => (⟨0, 0, v.map fun _ => 0⟩, g0)

/-- The parameter word of a cache block (R92). -/
def CacheBlock.param (b : CacheBlock) : Nat := b.scale + b.z * 2 ^ 16

/-- The stored bytes of a cache block (R92): signed bytes in KV8, nibbles in KV4, even index low. -/
def CacheBlock.bytes (kv4 : Bool) (b : CacheBlock) : List Byte :=
  if !kv4 then b.q.map fun i => BitVec.ofNat 8 (unsigned 8 i)
  else
    let rec go : List Int → List Byte
      | a :: c :: r => BitVec.ofNat 8 (unsigned 4 a + 16 * unsigned 4 c) :: go r
      | [a] => [BitVec.ofNat 8 (unsigned 4 a)]
      | [] => []
    go b.q

/-- The exact value of element `i` of a stored cache block (R92). -/
def cacheValue (kv4 : Bool) (param : Nat) (bytes : List Byte) (i : Nat) : FVal :=
  let sv := layFp16.value (bits param 15 0)
  if !kv4 then (FVal.ofInt (signed 8 (bytes.getD i 0).toNat)).mul sv
  else
    let by_ := (bytes.getD (i / 2) 0).toNat
    let q := if i % 2 == 0 then by_ % 16 else by_ / 16
    (FVal.ofInt ((q : Int) - (bits param 19 16 : Int))).mul sv

/-! ### The remainder tensor (R108) -/

/-- Exponent of the BF16 spacing at `b`; 2^−133 at zero. -/
def ulpBf16Exp : FVal → Int
  | .num _ n d e => if n == 0 then -133 else max (floorLog2 n d e) (-126) - 7
  | _ => -133

/-- `join_master(b, r)`: exact (R108). `b` is the value, `r` the signed remainder. -/
def joinMaster (b : FVal) (r : Int) : FVal :=
  if b.isNan || b.isInf then b else b.add ((FVal.ofInt r).scale (ulpBf16Exp b - 8))

/-- `split_master(x)`: BF16 encoding and remainder (R108). -/
def splitMaster (x : FVal) : Nat × Int × NFlags :=
  if x.isNan then (layBf16.canonNan, 0, {})
  else
    let (b, g) := layBf16.convert x
    if x.isInf then (layBf16.encode b, 0, g)
    else
      let r0 := roundInt ((x.sub b).scale (8 - ulpBf16Exp b))
      let r := clampInt (-128) 127 r0
      (layBf16.encode b, r, g)

/-! ### The counter generator (R109, R110) -/

def philoxRounds : Nat → Nat → Nat → Nat → Nat → Nat → Nat → Nat × Nat × Nat × Nat
  | 0, _, _, c0, c1, c2, c3 => (c0, c1, c2, c3)
  | n + 1, k0, k1, c0, c1, c2, c3 =>
    let p0 := 0xD2511F53 * c0
    let p1 := 0xCD9E8D57 * c2
    philoxRounds n ((k0 + 0x9E3779B9) % 2 ^ 32) ((k1 + 0xBB67AE85) % 2 ^ 32)
      (((p1 / 2 ^ 32) ^^^ c1) ^^^ k0) (p1 % 2 ^ 32) (((p0 / 2 ^ 32) ^^^ c3) ^^^ k1) (p0 % 2 ^ 32)

/-- Philox4×32-10 (R109) as the 128-bit output. -/
def philox (k0 k1 c0 c1 c2 c3 : Nat) : Nat :=
  let (x0, x1, x2, x3) := philoxRounds 10 k0 k1 c0 c1 c2 c3
  x0 + x1 * 2 ^ 32 + x2 * 2 ^ 64 + x3 * 2 ^ 96

/-- `draw128` of R110. -/
def draw128 (seed purpose a layer step tile element : Nat) : Nat :=
  philox (bits seed 31 0) (bits seed 63 32) (element % 2 ^ 32) (tile % 2 ^ 32)
    (purpose * 2 ^ 28 + a * 2 ^ 22 + layer % 2 ^ 16) (step % 2 ^ 32)

/-- The stochastic-rounding draw of R111 for block add `nb` into element (i, j) of tile `acc`. -/
def srDraw (seed step layer tile acc nb i j : Nat) : Nat :=
  bits (draw128 seed 0 acc layer step tile ((nb / 8) % 2 ^ 18 * 16384 + i * 128 + j))
    (16 * (nb % 8) + 15) (16 * (nb % 8))

end Sys2Proof.Machine
end

