-- ==== Sys2Proof/Machine/Flags.lean ====
section
/-! DEFINITION. Sticky numeric flags along a computation (R97): every operation gives its value and the flags it sets,
and a sequence of operations gathers them. -/

namespace Sys2Proof.Machine

/-- The next operation on a result, with the flags of both. -/
def thenF {α β : Type} (x : α × NFlags) (f : α → β × NFlags) : β × NFlags :=
  let y := f x.1
  (y.1, x.2.or y.2)

/-- A function without flags on a result. -/
def mapF {α β : Type} (x : α × NFlags) (f : α → β) : β × NFlags := (f x.1, x.2)

/-- One operation on every element of a list, in order. -/
def eachF {α β : Type} (l : List α) (f : α → β × NFlags) : List β × NFlags :=
  l.foldr (fun a r => let y := f a; (y.1 :: r.1, y.2.or r.2)) ([], {})

/-- One operation from left to right over a list. -/
def foldF {α β : Type} (l : List α) (z : β) (f : β → α → β × NFlags) : β × NFlags :=
  l.foldl (fun r a => let y := f r.1 a; (y.1, r.2.or y.2)) (z, {})

/-- Flags without nan: those of operations on a NaN that the same instruction made (R97). -/
def NFlags.inner (g : NFlags) : NFlags := { g with nan := false }

/-- `convert(x, fp32)` of an exact result, which saturates; inv for a NaN made from operands of which none was NaN
(R94, R97). -/
def satOp (ops : List FVal) (exact : FVal) : FVal × NFlags :=
  let r := layFp32.convert exact
  (r.1, { r.2 with inv := r.2.inv || (exact.isNan && !ops.any FVal.isNan) })

def satAddF (a b : FVal) : FVal × NFlags := satOp [a, b] (a.add b)
def satSubF (a b : FVal) : FVal × NFlags := satOp [a, b] (a.sub b)
def satMulF (a b : FVal) : FVal × NFlags := satOp [a, b] (a.mul b)
def satDivF (a b : FVal) : FVal × NFlags := satOp [a, b] (a.div b)
/-- a × b + c rounded once. -/
def satFmaF (a b c : FVal) : FVal × NFlags := satOp [a, b, c] ((a.mul b).add c)

/-- A correctly rounded function of one value. -/
def satFn (f : FVal → FVal) (a : FVal) : FVal × NFlags := satOp [a] (f a)

/-- The sequential sum `csum`: from +0, one rounded add per element (R222, R270). -/
def csum (l : List FVal) : FVal × NFlags := foldF l (.zero false) satAddF

end Sys2Proof.Machine
end

