-- ==== Sys2Proof/Machine/Crc.lean ====
section
/-! DEFINITION. The check values of R371: one running register per polynomial, fed bytes in order (R372). -/

namespace Sys2Proof.Machine

/-- A polynomial of R371. For a reflected algorithm `poly` is written with its bits reversed, as the register then
shifts toward bit 0. -/
structure CrcPoly where
  width : Nat
  poly : Nat
  reflected : Bool
  init : Nat
  xorOut : Nat
deriving DecidableEq, Repr

def crc32c : CrcPoly := ⟨32, 0x82F63B78, true, 0xFFFFFFFF, 0xFFFFFFFF⟩
def crc32 : CrcPoly := ⟨32, 0xEDB88320, true, 0xFFFFFFFF, 0xFFFFFFFF⟩
def crc64 : CrcPoly := ⟨64, 0x42F0E1EBA9EA3693, false, 0, 0⟩
def crc16 : CrcPoly := ⟨16, 0x1021, false, 0xFFFF, 0⟩

/-- The polynomial that a 2-bit poly field names (R371). -/
def crcOf (poly : Nat) : CrcPoly :=
  match poly with
  | 0 => crc32c
  | 1 => crc32
  | 2 => crc64
  | _ => crc16

/-- n single-bit steps of the register. -/
def CrcPoly.steps (c : CrcPoly) (reg : Nat) : Nat → Nat
  | 0 => reg
  | n + 1 =>
    let r :=
      if c.reflected then (if reg % 2 = 1 then (reg / 2) ^^^ c.poly else reg / 2)
      else
        let s := reg * 2 % 2 ^ c.width
        if reg / 2 ^ (c.width - 1) % 2 = 1 then s ^^^ c.poly else s
    CrcPoly.steps c r n

/-- The register after one byte. -/
def CrcPoly.byte (c : CrcPoly) (reg : Nat) (b : Byte) : Nat :=
  c.steps (if c.reflected then reg ^^^ b.toNat else reg ^^^ (b.toNat * 2 ^ (c.width - 8))) 8

/-- The register after bytes fed in order (R372). -/
def CrcPoly.feed (c : CrcPoly) (reg : Nat) (bs : List Byte) : Nat := bs.foldl c.byte reg

/-- The result: the register xor the final XOR (R372). -/
def CrcPoly.result (c : CrcPoly) (reg : Nat) : Nat := reg ^^^ c.xorOut

/-- The check value of a list of bytes from the initial value. -/
def CrcPoly.of (c : CrcPoly) (bs : List Byte) : Nat := c.result (c.feed c.init bs)

end Sys2Proof.Machine
end

