-- ==== Sys2Proof/Config.lean ====
section
/-! DEFINITION. What one implementation or the outside world fixes: opaque constants, so that no proof can lean on a
value the spec does not give, and the cryptographic functions that the spec names by their standards. -/

namespace Sys2Proof.Config

/-- A free value: what the spec leaves undefined after an operation that runs on (log entry 5). Applied to the counter
`fresh` of the state, which every use advances. -/
opaque freeValue : Nat → Word

/-- Fender's random source (R402): the next 64 random bits at a draw number. -/
opaque random : Nat → Word

/-- SHA-384 of a list of bytes (R292, R294, R407), a standard the spec names and does not define: its 384 bits, and as the
48 bytes of the standard, most significant first. -/
opaque sha384Bits : List Byte → BitVec 384

/-- The 48 bytes of 384 bits, most significant first. -/
def bytes384 (v : BitVec 384) : List Byte := (List.range 48).map fun i => v.extractLsb' (376 - 8 * i) 8

def sha384 (bs : List Byte) : List Byte := bytes384 (sha384Bits bs)

/-- HMAC-SHA-384 under a key (R412). -/
opaque hmac384Bits : (key msg : List Byte) → BitVec 384

def hmac384 (key msg : List Byte) : List Byte := bytes384 (hmac384Bits key msg)

/-- Does the ECDSA P-384 signature verify over a message under a key (R294)? -/
opaque ecdsaVerify : (key sig msg : List Byte) → Bool

/-- Does the LMS signature verify over a message under a key (R294)? -/
opaque lmsVerify : (key sig msg : List Byte) → Bool

/-- Is the pair of coordinates a point on P-384 (R403)? -/
opaque onP384 : List Byte → Bool

/-- The unique device secret of the fuses (R402). -/
opaque uds : List Byte

/-- Fender's answer to one SPDM request, from the transcript, the measurements and a nonce (R402, R414, R415). -/
opaque spdmAnswer : (transcript measurements nonce request : List Byte) → List Byte

end Sys2Proof.Config
end

