-- ==== Sys2Proof/Machine/Tab.lean ====
section
/-! DEFINITION. Sparse tables: a sorted list of (key, value) pairs in one canonical form over a default function.
Memory, the register file, the tier map and every other indexed unit of the state are such tables. -/

namespace Sys2Proof.Machine

/-- A sparse table: the entries that differ from the default of their key, keys strictly rising. -/
abbrev Tab (α : Type) := List (Nat × α)

/-- The value at a key: the listed one, else the default. -/
def Tab.get {α : Type} (dflt : Nat → α) : Tab α → Nat → α
  | [], k => dflt k
  | (j, v) :: t, k => if j = k then v else Tab.get dflt t k

/-- The table without the key. -/
def Tab.drop {α : Type} (t : Tab α) (k : Nat) : Tab α := t.filter fun p => p.1 ≠ k

/-- The table with an entry put before the first larger key. -/
def Tab.insert {α : Type} (k : Nat) (v : α) : Tab α → Tab α
  | [] => [(k, v)]
  | (j, u) :: t => if k < j then (k, v) :: (j, u) :: t else (j, u) :: Tab.insert k v t

/-- The table with a key set; a value equal to the default is not listed. -/
def Tab.set {α : Type} [DecidableEq α] (dflt : Nat → α) (t : Tab α) (k : Nat) (v : α) : Tab α :=
  match t with
  | [] => if v = dflt k then [] else [(k, v)]
  | p :: r => if v = dflt k then Tab.drop (p :: r) k else Tab.insert k v (Tab.drop (p :: r) k)

/-- The entries whose key lies outside `lo` to `hi - 1`: those of the range take their defaults again. -/
def Tab.clear {α : Type} (t : Tab α) (lo hi : Nat) : Tab α := t.filter fun p => p.1 < lo || hi ≤ p.1

/-- The entries whose key lies in `lo` to `hi - 1`. -/
def Tab.slice {α : Type} (t : Tab α) (lo hi : Nat) : Tab α := t.filter fun p => lo ≤ p.1 && p.1 < hi

/-- The canonical form: keys strictly rising, and no entry equal to its default. -/
def Tab.wf {α : Type} [DecidableEq α] (dflt : Nat → α) : Tab α → Bool
  | [] => true
  | (k, v) :: t => decide (v ≠ dflt k) && t.all (fun p => k < p.1) && Tab.wf dflt t

/-- A sorted set of numbers, as a list without repeats. -/
abbrev NSet := List Nat

def NSet.add (k : Nat) : NSet → NSet
  | [] => [k]
  | j :: t => if k < j then k :: j :: t else if k = j then j :: t else j :: NSet.add k t

def NSet.del (s : NSet) (k : Nat) : NSet := s.filter (· ≠ k)

/-- Numbers `k` to `k + n - 1` added. -/
def NSet.addRange (s : NSet) (k : Nat) : Nat → NSet
  | 0 => s
  | n + 1 => NSet.addRange (s.add (k + n)) k n

/-- The members outside `lo` to `hi - 1`. -/
def NSet.clear (s : NSet) (lo hi : Nat) : NSet := s.filter fun k => k < lo || hi ≤ k

/-- Is any member in `lo` to `hi - 1`? -/
def NSet.meets (s : NSet) (lo hi : Nat) : Bool := s.any fun k => lo ≤ k && k < hi

/-- The lowest number from `lo` on, below `hi`, that is in neither set. -/
def lowestFree (used gone : NSet) (lo hi : Nat) : Option Nat :=
  ((List.range (used.length + gone.length + 1)).map (lo + ·)).find?
    fun k => k < hi && !used.contains k && !gone.contains k

end Sys2Proof.Machine
end

