-- ==== Sys2Proof/Machine/RegMap.lean ====
section
/-! DEFINITION. The register map: the pages of R442, and every register of the spec's register-field tables with its
fields, access codes and reset values (R7, R8). The words of one page are 64 bits at 8-byte offsets (R445). -/

namespace Sys2Proof.Machine

/-- The access codes of R8. -/
inductive Acc8 where
  | ro | rw | w1c | w1s | rc | wo
deriving DecidableEq, Repr

/-- One field of a register-field table: bits `[hi:lo]`, access code and reset value. Reserved bits have no entry: they
read as zero and ignore what is written (R6). -/
structure Field where
  name : String
  hi : Nat
  lo : Nat
  acc : Acc8
  reset : Nat
deriving DecidableEq, Repr

/-- A register, or an array of `count` registers `stride` bytes apart. -/
structure Reg where
  name : String
  off : Nat
  stride : Nat
  count : Nat
  fields : List Field
deriving DecidableEq, Repr

/-! ### Registers of the MOD page -/

/-- MOD_PWR, chapter 02 of the spec. -/
def rMOD_PWR : Reg := ⟨"MOD_PWR", 0x100, 0, 1,
  [⟨"tj_max", 23, 16, .ro, 0⟩,
   ⟨"brake", 9, 9, .ro, 0⟩,
   ⟨"throttled", 8, 8, .ro, 0⟩,
   ⟨"cap", 1, 0, .rw, 0⟩]⟩

/-- MOD_RST_CTL, chapter 02 of the spec. -/
def rMOD_RST_CTL : Reg := ⟨"MOD_RST_CTL", 0x108, 0, 1,
  [⟨"warm", 0, 0, .wo, 0⟩]⟩

/-- MOD_RST_CAUSE, chapter 02 of the spec. -/
def rMOD_RST_CAUSE : Reg := ⟨"MOD_RST_CAUSE", 0x110, 0, 1,
  [⟨"flood", 4, 4, .w1c, 0⟩,
   ⟨"reg", 3, 3, .w1c, 0⟩,
   ⟨"warm_pin", 2, 2, .w1c, 0⟩,
   ⟨"cold_pin", 1, 1, .w1c, 0⟩,
   ⟨"power_on", 0, 0, .w1c, 0⟩]⟩

/-- MOD_LTC, chapter 02 of the spec. -/
def rMOD_LTC : Reg := ⟨"MOD_LTC", 0x118, 0, 1,
  [⟨"count", 63, 0, .ro, 0⟩]⟩

/-- MOD_LTC_HI, chapter 02 of the spec. -/
def rMOD_LTC_HI : Reg := ⟨"MOD_LTC_HI", 0x120, 0, 1,
  [⟨"high", 31, 0, .ro, 0⟩]⟩

/-- MOD_SL, chapter 16 of the spec. -/
def rMOD_SL : Reg := ⟨"MOD_SL", 0x128, 0, 1,
  [⟨"die", 14, 12, .ro, 0⟩,
   ⟨"fail", 11, 8, .ro, 0⟩,
   ⟨"target", 5, 4, .rw, 3⟩,
   ⟨"level", 1, 0, .ro, 0⟩]⟩

/-- MOD_TCMP, chapter 18 of the spec. -/
def rMOD_TCMP : Reg := ⟨"MOD_TCMP", 0x140, 16, 4,
  [⟨"value", 63, 0, .rw, 0⟩]⟩

/-- MOD_TCLM, chapter 18 of the spec. -/
def rMOD_TCLM : Reg := ⟨"MOD_TCLM", 0x148, 16, 4,
  [⟨"held", 63, 63, .ro, 0⟩,
   ⟨"refused", 62, 62, .w1c, 0⟩,
   ⟨"op", 61, 60, .wo, 0⟩,
   ⟨"hkind", 55, 48, .ro, 0⟩,
   ⟨"hid", 47, 32, .ro, 0⟩,
   ⟨"rid", 31, 16, .wo, 0⟩,
   ⟨"fired", 1, 1, .w1c, 0⟩,
   ⟨"arm", 0, 0, .rw, 0⟩]⟩

def modRegs : List Reg :=
  [rMOD_PWR, rMOD_RST_CTL, rMOD_RST_CAUSE, rMOD_LTC, rMOD_LTC_HI, rMOD_SL, rMOD_TCMP, rMOD_TCLM]

/-! ### Registers of the FEN page -/

/-- FEN_KEY, chapter 16 of the spec. -/
def rFEN_KEY : Reg := ⟨"FEN_KEY", 0x1000, 128, 32,
  [⟨"lock", 63, 63, .w1s, 0⟩,
   ⟨"valid", 62, 62, .ro, 0⟩]⟩

/-- FEN_ARB, chapter 16 of the spec. -/
def rFEN_ARB : Reg := ⟨"FEN_ARB", 0x108, 0, 1,
  [⟨"busy", 7, 7, .ro, 0⟩,
   ⟨"target", 6, 0, .wo, 0⟩]⟩

/-- FEN_BOOT, chapter 16 of the spec. -/
def rFEN_BOOT : Reg := ⟨"FEN_BOOT", 0x100, 0, 1,
  [⟨"svn_run", 55, 48, .ro, 0⟩,
   ⟨"fused", 47, 40, .ro, 0⟩,
   ⟨"lms_out", 34, 34, .ro, 0⟩,
   ⟨"dbg", 33, 33, .ro, 0⟩,
   ⟨"recovery", 32, 32, .ro, 0⟩,
   ⟨"dev_b", 5, 5, .ro, 0⟩,
   ⟨"mgt_b", 4, 4, .ro, 0⟩,
   ⟨"fen_b", 3, 3, .ro, 0⟩]⟩

/-- The key bytes 8 to 103 of the FEN_KEYs slots, as twelve words each (R403). -/
def rFEN_KEY_WORD (w : Nat) : Reg := ⟨"FEN_KEY_WORD", 0x1008 + 8 * w, 128, 32, [⟨"key", 63, 0, .rw, 0⟩]⟩

def fenRegs : List Reg :=
  [rFEN_KEY, rFEN_ARB, rFEN_BOOT] ++ (List.range 12).map rFEN_KEY_WORD

/-! ### Registers of the ERR page -/

/-- ERR_RING, chapter 17 of the spec. -/
def rERR_RING : Reg := ⟨"ERR_RING", 0x100, 0, 1,
  [⟨"n", 35, 32, .rw, 0⟩,
   ⟨"base", 31, 0, .rw, 0⟩]⟩

/-- ERR_IDX, chapter 17 of the spec. -/
def rERR_IDX : Reg := ⟨"ERR_IDX", 0x108, 0, 1,
  [⟨"pi", 47, 32, .ro, 0⟩,
   ⟨"ci", 15, 0, .rw, 0⟩]⟩

/-- ERR_CTL, chapter 17 of the spec. -/
def rERR_CTL : Reg := ⟨"ERR_CTL", 0x110, 0, 1,
  [⟨"en", 63, 63, .rw, 0⟩,
   ⟨"ce_win", 31, 16, .rw, 0x3E8⟩,
   ⟨"ce_thr", 15, 0, .rw, 0x10⟩]⟩

/-- ERR_STAT, chapter 17 of the spec. -/
def rERR_STAT : Reg := ⟨"ERR_STAT", 0x118, 0, 1,
  [⟨"corrected", 63, 40, .rc, 0⟩,
   ⟨"deferred", 39, 24, .rc, 0⟩,
   ⟨"contained", 23, 8, .rc, 0⟩,
   ⟨"dropped", 7, 0, .rc, 0⟩]⟩

/-- ERR_SPARE, chapter 17 of the spec. -/
def rERR_SPARE : Reg := ⟨"ERR_SPARE", 0x200, 8, 8,
  [⟨"retired", 15, 8, .ro, 0⟩,
   ⟨"spares", 3, 0, .ro, 0⟩]⟩

/-- ERR_FRET, chapter 17 of the spec. -/
def rERR_FRET : Reg := ⟨"ERR_FRET", 0x240, 0, 1,
  [⟨"slow", 63, 48, .ro, 0⟩,
   ⟨"hbm", 47, 32, .ro, 0⟩,
   ⟨"waiting", 31, 16, .ro, 0⟩,
   ⟨"rows", 15, 0, .ro, 0⟩]⟩

/-- ERR_CMAP, chapter 17 of the spec. -/
def rERR_CMAP : Reg := ⟨"ERR_CMAP", 0x400, 8, 64,
  [⟨"word", 63, 0, .ro, 0⟩]⟩

def errRegs : List Reg :=
  [rERR_RING, rERR_IDX, rERR_CTL, rERR_STAT, rERR_SPARE, rERR_FRET, rERR_CMAP]

/-! ### Registers of the TIER page -/

/-- TIER_CMD, chapter 06 of the spec. -/
def rTIER_CMD : Reg := ⟨"TIER_CMD", 0x100, 0, 1,
  [⟨"op", 63, 60, .wo, 0⟩,
   ⟨"part", 59, 54, .wo, 0⟩,
   ⟨"gran", 47, 32, .wo, 0⟩,
   ⟨"shalf", 25, 25, .wo, 0⟩,
   ⟨"sgran", 24, 9, .wo, 0⟩,
   ⟨"shadow", 8, 8, .wo, 0⟩,
   ⟨"world", 7, 7, .wo, 0⟩,
   ⟨"run", 6, 5, .wo, 0⟩,
   ⟨"pin", 4, 4, .wo, 0⟩,
   ⟨"place", 3, 2, .wo, 0⟩,
   ⟨"kind", 1, 0, .wo, 0⟩]⟩

/-- TIER_CMD_STS, chapter 06 of the spec. -/
def rTIER_CMD_STS : Reg := ⟨"TIER_CMD_STS", 0x108, 0, 1,
  [⟨"lost", 9, 9, .w1c, 0⟩,
   ⟨"busy", 8, 8, .ro, 0⟩,
   ⟨"result", 7, 0, .ro, 0⟩]⟩

/-- TIER_PQ, chapter 06 of the spec. -/
def rTIER_PQ : Reg := ⟨"TIER_PQ", 0x1000, 16, 64,
  [⟨"stage", 47, 32, .rw, 0⟩,
   ⟨"slow", 31, 16, .rw, 0⟩,
   ⟨"hbm", 15, 0, .rw, 0⟩]⟩

/-- TIER_PU, chapter 06 of the spec. -/
def rTIER_PU : Reg := ⟨"TIER_PU", 0x1008, 16, 64,
  [⟨"refused", 63, 63, .w1c, 0⟩,
   ⟨"slow_used", 31, 16, .ro, 0⟩,
   ⟨"hbm_used", 15, 0, .ro, 0⟩]⟩

/-- TIER_PSRC, chapter 06 of the spec. -/
def rTIER_PSRC : Reg := ⟨"TIER_PSRC", 0x1800, 8, 64,
  [⟨"base", 47, 4, .rw, 0⟩]⟩

/-- STRM_TBL, chapter 06 of the spec. -/
def rSTRM_TBL : Reg := ⟨"STRM_TBL", 0x2000, 32, 256,
  [⟨"base", 47, 4, .rw, 0⟩]⟩

/-- STRM_CTL, chapter 06 of the spec. -/
def rSTRM_CTL : Reg := ⟨"STRM_CTL", 0x2008, 32, 256,
  [⟨"en", 63, 63, .rw, 0⟩,
   ⟨"dinit", 47, 44, .rw, 1⟩,
   ⟨"dmax", 43, 40, .rw, 4⟩,
   ⟨"dmin", 39, 36, .rw, 1⟩,
   ⟨"nlayers", 27, 16, .rw, 0⟩,
   ⟨"ember", 13, 0, .rw, 0⟩]⟩

/-- STRM_STS, chapter 06 of the spec. -/
def rSTRM_STS : Reg := ⟨"STRM_STS", 0x2010, 32, 256,
  [⟨"direct_tiles", 63, 32, .rc, 0⟩,
   ⟨"late_layers", 31, 16, .rc, 0⟩,
   ⟨"d", 3, 0, .ro, 0⟩]⟩

/-- TIER_MAP_BASE, chapter 06 of the spec. -/
def rTIER_MAP_BASE : Reg := ⟨"TIER_MAP_BASE", 0x110, 0, 1,
  [⟨"addr", 47, 0, .ro, 0xC0008000000⟩]⟩

/-- TIER_STAT, chapter 06 of the spec. -/
def rTIER_STAT : Reg := ⟨"TIER_STAT", 0x118, 0, 1,
  [⟨"migrations", 63, 48, .rc, 0⟩,
   ⟨"abandoned", 47, 40, .rc, 0⟩,
   ⟨"refetched", 39, 24, .rc, 0⟩,
   ⟨"shadow_tld", 23, 8, .rc, 0⟩,
   ⟨"unrecovered", 7, 0, .rc, 0⟩]⟩

/-- TIER_FREE, chapter 06 of the spec. -/
def rTIER_FREE : Reg := ⟨"TIER_FREE", 0x120, 0, 1,
  [⟨"slow_free", 63, 48, .ro, 0⟩,
   ⟨"slow_svc", 47, 32, .ro, 0⟩,
   ⟨"hbm_free", 31, 16, .ro, 0⟩,
   ⟨"hbm_svc", 15, 0, .ro, 0⟩]⟩

def tierRegs : List Reg :=
  [rTIER_CMD, rTIER_CMD_STS, rTIER_PQ, rTIER_PU, rTIER_PSRC, rSTRM_TBL, rSTRM_CTL, rSTRM_STS, rTIER_MAP_BASE,
   rTIER_STAT, rTIER_FREE]

/-! ### Registers of the FAB page -/

/-- FAB_ID, chapter 12 of the spec. -/
def rFAB_ID : Reg := ⟨"FAB_ID", 0x100, 0, 1,
  [⟨"id_valid", 63, 63, .rw, 0⟩,
   ⟨"dom_valid", 62, 62, .rw, 0⟩,
   ⟨"domain", 57, 48, .rw, 0⟩,
   ⟨"id", 13, 0, .rw, 0⟩]⟩

/-- FAB_STACK, chapter 12 of the spec. -/
def rFAB_STACK : Reg := ⟨"FAB_STACK", 0x108, 0, 1,
  [⟨"master", 63, 63, .rw, 0⟩,
   ⟨"sys", 62, 62, .rw, 0⟩,
   ⟨"members", 61, 46, .ro, 0⟩,
   ⟨"sysm", 45, 32, .rw, 0⟩,
   ⟨"index", 17, 14, .rw, 0⟩,
   ⟨"mid", 13, 0, .rw, 0⟩]⟩

/-- FAB_PORT, chapter 12 of the spec. -/
def rFAB_PORT : Reg := ⟨"FAB_PORT", 0x200, 8, 24,
  [⟨"en", 63, 63, .rw, 1⟩,
   ⟨"rate", 62, 61, .rw, 0⟩,
   ⟨"power", 60, 59, .rw, 0⟩,
   ⟨"dateline", 58, 58, .rw, 0⟩,
   ⟨"state", 51, 48, .ro, 0⟩,
   ⟨"width", 47, 46, .ro, 0⟩,
   ⟨"ver", 45, 44, .ro, 0⟩,
   ⟨"peer_valid", 43, 43, .ro, 0⟩,
   ⟨"peer_port", 42, 38, .ro, 0⟩,
   ⟨"peer_id", 33, 20, .ro, 0⟩]⟩

/-- FAB_PERR, chapter 12 of the spec. -/
def rFAB_PERR : Reg := ⟨"FAB_PERR", 0x300, 8, 24,
  [⟨"replays", 63, 32, .rc, 0⟩,
   ⟨"downs", 31, 16, .rc, 0⟩,
   ⟨"uncorr", 15, 0, .rc, 0⟩]⟩

/-- FAB_RT_ADDR, chapter 12 of the spec. -/
def rFAB_RT_ADDR : Reg := ⟨"FAB_RT_ADDR", 0x400, 0, 1,
  [⟨"index", 13, 0, .rw, 0⟩]⟩

/-- FAB_RT_DATA, chapter 12 of the spec. -/
def rFAB_RT_DATA : Reg := ⟨"FAB_RT_DATA", 0x408, 0, 1,
  [⟨"entry", 63, 0, .rw, 0⟩]⟩

/-- FAB_CTL, chapter 12 of the spec. -/
def rFAB_CTL : Reg := ⟨"FAB_CTL", 0x410, 0, 1,
  [⟨"bthr", 63, 32, .rw, 0x40⟩,
   ⟨"jto", 31, 16, .rw, 0x2710⟩,
   ⟨"slot_lim", 15, 8, .rw, 0x20⟩]⟩

/-- FAB_VCW, chapter 12 of the spec. -/
def rFAB_VCW : Reg := ⟨"FAB_VCW", 0x418, 0, 1,
  [⟨"vc4", 31, 24, .rw, 0x10⟩,
   ⟨"vc3", 23, 16, .rw, 0x10⟩,
   ⟨"vc2", 15, 8, .rw, 0x10⟩,
   ⟨"vc1", 7, 0, .rw, 0x40⟩]⟩

/-- FAB_FLOOD, chapter 12 of the spec. -/
def rFAB_FLOOD : Reg := ⟨"FAB_FLOOD", 0x420, 0, 1,
  [⟨"scope", 1, 0, .wo, 0⟩]⟩

/-- FAB_MLIST, chapter 12 of the spec. -/
def rFAB_MLIST : Reg := ⟨"FAB_MLIST", 0x428, 0, 1,
  [⟨"count", 42, 32, .rw, 0⟩,
   ⟨"base", 31, 0, .rw, 0⟩]⟩

/-- FAB_GCMD, chapter 12 of the spec. -/
def rFAB_GCMD : Reg := ⟨"FAB_GCMD", 0x500, 0, 1,
  [⟨"op", 63, 60, .wo, 0⟩,
   ⟨"group", 9, 0, .wo, 0⟩]⟩

/-- FAB_GARG0, chapter 12 of the spec. -/
def rFAB_GARG0 : Reg := ⟨"FAB_GARG0", 0x508, 0, 1,
  [⟨"eng", 63, 62, .rw, 0⟩,
   ⟨"nm1", 61, 48, .rw, 0⟩,
   ⟨"list", 47, 0, .rw, 0⟩]⟩

/-- FAB_GARG1, chapter 12 of the spec. -/
def rFAB_GARG1 : Reg := ⟨"FAB_GARG1", 0x510, 0, 1,
  [⟨"context", 63, 60, .rw, 0⟩,
   ⟨"part", 59, 54, .rw, 0⟩,
   ⟨"buddy", 53, 44, .rw, 0⟩,
   ⟨"nbuf", 43, 32, .rw, 0⟩,
   ⟨"base", 31, 0, .rw, 0⟩]⟩

/-- FAB_GCMD_STS, chapter 12 of the spec. -/
def rFAB_GCMD_STS : Reg := ⟨"FAB_GCMD_STS", 0x518, 0, 1,
  [⟨"lost", 9, 9, .w1c, 0⟩,
   ⟨"busy", 8, 8, .ro, 0⟩,
   ⟨"result", 7, 0, .ro, 0⟩]⟩

/-- FAB_STAT, chapter 12 of the spec. -/
def rFAB_STAT : Reg := ⟨"FAB_STAT", 0x520, 0, 1,
  [⟨"transit", 63, 32, .rc, 0⟩,
   ⟨"endpoint", 31, 8, .rc, 0⟩,
   ⟨"mismatch", 7, 0, .rc, 0⟩]⟩

/-- FAB_BLW_SUB, chapter 12 of the spec. -/
def rFAB_BLW_SUB : Reg := ⟨"FAB_BLW_SUB", 0x600, 16, 4,
  [⟨"addr", 47, 0, .wo, 0⟩]⟩

/-- FAB_BLW_STS, chapter 12 of the spec. -/
def rFAB_BLW_STS : Reg := ⟨"FAB_BLW_STS", 0x608, 16, 4,
  [⟨"full_drop", 16, 16, .w1c, 0⟩,
   ⟨"inflight", 15, 8, .ro, 0⟩,
   ⟨"queued", 7, 0, .ro, 0⟩]⟩

/-- FAB_GSTS, chapter 12 of the spec. -/
def rFAB_GSTS : Reg := ⟨"FAB_GSTS", 0x1000, 8, 1024,
  [⟨"state", 63, 60, .ro, 0⟩,
   ⟨"cause", 59, 56, .ro, 0⟩,
   ⟨"unmirrored", 55, 55, .ro, 0⟩,
   ⟨"turn_open", 54, 54, .ro, 0⟩,
   ⟨"endpoint", 53, 53, .ro, 0⟩,
   ⟨"eng", 49, 48, .ro, 0⟩,
   ⟨"nm1", 47, 34, .ro, 0⟩,
   ⟨"seq", 31, 0, .ro, 0⟩]⟩

def fabRegs : List Reg :=
  [rFAB_ID, rFAB_STACK, rFAB_PORT, rFAB_PERR, rFAB_RT_ADDR, rFAB_RT_DATA, rFAB_CTL, rFAB_VCW, rFAB_FLOOD,
   rFAB_MLIST, rFAB_GCMD, rFAB_GARG0, rFAB_GARG1, rFAB_GCMD_STS, rFAB_STAT, rFAB_BLW_SUB, rFAB_BLW_STS,
   rFAB_GSTS]

/-! ### Registers of the VEX page -/

/-- VEX_PORT, chapter 13 of the spec. -/
def rVEX_PORT : Reg := ⟨"VEX_PORT", 0x100, 8, 2,
  [⟨"en", 63, 63, .rw, 1⟩,
   ⟨"power", 62, 61, .rw, 0⟩,
   ⟨"state", 51, 48, .ro, 0⟩,
   ⟨"ver", 47, 46, .ro, 0⟩,
   ⟨"feat", 2, 0, .ro, 0⟩]⟩

/-- VEX_CTL, chapter 13 of the spec. -/
def rVEX_CTL : Reg := ⟨"VEX_CTL", 0x110, 0, 1,
  [⟨"lto", 15, 0, .rw, 0x64⟩]⟩

/-- VEX_STS, chapter 13 of the spec. -/
def rVEX_STS : Reg := ⟨"VEX_STS", 0x118, 0, 1,
  [⟨"poisoned", 63, 32, .rc, 0⟩,
   ⟨"dropped", 31, 0, .rc, 0⟩]⟩

/-- VEX_WIN_D, chapter 13 of the spec. -/
def rVEX_WIN_D : Reg := ⟨"VEX_WIN_D", 0x120, 0, 1,
  [⟨"dbase", 63, 0, .rw, 0⟩]⟩

/-- VEX_WIN_C, chapter 13 of the spec. -/
def rVEX_WIN_C : Reg := ⟨"VEX_WIN_C", 0x128, 0, 1,
  [⟨"cbase", 63, 0, .rw, 0⟩]⟩

/-- VEX_IRIDX, chapter 13 of the spec. -/
def rVEX_IRIDX : Reg := ⟨"VEX_IRIDX", 0x130, 0, 1,
  [⟨"page", 15, 0, .rw, 0⟩]⟩

/-- VEX_IRDATA, chapter 13 of the spec. -/
def rVEX_IRDATA : Reg := ⟨"VEX_IRDATA", 0x138, 0, 1,
  [⟨"en", 9, 9, .rw, 0⟩,
   ⟨"vec", 8, 0, .rw, 0⟩]⟩

/-- VEX_VEC_ADDR, chapter 13 of the spec. -/
def rVEX_VEC_ADDR : Reg := ⟨"VEX_VEC_ADDR", 0x1000, 16, 512,
  [⟨"addr", 63, 0, .rw, 0⟩]⟩

/-- VEX_VEC, chapter 13 of the spec. -/
def rVEX_VEC : Reg := ⟨"VEX_VEC", 0x1008, 16, 512,
  [⟨"pending", 33, 33, .ro, 0⟩,
   ⟨"mask", 32, 32, .rw, 1⟩,
   ⟨"data", 31, 0, .rw, 0⟩]⟩

def vexRegs : List Reg :=
  [rVEX_PORT, rVEX_CTL, rVEX_STS, rVEX_WIN_D, rVEX_WIN_C, rVEX_IRIDX, rVEX_IRDATA, rVEX_VEC_ADDR, rVEX_VEC]

/-! ### Registers of the ATT page -/

/-- ATT_REQ, chapter 18 of the spec. -/
def rATT_REQ : Reg := ⟨"ATT_REQ", 0x100, 0, 1,
  [⟨"go", 63, 63, .w1s, 0⟩,
   ⟨"lost", 62, 62, .w1c, 0⟩,
   ⟨"len", 12, 0, .rw, 0⟩]⟩

/-- ATT_RSP, chapter 18 of the spec. -/
def rATT_RSP : Reg := ⟨"ATT_RSP", 0x108, 0, 1,
  [⟨"ready", 63, 63, .w1c, 0⟩,
   ⟨"len", 12, 0, .ro, 0⟩]⟩

/-- ATT_REQ_BUF, chapter 18 of the spec. -/
def rATT_REQ_BUF : Reg := ⟨"ATT_REQ_BUF", 0x1000, 8, 512,
  [⟨"word", 63, 0, .rw, 0⟩]⟩

/-- ATT_RSP_BUF, chapter 18 of the spec. -/
def rATT_RSP_BUF : Reg := ⟨"ATT_RSP_BUF", 0x2000, 8, 512,
  [⟨"word", 63, 0, .ro, 0⟩]⟩

def attRegs : List Reg :=
  [rATT_REQ, rATT_RSP, rATT_REQ_BUF, rATT_RSP_BUF]

/-! ### Registers of the EMB page -/

/-- EMB_CFG, chapter 15 of the spec. -/
def rEMB_CFG : Reg := ⟨"EMB_CFG", 0x8000, 16, 2048,
  [⟨"kind", 63, 62, .rw, 3⟩,
   ⟨"remote", 61, 61, .rw, 0⟩,
   ⟨"rpart", 60, 55, .rw, 0⟩,
   ⟨"rdev", 54, 41, .rw, 0⟩,
   ⟨"rember", 40, 27, .rw, 0⟩,
   ⟨"parties", 15, 0, .rw, 0⟩]⟩

/-- EMB_VAL, chapter 15 of the spec. -/
def rEMB_VAL : Reg := ⟨"EMB_VAL", 0x8008, 16, 2048,
  [⟨"value", 63, 0, .rw, 0⟩]⟩

def embRegs : List Reg :=
  [rEMB_CFG, rEMB_VAL]

/-! ### Registers of the ETH page -/

/-- ETH_PORT, chapter 18 of the spec. -/
def rETH_PORT : Reg := ⟨"ETH_PORT", 0x100, 0, 1,
  [⟨"en", 63, 63, .rw, 1⟩,
   ⟨"state", 51, 48, .ro, 0⟩,
   ⟨"icrc_bad", 31, 0, .rc, 0⟩]⟩

/-- ETH_CRCVAL, chapter 18 of the spec. -/
def rETH_CRCVAL : Reg := ⟨"ETH_CRCVAL", 0x108, 0, 1,
  [⟨"val", 31, 0, .ro, 0⟩]⟩

def ethRegs : List Reg :=
  [rETH_PORT, rETH_CRCVAL]

/-! ### Registers of the DMA page -/

/-- DMA_RING, chapter 14 of the spec. -/
def rDMA_RING : Reg := ⟨"DMA_RING", 0x100, 64, 16,
  [⟨"k", 55, 52, .rw, 2⟩,
   ⟨"base", 47, 0, .rw, 0⟩]⟩

/-- DMA_CTL, chapter 14 of the spec. -/
def rDMA_CTL : Reg := ⟨"DMA_CTL", 0x108, 64, 16,
  [⟨"en", 63, 63, .rw, 0⟩,
   ⟨"abort", 62, 62, .w1s, 0⟩,
   ⟨"resume", 61, 61, .w1s, 0⟩,
   ⟨"world", 60, 60, .rw, 0⟩,
   ⟨"part", 59, 54, .rw, 0⟩]⟩

/-- DMA_IDX, chapter 14 of the spec. -/
def rDMA_IDX : Reg := ⟨"DMA_IDX", 0x110, 64, 16,
  [⟨"head", 47, 32, .ro, 0⟩,
   ⟨"tail", 15, 0, .rw, 0⟩]⟩

/-- DMA_STS, chapter 14 of the spec. -/
def rDMA_STS : Reg := ⟨"DMA_STS", 0x118, 64, 16,
  [⟨"last", 11, 4, .ro, 0⟩,
   ⟨"badfeed", 3, 3, .w1c, 0⟩,
   ⟨"noown", 2, 2, .w1c, 0⟩,
   ⟨"overrun", 1, 1, .w1c, 0⟩]⟩

/-- DMA_CRC_VAL, chapter 14 of the spec. -/
def rDMA_CRC_VAL : Reg := ⟨"DMA_CRC_VAL", 0x120, 64, 16,
  [⟨"val", 63, 0, .rw, 0⟩]⟩

/-- DMA_CRC_FEED, chapter 14 of the spec. -/
def rDMA_CRC_FEED : Reg := ⟨"DMA_CRC_FEED", 0x128, 64, 16,
  [⟨"data", 63, 0, .wo, 0⟩]⟩

/-- DMA_STAT, chapter 14 of the spec. -/
def rDMA_STAT : Reg := ⟨"DMA_STAT", 0x130, 64, 16,
  [⟨"state", 2, 0, .ro, 0⟩]⟩

/-- DMA_CRC_CLAIM, chapter 14 of the spec. -/
def rDMA_CRC_CLAIM : Reg := ⟨"DMA_CRC_CLAIM", 0x138, 64, 16,
  [⟨"held", 63, 63, .ro, 0⟩,
   ⟨"refused", 62, 62, .w1c, 0⟩,
   ⟨"op", 61, 60, .wo, 0⟩,
   ⟨"hkind", 55, 48, .ro, 0⟩,
   ⟨"hid", 47, 32, .ro, 0⟩,
   ⟨"rid", 31, 16, .wo, 0⟩,
   ⟨"init", 2, 2, .wo, 0⟩,
   ⟨"poly", 1, 0, .rw, 0⟩]⟩

def dmaRegs : List Reg :=
  [rDMA_RING, rDMA_CTL, rDMA_IDX, rDMA_STS, rDMA_CRC_VAL, rDMA_CRC_FEED, rDMA_STAT, rDMA_CRC_CLAIM]

/-! ### Registers of the PART page -/

/-- PART_CTL, chapter 15 of the spec. -/
def rPART_CTL : Reg := ⟨"PART_CTL", 0x100, 0, 1,
  [⟨"en", 63, 63, .rw, 0⟩,
   ⟨"pmode", 62, 62, .rw, 0⟩,
   ⟨"degr", 61, 61, .rw, 0⟩,
   ⟨"kvfmt", 60, 60, .rw, 0⟩,
   ⟨"result", 55, 48, .ro, 0⟩,
   ⟨"nctx", 35, 32, .rw, 0⟩,
   ⟨"slice", 31, 16, .rw, 0x3E8⟩]⟩

/-- PART_CORE, chapter 15 of the spec. -/
def rPART_CORE : Reg := ⟨"PART_CORE", 0x108, 8, 8,
  [⟨"cores", 63, 0, .rw, 0⟩]⟩

/-- PART_EMB, chapter 15 of the spec. -/
def rPART_EMB : Reg := ⟨"PART_EMB", 0x148, 0, 1,
  [⟨"count", 46, 32, .rw, 0⟩,
   ⟨"base", 13, 0, .rw, 0⟩]⟩

/-- PART_CTX, chapter 15 of the spec. -/
def rPART_CTX : Reg := ⟨"PART_CTX", 0x200, 8, 16,
  [⟨"en", 63, 63, .rw, 0⟩,
   ⟨"rnd", 62, 62, .rw, 0⟩,
   ⟨"prio", 61, 59, .rw, 0⟩,
   ⟨"state", 58, 56, .ro, 0⟩,
   ⟨"isa", 55, 48, .rw, 1⟩,
   ⟨"flags", 3, 0, .w1c, 0⟩]⟩

/-- PART_TPOST, chapter 15 of the spec. -/
def rPART_TPOST : Reg := ⟨"PART_TPOST", 0x280, 0, 1,
  [⟨"queue", 58, 56, .wo, 0⟩,
   ⟨"addr", 47, 0, .wo, 0⟩]⟩

/-- PART_SW, chapter 15 of the spec. -/
def rPART_SW : Reg := ⟨"PART_SW", 0x288, 0, 1,
  [⟨"count", 63, 32, .rc, 0⟩,
   ⟨"last_ns", 31, 0, .ro, 0⟩]⟩

/-- PART_EVT, chapter 15 of the spec. -/
def rPART_EVT : Reg := ⟨"PART_EVT", 0x298, 0, 1,
  [⟨"tbad", 10, 10, .w1c, 0⟩,
   ⟨"quota", 9, 9, .w1c, 0⟩,
   ⟨"engine", 8, 8, .w1c, 0⟩,
   ⟨"slot", 7, 7, .w1c, 0⟩,
   ⟨"wq", 6, 6, .w1c, 0⟩,
   ⟨"tfull", 5, 5, .w1c, 0⟩,
   ⟨"esat", 4, 4, .w1c, 0⟩,
   ⟨"ekind", 3, 3, .w1c, 0⟩,
   ⟨"restore", 2, 2, .w1c, 0⟩,
   ⟨"overrun", 1, 1, .w1c, 0⟩,
   ⟨"fault", 0, 0, .w1c, 0⟩]⟩

/-- PART_STAT, chapter 15 of the spec. -/
def rPART_STAT : Reg := ⟨"PART_STAT", 0x2A0, 0, 1,
  [⟨"timeouts", 63, 32, .rc, 0⟩,
   ⟨"kindmis", 31, 16, .rc, 0⟩,
   ⟨"faults", 15, 0, .rc, 0⟩]⟩

/-- PART_TQOCC, chapter 15 of the spec. -/
def rPART_TQOCC : Reg := ⟨"PART_TQOCC", 0x300, 8, 16,
  [⟨"occ", 63, 0, .ro, 0⟩]⟩

def partRegs : List Reg :=
  [rPART_CTL, rPART_CORE, rPART_EMB, rPART_CTX, rPART_TPOST, rPART_SW, rPART_EVT, rPART_STAT, rPART_TQOCC]

/-! ### Registers of the CACHE page -/

/-- CACHE_POOL, chapter 07 of the spec. -/
def rCACHE_POOL : Reg := ⟨"CACHE_POOL", 0x100, 0, 1,
  [⟨"npages", 55, 32, .rw, 0⟩,
   ⟨"base", 31, 0, .rw, 0⟩]⟩

/-- CACHE_BANK, chapter 07 of the spec. -/
def rCACHE_BANK : Reg := ⟨"CACHE_BANK", 0x108, 0, 1,
  [⟨"npages", 55, 32, .rw, 0⟩,
   ⟨"base", 31, 0, .rw, 0⟩]⟩

/-- CACHE_PARAM, chapter 07 of the spec. -/
def rCACHE_PARAM : Reg := ⟨"CACHE_PARAM", 0x110, 0, 1,
  [⟨"bank", 63, 32, .rw, 0⟩,
   ⟨"pool", 31, 0, .rw, 0⟩]⟩

/-- CACHE_SEQ, chapter 07 of the spec. -/
def rCACHE_SEQ : Reg := ⟨"CACHE_SEQ", 0x118, 0, 1,
  [⟨"nseq", 46, 32, .rw, 0⟩,
   ⟨"base", 31, 0, .rw, 0⟩]⟩

/-- CACHE_TAIL, chapter 07 of the spec. -/
def rCACHE_TAIL : Reg := ⟨"CACHE_TAIL", 0x120, 0, 1,
  [⟨"base", 31, 0, .rw, 0⟩]⟩

/-- CACHE_LTAB, chapter 07 of the spec. -/
def rCACHE_LTAB : Reg := ⟨"CACHE_LTAB", 0x128, 0, 1,
  [⟨"base", 31, 0, .rw, 0⟩]⟩

/-- CACHE_CQ, chapter 07 of the spec. -/
def rCACHE_CQ : Reg := ⟨"CACHE_CQ", 0x130, 0, 1,
  [⟨"n", 35, 32, .rw, 0⟩,
   ⟨"base", 31, 0, .rw, 0⟩]⟩

/-- CACHE_GEOM, chapter 07 of the spec. -/
def rCACHE_GEOM : Reg := ⟨"CACHE_GEOM", 0x138, 0, 1,
  [⟨"dh", 33, 32, .rw, 1⟩,
   ⟨"nlayers", 19, 8, .rw, 0⟩,
   ⟨"nheads", 7, 0, .rw, 0⟩]⟩

/-- CACHE_CTL, chapter 07 of the spec. -/
def rCACHE_CTL : Reg := ⟨"CACHE_CTL", 0x140, 0, 1,
  [⟨"en", 63, 63, .rw, 0⟩,
   ⟨"bank_on_pause", 62, 62, .rw, 0⟩,
   ⟨"kv_stream", 57, 56, .rw, 0⟩,
   ⟨"ship_to", 47, 32, .rw, 0x3E8⟩,
   ⟨"ttl", 31, 0, .rw, 0x36EE80⟩]⟩

/-- CACHE_CQ_IDX, chapter 07 of the spec. -/
def rCACHE_CQ_IDX : Reg := ⟨"CACHE_CQ_IDX", 0x148, 0, 1,
  [⟨"ci", 47, 32, .ro, 0⟩,
   ⟨"pi", 15, 0, .rw, 0⟩]⟩

/-- CACHE_STS, chapter 07 of the spec. -/
def rCACHE_STS : Reg := ⟨"CACHE_STS", 0x150, 0, 1,
  [⟨"pool_free", 63, 40, .ro, 0⟩,
   ⟨"pool_rsv", 39, 16, .ro, 0⟩,
   ⟨"awaiting", 14, 0, .ro, 0⟩]⟩

/-- CACHE_BSTS, chapter 07 of the spec. -/
def rCACHE_BSTS : Reg := ⟨"CACHE_BSTS", 0x158, 0, 1,
  [⟨"active", 46, 32, .ro, 0⟩,
   ⟨"bank_free", 23, 0, .ro, 0⟩]⟩

/-- CACHE_STAT, chapter 07 of the spec. -/
def rCACHE_STAT : Reg := ⟨"CACHE_STAT", 0x160, 0, 1,
  [⟨"banked", 63, 48, .rc, 0⟩,
   ⟨"expired", 47, 32, .rc, 0⟩,
   ⟨"suspended", 31, 16, .rc, 0⟩,
   ⟨"shipped", 15, 0, .rc, 0⟩]⟩

def cacheRegs : List Reg :=
  [rCACHE_POOL, rCACHE_BANK, rCACHE_PARAM, rCACHE_SEQ, rCACHE_TAIL, rCACHE_LTAB, rCACHE_CQ, rCACHE_GEOM,
   rCACHE_CTL, rCACHE_CQ_IDX, rCACHE_STS, rCACHE_BSTS, rCACHE_STAT]

/-! ### Registers of the GEN page -/

/-- GEN_REQ, chapter 08 of the spec. -/
def rGEN_REQ : Reg := ⟨"GEN_REQ", 0x100, 0, 1,
  [⟨"nreq", 47, 32, .rw, 0⟩,
   ⟨"base", 31, 0, .rw, 0⟩]⟩

/-- GEN_BIAS, chapter 08 of the spec. -/
def rGEN_BIAS : Reg := ⟨"GEN_BIAS", 0x108, 0, 1,
  [⟨"base", 31, 0, .rw, 0⟩]⟩

/-- GEN_DRAFT, chapter 08 of the spec. -/
def rGEN_DRAFT : Reg := ⟨"GEN_DRAFT", 0x110, 0, 1,
  [⟨"thr", 15, 8, .rw, 0x40⟩,
   ⟨"plen", 3, 0, .rw, 2⟩]⟩

/-- GEN_CMD, chapter 08 of the spec. -/
def rGEN_CMD : Reg := ⟨"GEN_CMD", 0x118, 0, 1,
  [⟨"op", 63, 60, .wo, 0⟩,
   ⟨"index", 15, 0, .wo, 0⟩]⟩

/-- GEN_CMD_STS, chapter 08 of the spec. -/
def rGEN_CMD_STS : Reg := ⟨"GEN_CMD_STS", 0x120, 0, 1,
  [⟨"busy", 8, 8, .ro, 0⟩,
   ⟨"result", 7, 0, .ro, 0⟩]⟩

/-- DAMP_CTL, chapter 08 of the spec. -/
def rDAMP_CTL : Reg := ⟨"DAMP_CTL", 0x200, 0, 1,
  [⟨"mode", 63, 62, .rw, 0⟩,
   ⟨"level", 61, 59, .rw, 0⟩,
   ⟨"nlast", 55, 52, .rw, 1⟩,
   ⟨"quantum", 47, 32, .rw, 0x9C4⟩,
   ⟨"period", 31, 16, .rw, 0x4E20⟩,
   ⟨"dcap", 15, 0, .rw, 0x9C40⟩]⟩

/-- DAMP_STEP, chapter 08 of the spec. -/
def rDAMP_STEP : Reg := ⟨"DAMP_STEP", 0x208, 0, 1,
  [⟨"k", 63, 0, .rw, 0⟩]⟩

/-- DAMP_LVL, chapter 08 of the spec. -/
def rDAMP_LVL : Reg := ⟨"DAMP_LVL", 0x210, 8, 8,
  [⟨"draft", 35, 32, .rw, 8⟩,
   ⟨"prefill", 23, 0, .rw, 0xFFFFFF⟩]⟩

/-- DAMP_BUDGET, chapter 08 of the spec. -/
def rDAMP_BUDGET : Reg := ⟨"DAMP_BUDGET", 0x250, 0, 1,
  [⟨"step", 63, 32, .ro, 0⟩,
   ⟨"level", 31, 29, .ro, 0⟩,
   ⟨"draft", 27, 24, .ro, 8⟩,
   ⟨"prefill", 23, 0, .ro, 0xFFFFFF⟩]⟩

/-- DAMP_STAT, chapter 08 of the spec. -/
def rDAMP_STAT : Reg := ⟨"DAMP_STAT", 0x258, 0, 1,
  [⟨"late_steps", 63, 48, .rc, 0⟩,
   ⟨"late_layers", 47, 32, .rc, 0⟩,
   ⟨"degraded_rows", 31, 0, .rc, 0⟩]⟩

/-- DAMP_DEBT, chapter 08 of the spec. -/
def rDAMP_DEBT : Reg := ⟨"DAMP_DEBT", 0x260, 0, 1,
  [⟨"debt", 31, 0, .ro, 0⟩]⟩

def genRegs : List Reg :=
  [rGEN_REQ, rGEN_BIAS, rGEN_DRAFT, rGEN_CMD, rGEN_CMD_STS, rDAMP_CTL, rDAMP_STEP, rDAMP_LVL, rDAMP_BUDGET,
   rDAMP_STAT, rDAMP_DEBT]

/-! ### Registers of the LRN page -/

/-- LRN_GEN, chapter 09 of the spec. -/
def rLRN_GEN : Reg := ⟨"LRN_GEN", 0x100, 8, 16,
  [⟨"refused", 63, 63, .w1c, 0⟩,
   ⟨"free", 0, 0, .rw, 0⟩]⟩

/-- LRN_SEED, chapter 09 of the spec. -/
def rLRN_SEED : Reg := ⟨"LRN_SEED", 0x180, 8, 16,
  [⟨"seed", 63, 0, .rw, 0⟩]⟩

/-- LRN_PSTEP, chapter 09 of the spec. -/
def rLRN_PSTEP : Reg := ⟨"LRN_PSTEP", 0x200, 0, 1,
  [⟨"k", 63, 0, .wo, 0⟩]⟩

/-- LRN_PTRACE, chapter 09 of the spec. -/
def rLRN_PTRACE : Reg := ⟨"LRN_PTRACE", 0x208, 0, 1,
  [⟨"en", 63, 63, .rw, 0⟩,
   ⟨"nrec", 55, 32, .rw, 0⟩,
   ⟨"base", 31, 0, .rw, 0⟩]⟩

/-- LRN_PTIDX, chapter 09 of the spec. -/
def rLRN_PTIDX : Reg := ⟨"LRN_PTIDX", 0x210, 0, 1,
  [⟨"written", 31, 0, .ro, 0⟩]⟩

/-- LRN_ASH_BASE, chapter 09 of the spec. -/
def rLRN_ASH_BASE : Reg := ⟨"LRN_ASH_BASE", 0x300, 0, 1,
  [⟨"size", 55, 32, .rw, 0⟩,
   ⟨"base", 31, 0, .rw, 0⟩]⟩

/-- LRN_ASH_CTL, chapter 09 of the spec. -/
def rLRN_ASH_CTL : Reg := ⟨"LRN_ASH_CTL", 0x308, 0, 1,
  [⟨"rec", 63, 63, .rw, 0⟩,
   ⟨"context", 3, 0, .rw, 0⟩]⟩

/-- LRN_ASH_APP, chapter 09 of the spec. -/
def rLRN_ASH_APP : Reg := ⟨"LRN_ASH_APP", 0x310, 0, 1,
  [⟨"addr", 47, 0, .wo, 0⟩]⟩

/-- LRN_ASH_STS, chapter 09 of the spec. -/
def rLRN_ASH_STS : Reg := ⟨"LRN_ASH_STS", 0x318, 0, 1,
  [⟨"records", 63, 32, .ro, 0⟩,
   ⟨"fault", 2, 2, .ro, 0⟩,
   ⟨"gap", 1, 1, .ro, 0⟩,
   ⟨"busy", 0, 0, .ro, 0⟩]⟩

/-- LRN_PCUR, chapter 09 of the spec. -/
def rLRN_PCUR : Reg := ⟨"LRN_PCUR", 0x400, 8, 72,
  [⟨"word", 63, 0, .ro, 0⟩]⟩

/-- LRN_PLAST, chapter 09 of the spec. -/
def rLRN_PLAST : Reg := ⟨"LRN_PLAST", 0x800, 8, 72,
  [⟨"word", 63, 0, .ro, 0⟩]⟩

def lrnRegs : List Reg :=
  [rLRN_GEN, rLRN_SEED, rLRN_PSTEP, rLRN_PTRACE, rLRN_PTIDX, rLRN_ASH_BASE, rLRN_ASH_CTL, rLRN_ASH_APP,
   rLRN_ASH_STS, rLRN_PCUR, rLRN_PLAST]

/-! ### Registers of the STV page -/

/-- STV_WIN, chapter 10 of the spec. -/
def rSTV_WIN : Reg := ⟨"STV_WIN", 0x400, 32, 16,
  [⟨"en", 63, 63, .rw, 0⟩,
   ⟨"fmt", 62, 62, .rw, 0⟩,
   ⟨"context", 55, 52, .rw, 0⟩,
   ⟨"base", 47, 0, .rw, 0⟩]⟩

/-- STV_WIN_N, chapter 10 of the spec. -/
def rSTV_WIN_N : Reg := ⟨"STV_WIN_N", 0x408, 32, 16,
  [⟨"n", 39, 0, .rw, 0⟩]⟩

/-- STV_WIN_BUF, chapter 10 of the spec. -/
def rSTV_WIN_BUF : Reg := ⟨"STV_WIN_BUF", 0x410, 32, 16,
  [⟨"buf", 47, 0, .rw, 0⟩]⟩

/-- STV_WIN_KEY, chapter 10 of the spec. -/
def rSTV_WIN_KEY : Reg := ⟨"STV_WIN_KEY", 0x418, 32, 16,
  [⟨"step", 63, 32, .rw, 0⟩,
   ⟨"tag", 31, 0, .rw, 0⟩]⟩

/-- STV_SCHED, chapter 10 of the spec. -/
def rSTV_SCHED : Reg := ⟨"STV_SCHED", 0x200, 32, 16,
  [⟨"lo", 63, 32, .rw, 0⟩,
   ⟨"peak", 31, 0, .rw, 0⟩]⟩

/-- STV_SCHED_WC, chapter 10 of the spec. -/
def rSTV_SCHED_WC : Reg := ⟨"STV_SCHED_WC", 0x208, 32, 16,
  [⟨"w", 63, 32, .rw, 0⟩,
   ⟨"c", 31, 0, .rw, 0⟩]⟩

/-- STV_SCHED_T0, chapter 10 of the spec. -/
def rSTV_SCHED_T0 : Reg := ⟨"STV_SCHED_T0", 0x210, 32, 16,
  [⟨"t0", 63, 32, .rw, 0⟩,
   ⟨"gamma", 31, 0, .rw, 0⟩]⟩

/-- STV_SCHED_SHAPE, chapter 10 of the spec. -/
def rSTV_SCHED_SHAPE : Reg := ⟨"STV_SCHED_SHAPE", 0x218, 32, 16,
  [⟨"restart", 2, 2, .rw, 0⟩,
   ⟨"shape", 1, 0, .rw, 0⟩]⟩

/-- STV_CMD, chapter 10 of the spec. -/
def rSTV_CMD : Reg := ⟨"STV_CMD", 0x118, 0, 1,
  [⟨"op", 63, 60, .wo, 0⟩,
   ⟨"context", 59, 56, .wo, 0⟩,
   ⟨"win", 55, 52, .wo, 0⟩,
   ⟨"nent", 47, 32, .wo, 0⟩,
   ⟨"first", 31, 16, .wo, 0⟩,
   ⟨"ember_en", 15, 15, .wo, 0⟩,
   ⟨"ember", 13, 0, .wo, 0⟩]⟩

/-- STV_ARG, chapter 10 of the spec. -/
def rSTV_ARG : Reg := ⟨"STV_ARG", 0x110, 0, 1,
  [⟨"gs", 63, 32, .rw, 0x3F800000⟩,
   ⟨"step", 31, 0, .rw, 0⟩]⟩

/-- STV_CMD_STS, chapter 10 of the spec. -/
def rSTV_CMD_STS : Reg := ⟨"STV_CMD_STS", 0x120, 0, 1,
  [⟨"badwr", 19, 19, .w1c, 0⟩,
   ⟨"nan", 18, 18, .ro, 0⟩,
   ⟨"inv", 17, 17, .ro, 0⟩,
   ⟨"ovf", 16, 16, .ro, 0⟩,
   ⟨"lost", 9, 9, .w1c, 0⟩,
   ⟨"busy", 8, 8, .ro, 0⟩,
   ⟨"result", 7, 0, .ro, 0⟩]⟩

/-- STV_PROG, chapter 10 of the spec. -/
def rSTV_PROG : Reg := ⟨"STV_PROG", 0x128, 0, 1,
  [⟨"entry", 47, 32, .ro, 0⟩,
   ⟨"slab", 31, 0, .ro, 0⟩]⟩

/-- STV_COEF, chapter 10 of the spec. -/
def rSTV_COEF : Reg := ⟨"STV_COEF", 0x100, 0, 1,
  [⟨"base", 31, 0, .rw, 0⟩]⟩

/-- STV_SHARD, chapter 10 of the spec. -/
def rSTV_SHARD : Reg := ⟨"STV_SHARD", 0x108, 0, 1,
  [⟨"nent", 47, 32, .rw, 0⟩,
   ⟨"base", 31, 0, .rw, 0⟩]⟩

/-- STV_STAT, chapter 10 of the spec. -/
def rSTV_STAT : Reg := ⟨"STV_STAT", 0x130, 0, 1,
  [⟨"base", 31, 0, .rw, 0⟩]⟩

/-- STV_CTL, chapter 10 of the spec. -/
def rSTV_CTL : Reg := ⟨"STV_CTL", 0x138, 0, 1,
  [⟨"mto", 15, 0, .rw, 0x2710⟩]⟩

def stvRegs : List Reg :=
  [rSTV_WIN, rSTV_WIN_N, rSTV_WIN_BUF, rSTV_WIN_KEY, rSTV_SCHED, rSTV_SCHED_WC, rSTV_SCHED_T0, rSTV_SCHED_SHAPE,
   rSTV_CMD, rSTV_ARG, rSTV_CMD_STS, rSTV_PROG, rSTV_COEF, rSTV_SHARD, rSTV_STAT, rSTV_CTL]

/-! ### Registers of the WGT page -/

/-- WGT_MAN, chapter 11 of the spec. -/
def rWGT_MAN : Reg := ⟨"WGT_MAN", 0x100, 0, 1,
  [⟨"addr", 47, 0, .rw, 0⟩]⟩

/-- WGT_CONN, chapter 11 of the spec. -/
def rWGT_CONN : Reg := ⟨"WGT_CONN", 0x108, 0, 1,
  [⟨"nconn", 41, 32, .rw, 0⟩,
   ⟨"base", 31, 0, .rw, 0⟩]⟩

/-- WGT_CTL, chapter 11 of the spec. -/
def rWGT_CTL : Reg := ⟨"WGT_CTL", 0x110, 0, 1,
  [⟨"retries", 63, 60, .rw, 3⟩,
   ⟨"ato", 47, 32, .rw, 0x3E8⟩,
   ⟨"cto", 31, 0, .rw, 0xEA60⟩]⟩

/-- WGT_CMD, chapter 11 of the spec. -/
def rWGT_CMD : Reg := ⟨"WGT_CMD", 0x118, 0, 1,
  [⟨"op", 63, 60, .wo, 0⟩,
   ⟨"slot", 59, 58, .wo, 0⟩,
   ⟨"local", 57, 57, .wo, 0⟩,
   ⟨"group", 41, 32, .wo, 0⟩,
   ⟨"regions", 31, 0, .wo, 0⟩]⟩

/-- WGT_STS, chapter 11 of the spec. -/
def rWGT_STS : Reg := ⟨"WGT_STS", 0x120, 0, 1,
  [⟨"fchunk", 63, 44, .ro, 0⟩,
   ⟨"done", 43, 24, .ro, 0⟩,
   ⟨"lost", 9, 9, .w1c, 0⟩,
   ⟨"busy", 8, 8, .ro, 0⟩,
   ⟨"result", 7, 0, .ro, 0⟩]⟩

/-- WGT_SLOT, chapter 11 of the spec. -/
def rWGT_SLOT : Reg := ⟨"WGT_SLOT", 0x140, 32, 4,
  [⟨"state", 63, 61, .ro, 0⟩,
   ⟨"failed", 60, 60, .ro, 0⟩,
   ⟨"pins", 55, 32, .ro, 0⟩,
   ⟨"epoch", 31, 0, .ro, 0⟩]⟩

/-- WGT_SLOT_NREG, chapter 11 of the spec. -/
def rWGT_SLOT_NREG : Reg := ⟨"WGT_SLOT_NREG", 0x148, 32, 4,
  [⟨"nreg", 44, 32, .rw, 0⟩]⟩

/-- WGT_SLOT_MAN, chapter 11 of the spec. -/
def rWGT_SLOT_MAN : Reg := ⟨"WGT_SLOT_MAN", 0x150, 32, 4,
  [⟨"man", 47, 0, .ro, 0⟩]⟩

def wgtRegs : List Reg :=
  [rWGT_MAN, rWGT_CONN, rWGT_CTL, rWGT_CMD, rWGT_STS, rWGT_SLOT, rWGT_SLOT_NREG, rWGT_SLOT_MAN]

/-! ### Registers of the VWQ page -/

/-- VWQ_WQ, chapter 13 of the spec. -/
def rVWQ_WQ : Reg := ⟨"VWQ_WQ", 0x100, 32, 16,
  [⟨"en", 63, 63, .rw, 0⟩,
   ⟨"notify", 62, 62, .rw, 0⟩,
   ⟨"class", 61, 59, .rw, 0⟩,
   ⟨"tq", 58, 56, .rw, 0⟩,
   ⟨"k", 52, 48, .rw, 4⟩,
   ⟨"base", 47, 0, .rw, 0⟩]⟩

/-- VWQ_WQ_START, chapter 13 of the spec. -/
def rVWQ_WQ_START : Reg := ⟨"VWQ_WQ_START", 0x108, 32, 16,
  [⟨"start", 63, 32, .rw, 0⟩]⟩

/-- VWQ_WQ_CRED, chapter 13 of the spec. -/
def rVWQ_WQ_CRED : Reg := ⟨"VWQ_WQ_CRED", 0x110, 32, 16,
  [⟨"cred", 63, 0, .rw, 0⟩]⟩

/-- VWQ_WQ_CI, chapter 13 of the spec. -/
def rVWQ_WQ_CI : Reg := ⟨"VWQ_WQ_CI", 0x118, 32, 16,
  [⟨"overrun", 63, 63, .w1c, 0⟩,
   ⟨"ci", 31, 0, .ro, 0⟩]⟩

/-- VWQ_DB, chapter 13 of the spec. -/
def rVWQ_DB : Reg := ⟨"VWQ_DB", 0x300, 8, 16,
  [⟨"grant", 63, 32, .ro, 0⟩,
   ⟨"pi", 31, 0, .rw, 0⟩]⟩

/-- VWQ_NCTL, chapter 13 of the spec. -/
def rVWQ_NCTL : Reg := ⟨"VWQ_NCTL", 0x408, 0, 1,
  [⟨"hold", 63, 48, .rw, 0⟩,
   ⟨"coal", 47, 32, .rw, 0⟩,
   ⟨"ien", 9, 9, .rw, 0⟩,
   ⟨"vec", 8, 0, .rw, 0⟩]⟩

/-- VWQ_NSTS, chapter 13 of the spec. -/
def rVWQ_NSTS : Reg := ⟨"VWQ_NSTS", 0x410, 0, 1,
  [⟨"held", 13, 0, .ro, 0⟩]⟩

/-- VWQ_NPOP, chapter 13 of the spec. -/
def rVWQ_NPOP : Reg := ⟨"VWQ_NPOP", 0x400, 0, 1,
  [⟨"notice", 63, 0, .rc, 0⟩]⟩

def vwqRegs : List Reg :=
  [rVWQ_WQ, rVWQ_WQ_START, rVWQ_WQ_CRED, rVWQ_WQ_CI, rVWQ_DB, rVWQ_NCTL, rVWQ_NSTS, rVWQ_NPOP]

/-! ### Registers of the CORE page -/

/-- CORE_CTL, chapter 03 of the spec. -/
def rCORE_CTL : Reg := ⟨"CORE_CTL", 0x100, 0, 1,
  [⟨"drain", 1, 1, .rw, 0⟩,
   ⟨"halt", 0, 0, .rw, 0⟩]⟩

/-- CORE_STS, chapter 03 of the spec. -/
def rCORE_STS : Reg := ⟨"CORE_STS", 0x108, 0, 1,
  [⟨"live_acc", 38, 32, .ro, 0⟩,
   ⟨"live_seg", 30, 24, .ro, 0⟩,
   ⟨"context", 23, 20, .ro, 0⟩,
   ⟨"partition", 19, 14, .ro, 0⟩,
   ⟨"overrun", 4, 4, .w1c, 0⟩,
   ⟨"carry", 3, 3, .ro, 0⟩,
   ⟨"state", 2, 0, .ro, 0⟩]⟩

/-- CORE_FAULT, chapter 03 of the spec. -/
def rCORE_FAULT : Reg := ⟨"CORE_FAULT", 0x110, 0, 1,
  [⟨"addr", 63, 16, .ro, 0⟩,
   ⟨"code", 7, 0, .ro, 0⟩]⟩

/-- CORE_TILE_MAX, chapter 03 of the spec. -/
def rCORE_TILE_MAX : Reg := ⟨"CORE_TILE_MAX", 0x118, 0, 1,
  [⟨"max_ns", 31, 0, .rc, 0⟩]⟩

/-- CORE_NFLAG, chapter 04 of the spec. -/
def rCORE_NFLAG : Reg := ⟨"CORE_NFLAG", 0x120, 0, 1,
  [⟨"isat", 3, 3, .ro, 0⟩,
   ⟨"nan", 2, 2, .ro, 0⟩,
   ⟨"inv", 1, 1, .ro, 0⟩,
   ⟨"ovf", 0, 0, .ro, 0⟩]⟩

def coreRegs : List Reg :=
  [rCORE_CTL, rCORE_STS, rCORE_FAULT, rCORE_TILE_MAX, rCORE_NFLAG]

/-! ### Registers of the common header (R447) -/

/-- BLK_VER, chapter 18 of the spec. -/
def rBLK_VER : Reg := ⟨"BLK_VER", 0x8, 0, 1,
  [⟨"stepping", 31, 24, .ro, 0xB0⟩,
   ⟨"major", 23, 16, .ro, 1⟩,
   ⟨"minor", 15, 8, .ro, 0⟩,
   ⟨"impl", 7, 0, .ro, 0⟩]⟩

/-- BLK_CTL, chapter 18 of the spec. -/
def rBLK_CTL : Reg := ⟨"BLK_CTL", 0x18, 0, 1,
  [⟨"reset", 0, 0, .wo, 0⟩]⟩

/-- BLK_STS, chapter 18 of the spec. -/
def rBLK_STS : Reg := ⟨"BLK_STS", 0x20, 0, 1,
  [⟨"rst_refused", 2, 2, .w1c, 0⟩,
   ⟨"in_reset", 1, 1, .ro, 0⟩,
   ⟨"in_service", 0, 0, .ro, 0⟩]⟩

/-- INT_STS, chapter 18 of the spec. -/
def rINT_STS : Reg := ⟨"INT_STS", 0x28, 0, 1,
  [⟨"sts", 63, 0, .w1c, 0⟩]⟩

/-- INT_EN, chapter 18 of the spec. -/
def rINT_EN : Reg := ⟨"INT_EN", 0x30, 0, 1,
  [⟨"en", 63, 0, .rw, 0⟩]⟩

/-- INT_SET, chapter 18 of the spec. -/
def rINT_SET : Reg := ⟨"INT_SET", 0x38, 0, 1,
  [⟨"set", 63, 0, .wo, 0⟩]⟩

/-- ERR_LOG0, chapter 18 of the spec. -/
def rERR_LOG0 : Reg := ⟨"ERR_LOG0", 0x40, 0, 1,
  [⟨"valid", 63, 63, .w1c, 0⟩,
   ⟨"over", 62, 62, .w1c, 0⟩,
   ⟨"code", 55, 48, .ro, 0⟩,
   ⟨"detail", 47, 0, .ro, 0⟩]⟩

/-- ERR_LOG1, chapter 18 of the spec. -/
def rERR_LOG1 : Reg := ⟨"ERR_LOG1", 0x48, 0, 1,
  [⟨"addr", 47, 0, .ro, 0⟩]⟩

/-- ERR_LOG2, chapter 18 of the spec. -/
def rERR_LOG2 : Reg := ⟨"ERR_LOG2", 0x50, 0, 1,
  [⟨"rindex", 63, 32, .ro, 0⟩,
   ⟨"rkind", 31, 24, .ro, 0⟩,
   ⟨"world", 22, 22, .ro, 0⟩,
   ⟨"part", 21, 16, .ro, 0⟩,
   ⟨"dev", 13, 0, .ro, 0⟩]⟩

/-- ERR_LOG3, chapter 18 of the spec. -/
def rERR_LOG3 : Reg := ⟨"ERR_LOG3", 0x58, 0, 1,
  [⟨"ltc", 63, 0, .ro, 0⟩]⟩

/-- WORLD, chapter 18 of the spec. -/
def rWORLD : Reg := ⟨"WORLD", 0x60, 0, 1,
  [⟨"world", 0, 0, .rw, 1⟩]⟩

/-- CLAIM, chapter 18 of the spec. -/
def rCLAIM : Reg := ⟨"CLAIM", 0x68, 0, 1,
  [⟨"held", 63, 63, .ro, 0⟩,
   ⟨"refused", 62, 62, .w1c, 0⟩,
   ⟨"op", 61, 60, .wo, 0⟩,
   ⟨"hkind", 55, 48, .ro, 0⟩,
   ⟨"hid", 47, 32, .ro, 0⟩,
   ⟨"rid", 31, 16, .wo, 0⟩]⟩

def hdrRegs : List Reg :=
  [rBLK_VER, rBLK_CTL, rBLK_STS, rINT_STS, rINT_EN, rINT_SET, rERR_LOG0, rERR_LOG1, rERR_LOG2, rERR_LOG3,
   rWORLD, rCLAIM]


/-! ### Pages -/

/-- The kinds of register page of R442. -/
inductive PageKind where
  | mod | fen | err | tier | fab | vex | att | emb | hbm | sdie | eth | gey | flue | blw | dma
  | part | cache | gen | lrn | stv | wgt | vwq | core
deriving DecidableEq, Repr

/-- The page at an index, with its instance number (R442); `none` for a reserved index or the tier map window. -/
def pageOf (i : Nat) : Option (PageKind × Nat) :=
  if i = 0 then some (.mod, 0) else if i = 1 then some (.fen, 0) else if i = 2 then some (.err, 0)
  else if i = 3 then some (.tier, 0) else if i = 4 then some (.fab, 0) else if i = 5 then some (.vex, 0)
  else if i = 6 then some (.att, 0)
  else if 0x8 ≤ i ∧ i ≤ 0xF then some (.emb, i - 0x8)
  else if 0x10 ≤ i ∧ i ≤ 0x1F then some (.hbm, i - 0x10)
  else if 0x20 ≤ i ∧ i ≤ 0x23 then some (.sdie, i - 0x20)
  else if 0x24 ≤ i ∧ i ≤ 0x25 then some (.eth, i - 0x24)
  else if 0x28 ≤ i ∧ i ≤ 0x2F then some (.gey, i - 0x28)
  else if 0x30 ≤ i ∧ i ≤ 0x37 then some (.flue, i - 0x30)
  else if 0x38 ≤ i ∧ i ≤ 0x3B then some (.blw, i - 0x38)
  else if 0x40 ≤ i ∧ i ≤ 0x47 then some (.dma, i - 0x40)
  else if 0x48 ≤ i ∧ i ≤ 0x4B then some (.dma, i - 0x48)
  else if 0x4C ≤ i ∧ i ≤ 0x4F then some (.dma, i - 0x4C)
  else if 0x100 ≤ i ∧ i < 0x140 then some (.part, i - 0x100)
  else if 0x140 ≤ i ∧ i < 0x180 then some (.cache, i - 0x140)
  else if 0x180 ≤ i ∧ i < 0x1C0 then some (.gen, i - 0x180)
  else if 0x1C0 ≤ i ∧ i < 0x200 then some (.lrn, i - 0x1C0)
  else if 0x200 ≤ i ∧ i < 0x240 then some (.stv, i - 0x200)
  else if 0x240 ≤ i ∧ i < 0x280 then some (.wgt, i - 0x240)
  else if 0x280 ≤ i ∧ i < 0x2C0 then some (.vwq, i - 0x280)
  else if 0x400 ≤ i ∧ i < 0x600 then some (.core, i - 0x400)
  else none

/-- The type code that BLK_ID reports (R442). -/
def PageKind.code : PageKind → Nat
  | .mod => 1 | .fen => 2 | .err => 3 | .tier => 4 | .fab => 5 | .vex => 6 | .att => 7 | .emb => 8 | .hbm => 9
  | .sdie => 10 | .eth => 11 | .gey => 12 | .flue => 13 | .blw => 14 | .dma => 15 | .part => 16 | .cache => 17
  | .gen => 18 | .lrn => 19 | .stv => 20 | .wgt => 21 | .vwq => 22 | .core => 23

/-- The registers that follow the header of a page. HBM, SDIE, GEY, FLUE and BLW pages are header only (R442). -/
def PageKind.regs : PageKind → List Reg
  | .mod => modRegs | .fen => fenRegs | .err => errRegs | .tier => tierRegs | .fab => fabRegs | .vex => vexRegs
  | .att => attRegs | .emb => embRegs | .eth => ethRegs | .dma => dmaRegs | .part => partRegs | .cache => cacheRegs
  | .gen => genRegs | .lrn => lrnRegs | .stv => stvRegs | .wgt => wgtRegs | .vwq => vwqRegs | .core => coreRegs
  | .hbm | .sdie | .gey | .flue | .blw => []

/-- Pages that support block reset (R448). -/
def PageKind.breset : PageKind → Bool
  | .mod | .fen | .err | .tier | .fab | .vex | .emb | .hbm | .sdie => false
  | _ => true

/-- INT_STS bits in use: bit 0 everywhere; the comparators on MOD, the response on ATT, the channels on DMA (R449). -/
def PageKind.nint (i : Nat) : PageKind → Nat
  | .mod => 5
  | .att => 2
  | .dma => if i ≤ 0x47 then 17 else 9
  | _ => 1

/-- Does CLAIM of the header arbitrate a resource of this page (R456)? -/
def PageKind.claims : PageKind → Bool
  | .mod | .eth => true
  | _ => false

/-- Does a register of the array stand at this offset? -/
def Reg.covers (r : Reg) (off : Nat) : Bool :=
  r.off ≤ off && (if r.stride = 0 then off == r.off
                  else (off - r.off) % r.stride == 0 && (off - r.off) / r.stride < r.count)

/-- The register at an 8-byte-aligned offset of a page. On the DMA pages of I/O and Stove dies only 8 channels
exist (R359). -/
def regAt (page off : Nat) : Option Reg :=
  match pageOf page with
  | none => none
  | some (k, _) =>
    if off < 0x70 then hdrRegs.find? (·.covers off)
    else if k = .dma ∧ 0x48 ≤ page ∧ 0x300 ≤ off then none
    else k.regs.find? (·.covers off)

/-- The bits of the fields whose access code is one of those given, as a mask. -/
def Reg.mask (r : Reg) (p : Acc8 → Bool) : Nat :=
  r.fields.foldl (fun m f => if p f.acc then m ||| ((2 ^ (f.hi + 1 - f.lo) - 1) * 2 ^ f.lo) else m) 0

/-- The reset value of a register: each field's, in place (R7). -/
def Reg.reset (r : Reg) : Nat := r.fields.foldl (fun m f => m ||| f.reset * 2 ^ f.lo) 0

/-- Fixed identity and capability words of a page's header (R447). -/
def fixedWord (page off : Nat) : Option Nat :=
  match pageOf page with
  | none => none
  | some (k, inst) =>
    if off = 0x00 then some (page * 2 ^ 32 + inst * 2 ^ 16 + k.code)
    else if off = 0x08 then
      some (0xB0010000 + (match k with | .core => 1 | .fab => 2 | .vex => 2 | _ => 0))
    else if off = 0x10 then some (b2n k.breset * 2 ^ 9 + b2n k.claims * 2 ^ 8 + k.nint page)
    else none

/-- The reset value of the register-space word `page * 0x10000 + off`; words that no register covers read 0 (R443). -/
def regReset (key : Nat) : Word :=
  let page := key / 0x10000
  let off := key % 0x10000
  match fixedWord page off with
  | some v => BitVec.ofNat 64 v
  | none => match regAt page off with
    | some r => BitVec.ofNat 64 r.reset
    | none => 0

end Sys2Proof.Machine
end

