-- ==== Sys2Proof/Machine/State.lean ====
section
/-! DEFINITION. The state of the block as plain data: every register of the register map, both memory tiers, the cores,
the engines and the links, and the queue of waiting commands. -/

namespace Sys2Proof.Machine

/-! ### What leaves the block -/

/-- What the block sends outside: pins are fields of the state; these are messages. -/
inductive Out where
  | irq (vector : Nat) (addr : Nat) (data : Nat)
  /-- A write at a companion address in a world (R342, R347); `id` numbers a write of the window, which the home
  acknowledges. -/
  | companionWrite (id : Option Nat) (addr : Nat) (data : List Byte) (poisoned secure : Bool)
  /-- A poisoned write without feature [2]: it reaches the companion as a completion error (R344). -/
  | companionError (id : Option Nat) (addr n : Nat) (secure : Bool)
  | companionRead (addr n : Nat) (secure : Bool)
  /-- A snoop of a device line that the companion holds, at the line's companion address (R342, R346). -/
  | snoop (addr : Nat)
  | packet (port : Nat) (p : Packet)
  | hello (port : Nat) (h : Hello)
  | portSleep (port : Nat)
  | vexSleep (port : Nat)
  | vexCaps (port lowest highest : Nat) (feat : Nat)
  | memData (addr : Nat) (data : List Byte) (poisoned : Bool)
  | idleFlit (port : Nat)
  | resend (dst vc : Nat)
  /-- An answer of Fender over I3C, from the address of the module (R30, R414). -/
  | spdm (i3c : Nat) (msg : List Byte)
  /-- A read of n bytes through a connection of a partition, at a remote address or LBA (R293). -/
  | readChunk (part conn remote n : Nat)
  | readback (w : Word) (error : Bool)
deriving DecidableEq, Repr

/-! ### Module (chapter 02) -/

/-- Phases of power-up and power-down (R34, R35, R460). -/
inductive PowerPhase where
  | off | waiting | ramping | good | discharging
deriving DecidableEq, Repr

/-- Reset kinds of R37 that a reset in progress can have. -/
inductive ResetKind where
  | powerOn | cold | warm
deriving DecidableEq, Repr

/-- Pins, rails, resets, clocks and thermal state of the module (chapter 02). -/
structure Power where
  phase : PowerPhase
  pwrEn : Bool
  pwrGood : Bool
  /-- Set by a power-down that R36 makes the board undo: PWR_EN must be held low 100 ms and raised. -/
  lockout : Bool
  modRstN : Bool
  warmRstN : Bool
  pwrbrkN : Bool
  thermTripN : Bool
  alertN : Bool
  slotId : Nat
  reset : Option ResetKind
  /-- Causes absorbed into the warm reset in progress, as bits of MOD_RST_CAUSE (R39). -/
  warmCauses : Nat
  refclkA : Bool
  refclkB : Bool
  /-- Issue gated since a die reached 95 °C (R41). -/
  thermGate : Bool
  /-- Issue gated by the cap or the brake (R32). -/
  capGate : Bool
  /-- The cap that applies now, in watts (R33). -/
  capWatts : Nat
  /-- Cores, engines and links stopped by a fatal error (R426) or a thermal trip (R41). -/
  stopped : Bool
  /-- Input power at the last reading, in watts (R32). -/
  watts : Nat
  /-- CCLK in MHz: 470 in SL1, 940 above (clock table, R417). -/
  cclkMHz : Nat
deriving DecidableEq, Repr

/-! ### Cores (chapters 03 to 05) -/

/-- CORE_STS.state (3 bits). -/
inductive CoreSt where
  | idle | running | halted | suspended | saving | restoring | selfTest | retired
deriving DecidableEq, Repr

/-- One line of the instruction buffer: its address, the bytes that arrived and which of its 64 pieces are poisoned (R461). -/
structure IBufLine where
  addr : Nat
  bytes : Tab Byte
  poison : NSet
deriving DecidableEq, Repr

/-- The state of one free-running generator (R112). -/
structure GenState where
  key : Nat
  counter : Nat
  rest : Nat
  restBits : Nat
deriving DecidableEq, Repr

/-- What a task captured when it was admitted (R26, R101, R463): modes, seed and instruction-set version. -/
structure Admit where
  precise : Bool := false
  degraded : Bool := false
  stochastic : Bool := false
  freeRunning : Bool := false
  seed : Nat := 0
  isa : Nat := 1
  /-- Admission number within the ash log, when the context was being recorded. -/
  admNo : Option Nat := none
deriving DecidableEq, Repr

/-- A task descriptor (R72). -/
structure TaskDesc where
  entry : Nat
  doneEn : Bool
  doneEmber : Nat
  phase : Nat
  context : Nat
  args : List Word
deriving DecidableEq, Repr

/-- Outputs of a tile, in issue order (R74, R151). -/
inductive TileOut where
  | tst (src dst count : Nat)
  | submit (engine : Nat) (addr : Nat)
  | esig (ember : Nat) (op : EmberOp)
deriving DecidableEq, Repr

/-- A matrix instruction whose last result row has not been written (R60): the tile and the segments that it holds
against other instructions. Its result stands in the tile from issue on (log entry 13). -/
structure MmaOp where
  tile : Nat
  segs : NSet
deriving DecidableEq, Repr

/-- A TLD in flight (R149): device address, scratchpad offset, bytes, and the register that takes the shadow flag. -/
structure TldOp where
  src : Nat
  dst : Nat
  count : Nat
  flagReg : Nat
  /-- Served wholly from the KV4 shadow, and whether it may be once a line is poisoned (R185, R186). -/
  shadow : Bool
  mayShadow : Bool
  /-- The tile that issued it has ended. -/
  old : Bool
deriving DecidableEq, Repr

/-- A wait in progress (R155, R395). -/
structure EWait where
  ember : Nat
  cond : Nat
  operand : Nat
  deadline : Option Nat
  dest : Nat
deriving DecidableEq, Repr

/-- The live state of a core: registers, live segments and tiles with their contents, and the control block (R78). The
scratchpad bytes stand here only while the state is saved; on a core they stand in memory at its window (R54). -/
structure Live where
  pc : Nat
  sregs : Tab Word
  vregs : Tab Lane
  acc : Tab Lane
  scratch : Tab Byte
  /-- Poisoned lines of the saved scratchpad, by line number within it. -/
  scratchPoison : NSet
  segLive : NSet
  accLive : NSet
  accInt : NSet
  addCnt : Tab Nat
  gkStep : Nat
  gkLayer : Nat
  gkTile : Nat
  flags : NFlags
  /-- First draw of Fender's source that filled the generators, and the generators that have moved since (R112). -/
  genBase : Nat
  gens : Tab GenState
deriving DecidableEq, Repr

/-- A live state with nothing in it. -/
def Live.empty : Live :=
  ⟨0, [], [], [], [], [], [], [], [], [], 0, 0, 0, {}, 0, []⟩

/-- Where a task came from: the work queue and the index of its packet, and the queue's notify and class as they stood when
it was fetched (R355). -/
structure TaskSource where
  queue : Nat
  index : Nat
  notify : Bool
  class_ : Nat
deriving DecidableEq, Repr

/-- A task in a queue or on a core: its descriptor, where it came from, what it captured, and, when it was returned to
its queue, the state at the start of its tile (R77, R383). -/
structure Task where
  desc : TaskDesc
  queue : Nat
  /-- The work queue that it came from, for its notice (R355). -/
  source : Option TaskSource
  adm : Admit
  /-- State at the tile from which the task runs again, for a task returned under R77. -/
  saved : Option Live
  /-- Poisoned ranges that the task was refused and whose re-fetch it waits for (R180, R181). -/
  waits : List (Nat × Nat)
deriving DecidableEq, Repr

/-- One exposed core. -/
structure Core where
  st : CoreSt
  part : Nat
  /-- The open tile is pre-empted as the precise mode does (R75). -/
  forced : Bool
  carry : Bool
  /-- A contained error has struck the task: it leaves the core once the outputs of its ended tiles are committed (R424). -/
  struck : Bool
  task : Option Task
  live : Live
  /-- The live state as it was when the current tile began, for R77 and R424. -/
  tileStart : Live
  /-- LTC at the first instruction of the open tile, once there is one (R75). -/
  tileOpen : Option Nat
  outs : List TileOut
  committing : List TileOut
  /-- END has been executed (R73). -/
  ending : Bool
  /-- A SAVE or RSTR has ended the tile and waits for what is in flight; it completes before the core rests (R161). -/
  begun : Bool
  ibuf : List IBufLine
  mmas : List MmaOp
  tlds : List TldOp
  wait : Option EWait
  /-- Poisoned ranges whose re-fetch a suspended task waits for (R77, R181). -/
  suspendedOn : List (Nat × Nat)
  /-- A pre-emption request stands against the core (R386, R387). -/
  preempt : Bool
  atRest : Bool
  /-- The value the core last read from its die's copy of the LTC, below which no later read goes (R46). -/
  ltcSeen : Word
deriving DecidableEq, Repr

def Core.reset : Core :=
  { st := .idle, part := 0, forced := false, carry := false, struck := false, task := none, live := .empty,
    tileStart := .empty, tileOpen := none, outs := [], committing := [], ending := false,
    begun := false, ibuf := [], mmas := [], tlds := [], wait := none, suspendedOn := [], preempt := false, atRest := false, ltcSeen := 0 }

/-- Everything a context switch saves of one core (R388): the live state and the control block. -/
structure SavedCore where
  core : Nat
  live : Live
  task : Option Task
  carry : Bool
  tileStart : Live
  tileOpen : Option Nat
  ending : Bool
  outs : List TileOut
  mmas : List MmaOp
  tlds : List TldOp
  wait : Option EWait
  suspendedOn : List (Nat × Nat)
deriving DecidableEq, Repr

/-! ### Tiers (chapter 06) -/

/-- A tier map entry (R166). -/
structure TierEntry where
  valid : Bool := false
  state : Nat := 0
  world : Bool := false
  part : Nat := 0
  pin : Bool := false
  run : Nat := 0
  kind : Nat := 0
  place : Nat := 0
  slow : Bool := false
  frame : Nat := 0
  shadow : Bool := false
  sgran : Nat := 0
  shalf : Bool := false
  dslow : Bool := false
  dframe : Nat := 0
  heat : Nat := 0
deriving DecidableEq, Repr

/-- Progress of a migration or retirement (R172): passes ended, tiles written since they were last copied, the writes
held while it switches, each with the poison it carries, and whether it is a retirement. -/
structure Migration where
  pass : Nat := 0
  dirty : NSet := []
  held : List (Nat × List Byte × Bool) := []
  retire : Bool := false
deriving DecidableEq, Repr

/-- One prefetch stream (R184, R187): the layer consumed now, whether it has already counted as late, how many layers
running had no direct read, and the tiles being staged and staged. -/
structure Stream where
  c : Nat := 0
  late : Bool := false
  clean : Nat := 0
deriving DecidableEq, Repr

/-- Staging of one engine-ready tile: by its tile number in the tier range; `done` when the copy is valid (R183). -/
structure Staged where
  part : Nat
  done : Bool
deriving DecidableEq, Repr

structure Tier where
  map : Tab TierEntry
  mig : Tab Migration
  hbmUsed : NSet
  slowUsed : NSet
  hbmGone : NSet
  slowGone : NSet
  /-- Compute dies whose HBM is in service, and whether the slow tier is (R188, R417). -/
  hbmDies : NSet
  slowIn : Bool
  /-- Poisoned tiles that failed at every source since they were poisoned, and those counted as left poisoned
  (R180, R181), by tile number over the whole tier range. -/
  tried : NSet
  left : NSet
  /-- Stage-cache frames each partition holds (R177), by partition. -/
  stage : Tab NSet
  /-- Granules retiring with no destination, oldest first (R436). -/
  waiting : List Nat
  streams : Tab Stream
  staged : Tab Staged
  /-- The granule whose unmap is in progress (R170). -/
  unmapping : Option Nat
deriving DecidableEq, Repr

/-! ### Generation (chapter 08) -/

/-- A step of a partition whose end the Damper waits for (R231). -/
structure DampStep where
  k : Word
  start : Nat
  last : Nat
  /-- LTC at which the last of its descriptors was committed. -/
  ended : Option Nat
deriving DecidableEq, Repr

/-- A descriptor in an engine's queue: its device address, its partition, and its 64 bytes when SUBMIT passed them
(R153). -/
structure Submitted where
  addr : Nat
  part : Nat
  bytes : Option (List Byte)
deriving DecidableEq, Repr

/-- A Geyser: its queue of descriptors, and the row reached in the one in progress. -/
structure Geyser where
  queue : List Submitted := []
  active : Option Submitted := none
  row : Nat := 0
  /-- The request of the row was running when the row was reached. -/
  running : Bool := false
  finished : Bool := false
  held : Bool := false
deriving DecidableEq, Repr

/-- A Flue engine: its queue, and the descriptor in progress with the next group (R306). -/
structure Flue where
  queue : List Submitted := []
  active : Option Submitted := none
  status : Nat := 0
  flags : NFlags := {}
  records : Nat := 0
  held : Bool := false
deriving DecidableEq, Repr

/-! ### Cache manager (chapter 07) -/

/-- A ship or an arrival in progress (R210 to R212). -/
structure Ship where
  /-- State of the sequence before the ship, for its failure. -/
  prior : Nat
  peerDev : Nat
  peerPart : Nat
  peerSlot : Nat
  /-- LTC of the last thing received, or of the start of the ship. -/
  since : Nat
  got : NSet := []
  record : Option (List Byte) := none
  tries : Tab Nat := []
deriving DecidableEq, Repr

/-! ### Ash recorder and phase counters (chapter 09) -/

/-- Recording of one context of a partition (R257 to R261), beside the LRN_ASH registers. -/
structure Ash where
  /-- Bytes of the log written or waiting, from the log base. -/
  pos : Nat := 0
  /-- Records of the log, written or waiting. -/
  nrec : Nat := 0
  /-- Tasks of the recorded context admitted since recording began. -/
  admitted : Nat := 0
  /-- Records waiting in trace memory, oldest first: their bytes. -/
  queue : List (List Byte) := []
  /-- CRC-32C register over the log bytes so far. -/
  crc : Nat := 0xFFFFFFFF
  /-- The end record has been appended. -/
  ended : Bool := false
  /-- Addresses of prepared records that wait to be appended, oldest first (R260). -/
  apps : List Nat := []
  /-- Generator mode, seed and rounding as last recorded. -/
  freeRunning : Bool := false
  seed : Nat := 0
  stochastic : Bool := false
deriving DecidableEq, Repr

/-- Phase accounting of a partition (R253 to R255), beside LRN_PCUR: the agents at work in each phase, and the LTC up to
which the open step is accounted. -/
structure Phases where
  since : Nat := 0
  agents : Tab Nat := []
  /-- Closed step records waiting to be written to the phase trace. -/
  trace : List (List Byte) := []
deriving DecidableEq, Repr

/-! ### Stove (chapter 10) -/

/-- Sums of one parameter group gathered by a command: du², w², gg² and the non-finite gradients (R276). -/
structure GroupSum where
  du2 : Lane := 0
  w2 : Lane := 0
  g2 : Lane := 0
  nonfin : Nat := 0
  flags : NFlags := {}
deriving DecidableEq, Repr

/-- A Stove command in progress (R281), with what it latched at its acceptance (R269, R283). -/
structure StoveCmd where
  op : Nat
  word : Word
  gs : Lane
  step : Nat
  seed : Nat
  stochastic : Bool
  /-- Words 0 to 3 of the 16 schedules, as latched. -/
  sched : List Nat
  /-- Bases of the shard, coefficient and statistics tables, the entries of the shard table, and the mirror timeout in ns,
  as latched. -/
  shard : Nat
  nent : Nat
  coef : Nat
  stat : Nat
  mto : Nat
  /-- The slabs that the buddies return to a pull. -/
  pulled : List MirrorEntry := []
  /-- The tables have been read and every check has passed. -/
  ready : Bool := false
  /-- Coefficient rows of the groups named, as latched. -/
  rows : List (Nat × List Byte) := []
  /-- The shard entries named, as latched. -/
  entries : List (List Byte) := []
  /-- Entry and slab within it at which work goes on, and whether the entry is done but for its mirror. -/
  next : Nat := 0
  slab : Nat := 0
  closed : Bool := false
  sums : Tab GroupSum := []
  /-- Sums of the entry in progress. -/
  part : GroupSum := {}
  /-- Entries whose mirror has not been acknowledged, and the LTC of the mirror timeout. -/
  mirrors : List Nat := []
  deadline : Nat := 0
  /-- All work but the mirrors' acknowledgements is done. -/
  finished : Bool := false
  result : Nat := 0
deriving DecidableEq, Repr

/-- A window add that waits for the line of its element (R267, R282): the window, the element's address and format, its
rounding and the partial. -/
structure HeldAdd where
  win : Nat
  addr : Nat
  bf16 : Bool
  mode : RMode
  word : Lane
deriving DecidableEq, Repr

/-- A mirror that has arrived whole and is acknowledged once it is visible (R279): the sender, the entry, its step, and the
ranges written. -/
structure MirrorDone where
  dev : Nat
  part : Nat
  entry : Nat
  addr : Nat
  step : Nat
  spans : List (Nat × Nat)
deriving DecidableEq, Repr

/-- What a window latched at the write of its word 3 (R266). -/
structure WinKey where
  stochastic : Bool := false
  seed : Nat := 0
deriving DecidableEq, Repr

/-! ### Weights (chapter 11) -/

/-- A chunk of a fetch that is outstanding or waits to be issued (R296, R297). -/
structure ChunkTry where
  chunk : Nat
  attempts : Nat
  source : Nat
  port : Nat
  start : Nat
  inFlight : Bool
deriving DecidableEq, Repr

/-- Weights state of a partition beside its registers. -/
structure Weights where
  /-- Region lists latched by open, by slot: first granule and count (R286). -/
  regions : Tab (List (Nat × Nat)) := []
  verified : NSet := []
  localLoad : NSet := []
  /-- Collective group that the last open or commit-open of a slot named, as its number plus 1 (R301, R329). -/
  groupOf : Tab Nat := []
  /-- Slot being fetched, its chunks still to do, and whether the load has failed. -/
  fetching : Option Nat := none
  chunks : List ChunkTry := []
  nextChunk : Nat := 0
  failedChunk : Option Nat := none
  aborted : Bool := false
  /-- Slot, group and opened epoch of the commit in progress, with the commit deadline. -/
  commitSlot : Option Nat := none
  commitGroup : Nat := 0
  commitEpoch : Nat := 0
  deadline : Nat := 0
  vote : Option Bool := none
  frozen : Bool := false
  /-- Rounds of the vote barrier that are done, and the AND of the votes heard in them (R301). -/
  voteRound : Nat := 0
  allYes : Bool := false
  /-- A chunk was refused since its destination is no longer that of a loading slot (R287). -/
  refused : Bool := false
  /-- An open or a verify in progress: it waits for its region list or its manifest (R180, R346). -/
  held : Option Word := none
deriving DecidableEq, Repr

/-- What the storage links hold for the device: addresses of connection records whose connection a port reported lost
(R291), and the re-fetch attempts in progress, by tile over the whole tier range (R299). -/
structure StorageLinks where
  lost : NSet := []
  refetch : Tab ChunkTry := []
deriving DecidableEq, Repr

/-! ### Fabric (chapter 12) -/

/-- One direction of a flow (R320): packets not yet acknowledged at the source, or early ones at the destination. -/
structure Flow where
  next : Nat := 0
  unacked : List Packet := []
  resends : Nat := 0
  expect : Nat := 0
  early : List Packet := []
deriving DecidableEq, Repr

/-- A Bellows descriptor (R330). -/
structure BDesc where
  op : Nat
  fmt : Nat
  rop : Nat
  turn : Bool
  tbl : Bool
  phase : Nat
  group : Nat
  eng : Nat
  root : Nat
  src : Nat
  dst : Nat
  len : Nat
  sts : Nat
  ember : Nat
deriving DecidableEq, Repr

/-- A collective or put in progress on a group (R332 to R336), with the offset and length of every block. -/
structure Collective where
  desc : BDesc
  blocks : List (Nat × Nat)
  part : Nat
  cseq : Nat
  digest : Nat
  flags : NFlags := {}
  endpoint : Bool := false
  /-- Segments this member has finished, and whether its own first sends have been made. -/
  done : NSet := []
  started : Bool := false
  /-- The source bytes, by address and length, that it waits to read: they are poisoned, or on their way (R185, R334,
  R346). -/
  stopped : Option (Nat × Nat) := none
  /-- A snapshot in its second barrier; a put that was acknowledged. -/
  second : Bool := false
  acked : Bool := false
deriving DecidableEq, Repr

/-- A barrier arrival heard before its collective was accepted here: sequence number, digest and round. -/
structure EarlyRound where
  cseq : Nat
  digest : Nat
  round : Nat
deriving DecidableEq, Repr

/-- A segment held in a buffer of its group (R326, R327). -/
structure HeldSeg where
  buf : Nat
  seg : Segment
deriving DecidableEq, Repr

/-- A segment to be sent to a member, which waits for a credit of that member (R326). `die` is the I/O die of the reduction
slot that its sum fills until it has left (R337). -/
structure SegOut where
  member : Nat
  cseq : Nat
  digest : Nat
  block : Nat
  seg : Nat
  gather : Bool
  data : List Byte
  die : Option Nat := none
deriving DecidableEq, Repr

/-- A collective group beside its FAB_GSTSg register (R323 to R329). -/
structure Group where
  part : Nat := 0
  ctx : Nat := 0
  own : Nat := 0
  /-- Members in ring order: device ID, failure domain, partition. -/
  members : List (Nat × Nat × Nat) := []
  buddy : Nat := 0
  bufBase : Nat := 0
  nbuf : Nat := 0
  /-- Segments held in the group's buffers until their collective is accepted or can go on. -/
  held : List HeldSeg := []
  early : List EarlyRound := []
  /-- Credits for buffers of each member, by its place, and the segments that wait for one, oldest first (R326). -/
  credits : Tab Nat := []
  waiting : List SegOut := []
  /-- Collectives ended by an abort, and the status of the end (R334). -/
  aborts : List (Nat × Nat) := []
  /-- A join is in progress since this time; its arrivals heard: round, CRC-32C and lowest version (R325). -/
  joining : Bool := false
  joinStart : Nat := 0
  joins : List (Nat × Nat × Nat) := []
  active : List Collective := []
  /-- Barrier rounds heard, by sequence number × 64 + round; a snapshot's second barrier has rounds 32 on. -/
  rounds : NSet := []
  /-- Commits opened in the group, and the votes heard for the last of them or the next: its number, the round, the vote
  (R301). -/
  commits : Nat := 0
  votes : List (Nat × Nat × Bool) := []
deriving DecidableEq, Repr

/-- A put that arrives: sender, group, partition and number, whether the last of its bytes have come, and whether the
partition could write all of them; it is acknowledged once they are visible (R331, R333). -/
structure PutIn where
  src : Nat
  group : Nat
  part : Nat
  cseq : Nat
  last : Bool
  ok : Bool := true
deriving DecidableEq, Repr

structure Fabric where
  routes : Tab Word
  /-- Port at which the rotation over the ports of a mask goes on (R317). -/
  rotor : Nat
  /-- Packets that wait for an asleep port to wake, oldest first (R311). -/
  asleep : List Packet
  flows : Tab Flow
  groups : Tab Group
  /-- Members of the stack recorded by this master: index to device ID + 1. -/
  stack : Tab Nat
  /-- Queue of descriptors of each Bellows engine. -/
  queues : Tab (List Submitted)
  lost : NSet
  /-- Ports whose lanes 2 and 3 are idle (R311). -/
  halfIdle : NSet
  /-- Ports whose peer asks for sleep, and ports that ask for it themselves (R311). -/
  peerSleep : NSet
  askSleep : NSet
  /-- Ports whose lanes have trained, and ports that retrain for the rise to SL3 (R310, R420). -/
  trained : NSet
  rateTrain : NSet
  /-- Number of the next put, and the puts that arrive. -/
  nextPut : Nat
  puts : List PutIn
  /-- A create that waits for its member list: the group, FAB_GARG0 and FAB_GARG1 (R180, R346). -/
  creating : Option (Nat × Nat × Nat)
deriving DecidableEq, Repr

/-! ### Vexio Link and work queues (chapter 13) -/

/-- A window write waiting for the home's acknowledgement (R347). -/
structure WinWrite where
  id : Nat
  /-- The agent that wrote: core number + 1, DMA channel + 1,024, or 0 for another. -/
  owner : Nat
  addr : Nat
  data : List Byte
deriving DecidableEq, Repr

/-- What the companion has sent and what waits here: while neither port is up (R349), or behind what waits (R347). -/
inductive LinkReq where
  | memory (secure : Bool) (r : CompanionReq)
  | bell (p q pi : Nat)
  | pop (p : Nat)
deriving DecidableEq, Repr

structure Vexio where
  /-- Lines the companion holds, in grant order: line number and whether modified (R346), per filter. -/
  filter : List (Nat × Bool)
  /-- Bytes that the device has written in lines the companion still holds modified, by address (R346). -/
  written : NSet
  /-- Companion lines in the link cache or the read buffer, by line number (R346). -/
  cached : NSet
  nextId : Nat
  writes : List WinWrite
  /-- Reads of the window that the companion has not answered, by window address and length (R350). -/
  reads : List (Nat × Nat)
  /-- Requests held, oldest first (R349). -/
  heldReqs : List LinkReq
  /-- LTC at which the lost-link timer expires, while it runs. -/
  lostAt : Option Nat
  linkLost : Bool
  /-- Messages held while neither port can carry them (R349). -/
  heldOut : List Out
  /-- Page index to routing entry (R357). -/
  routes : Tab Word
deriving DecidableEq, Repr

/-- Work queues and notices of one partition beside their registers: the notices of each class, oldest first, the slots
of each class reserved (R352), the deadlines of held pops in arrival order (R356), and the LTC of the last notice
interrupt (R357). -/
structure Notices where
  classes : Tab (List Word) := []
  reserved : Tab Nat := []
  held : List Nat := []
  lastIrq : Option Nat := none
deriving DecidableEq, Repr

/-! ### DMA (chapter 14) -/

/-- The descriptor a channel is running: its 64 bytes, progress and what its bursts met. -/
structure DmaRun where
  bytes : List Byte
  addr : Nat
  pos : Nat
  total : Nat
  retries : Nat
  burstRetries : Nat
  poisoned : Bool
  finished : Bool
  /-- Bytes 48 to 62 have been written back (R367). -/
  wrote : Bool
  status : Nat
deriving DecidableEq, Repr

structure Channel where
  run : Option DmaRun := none
  /-- A burst is under way, an abort stands. -/
  abort : Bool := false
deriving DecidableEq, Repr

/-! ### Partitions (chapter 15) -/

/-- Where a context switch stands (R385 to R389). -/
inductive SwitchPhase where
  | rest | save | restore
deriving DecidableEq, Repr

structure Switch where
  out : Option Nat
  /-- The context to become current; none when the outgoing one only leaves the cores. -/
  into : Option Nat
  phase : SwitchPhase
  start : Nat
deriving DecidableEq, Repr

/-- A partition beside its pages' registers. -/
structure Part where
  queues : Tab (List Task) := []
  current : Option Nat := none
  /-- The context that was current last (log entry 17). -/
  last : Option Nat := none
  sliceEnd : Nat := 0
  /-- The slice of the current context has expired (R385). -/
  sliceOver : Bool := false
  switch : Option Switch := none
  saved : Tab (List SavedCore) := []
  contained : NSet := []
  tposts : List Nat := []
  /-- HBM frames reserved for save areas (R379). -/
  saveFrames : NSet := []
  /-- Pool pages in use or reserved: page number to its sequence slot × 8,192 + index in the page list + 1. -/
  pool : Tab Nat := []
  bankUsed : NSet := []
  /-- Sequences in state awaiting page, in the order in which they entered it (R204). -/
  awaiting : List Nat := []
  /-- Pages that a banking or restoring copy writes, by sequence slot (R207). -/
  copying : Tab (List Nat) := []
  /-- Blocks of a tile that task code has quantised, keys and values apart, by (slot × 4,096 + tile) × 2 + 1 for values, and
  the count with which every tile of a sequence began when it last became active (R194, R195). -/
  quant : Tab Nat := []
  quantBase : Tab Nat := []
  /-- LTC of the write that produced each entry of the command ring, by its place (R208). -/
  cqTimes : Tab Nat := []
  /-- A step boundary waits for banking copies (R204), and the steps that start when it ends. -/
  boundary : Bool := false
  heldSteps : List Word := []
  /-- Producer index up to which a boundary has still to execute commands, while one of them waits (R204 step 1). -/
  drainTo : Option Nat := none
  /-- First draw of Fender's source that filled the generators of each context, and the generator states that have moved
  since, by context × 512 + core (R112). -/
  genBase : Tab Nat := []
  gens : Tab (Nat × Tab GenState) := []
  ships : Tab Ship := []
  /-- Sequence results of finished requests passed by the Geyser: slot and new length, or a free (R221). -/
  keeps : List (Nat × Nat) := []
  /-- Frees that request completions issue, each behind the commands that the ring held then (R213, R221). -/
  frees : List (Nat × Nat) := []
  damp : List DampStep := []
  /-- Draft caps of the budgets published, by the low 32 bits of their step (R232). -/
  budgets : Tab Nat := []
  /-- Requests in state running. -/
  running : Nat := 0
  ash : Ash := {}
  phases : Phases := {}
  stove : Option StoveCmd := none
  /-- Flag ovf of the last update, without the window adds since (STV_CMD_STS). -/
  updOvf : Bool := false
  wins : Tab WinKey := []
  /-- Window adds that wait, and mirrors to be acknowledged, oldest first. -/
  heldAdds : List HeldAdd := []
  mirrorsDone : List MirrorDone := []
  weights : Weights := {}
  notices : Notices := {}
  /-- Arrived sequences that pin an epoch slot: slot of the sequence to epoch slot + 1 (R211, R289). -/
  seqPins : Tab Nat := []
deriving DecidableEq, Repr

/-! ### Security and errors (chapters 16 and 17) -/

/-- Fender and the boot chain (R402 to R413). -/
structure Fender where
  /-- Anti-rollback count burned in the fuses. -/
  fused : Nat
  burnTarget : Nat
  debugFuse : Bool
  unlockPending : Bool
  debug : Bool
  fenOk : Bool
  mgtOk : Bool
  devOk : Bool
  bootFromB : Bool
  cdi : List Byte
  fenDigest : List Byte
  mgtDigest : List Byte
  devDigest : List Byte
  monotonic : Nat
  attLeaves : Nat
  draws : Nat
  transcriptI3c : List Byte
  transcriptVex : List Byte
  /-- The answer that the response packets of the ATT mailbox carry (R459). -/
  attAnswer : List Byte
  /-- Bytes of copy B written in recovery (R408), by offset in the boot flash. -/
  flash : Tab Byte
deriving DecidableEq, Repr

/-- A unit under test or judged before: corrected counts with their window, and the time of the last transient verdict. -/
structure UnitRec where
  corrected : Nat := 0
  winStart : Nat := 0
  testing : Bool := false
  transientAt : Option Nat := none
  /-- Verdict of the record once the replacement has passed its own self-test; 0 while the unit itself is tested. -/
  verdict : Nat := 0
  /-- Ring slots of the records that wait for the verdict. -/
  records : List Nat := []
  /-- Partition charged with the test in phase recovery (R253), plus 1; 0 for none. -/
  charged : Nat := 0
  retired : Bool := false
deriving DecidableEq, Repr

structure Errors where
  units : Tab UnitRec
  /-- Records of the ring from ERR_IDX.pi on that wait for a verdict, or for one before them: is each resolved? -/
  waiting : List Bool
  /-- Spare physical cores of each compute die. -/
  spares : Tab (List Nat)
  /-- Retirements written to the repair log: unit kind code and place (R435). -/
  repairLog : List (Nat × Nat)
deriving DecidableEq, Repr

/-! ### The device -/

/-- Everything but the queue of waiting commands. -/
structure Dev where
  pow : Power
  ltc : Word
  ltcOn : Bool
  regs : Tab Word
  mem : Tab Byte
  poison : NSet
  tier : Tier
  cores : Tab Core
  parts : Tab Part
  geysers : Tab Geyser
  flues : Tab Flue
  eth : StorageLinks
  chans : Tab Channel
  fab : Fabric
  vex : Vexio
  fen : Fender
  errs : Errors
  out : List Out
  /-- Counter of free values used (log entry 5). -/
  fresh : Nat
deriving DecidableEq, Repr

/-- The state of the machine: the device and the commands that wait, first in, first out. -/
structure State where
  pending : List Instr
  dev : Dev
deriving DecidableEq, Repr

/-- Reasons a step stops with a fault. -/
inductive Fault where
  /-- Raised by PACKET_RECEIVE on a packet whose type code is one of the reserved 1110b and 1111b (R322), for which the
  spec gives no effect. Safe. -/
  | reservedPacketType
deriving DecidableEq, Repr

/-- Reasons a step refuses a command. -/
inductive Refusal where
  /-- The command has no meaning yet. Raised by an arm of exec only. Safe. -/
  | notModelled (mnemonic : String)
deriving DecidableEq, Repr

/-! ### Reset -/

def Tier.reset : Tier :=
  { map := [], mig := [], hbmUsed := [], slowUsed := [], hbmGone := [], slowGone := [], hbmDies := [], slowIn := false,
    tried := [], left := [], stage := [], waiting := [], streams := [], staged := [], unmapping := none }
def Fabric.reset : Fabric :=
  { routes := [], rotor := 0, asleep := [], flows := [], groups := [], stack := [], queues := [], lost := [], halfIdle := [], peerSleep := [],
    askSleep := [], trained := [], rateTrain := [], nextPut := 0, puts := [], creating := none }
def Vexio.reset : Vexio := ⟨[], [], [], 0, [], [], [], none, false, [], []⟩
def Fender.reset : Fender :=
  { fused := 0, burnTarget := 0, debugFuse := false, unlockPending := false, debug := false, fenOk := false,
    mgtOk := false, devOk := false, bootFromB := false, cdi := [], fenDigest := [], mgtDigest := [], devDigest := [],
    monotonic := 0, attLeaves := 0, draws := 0, transcriptI3c := [], transcriptVex := [], attAnswer := [], flash := [] }
def Errors.reset : Errors := ⟨[], [], [], []⟩

/-- The module right after a power-on reset has ended: rails up, both reset pins high, the LTC counting from 0. -/
def Power.afterReset : Power :=
  { phase := .good, pwrEn := true, pwrGood := true, lockout := false, modRstN := true, warmRstN := true,
    pwrbrkN := true, thermTripN := true, alertN := true, slotId := 0, reset := none, warmCauses := 0, refclkA := true,
    refclkB := true, thermGate := false, capGate := false, capWatts := 3400, watts := 0, stopped := false, cclkMHz := 470 }

/-- The device after the power-on reset: every register at its reset value but MOD_RST_CAUSE, whose power_on bit the
Zamet sets when that reset ends (chapter 02, MOD_RST_CAUSE). -/
def Dev.reset : Dev :=
  { pow := .afterReset, ltc := 0, ltcOn := true, regs := [(0x110, 1)], mem := [], poison := [], tier := .reset, cores := [],
    parts := [], geysers := [], flues := [], eth := {}, chans := [], fab := .reset, vex := .reset, fen := .reset, errs := .reset,
    out := [], fresh := 0 }

/-- The machine right after reset (R37): the device after the power-on reset, and no command waiting. -/
def State.reset : State := { pending := [], dev := .reset }

end Sys2Proof.Machine
end

