-- ==== Sys2Proof/Machine/Ops.lean ====
section
/-! DEFINITION. Shared operations on registers: fields, access checks, events and interrupts, error logs, claims, phase counters (R253 to R256), units in test. -/

namespace Sys2Proof

/-- The field `[hi:lo]` lies wholly within the bits an access reaches. -/
def Access.reaches (a : Access) (hi lo : Nat) : Bool :=
  match a.width with
  | .full => true
  | .low => hi < 32
  | .high => 32 ≤ lo

/-- What an access of a given width returns of a value. -/
def Width.view (w : Width) (v : Nat) : Nat :=
  match w with
  | .full => v
  | .low => v % 2 ^ 32
  | .high => v / 2 ^ 32 % 2 ^ 32

/-- The world in which an access is made (R398); `none` for Fender, which acts in both. -/
def Access.world (a : Access) : Option Bool :=
  match a.by_ with
  | .companion => some a.secure
  | .i3c => some false
  | .mgmt => some true
  | .fender => none

/-- The code of the requester in ERR_LOG2.rkind (chapter 18). -/
def Requester.code : Requester → Nat
  | .companion => 3 | .i3c => 4 | .mgmt => 7 | .fender => 8

end Sys2Proof

namespace Sys2Proof.Machine

/-! ### Running a meaning -/

/-- A command's effect on the device; the queue of waiting commands stays as it is. -/
def State.run (s : State) (f : Dev → Dev) : Host.Outcome State Fault Refusal :=
  .next { s with dev := f s.dev }

/-- The device is powered, in no power-on, cold or warm reset, and not stopped by a fatal error or a thermal trip
(R35, R37, R41, R426). -/
def Dev.live (d : Dev) : Bool := d.pow.pwrGood && d.pow.reset.isNone && !d.pow.stopped

/-- The effect of an event inside the device: nothing happens while the device is not live, or when the event's own
condition does not hold (log entry 2). -/
def Dev.when (d : Dev) (c : Bool) (f : Dev → Dev) : Dev := if d.live && c then f d else d

/-- Something sent outside, after what was sent before. -/
def Dev.emit (d : Dev) (o : Out) : Dev := { d with out := d.out ++ [o] }

/-- Functions applied one after another. -/
def Dev.each {α : Type} (d : Dev) (l : List α) (f : α → Dev → Dev) : Dev := l.foldl (fun e x => f x e) d

/-! ### Pages -/

def pMOD : Nat := 0
def pFEN : Nat := 1
def pERR : Nat := 2
def pTIER : Nat := 3
def pFAB : Nat := 4
def pVEX : Nat := 5
def pATT : Nat := 6
def pEMB (e : Nat) : Nat := 0x8 + e / 2048
def pETH (n : Nat) : Nat := 0x24 + n
def pGEY (n : Nat) : Nat := 0x28 + n
def pFLUE (n : Nat) : Nat := 0x30 + n
def pBLW (e : Nat) : Nat := 0x38 + e
/-- Page of DMA channel c: sixteen on each compute die, eight on each I/O and Stove die (R359). -/
def pDMA (c : Nat) : Nat := if c < 128 then 0x40 + c / 16 else 0x48 + (c - 128) / 8
/-- Local number of channel c on its page. -/
def dmaLocal (c : Nat) : Nat := if c < 128 then c % 16 else (c - 128) % 8
def pPART (p : Nat) : Nat := 0x100 + p
def pCACHE (p : Nat) : Nat := 0x140 + p
def pGEN (p : Nat) : Nat := 0x180 + p
def pLRN (p : Nat) : Nat := 0x1C0 + p
def pSTV (p : Nat) : Nat := 0x200 + p
def pWGT (p : Nat) : Nat := 0x240 + p
def pVWQ (p : Nat) : Nat := 0x280 + p
def pCORE (k : Nat) : Nat := 0x400 + k

/-! ### Registers -/

/-- Key of a register-space word in the register file. -/
def regKey (page off : Nat) : Nat := page * 0x10000 + off

/-- The value a register holds. -/
def Dev.rd (d : Dev) (page off : Nat) : Nat := (Tab.get regReset d.regs (regKey page off)).toNat

/-- The device with a register set. -/
def Dev.wr (d : Dev) (page off v : Nat) : Dev :=
  { d with regs := Tab.set regReset d.regs (regKey page off) (BitVec.ofNat 64 v) }

/-- Field `[hi:lo]` of a register. -/
def Dev.fld (d : Dev) (page off hi lo : Nat) : Nat := bits (d.rd page off) hi lo

/-- The device with field `[hi:lo]` of a register set. -/
def Dev.setFld (d : Dev) (page off hi lo n : Nat) : Dev := d.wr page off (putBits (d.rd page off) hi lo n)

/-- Bit b of a register. -/
def Dev.bit (d : Dev) (page off b : Nat) : Bool := d.fld page off b b == 1

/-- The device with bit b of a register set to a value. -/
def Dev.setBit (d : Dev) (page off b : Nat) (v : Bool) : Dev := d.setFld page off b b (b2n v)

/-- A saturating count raised by n. -/
def Dev.count (d : Dev) (page off hi lo n : Nat) : Dev :=
  d.setFld page off hi lo (satAdd (2 ^ (hi + 1 - lo) - 1) (d.fld page off hi lo) n)

/-- The offset of element i of a register array. -/
def Reg.at (r : Reg) (i : Nat) : Nat := r.off + r.stride * i

/-! ### The effect of a write and a read on the fields of a register (R8, R445) -/

/-- Does an access of this width reach a field wholly? -/
def Field.within (f : Field) : Width → Bool
  | .full => true
  | .low => f.hi < 32
  | .high => 32 ≤ f.lo

/-- A field after a write of v to its register (R8): RW takes the bits, W1C clears and W1S sets where 1 is written. -/
def Field.write (f : Field) (old v : Nat) : Nat :=
  let o := bits old f.hi f.lo
  let n := bits v f.hi f.lo
  match f.acc with
  | .rw => n
  | .w1c => o - (o &&& n)
  | .w1s => o ||| n
  | _ => o

/-- A register after a write of a given width. -/
def Reg.write (r : Reg) (old : Nat) (w : Width) (v : Nat) : Nat :=
  r.fields.foldl (fun x f => if f.within w then putBits x f.hi f.lo (f.write old v) else x) old

/-- A register after a read of a given width: the RC fields within it are cleared. -/
def Reg.afterRead (r : Reg) (old : Nat) (w : Width) : Nat :=
  r.fields.foldl (fun x f => if f.within w && f.acc == .rc then putBits x f.hi f.lo 0 else x) old

/-- Does a write of the register issue an action, so that it must be one 64-bit write (R445): a register with a WO
field, a doorbell or index register, or DAMP_STEP? -/
def actionAt (page off : Nat) : Bool :=
  (match regAt page off with
   | some r => r.fields.any fun f => f.acc == .wo
   | none => false) ||
  (match pageOf page with
   | some (.vwq, _) => 0x300 ≤ off && off < 0x380
   | some (.dma, _) => 0x100 ≤ off && off % 64 == 0x10
   | some (.cache, _) => off == rCACHE_CQ_IDX.off
   | some (.gen, _) => off == rDAMP_STEP.off
   | _ => false)

/-! ### Interrupts (R357, R449) and the messages of class X -/

/-- Is a Vexio port up, and class C carried (R345)? Traffic wakes an asleep port first. -/
def Dev.linkUp (d : Dev) : Bool := (List.range 2).any fun n => d.fld pVEX (rVEX_PORT.at n) 51 48 == 2

/-- Are classes M and X carried: a port is up, and the device at SL1 at least (R345)? -/
def Dev.vexUp (d : Dev) : Bool := d.linkUp && 1 ≤ d.fld pMOD rMOD_SL.off 1 0

/-- Is a feature bit negotiated by the ports that are up or asleep (R344)? -/
def Dev.vexFeature (d : Dev) (b : Nat) : Bool :=
  (List.range 2).any fun n =>
    (d.fld pVEX (rVEX_PORT.at n) 51 48 == 2 || d.fld pVEX (rVEX_PORT.at n) 51 48 == 5) && d.bit pVEX (rVEX_PORT.at n) b

/-- A message leaves on the link; poison needs feature [2], and is a completion error without it (R344). -/
def Dev.linkSend (d : Dev) (o : Out) : Dev :=
  match o with
  | .companionWrite id a bs true w => if d.vexFeature 2 then d.emit o else d.emit (.companionError id a bs.length w)
  | o => d.emit o

/-- A message to the companion: sent, or held while no port carries it (R345, R349). -/
def Dev.toCompanion (d : Dev) (o : Out) : Dev :=
  if d.vexUp then d.linkSend o else { d with vex := { d.vex with heldOut := d.vex.heldOut ++ [o] } }

/-- The companion's address of a device address (R342). -/
def Dev.companionAddr (d : Dev) (a : Nat) : Nat := (d.rd pVEX rVEX_WIN_D.off + a) % 2 ^ 64

/-- The companion's address of an address of the window (R342). -/
def Dev.homeAddr (d : Dev) (a : Nat) : Nat := (d.rd pVEX rVEX_WIN_C.off + (a - 0x100000000000)) % 2 ^ 64

/-- Does a register access reach the device: one of the companion comes over the link (R345, R349)? -/
def Dev.arrives (d : Dev) (a : Access) : Bool := a.by_ != .companion || d.linkUp

/-- A trigger of vector i (R357): a masked vector becomes pending, another is written to the companion. -/
def Dev.vector (d : Dev) (i : Nat) : Dev :=
  if d.bit pVEX (rVEX_VEC.at i) 32 then d.setBit pVEX (rVEX_VEC.at i) 33 true
  else d.toCompanion (.irq i (d.rd pVEX (rVEX_VEC_ADDR.at i)) (d.fld pVEX (rVEX_VEC.at i) 31 0))

/-- The interrupt of a page, through its VEX_IRDATA entry (R449). -/
def Dev.route (d : Dev) (page : Nat) : Dev :=
  let r := (Tab.get (fun _ => 0) d.vex.routes page).toNat
  if r.testBit 9 then d.vector (bits r 8 0) else d

/-- Cause n of a page occurs: its INT_STS bit is set, and an interrupt is sent when the enabled bit rises (R449). -/
def Dev.raiseInt (d : Dev) (page n : Nat) : Dev :=
  let was := d.bit page rINT_STS.off n
  let d := d.setBit page rINT_STS.off n true
  if !was && d.bit page rINT_EN.off n then d.route page else d

/-- The block raises its event: INT_STS bit 0 of its page (R449). -/
def Dev.event (d : Dev) (page : Nat) : Dev := d.raiseInt page 0

/-- A bit of PART_EVT is set; one that becomes 1 raises the event of the partition (chapter 15, PART_EVT). -/
def Dev.partEvt (d : Dev) (p b : Nat) : Dev :=
  if d.bit (pPART p) rPART_EVT.off b then d else (d.setBit (pPART p) rPART_EVT.off b true).event (pPART p)

def evFault : Nat := 0
def evOverrun : Nat := 1
def evRestore : Nat := 2
def evKind : Nat := 3
def evSat : Nat := 4
def evTfull : Nat := 5
def evWq : Nat := 6
def evSlot : Nat := 7
def evEngine : Nat := 8
def evQuota : Nat := 9
def evTbad : Nat := 10

/-! ### Error logs (R450, R451) -/

/-- What an error log records beside the LTC. -/
structure LogEntry where
  code : Nat
  detail : Nat := 0
  addr : Nat := 0
  rkind : Nat := 0
  rindex : Nat := 0
  world : Bool := false
  part : Nat := 0
deriving DecidableEq, Repr

/-- This device's ID (R315). -/
def Dev.id (d : Dev) : Nat := d.fld pFAB rFAB_ID.off 13 0
/-- Does the device take part in the fabric: is its ID valid (R315)? -/
def Dev.hears (d : Dev) : Bool := d.bit pFAB rFAB_ID.off 63

/-- An error is logged in a page: the first since valid was cleared fills the logs, a further one sets over (R451). -/
def Dev.log (d : Dev) (page : Nat) (e : LogEntry) : Dev :=
  if d.bit page rERR_LOG0.off 63 then d.setBit page rERR_LOG0.off 62 true
  else
    (((d.wr page rERR_LOG0.off (2 ^ 63 + e.code * 2 ^ 48 + e.detail)).wr page rERR_LOG1.off e.addr).wr page rERR_LOG2.off
      (e.rindex * 2 ^ 32 + e.rkind * 2 ^ 24 + b2n e.world * 2 ^ 22 + e.part * 2 ^ 16 + d.id)).wr page rERR_LOG3.off
      d.ltc.toNat

/-! ### Register accesses (R399, R443, R445, R448) -/

/-- The world of a page: its WORLD field; the FEN page is always Secure (R400). -/
def Dev.pageWorld (d : Dev) (page : Nat) : Bool := page == pFEN || d.bit page rWORLD.off 0

/-- May an access of this world reach the page (R399)? -/
def Dev.worldOk (d : Dev) (a : Access) (page : Nat) : Bool :=
  match a.world with
  | none => true
  | some w => w == d.pageWorld page

/-- Can a register of the page be reached now? During a warm reset only the MOD page is kept (R37); after a fatal error
only the MOD and ERR pages answer (R426); nothing answers without power or in a power-on or cold reset. -/
def Dev.reachable (d : Dev) (page : Nat) : Bool :=
  d.pow.pwrGood &&
    (match d.pow.reset with
     | none => !d.pow.stopped || page == pMOD || page == pERR
     | some .warm => page == pMOD
     | some _ => false)

/-- The registers behind a page's header read 0 and ignore writes while a block reset runs (R448). -/
def Dev.blockInReset (d : Dev) (page off : Nat) : Bool := 0x100 ≤ off && d.bit page rBLK_STS.off 1

/-- An access that completes with error status, logged in a page (R399, R443, R445). -/
def Dev.badAccess (d : Dev) (a : Access) (logPage page off code : Nat) : Dev :=
  (d.log logPage
    { code := code, addr := 0x0C0000000000 + page * 0x10000 + off, rkind := a.by_.code,
      world := a.world.getD true }).emit (.readback 0 true)

/-- A register write as every block treats it: the checks of reach, world and width, then the register's own effect,
then the normal completion. -/
def Dev.regWrite (d : Dev) (a : Access) (page off : Nat) (action : Bool) (eff : Dev → Dev) : Dev :=
  if !d.reachable page || !d.arrives a then d
  else if !d.worldOk a page then d.badAccess a page page off 0x01
  else if d.blockInReset page off then d.emit (.readback 0 false)
  else if action && a.width != .full then d.badAccess a page page off 0x03
  else (eff d).emit (.readback 0 false)

/-- Does a write reach its register's effect? -/
def Dev.writable (d : Dev) (a : Access) (page off : Nat) (action : Bool) : Bool :=
  d.reachable page && d.arrives a && d.worldOk a page && !d.blockInReset page off && (!action || a.width == .full)

/-- The fields of a register stored as their access codes give (R8). -/
def Dev.store8 (d : Dev) (a : Access) (page off : Nat) (r : Reg) (v : Word) : Dev :=
  d.wr page off (r.write (d.rd page off) a.width v.toNat)

/-- A register read: the checks, the value returned, and then the RC fields cleared (R8). -/
def Dev.regReadOf (d : Dev) (a : Access) (page off : Nat) (r : Reg) (value : Nat) (eff : Dev → Dev) : Dev :=
  if !d.reachable page || !d.arrives a then d
  else if !d.worldOk a page then d.badAccess a page page off 0x01
  else if d.blockInReset page off then d.emit (.readback 0 false)
  else
    (eff (d.wr page off (r.afterRead (d.rd page off) a.width))).emit
      (.readback (BitVec.ofNat 64 (a.width.view value)) false)

/-- A read of a register that returns what the register file holds. -/
def Dev.regRead (d : Dev) (a : Access) (page off : Nat) (r : Reg) (eff : Dev → Dev) : Dev :=
  d.regReadOf a page off r (d.rd page off) eff

/-! ### Claims (R453 to R456) -/

/-- Is the resource of a claim register held? -/
def Dev.held (d : Dev) (page off : Nat) : Bool := d.bit page off 63

/-- A claim by a holder of a kind (R454): granted when the resource is free, else only refused is set. -/
def Dev.claim (d : Dev) (page off kind id : Nat) : Dev × Bool :=
  if d.held page off then (d.setBit page off 62 true, false)
  else (((d.setBit page off 63 true).setFld page off 55 48 kind).setFld page off 47 32 id, true)

/-- Does this holder hold the resource? -/
def Dev.holds (d : Dev) (page off kind id : Nat) : Bool :=
  d.held page off && d.fld page off 55 48 == kind && d.fld page off 47 32 == id

/-- The holder gives the resource up (R455); nothing happens when it does not hold it. -/
def Dev.unclaim (d : Dev) (page off kind id : Nat) : Dev :=
  if d.holds page off kind id then ((d.setBit page off 63 false).setFld page off 55 48 0).setFld page off 47 32 0
  else d

/-! ### Warm reset -/

/-- A warm trigger takes effect (R38, R39): a warm reset starts, unless a reset is in progress that absorbs it; its cause
is kept for MOD_RST_CAUSE. -/
def Dev.warmTrigger (d : Dev) (cause : Nat) : Dev :=
  { d with pow := { d.pow with reset := some (d.pow.reset.getD .warm), warmCauses := d.pow.warmCauses ||| cause } }

def causePin : Nat := 4
def causeReg : Nat := 8
def causeFlood : Nat := 16

/-! ### Time -/

/-- The LTC in nanoseconds. -/
def Dev.now (d : Dev) : Nat := d.ltc.toNat

/-- A free value: the next one, with the counter advanced (log entry 5). -/
def Dev.free (d : Dev) : Dev × Word := ({ d with fresh := d.fresh + 1 }, Config.freeValue d.fresh)

/-- A random word of Fender's source (R402). -/
def Dev.draw (d : Dev) : Dev × Word :=
  ({ d with fen := { d.fen with draws := d.fen.draws + 1 } }, Config.random d.fen.draws)

/-! ### Update of one part of the device -/

def Dev.core (d : Dev) (k : Nat) : Core := Tab.get (fun _ => Core.reset) d.cores k
def Dev.setCore (d : Dev) (k : Nat) (c : Core) : Dev := { d with cores := Tab.set (fun _ => Core.reset) d.cores k c }
def Dev.part (d : Dev) (p : Nat) : Part := Tab.get (fun _ => {}) d.parts p
def Dev.setPart (d : Dev) (p : Nat) (x : Part) : Dev := { d with parts := Tab.set (fun _ => {}) d.parts p x }

/-- The world in which a partition's agents act (R398). -/
def Dev.partWorld (d : Dev) (p : Nat) : Bool := d.bit (pPART p) rWORLD.off 0

/-- Is the partition enabled? -/
def Dev.partOn (d : Dev) (p : Nat) : Bool := d.bit (pPART p) rPART_CTL.off 63

/-- Does the core belong to the partition's core set (PART_COREw)? -/
def Dev.ownsCore (d : Dev) (p k : Nat) : Bool := k < 512 && d.bit (pPART p) (rPART_CORE.at (k / 64)) (k % 64)

/-- The core set of a partition, ascending. -/
def Dev.coreSet (d : Dev) (p : Nat) : List Nat := (List.range 512).filter (d.ownsCore p)

/-- Does the ember lie in the partition's range (R391)? -/
def Dev.ownsEmber (d : Dev) (p e : Nat) : Bool :=
  let base := d.fld (pPART p) rPART_EMB.off 13 0
  base ≤ e && e < base + d.fld (pPART p) rPART_EMB.off 46 32

/-! ### Phase counters -/

/-- Offset of word i of the open step's record, LRN_PCUR. -/
def pcur (i : Nat) : Nat := rLRN_PCUR.at i

/-- Word of phase n in a step record: 0 wall_ns, 1 busy_ns, 2 tasks and direct tiles, 3 late layers (R255). -/
def phWord (n i : Nat) : Nat := pcur (8 + 4 * n + i)

/-- A 64-bit count of the step record raised; a count that would pass its maximum saturates and sets flag sat. -/
def Dev.phCount (d : Dev) (p off hi lo n : Nat) : Dev :=
  let top := 2 ^ (hi + 1 - lo) - 1
  let v := d.fld (pLRN p) off hi lo + n
  if v ≤ top then d.setFld (pLRN p) off hi lo v
  else (d.setFld (pLRN p) off hi lo top).setBit (pLRN p) (pcur 3) 8 true

/-- Time accounted up to now: wall_ns of every phase with an agent at work, busy_ns once per agent (R254). There are 16
phases (R253) and 64 partitions. -/
def Dev.phSync (d : Dev) (p : Nat) : Dev :=
  if 64 ≤ p then d
  else
    let x := (d.part p).phases
    let dt := d.now - x.since
    let d := d.each x.agents fun a e =>
      if a.2 = 0 || 16 ≤ a.1 then e else (e.phCount p (phWord a.1 0) 63 0 dt).phCount p (phWord a.1 1) 63 0 (a.2 * dt)
    d.setPart p { d.part p with phases := { (d.part p).phases with since := d.now } }

/-- Agents at work in a phase of a partition. -/
def Dev.phAgents (d : Dev) (p n : Nat) : Nat := Tab.get (fun _ => 0) (d.part p).phases.agents n

def Dev.phSet (d : Dev) (p n k : Nat) : Dev :=
  let x := d.part p
  d.setPart p { x with phases := { x.phases with agents := Tab.set (fun _ => 0) x.phases.agents n k } }

/-- An agent starts work in a phase. -/
def Dev.phStart (d : Dev) (p n : Nat) : Dev := let d := d.phSync p; d.phSet p n (d.phAgents p n + 1)
/-- An agent ends work in a phase. -/
def Dev.phEnd (d : Dev) (p n : Nat) : Dev := let d := d.phSync p; d.phSet p n (d.phAgents p n - 1)

def phGenerate : Nat := 0
def phBackward : Nat := 3
def phUpdate : Nat := 6
def phReshard : Nat := 8
def phWaiting : Nat := 9
def phFetch : Nat := 10
def phBank : Nat := 11
def phSwitch : Nat := 13
def phRecovery : Nat := 14

/-! ### Units in test (R427) -/

/-- Unit kinds by code (R438). -/
def ukCore : Nat := 1
def ukDma : Nat := 8
def ukEngine : Nat := 9

def unitKey (code place : Nat) : Nat := code * 2 ^ 32 + place
def Dev.unit (d : Dev) (code place : Nat) : UnitRec := Tab.get (fun _ => {}) d.errs.units (unitKey code place)
def Dev.setUnit (d : Dev) (code place : Nat) (u : UnitRec) : Dev :=
  { d with errs := { d.errs with units := Tab.set (fun _ => {}) d.errs.units (unitKey code place) u } }

/-- Is the unit out of service: under its self-test, or retired with nothing in its place? -/
def Dev.inTest (d : Dev) (code place : Nat) : Bool := (d.unit code place).testing || (d.unit code place).retired

end Sys2Proof.Machine
end

