-- ==== Sys2Proof/Machine/Mem.lean ====
section
/-! DEFINITION. The device address space (R440, R441), memory accesses with world, quota and poison, the frames of both
tiers and their pools (R162 to R182). -/

namespace Sys2Proof.Machine

/-! ### Address ranges (R440) -/

/-- What lies at a device address. -/
inductive Where where
  | tier
  | scratch (k : Nat)
  | regs
  | companion
  | unmapped
deriving DecidableEq, Repr

def granBytes : Nat := 0x4000000
def tileBytes : Nat := 0x10000
def scratchBase : Nat := 0x080000000000
def scratchBytes : Nat := 0x1000000
def windowBase : Nat := 0x100000000000

def whereIs (a : Nat) : Where :=
  if a < 0x030000000000 then .tier
  else if scratchBase ≤ a && a < 0x080200000000 then .scratch ((a - scratchBase) / scratchBytes)
  else if 0x0C0000000000 ≤ a && a < 0x0C0100000000 then .regs
  else if windowBase ≤ a && a < 0x200000000000 then .companion
  else .unmapped

/-- First byte of the scratchpad window of core k (R54). -/
def scratchAddr (k off : Nat) : Nat := scratchBase + k * scratchBytes + off

/-- The core whose window holds an address of the scratchpad range (R54). -/
def windowCore (a : Nat) : Nat := (a - scratchBase) / scratchBytes

/-- The pieces into which the multiples of a size cut a range of n bytes: address and length of each. -/
def pieces (size a n : Nat) : List (Nat × Nat) :=
  if n = 0 then []
  else (List.range ((a + n - 1) / size + 1 - a / size)).map fun i =>
    let lo := max a ((a / size + i) * size)
    (lo, min (a + n) ((a / size + i + 1) * size) - lo)

/-- The part of a device range that lies in the window of core k: scratchpad offset and bytes (R54). -/
def ownSpan (k a n : Nat) : Nat × Nat :=
  let lo := max a (scratchAddr k 0)
  (lo - scratchAddr k 0, min (a + n) (scratchAddr (k + 1) 0) - lo)

/-! ### The tier map (R166) -/

def Dev.gran (d : Dev) (g : Nat) : TierEntry := Tab.get (fun _ => {}) d.tier.map g
def Dev.setGran (d : Dev) (g : Nat) (e : TierEntry) : Dev :=
  { d with tier := { d.tier with map := Tab.set (fun _ => {}) d.tier.map g e } }
def Dev.mig (d : Dev) (g : Nat) : Migration := Tab.get (fun _ => {}) d.tier.mig g
def Dev.setMig (d : Dev) (g : Nat) (m : Migration) : Dev :=
  { d with tier := { d.tier with mig := Tab.set (fun _ => {}) d.tier.mig g m } }

/-- Migration states of R166. -/
def stStable : Nat := 0
def stZeroing : Nat := 1
def stCopying : Nat := 2
def stSwitching : Nat := 3
def stRefetch : Nat := 4
def stRetiring : Nat := 5

/-- Does the entry name a destination frame now? -/
def TierEntry.moving (e : TierEntry) : Bool :=
  e.valid && (e.state == stCopying || e.state == stSwitching || e.state == stRetiring)

/-- Tiles of a granule that hold poisoned lines: the field ptiles (R166). -/
def Dev.ptiles (d : Dev) (g : Nat) : Nat :=
  (((d.poison.filter fun l => l / (granBytes / 64) == g).map (· / (tileBytes / 64))).dedup).length

/-- Granules of a range of n bytes at an address. -/
def granules (a n : Nat) : List Nat :=
  if n = 0 then [] else (List.range ((a + n - 1) / granBytes + 1 - a / granBytes)).map (a / granBytes + ·)

/-- Tiles of a range of n bytes, numbered over the whole tier range. -/
def tilesOf (a n : Nat) : List Nat :=
  if n = 0 then [] else (List.range ((a + n - 1) / tileBytes + 1 - a / tileBytes)).map (a / tileBytes + ·)

/-! ### Frames and what lies behind them (R163 to R165) -/

/-- The compute die of an HBM frame: its stacks are H(2n) and H(2n+1) (R163). -/
def hbmDie (f : Nat) : Nat := f / 1536

/-- The pseudo-channel, of the 64 of the two stacks of its die, that holds byte off of an HBM frame: 256 bytes each in turn
(R163). -/
def hbmChannel (off : Nat) : Nat := off / 256 % 64

/-- Run length in stripes of the run field of a tier map entry (R164, R166). -/
def runLength (run : Nat) : Nat := [1, 4, 8, 16].getD run 1

/-- Stove die of stripe s under a run length (R164). -/
def stripeDie (l s : Nat) : Nat := s / l % 4

/-- Order of stripe s on its die (R164). -/
def stripeOrder (l s : Nat) : Nat := s / (4 * l) * l + s % l

/-- Slow-tier channel of stripe s, and its byte address within that channel (R164). -/
def stripeChannel (l s : Nat) : Nat := 32 * stripeDie l s + stripeOrder l s % 32
def stripeAddr (l frame s : Nat) : Nat := (frame * 256 + stripeOrder l s / 32) * 2048

/-- Where a byte of a mapped granule lies: for the slow tier its channel and the address within it (R164), for HBM its die
and its pseudo-channel (R163). -/
def TierEntry.lies (e : TierEntry) (off : Nat) : Nat × Nat :=
  let l := runLength e.run
  if e.slow then (stripeChannel l (off / 2048), stripeAddr l e.frame (off / 2048) + off % 2048)
  else (hbmDie e.frame, hbmChannel off)

/-- Stove die of element i of a tensor of w bytes per element that begins at an offset of its granules, whose run length is
4 w (R165). -/
def elementDie (w base i : Nat) : Nat := stripeDie (4 * w) ((base + w * i) % granBytes / 2048)

/-! ### Frames in service (R188, R462) -/

/-- The lowest-numbered free HBM frame in service on one compute die. -/
def Dev.freeHbmOn (d : Dev) (die : Nat) : Option Nat :=
  if d.tier.hbmDies.contains die then lowestFree d.tier.hbmUsed d.tier.hbmGone (die * 1536) ((die + 1) * 1536) else none

/-- The lowest-numbered free frame in service of a tier (R462): HBM, or slow when the flag is set. -/
def Dev.freeFrame (d : Dev) (slow : Bool) : Option Nat :=
  if slow then (if d.tier.slowIn then lowestFree d.tier.slowUsed d.tier.slowGone 0 32768 else none)
  else d.tier.hbmDies.findSome? d.freeHbmOn

/-- Is a tier in service at the present service level (R169)? -/
def Dev.tierIn (d : Dev) (slow : Bool) : Bool := if slow then d.tier.slowIn else !d.tier.hbmDies.isEmpty

def Dev.useFrame (d : Dev) (slow : Bool) (f : Nat) : Dev :=
  if slow then { d with tier := { d.tier with slowUsed := d.tier.slowUsed.add f } }
  else { d with tier := { d.tier with hbmUsed := d.tier.hbmUsed.add f } }

def Dev.unuseFrame (d : Dev) (slow : Bool) (f : Nat) : Dev :=
  if slow then { d with tier := { d.tier with slowUsed := d.tier.slowUsed.del f } }
  else { d with tier := { d.tier with hbmUsed := d.tier.hbmUsed.del f } }

/-- Frames in service of HBM (TIER_FREE.hbm_svc): 1,536 on each die in service, without the retired ones. -/
def Dev.hbmSvc (d : Dev) : Nat :=
  1536 * d.tier.hbmDies.length - (d.tier.hbmGone.filter fun f => d.tier.hbmDies.contains (f / 1536)).length
/-- Frames in service of the slow tier (TIER_FREE.slow_svc). -/
def Dev.slowSvc (d : Dev) : Nat := if d.tier.slowIn then 32768 - d.tier.slowGone.length else 0

/-- Stage-cache frames a partition's quota names (TIER_PQp.stage). -/
def Dev.stageQuota (d : Dev) (p : Nat) : Nat := d.fld pTIER (rTIER_PQ.at p) 47 32
def Dev.stageOf (d : Dev) (p : Nat) : NSet := Tab.get (fun _ => []) d.tier.stage p
def Dev.setStage (d : Dev) (p : Nat) (s : NSet) : Dev :=
  { d with tier := { d.tier with stage := Tab.set (fun _ => []) d.tier.stage p s } }

/-- HBM usage of a partition (R176): frames of its granules, destinations of its migrations, the stage cache at its full
value, and save-area frames. The destination of a retirement (R434) is taken whatever the quota of its tier, and counts
as that of a migration does, so usage may pass the quota while it lasts (DESIGN CHOICE, log entry 35). -/
def Dev.hbmUse (d : Dev) (p : Nat) : Nat :=
  (d.tier.map.filter fun x => x.2.valid && x.2.part == p && !x.2.slow).length
    + (d.tier.map.filter fun x => x.2.moving && x.2.part == p && !x.2.dslow && !d.tier.waiting.contains x.1).length
    + d.stageQuota p + (d.part p).saveFrames.length

/-- Slow usage of a partition (R176). -/
def Dev.slowUse (d : Dev) (p : Nat) : Nat :=
  (d.tier.map.filter fun x => x.2.valid && x.2.part == p && x.2.slow).length
    + (d.tier.map.filter fun x => x.2.moving && x.2.part == p && x.2.dslow && !d.tier.waiting.contains x.1).length

/-- Has the partition quota for one more frame of a tier? -/
def Dev.quotaLeft (d : Dev) (p : Nat) (slow : Bool) : Bool :=
  if slow then d.slowUse p < d.fld pTIER (rTIER_PQ.at p) 31 16 else d.hbmUse p < d.fld pTIER (rTIER_PQ.at p) 15 0

/-- A frame becomes free (R177, R436): it goes first to the oldest granule that waits for a destination, then to the
stage-cache shortfalls in ascending partition, then to the pool. A retired frame goes nowhere. -/
def Dev.giveBack (d : Dev) (slow : Bool) (f : Nat) : Dev :=
  if (if slow then d.tier.slowGone else d.tier.hbmGone).contains f then d.unuseFrame slow f
  else match d.tier.waiting with
  | g :: rest =>
    let e := d.gran g
    (Dev.setGran { d with tier := { d.tier with waiting := rest } } g { e with dslow := slow, dframe := f }).setFld
      pERR rERR_FRET.off 31 16 rest.length
  | [] =>
    if slow then d.unuseFrame true f
    else match (List.range 64).find? fun p => (d.stageOf p).length < d.stageQuota p with
      | some p => d.setStage p ((d.stageOf p).add f)
      | none => d.unuseFrame false f

/-! ### Source records (R179, R299) -/

/-- A re-fetch record: the replica granule and the slot of the manifest, as far as the record names them. -/
structure SourceRec where
  replica : Option Nat
  slot : Option Nat
deriving DecidableEq, Repr

/-! ### Bytes -/

/-- n bytes of a memory from an address on. -/
def memLoad (m : Tab Byte) (a : Nat) : Nat → List Byte
  | 0 => []
  | n + 1 => Tab.get (fun _ => 0) m a :: memLoad m (a + 1) n

/-- The memory with bytes written from an address on. -/
def memStore (m : Tab Byte) (a : Nat) : List Byte → Tab Byte
  | [] => m
  | b :: bs => memStore (Tab.set (fun _ => 0) m a b) (a + 1) bs

/-- The bytes at a device address. -/
def Dev.load (d : Dev) (a n : Nat) : List Byte := memLoad d.mem a n
/-- The 64 bytes of a descriptor in an engine's queue. -/
def Dev.descBytes (d : Dev) (x : Submitted) : List Byte := x.bytes.getD (d.load x.addr 64)
/-- A little-endian number of n bytes at a device address (R5). -/
def Dev.loadNat (d : Dev) (a n : Nat) : Nat := leNat (d.load a n)

/-- Does any of n bytes at an address lie in a poisoned line (R178)? -/
def Dev.poisoned (d : Dev) (a n : Nat) : Bool := d.poison.meets (a / 64) ((a + n + 63) / 64)

/-- Bytes written; a line written whole loses its poison (R178). -/
def Dev.storeRaw (d : Dev) (a : Nat) (bs : List Byte) : Dev :=
  { d with mem := memStore d.mem a bs, poison := d.poison.clear ((a + 63) / 64) ((a + bs.length) / 64) }

/-- Lines that hold any of n bytes at an address become poisoned; no source has been tried for them (R180). -/
def Dev.addPoison (d : Dev) (a n : Nat) : Dev :=
  { d with poison := NSet.addRange d.poison (a / 64) ((a + n + 63) / 64 - a / 64),
           tier := { d.tier with tried := d.tier.tried.clear (a / tileBytes) ((a + n + 0xFFFF) / tileBytes) } }

/-- The poisoned tiles of a granule, numbered over the whole tier range. -/
def Dev.poisonTiles (d : Dev) (g : Nat) : List Nat :=
  ((d.poison.filter fun l => l / (granBytes / 64) == g).map (· / (tileBytes / 64))).dedup

/-- The granule returns from re-fetch to stable once no tile of it is poisoned, or every poisoned tile has failed at
every source (R180, R181; log entry 8). -/
def Dev.settle (d : Dev) (g : Nat) : Dev :=
  let e := d.gran g
  if e.valid && e.state == stRefetch && (d.poisonTiles g).all d.tier.tried.contains then
    (d.setGran g { e with state := stStable }).phEnd e.part phRecovery
  else d

/-! ### Lines that the companion holds (R346) -/

/-- Does the companion hold a line of the range modified? -/
def Dev.companionOwns (d : Dev) (a n : Nat) : Bool :=
  d.vex.filter.any fun x => x.2 && a / 64 ≤ x.1 && x.1 < (a + n + 63) / 64

/-- Asks for the lines of the range that the companion holds modified. -/
def Dev.snoop (d : Dev) (a n : Nat) : Dev :=
  d.each (d.vex.filter.filter fun x => x.2 && a / 64 ≤ x.1 && x.1 < (a + n + 63) / 64)
    fun x e => e.toCompanion (.snoop (e.companionAddr (64 * x.1)))

/-- Invalidates the companion's copies of a written range (R346): a shared copy is given up at once; a line held
modified stays held until its data is back, of which the bytes written here take no part. -/
def Dev.invalidate (d : Dev) (a n : Nat) : Dev :=
  let hit := d.vex.filter.filter fun x => a / 64 ≤ x.1 && x.1 < (a + n + 63) / 64
  if hit.isEmpty then d
  else
    let own := hit.filter (·.2)
    let written := own.foldl (fun (s : NSet) (x : Nat × Bool) =>
      s.addRange (max a (64 * x.1)) (min (a + n) (64 * x.1 + 64) - max a (64 * x.1))) d.vex.written
    let kept := d.vex.filter.filter fun (x : Nat × Bool) => x.2 || !(a / 64 ≤ x.1 && x.1 < (a + n + 63) / 64)
    Dev.each { d with vex := { d.vex with written := written, filter := kept } } hit fun x e => e.toCompanion (.snoop (e.companionAddr (64 * x.1)))

/-! ### Segments that a core's instructions hold (R51, R54, R151) -/

/-- Do two scratchpad ranges touch a common segment (R51)? -/
def sameSegment (a n b m : Nat) : Bool :=
  n != 0 && m != 0 && b / 0x40000 * 0x40000 < a + n && a / 0x40000 * 0x40000 < b + m

/-- Does an instruction of the core still fill a segment of n bytes at an offset of its scratchpad, or, for a write, read
one: a transfer in flight, or an output not yet committed (R51, R151)? -/
def Core.segHeld (c : Core) (k off n : Nat) (write : Bool) : Bool :=
  c.tlds.any (fun t => sameSegment off n t.dst t.count) ||
    (write && (c.tlds.any (fun t => let r := ownSpan k t.src t.count; sameSegment off n r.1 r.2) ||
      (c.outs ++ c.committing).any fun o =>
        match o with
        | .tst src _ m => sameSegment off n src m
        | .submit _ s => sameSegment off n s 64
        | .esig _ _ => false))

/-- Does a range of the scratchpad windows lie in a segment that its core's instructions hold against the access? -/
def Dev.scratchBusy (d : Dev) (a n : Nat) (write : Bool) : Bool :=
  match whereIs a with
  | .scratch _ => (pieces scratchBytes a n).any fun r =>
      (d.core (windowCore r.1)).segHeld (windowCore r.1) (r.1 % scratchBytes) r.2 write
  | _ => false

/-! ### Stores -/

/-- Staged copies of written tiles are dropped (R183). -/
def Dev.dropStaged (d : Dev) (a n : Nat) : Dev :=
  if n = 0 || d.tier.staged.isEmpty then d
  else { d with tier := { d.tier with staged := Tab.clear d.tier.staged (a / tileBytes) ((a + n - 1) / tileBytes + 1) } }

/-- Tiles written during a migration or retirement become dirty again (R172). -/
def Dev.markDirty (d : Dev) (a n : Nat) : Dev :=
  d.each (tilesOf a n) fun t e =>
    let g := t / 1024
    let x := e.gran g
    if x.valid && (x.state == stCopying || x.state == stRetiring) then
      e.setMig g { e.mig g with dirty := (e.mig g).dirty.add (t % 1024) }
    else e

/-- An access raises the heat of a granule (R166). -/
def Dev.warm (d : Dev) (a n : Nat) : Dev :=
  d.each (granules a n) fun g e =>
    let x := e.gran g
    if x.valid then e.setGran g { x with heat := satAdd 0xFFFF x.heat 1 } else e

/-- A granule of the range whose writes are held while it switches (R171). -/
def Dev.switching (d : Dev) (a n : Nat) : Option Nat :=
  (granules a n).find? fun g => (d.gran g).valid && (d.gran g).state == stSwitching

/-- Lines of the link cache and read buffer that a write of the window touches: a range held whole is written there too,
another is dropped (R346; log entry 12). -/
def Dev.cacheWrite (d : Dev) (a : Nat) (bs : List Byte) : Dev :=
  let ls := (List.range ((a + bs.length + 63) / 64 - a / 64)).map (a / 64 + ·)
  if ls.all d.vex.cached.contains then { d with mem := memStore d.mem a bs }
  else if ls.any d.vex.cached.contains then
    { d with mem := Tab.clear d.mem (a / 64 * 64) ((a + bs.length + 63) / 64 * 64),
             vex := { d.vex with cached := d.vex.cached.filter fun l => !ls.contains l } }
  else d

/-- A write of the companion window by an agent in a world: it goes out with a number and the poison it carries, and waits for the
home's acknowledgement (R342, R347). -/
def Dev.windowWrite (d : Dev) (owner a : Nat) (bs : List Byte) (bad secure : Bool) : Dev :=
  let d := d.cacheWrite a bs
  Dev.toCompanion { d with vex := { d.vex with
      writes := d.vex.writes ++ [⟨d.vex.nextId, owner, a, bs⟩], nextId := d.vex.nextId + 1 } }
    (.companionWrite (some d.vex.nextId) (d.homeAddr a) bs bad secure)

/-- Lines of the window leave the link cache and the read buffer. -/
def Dev.windowDrop (d : Dev) (a n : Nat) : Dev :=
  { d with mem := Tab.clear d.mem (a / 64 * 64) ((a + n + 63) / 64 * 64),
           vex := { d.vex with cached := NSet.clear d.vex.cached (a / 64) ((a + n + 63) / 64) },
           poison := NSet.clear d.poison (a / 64) ((a + n + 63) / 64) }

/-- Are the lines of a range of the window here to be read? -/
def Dev.windowHere (d : Dev) (a n : Nat) : Bool :=
  (List.range ((a + n + 63) / 64 - a / 64)).all fun i => d.vex.cached.contains (a / 64 + i)

/-- The lines of a range of the window are asked for in a world, unless they are here or have been asked for. -/
def Dev.windowAsk (d : Dev) (a n : Nat) (secure : Bool) : Dev :=
  if d.windowHere a n || d.vex.reads.contains (a, n) then d
  else Dev.toCompanion { d with vex := { d.vex with reads := d.vex.reads ++ [(a, n)] } } (.companionRead (d.homeAddr a) n secure)

/-- Lines of the link cache on each of IO0 and IO1 (R346). -/
def linkCacheLines : Nat := 65536

/-- Lines of the window arrive. A full cache gives other lines up, the lowest first (log entry 12). -/
def Dev.windowFill (d : Dev) (a n : Nat) : Dev :=
  let new := (List.range ((a + n + 63) / 64 - a / 64)).map (a / 64 + ·)
  let d := { d with vex := { d.vex with cached := NSet.addRange d.vex.cached (a / 64) new.length } }
  d.each [0, 1] fun io e =>
    let l := e.vex.cached.filter fun x => x % 2 == io
    e.each ((l.filter fun x => !new.contains x).take (l.length - linkCacheLines)) fun x f => f.windowDrop (64 * x) 64

/-- A read of the window is done: without feature [1] its lines are not kept (R346). -/
def Dev.windowUsed (d : Dev) (a n : Nat) : Dev :=
  if (List.range 2).any (fun i => d.bit pVEX (rVEX_PORT.at i) 1) then d
  else d.windowDrop a n

/-- Segments of core k that n bytes at a scratchpad offset touch become live (R56). -/
def Dev.liveSegs (d : Dev) (k off n : Nat) : Dev :=
  if n = 0 then d
  else
    let c := d.core k
    let lo := off / 0x40000
    d.setCore k { c with live := { c.live with segLive := NSet.addRange c.live.segLive lo ((off + n - 1) / 0x40000 + 1 - lo) } }

/-- A write of a granule that switches is held (R171). -/
def Dev.hold (d : Dev) (g a : Nat) (bs : List Byte) (bad : Bool) : Dev :=
  d.setMig g { d.mig g with held := (d.mig g).held ++ [(a, bs, bad)] }

/-- A write of a connection record renews its connection (R291). -/
def Dev.renewConns (d : Dev) (a n : Nat) : Dev :=
  { d with eth := { d.eth with lost := d.eth.lost.filter fun c => c + 64 ≤ a || a + n ≤ c } }

/-- A write within one granule, with the poison it carries: held while the granule switches (R171), else with everything
that follows from a write of the tier range. -/
def Dev.storeGran (d : Dev) (a : Nat) (bs : List Byte) (bad : Bool) : Dev :=
  let g := a / granBytes
  let n := bs.length
  if (d.gran g).valid && (d.gran g).state == stSwitching then d.hold g a bs bad
  else
    let d := ((((((d.storeRaw a bs).markDirty a n).dropStaged a n).invalidate a n).warm a n).renewConns a n).settle g
    if bad then d.addPoison a n else d

/-- A write within the scratchpad window of one core: its segments become live (R56). -/
def Dev.storeScratch (d : Dev) (a : Nat) (bs : List Byte) (bad : Bool) : Dev :=
  let d := (d.storeRaw a bs).liveSegs (windowCore a) (a % scratchBytes) bs.length
  if bad then d.addPoison a bs.length else d

/-- A write of an agent to memory of the device, after its checks, with the poison it carries (R178): granule by granule to the
tier range, window by window to the scratchpads. A write of the companion window is `Dev.windowWrite`. -/
def Dev.storeBad (d : Dev) (a : Nat) (bs : List Byte) (bad : Bool) : Dev :=
  let part := fun (r : Nat × Nat) => (bs.drop (r.1 - a)).take r.2
  match whereIs a with
  | .tier => d.each (pieces granBytes a bs.length) fun r e => e.storeGran r.1 (part r) bad
  | .scratch _ => d.each (pieces scratchBytes a bs.length) fun r e => e.storeScratch r.1 (part r) bad
  | _ => d

def Dev.store (d : Dev) (a : Nat) (bs : List Byte) : Dev := d.storeBad a bs false

/-- The byte that the writes held for a switching granule leave at an address, when one of them covers it. -/
def heldByte (held : List (Nat × List Byte × Bool)) (a : Nat) : Option Byte :=
  (held.reverse.find? fun h => h.1 ≤ a && a < h.1 + h.2.1.length).bind fun h => h.2.1[a - h.1]?

/-- Bytes as an engine of the Zamet sees its own tables and buffers: with its writes that are held while a granule
switches (R171). -/
def Dev.loadNew (d : Dev) (a n : Nat) : List Byte :=
  if (d.switching a n).isNone then d.load a n
  else (d.load a n).zipIdx.map fun x =>
    (heldByte (d.mig ((a + x.2) / granBytes)).held (a + x.2)).getD x.1

def Dev.loadNatNew (d : Dev) (a n : Nat) : Nat := leNat (d.loadNew a n)

/-- Is every write to the range visible: none is held for a granule of it that switches (R53, R171)? -/
def Dev.rangeVisible (d : Dev) (a n : Nat) : Bool := whereIs a != .tier || (granules a n).all fun g => (d.mig g).held.isEmpty

/-- A store of a little-endian number of n bytes. -/
def Dev.storeNat (d : Dev) (a n v : Nat) : Dev := d.store a (natLe n v)

/-! ### Access checks (R120, R170, R399) -/

/-- Whether an agent of a partition in a world may access a granule: 0, or the fault code of R80. -/
def Dev.granCode (d : Dev) (p : Nat) (w : Bool) (g : Nat) : Nat :=
  let e := d.gran g
  if !e.valid || e.part != p then 4 else if e.world != w then 5 else 0

/-- Whether an agent of a partition may access n bytes: 0, 0x04 for an address outside its quota, 0x05 for the other
world; with several, the lower (R121). -/
def Dev.accessCode (d : Dev) (p : Nat) (w : Bool) (a n : Nat) : Nat :=
  match whereIs a with
  | .tier =>
    if 0x030000000000 < a + n then 4
    else
      let cs := (granules a n).map (d.granCode p w)
      if cs.contains 4 then 4 else if cs.contains 5 then 5 else 0
  | .scratch _ => if a + n ≤ scratchAddr 512 0 && (pieces scratchBytes a n).all (fun r => d.ownsCore p (windowCore r.1))
      then 0 else 4
  | .companion => if a + n ≤ 0x200000000000 then 0 else 4
  | _ => 4

/-- May an engine of a partition access n bytes of the tier range? -/
def Dev.tierOk (d : Dev) (p : Nat) (w : Bool) (a n : Nat) : Bool :=
  whereIs a == .tier && d.accessCode p w a n == 0

/-- Code for a range that an engine would read or write, in the tier range or in the windows of the partition's cores
(R54), as R80 names it. -/
def Dev.rangeCode (d : Dev) (p : Nat) (w : Bool) (a n : Nat) : Nat :=
  match whereIs a with
  | .tier | .scratch _ => d.accessCode p w a n
  | _ => 4

/-- As `tierOk`, and every granule of the range lies in HBM. -/
def Dev.hbmOk (d : Dev) (p : Nat) (w : Bool) (a n : Nat) : Bool :=
  d.tierOk p w a n && (granules a n).all fun g => !(d.gran g).slow

/-- As `tierOk`, and every granule of the range lies in the slow tier. -/
def Dev.slowOk (d : Dev) (p : Nat) (w : Bool) (a n : Nat) : Bool :=
  d.tierOk p w a n && (granules a n).all fun g => (d.gran g).slow

/-- The re-fetch record of a granule when its partition's source table holds a valid one (R179). -/
def Dev.sourceRec (d : Dev) (g : Nat) : Option SourceRec :=
  let e := d.gran g
  let base := d.fld pTIER (rTIER_PSRC.at e.part) 47 4 * 16
  let a := base + 16 * g
  if base = 0 || !d.tierOk e.part e.world a 16 || d.poisoned a 16 then none
  else
    let flags := d.loadNat (a + 2) 1
    if bits flags 1 0 = 0 then none
    else some { replica := if flags.testBit 0 then some (d.loadNat a 2) else none,
                slot := if flags.testBit 1 then some (d.loadNat (a + 3) 1 % 4) else none }

/-- Tiles of a range counted as left poisoned (TIER_STAT.unrecovered), each once (R181). -/
def Dev.leavePoisoned (d : Dev) (tiles : List Nat) : Dev :=
  d.each tiles fun t e =>
    if e.tier.left.contains t then e
    else Dev.count { e with tier := { e.tier with left := e.tier.left.add t } } pTIER rTIER_STAT.off 7 0 1

/-- A read that finds a poisoned line puts its granule into re-fetch when a valid record names a source (R179). A
migration in progress is abandoned; a granule that zeroes, switches or retires keeps its state. Without a valid record
the poisoned tiles are left so, and a tile that has failed at every source is not tried again (R181; log entry 8). -/
def Dev.enterRefetch (d : Dev) (g : Nat) : Dev :=
  let e := d.gran g
  if !e.valid then d
  else if (d.poisonTiles g).all d.tier.tried.contains then d
  else if (d.sourceRec g).isNone then d.leavePoisoned (d.poisonTiles g)
  else if e.state == stStable then (d.setGran g { e with state := stRefetch }).phStart e.part phRecovery
  else if e.state == stCopying then
    (((d.setGran g { e with state := stRefetch, dslow := false, dframe := 0 }).setMig g {}).giveBack e.dslow
      e.dframe).phStart e.part phRecovery
  else d

/-- Granules of a range that hold poisoned lines of it. -/
def Dev.poisonedGrans (d : Dev) (a n : Nat) : List Nat :=
  (granules a n).filter fun g =>
    let lo := max a (g * granBytes)
    let hi := min (a + n) ((g + 1) * granBytes)
    d.poisoned lo (hi - lo)

/-- Re-fetch entered by every poisoned granule of a range in the tier range. -/
def Dev.refetchRange (d : Dev) (a n : Nat) : Dev :=
  if whereIs a == .tier then d.each (d.poisonedGrans a n) fun g e => e.enterRefetch g else d

/-- May the poison of a granule still clear: it is in re-fetch, or it will enter re-fetch once it has zeroed, switched or
retired (log entry 8)? -/
def Dev.mayMend (d : Dev) (g : Nat) : Bool :=
  let e := d.gran g
  e.valid && (e.state == stRefetch || (e.state != stStable && e.state != stCopying && (d.sourceRec g).isSome
    && !(d.poisonTiles g).all d.tier.tried.contains))

/-- May the poison of a granule of the range still clear? -/
def Dev.refetching (d : Dev) (a n : Nat) : Bool := whereIs a == .tier && (d.poisonedGrans a n).any d.mayMend

/-- Poisoned lines of the ranges are left for good: outside the tier range, or in a granule with no re-fetch to come
(R181). -/
def Dev.lost (d : Dev) (rs : List (Nat × Nat)) : Bool := rs.any fun r => d.poisoned r.1 r.2 && !d.refetching r.1 r.2

/-- Is a granule of the ranges still in re-fetch, or about to enter it (R180)? -/
def Dev.mending (d : Dev) (rs : List (Nat × Nat)) : Bool :=
  rs.any fun r => whereIs r.1 == .tier && (granules r.1 r.2).any d.mayMend

/-- Every poisoned granule of the ranges enters re-fetch (R179). -/
def Dev.refetchAll (d : Dev) (rs : List (Nat × Nat)) : Dev := d.each rs fun r e => e.refetchRange r.1 r.2

end Sys2Proof.Machine
end

