-- ==== Sys2Proof/Machine/Trace.lean ====
section
/-! DEFINITION. Accounting that several families share: the ash log (R257 to R261), and
notices with the credits they limit (R352, R355, R357). -/

namespace Sys2Proof.Machine

/-! ### Trace memory and the ash log -/

def ashHolder : Nat := 4
def traceHolder : Nat := 3

/-- Is context c of partition p being recorded? -/
def Dev.recording (d : Dev) (p c : Nat) : Bool :=
  d.bit (pLRN p) rLRN_ASH_CTL.off 63 && d.fld (pLRN p) rLRN_ASH_CTL.off 3 0 == c

/-- A record of the ash log: its 16-byte header and its body, padded with zeros to 16 bytes (R258). -/
def ashRecord (type flags index : Nat) (body : List Byte) : List Byte :=
  natLe 2 type ++ natLe 2 flags ++ natLe 4 body.length ++ natLe 4 index ++ natLe 4 (crc32c.of body) ++ body
    ++ List.replicate ((16 - body.length % 16) % 16) 0

def Dev.setAsh (d : Dev) (p : Nat) (a : Ash) : Dev := d.setPart p { d.part p with ash := a }

/-- Size in bytes of the log area of a partition. -/
def Dev.ashSize (d : Dev) (p : Nat) : Nat := d.fld (pLRN p) rLRN_ASH_BASE.off 55 32 * 0x10000

/-- A record put into trace memory (R257, R261): when the area cannot take it beside the reserve of 64 bytes, the
recorder stops writing, sets gap and raises the partition's event. -/
def Dev.ashAppend (d : Dev) (p type flags : Nat) (body : List Byte) : Dev :=
  let a := (d.part p).ash
  let r := ashRecord type flags a.nrec body
  if d.bit (pLRN p) rLRN_ASH_STS.off 1 then d
  else if d.ashSize p < a.pos + r.length + 64 then
    (d.setBit (pLRN p) rLRN_ASH_STS.off 1 true).partEvt p evEngine
  else
    (d.setAsh p { a with pos := a.pos + r.length, nrec := a.nrec + 1, queue := a.queue ++ [r],
                         crc := crc32c.feed a.crc r }).setBit (pLRN p) rLRN_ASH_STS.off 0 true

/-- A record of the recorded context, when it is being recorded. -/
def Dev.ashNote (d : Dev) (p c type : Nat) (body : List Byte) : Dev :=
  if d.recording p c then d.ashAppend p type 0 body else d

/-- A fault of a task of the recorded context: the fault record and the fault flag (R259, R261). -/
def Dev.ashFault (d : Dev) (p c : Nat) (adm : Option Nat) (code addr : Nat) : Dev :=
  if d.recording p c then
    (d.ashAppend p 4 0 (natLe 4 (adm.getD 0) ++ natLe 4 code ++ natLe 8 addr)).setBit (pLRN p) rLRN_ASH_STS.off 2 true
  else d

/-! ### Work queues, notices and credits -/

/-- Unreserved slots of a notice class. -/
def Notices.freeSlots (n : Notices) (c : Nat) : Nat := 1024 - Tab.get (fun _ => 0) n.reserved c

def Dev.setNotices (d : Dev) (p : Nat) (n : Notices) : Dev := d.setPart p { d.part p with notices := n }

def Dev.wqOn (d : Dev) (p q : Nat) : Bool := d.bit (pVWQ p) (rVWQ_WQ.at q) 63
def Dev.wqNotify (d : Dev) (p q : Nat) : Bool := d.bit (pVWQ p) (rVWQ_WQ.at q) 62
def Dev.wqClass (d : Dev) (p q : Nat) : Nat := d.fld (pVWQ p) (rVWQ_WQ.at q) 61 59
def Dev.wqTq (d : Dev) (p q : Nat) : Nat := d.fld (pVWQ p) (rVWQ_WQ.at q) 58 56
def Dev.wqK (d : Dev) (p q : Nat) : Nat := d.fld (pVWQ p) (rVWQ_WQ.at q) 52 48
def Dev.wqBase (d : Dev) (p q : Nat) : Nat := d.fld (pVWQ p) (rVWQ_WQ.at q) 47 0
def Dev.wqCi (d : Dev) (p q : Nat) : Nat := d.fld (pVWQ p) (rVWQ_WQ_CI.at q) 31 0
def Dev.wqPi (d : Dev) (p q : Nat) : Nat := d.fld (pVWQ p) (rVWQ_DB.at q) 31 0
def Dev.wqGrant (d : Dev) (p q : Nat) : Nat := d.fld (pVWQ p) (rVWQ_DB.at q) 63 32

/-- Distance from a to b of indices counted modulo 2^32. -/
def span32 (a b : Nat) : Nat := (b + 2 ^ 32 - a % 2 ^ 32) % 2 ^ 32

/-- The credit word of a queue written to the companion (R352). -/
def Dev.creditWrite (d : Dev) (p q : Nat) : Dev :=
  d.toCompanion (.companionWrite none (d.rd (pVWQ p) (rVWQ_WQ_CRED.at q)) (natLe 8 (d.wqGrant p q)) false (d.partWorld p))

/-- The grant of one enabled queue computed again (R352): up to the whole ring, and with notify only as far as its class
has unreserved slots, which are then reserved. -/
def Dev.regrant1 (d : Dev) (p q : Nat) : Dev :=
  if !d.wqOn p q then d
  else
    let n := (d.part p).notices
    let have_ := span32 (d.wqCi p q) (d.wqGrant p q)
    let c := d.wqClass p q
    let want := if d.wqNotify p q then min (2 ^ d.wqK p q) (have_ + n.freeSlots c) else 2 ^ d.wqK p q
    if want ≤ have_ then d
    else
      let r := Tab.get (fun _ => 0) n.reserved c + (want - have_)
      let d := if d.wqNotify p q then
          d.setNotices p { n with reserved := Tab.set (fun _ => 0) n.reserved c r }
        else d
      (d.setFld (pVWQ p) (rVWQ_DB.at q) 63 32 ((d.wqCi p q + want) % 2 ^ 32)).creditWrite p q

/-- The grants of a partition's queues computed again, in ascending order (R352). -/
def Dev.regrant (d : Dev) (p : Nat) : Dev := d.each (List.range 16) fun q e => e.regrant1 p q

/-- The notice of a packet (R355). -/
def noticeWord (q c i status : Nat) : Word :=
  BitVec.ofNat 64 (i % 2 ^ 32 * 2 ^ 32 + q * 2 ^ 28 + c * 2 ^ 25 + 2 ^ 24 + status)

/-- A slot of a class and its reservation are given up. -/
def Dev.freeSlot (d : Dev) (p c : Nat) : Dev :=
  let n := (d.part p).notices
  d.setNotices p { n with reserved := Tab.set (fun _ => 0) n.reserved c (Tab.get (fun _ => 0) n.reserved c - 1) }

/-- The notice interrupt of a partition, at most once per coal µs (R357). -/
def Dev.noticeIrq (d : Dev) (p : Nat) : Dev :=
  let n := (d.part p).notices
  let coal := d.fld (pVWQ p) rVWQ_NCTL.off 47 32 * 1000
  let due := match n.lastIrq with
    | none => true
    | some t => t + coal ≤ d.now
  if d.bit (pVWQ p) rVWQ_NCTL.off 9 && due then
    (d.setNotices p { n with lastIrq := some d.now }).vector (d.fld (pVWQ p) rVWQ_NCTL.off 8 0)
  else d

/-- A notice appended to its class (R355): a held pop takes it at once, while its completion can be delivered (R356);
else it waits and may interrupt. -/
def Dev.appendNotice (d : Dev) (p : Nat) (t : TaskSource) (status : Nat) : Dev :=
  let c := t.class_
  let n := (d.part p).notices
  let w := noticeWord t.queue c t.index status
  match (if d.vexUp then n.held else []) with
  | _ :: rest => (((d.setNotices p { n with held := rest }).freeSlot p c).emit (.readback w false)).regrant p
  | [] =>
    ((d.setNotices p { n with classes := Tab.set (fun _ => []) n.classes c (Tab.get (fun _ => []) n.classes c ++ [w]) }).setFld
      (pVWQ p) rVWQ_NSTS.off 13 0 (d.fld (pVWQ p) rVWQ_NSTS.off 13 0 + 1)).noticeIrq p

/-- The oldest notice of the highest non-empty class (R356), with its class. -/
def Notices.oldest (n : Notices) : Option (Nat × Word) :=
  ((List.range 8).map (7 - ·)).findSome? fun c =>
    match Tab.get (fun _ => []) n.classes c with
    | w :: _ => some (c, w)
    | [] => none

/-- Removal of that notice: its slot and reservation are freed and the grants computed again. -/
def Dev.popNotice (d : Dev) (p c : Nat) : Dev :=
  let n := (d.part p).notices
  (((d.setNotices p { n with classes := Tab.set (fun _ => []) n.classes c (Tab.get (fun _ => []) n.classes c).tail }).freeSlot
    p c).setFld (pVWQ p) rVWQ_NSTS.off 13 0 (d.fld (pVWQ p) rVWQ_NSTS.off 13 0 - 1)).regrant p

/-- A packet of a queue as it is fetched (R355). -/
def Dev.packetSource (d : Dev) (p q i : Nat) : TaskSource := ⟨q, i, d.wqNotify p q, d.wqClass p q⟩

/-- The end of a task from a work queue, as its notice tells it (R355). -/
def Dev.noticeFor (d : Dev) (p : Nat) (source : Option TaskSource) (status : Nat) : Dev :=
  match source with
  | some t => if t.notify then d.appendNotice p t status else d
  | none => d

end Sys2Proof.Machine
end

