-- ==== Sys2Proof/Machine/Links.lean ====
section
/-! DEFINITION. Sending on the Clatil Fabric (R317 to R322) and the signals of embers (R391 to R394). -/

namespace Sys2Proof.Machine

/-! ### Routes and flows -/

/-- The routing entry of a destination (R317). -/
def Dev.routeOf (d : Dev) (dst : Nat) : Nat := (Tab.get (fun _ => 0) d.fab.routes dst).toNat

/-- State of a fabric port (FAB_PORTn.state). -/
def Dev.portState (d : Dev) (n : Nat) : Nat := d.fld pFAB (rFAB_PORT.at n) 51 48
def portDown : Nat := 0
def portTraining : Nat := 1
def portUp : Nat := 2
def portIncompatible : Nat := 3
def portConflict : Nat := 4
def portAsleep : Nat := 5

/-- Ports of a destination's mask in a state (R317). -/
def Dev.portsIn (d : Dev) (dst st : Nat) : List Nat :=
  if (d.routeOf dst).testBit 63 then
    (List.range 24).filter fun n => (d.routeOf dst).testBit n && d.portState n == st
  else []

/-- The next port, in rotation, of a destination's mask that is up; `none` for an unreachable destination (R317). -/
def Dev.portTo (d : Dev) (dst : Nat) : Option Nat :=
  let l := d.portsIn dst portUp
  match l.find? (d.fab.rotor ≤ ·) with
  | some n => some n
  | none => l.head?

def flowKey (dev vc : Nat) : Nat := dev * 8 + vc
def Dev.flow (d : Dev) (dev vc : Nat) : Flow := Tab.get (fun _ => {}) d.fab.flows (flowKey dev vc)
def Dev.setFlow (d : Dev) (dev vc : Nat) (f : Flow) : Dev :=
  { d with fab := { d.fab with flows := Tab.set (fun _ => {}) d.fab.flows (flowKey dev vc) f } }

/-- The 32 bytes of a packet's header (R322). -/
def packetHeader (p : Packet) : List Byte :=
  natLe 2 p.dst ++ natLe 2 p.src ++ natLe 1 (p.vc + p.cls * 8 + p.type * 16) ++ natLe 1 p.ver ++ natLe 2 p.payload.length
    ++ natLe 4 p.fseq ++ natLe 4 (p.group + p.part * 2 ^ 10 + p.digest * 2 ^ 16) ++ natLe 4 p.cseq ++ natLe 8 p.place
    ++ natLe 4 p.arg

/-- The CRC-32C of a packet's header and payload (R322). -/
def packetCrc (p : Packet) : Nat := crc32c.of (packetHeader p ++ p.payload)

def tyHello : Nat := 0
def tyAck : Nat := 1
def tyJoin : Nat := 2
def tyFlood : Nat := 3
def tyBarrier : Nat := 4
def tyEmber : Nat := 5
def tySegment : Nat := 6
def tyCredit : Nat := 7
def tyPut : Nat := 8
def tyPutAck : Nat := 9
def tyMirror : Nat := 10
def tyShip : Nat := 11
def tyCommit : Nat := 12
def tyAbort : Nat := 13

/-- Is a packet of a type outside the flows: a hello or an acknowledgement? -/
def unflowed (p : Packet) : Bool := p.type == tyHello || p.type == tyAck

/-- A packet leaves on a port: with the port's version, and in buffer class 1 from a dateline port on (R318). Traffic other
than hellos and acknowledgements withdraws the port's wish to sleep (R311). -/
def Dev.leaveOn (d : Dev) (n : Nat) (p : Packet) : Dev :=
  let ask := if unflowed p then d.fab.askSleep else d.fab.askSleep.del n
  Dev.emit { d with fab := { d.fab with askSleep := ask, rotor := n + 1 } }
    (.packet n { p with ver := d.fld pFAB (rFAB_PORT.at n) 45 44, cls := if d.bit pFAB (rFAB_PORT.at n) 58 then 1 else p.cls })

/-- A packet leaves on the port picked for it; without one it waits for an asleep port of its mask (R311), or is dropped
(R317). -/
def Dev.departOn (d : Dev) (port : Option Nat) (p : Packet) : Dev :=
  match port with
  | some n => d.leaveOn n p
  | none =>
    if (d.portsIn p.dst portAsleep).isEmpty then d
    else { d with fab := { d.fab with asleep := d.fab.asleep ++ [p] } }

/-- A packet leaves toward its destination. -/
def Dev.depart (d : Dev) (p : Packet) : Dev := d.departOn (d.portTo p.dst) p

/-- What a packet says beside its addressing. -/
structure Message where
  type : Nat
  part : Nat := 0
  group : Nat := 0
  digest : Nat := 0
  cseq : Nat := 0
  place : Nat := 0
  arg : Nat := 0
  payload : List Byte := []
deriving DecidableEq, Repr

/-- A message of at most 2,048 bytes sent to a device on a virtual channel, by the port picked for it: it takes the next
sequence number of its flow and is kept until it is acknowledged (R320). Nothing is sent without a valid device ID (R315) or
to a lost destination (R321). -/
def Dev.sendOn (d : Dev) (port : Option Nat) (dst vc : Nat) (m : Message) : Dev :=
  if !d.hears || d.fab.lost.contains dst then d
  else
    let f := d.flow dst vc
    let p : Packet := { dst := dst, src := d.id, vc := vc, cls := 0, type := m.type, ver := 0, fseq := f.next,
                        group := m.group, part := m.part, digest := m.digest, cseq := m.cseq, place := m.place,
                        arg := m.arg, payload := m.payload }
    (d.setFlow dst vc { f with next := (f.next + 1) % 2 ^ 32, unacked := f.unacked ++ [p] }).departOn port p

/-- A message of one packet. -/
def Dev.send (d : Dev) (dst vc : Nat) (m : Message) : Dev := d.sendOn (d.portTo dst) dst vc m

/-- Payload bytes of a packet (R310, R322). -/
def packetBytes : Nat := 2048

/-- The payload of a message in packets: each with its place among them, the last of them marked. -/
def packetsOf (bs : List Byte) : List (Nat × Bool × List Byte) :=
  let n := max 1 ((bs.length + packetBytes - 1) / packetBytes)
  (List.range n).map fun i => (i, i + 1 == n, (bs.drop (packetBytes * i)).take packetBytes)

/-- A message of any length, packet by packet, in rotation over the ports (R317). -/
def Dev.sendLong (d : Dev) (dst vc : Nat) (m : Message) (part : Nat → Bool → Message → Message) : Dev :=
  d.each (packetsOf m.payload) fun x e => e.send dst vc (part x.1 x.2.1 { m with payload := x.2.2 })

/-- A message that travels whole on one port, as a segment does (R336). -/
def Dev.sendWhole (d : Dev) (dst vc : Nat) (m : Message) (part : Nat → Message → Message) : Dev :=
  let port := d.portTo dst
  d.each (packetsOf m.payload) fun x e => e.sendOn port dst vc (part x.1 { m with payload := x.2.2 })

/-- A message outside the flows, which is not kept: an acknowledgement or a hello (R312, R320). -/
def Dev.sendOnce (d : Dev) (dst : Nat) (m : Message) : Dev :=
  if !d.hears then d
  else d.depart { dst := dst, src := d.id, vc := 0, cls := 0, type := m.type, ver := 0, fseq := 0, group := m.group,
                  part := m.part, digest := m.digest, cseq := m.cseq, place := m.place, arg := m.arg,
                  payload := m.payload }

/-! ### Ports that go down (R314) and the members of a stack (R315) -/

/-- Members of the stack that the master can reach, as FAB_STACK.members holds them. -/
def Dev.reachableMembers (d : Dev) : Nat :=
  ((List.range 16).map fun i =>
    match Tab.get (fun _ => 0) d.fab.stack i with
    | 0 => 0
    | m + 1 => if (d.portTo m).isSome || m == d.id then 2 ^ i else 0).sum

/-- The master keeps FAB_STACK.members and raises its stack event at each change (R315). -/
def Dev.stackSync (d : Dev) : Dev :=
  if d.bit pFAB rFAB_STACK.off 63 && d.fld pFAB rFAB_STACK.off 61 46 != d.reachableMembers then
    (d.setFld pFAB rFAB_STACK.off 61 46 d.reachableMembers).event pFAB
  else d

/-- The peer fields of a port are cleared (R314). -/
def Dev.clearPeer (d : Dev) (n : Nat) : Dev := (d.setFld pFAB (rFAB_PORT.at n) 43 20 0).setFld pFAB (rFAB_PORT.at n) 45 44 0

/-- A fabric port goes down (R314): counted, its peer fields cleared, the peer event raised. It retrains when it is
enabled and its reference clock is there. -/
def Dev.fabPortDown (d : Dev) (n : Nat) : Dev :=
  let fab := { d.fab with trained := d.fab.trained.del n, halfIdle := d.fab.halfIdle.del n,
                          peerSleep := d.fab.peerSleep.del n, askSleep := d.fab.askSleep.del n }
  let next := if d.bit pFAB (rFAB_PORT.at n) 63 && d.pow.refclkB then portTraining else portDown
  (((Dev.clearPeer { d with fab := fab } n).setFld pFAB (rFAB_PORT.at n) 51 48 next).count pFAB (rFAB_PERR.at n) 31 16
    1).event pFAB |>.stackSync

/-! ### Embers -/

def ebCounter : Nat := 0
def ebBarrier : Nat := 1
def ebEvent : Nat := 2
def ebOff : Nat := 3

def cfgOff (e : Nat) : Nat := rEMB_CFG.at (e % 2048)
def valOff (e : Nat) : Nat := rEMB_VAL.at (e % 2048)
def Dev.emberKind (d : Dev) (e : Nat) : Nat := d.fld (pEMB e) (cfgOff e) 63 62
def Dev.emberRemote (d : Dev) (e : Nat) : Bool := d.bit (pEMB e) (cfgOff e) 61
def Dev.emberParties (d : Dev) (e : Nat) : Nat := d.fld (pEMB e) (cfgOff e) 15 0
def Dev.emberValue (d : Dev) (e : Nat) : Nat := d.rd (pEMB e) (valOff e)

/-- A signal that does not fit its ember's kind (R392): nothing changes but the event, the count and the log. -/
def Dev.misfit (d : Dev) (p e : Nat) : Dev :=
  ((d.partEvt p evKind).count (pPART p) rPART_STAT.off 31 16 1).log (pEMB e)
    { code := 0x80, detail := e, part := p, world := d.partWorld p }

/-- A barrier's value after an arrival (R392). -/
def barrierArrive (v parties : Nat) : Nat :=
  let gen := bits v 63 32
  let n := bits v 15 0 + 1
  if parties ≤ n then (gen + 1) % 2 ^ 32 * 2 ^ 32 else gen * 2 ^ 32 + n

/-- A signal applied to a local ember (R392); a misfit is treated as the second argument says. -/
def Dev.applySignal (d : Dev) (p e : Nat) (op : EmberOp) (miss : Dev → Dev) : Dev :=
  let k := d.emberKind e
  match op with
  | .add n =>
    if k = ebCounter then
      if d.emberValue e + n.toNat < 2 ^ 64 then d.wr (pEMB e) (valOff e) (d.emberValue e + n.toNat)
      else (d.wr (pEMB e) (valOff e) (2 ^ 64 - 1)).partEvt p evSat
    else miss d
  | .arrive =>
    if k = ebBarrier && d.emberParties e != 0 then
      d.wr (pEMB e) (valOff e) (barrierArrive (d.emberValue e) (d.emberParties e))
    else miss d
  | .set => if k = ebEvent then d.wr (pEMB e) (valOff e) 1 else miss d
  | .clear => if k = ebEvent then d.wr (pEMB e) (valOff e) 0 else miss d

/-- Code and operand of an ember operation on the fabric (log entry 11). -/
def emberArg : EmberOp → Nat × List Byte
  | .add n => (0, natLe 8 n.toNat)
  | .arrive => (1, [])
  | .set => (2, [])
  | .clear => (3, [])

/-- A committed signal of a partition to an ember (R392, R394): a remote ember forwards it. -/
def Dev.signal (d : Dev) (p e : Nat) (op : EmberOp) : Dev :=
  if d.emberRemote e then
    d.send (d.fld (pEMB e) (cfgOff e) 54 41) 0
      { type := tyEmber, part := d.fld (pEMB e) (cfgOff e) 60 55,
        arg := d.fld (pEMB e) (cfgOff e) 40 27 + (emberArg op).1 * 2 ^ 14, payload := (emberArg op).2 }
  else d.applySignal p e op (fun d => d.misfit p e)

/-- The completion signal of an engine: a counter add of 1 (R392). -/
def Dev.signal1 (d : Dev) (p e : Nat) : Dev := d.signal p e (.add 1)

end Sys2Proof.Machine
end

