-- ==== Sys2Proof/Machine/Window.lean ====
section
/-! DEFINITION. The accumulate windows of the Stove dies (R265 to R267), and a write by any agent, which adds where it
meets an enabled window and stores elsewhere. -/

namespace Sys2Proof.Machine

def stvSts : Nat := rSTV_CMD_STS.off

def Dev.winOn (d : Dev) (p w : Nat) : Bool := d.bit (pSTV p) (rSTV_WIN.at w) 63
def Dev.winBase (d : Dev) (p w : Nat) : Nat := d.fld (pSTV p) (rSTV_WIN.at w) 47 0
def Dev.winN (d : Dev) (p w : Nat) : Nat := d.fld (pSTV p) (rSTV_WIN_N.at w) 39 0
def Dev.winBuf (d : Dev) (p w : Nat) : Nat := d.fld (pSTV p) (rSTV_WIN_BUF.at w) 47 0
/-- The buffer of a window holds BF16 elements. -/
def Dev.winBf16 (d : Dev) (p w : Nat) : Bool := d.bit (pSTV p) (rSTV_WIN.at w) 62
/-- Bytes of one buffer element. -/
def Dev.winWidth (d : Dev) (p w : Nat) : Nat := if d.winBf16 p w then 2 else 4
def Dev.winKey (d : Dev) (p w : Nat) : WinKey := Tab.get (fun _ => {}) (d.part p).wins w

/-- The rounding mode of one window add: under stochastic rounding its draw is keyed by the window, the element and the
low bits of the partial (R266). -/
def Dev.winMode (d : Dev) (p w i : Nat) (partial_ : Lane) : RMode :=
  let k := d.winKey p w
  let key := d.rd (pSTV p) (rSTV_WIN_KEY.at w)
  if k.stochastic then
    .sr (bits (draw128 k.seed 4 0 0 (bits key 63 32) (bits key 31 0) (i / 8)) (16 * (i % 8) + 15) (16 * (i % 8))
      ^^^ bits partial_.toNat 15 0)
  else .rne

/-- `window_add` of R266: the buffer element after a partial, and whether it saturated. -/
def windowAdd (f : FLayout) (mode : RMode) (acc : Nat) (partial_ : Lane) : Nat × Bool :=
  let r := runAdd f mode (f.value acc) (f32 partial_)
  (f.encode r.1, r.2.ovf)

/-- An add into an element of a buffer (R266). It waits behind adds that wait for the same line, for a line that the
companion holds modified, and for a poisoned line in re-fetch; into a line left poisoned nothing is added (R282, R346). -/
def Dev.addTo (d : Dev) (p : Nat) (x : HeldAdd) : Dev :=
  let n := if x.bf16 then 2 else 4
  let hold_ := fun (e : Dev) => e.setPart p { e.part p with heldAdds := (e.part p).heldAdds ++ [x] }
  if (d.part p).heldAdds.any fun y => y.addr / 64 == x.addr / 64 then hold_ d
  else if d.companionOwns x.addr n then hold_ (d.snoop x.addr n)
  else if d.poisoned x.addr n then
    let d := d.refetchRange x.addr n
    if d.refetching x.addr n then hold_ d else d
  else
    let r := windowAdd (if x.bf16 then layBf16 else layFp32) x.mode (d.loadNatNew x.addr n) x.word
    let d := d.storeNat x.addr n r.1
    if r.2 then d.setBit (pSTV p) stvSts 16 true else d

/-- The adds that wait are tried again, in order. -/
def Dev.flushAdds (d : Dev) (p : Nat) : Dev :=
  let l := (d.part p).heldAdds
  if l.isEmpty then d else (d.setPart p { d.part p with heldAdds := [] }).each l fun x e => e.addTo p x

/-- One 4-byte word written into an enabled window (R265, R266). -/
def Dev.addWord (d : Dev) (p w i : Nat) (word : Lane) : Dev :=
  d.addTo p { win := w, addr := d.winBuf p w + d.winWidth p w * i, bf16 := d.winBf16 p w, mode := d.winMode p w i word, word := word }

/-- The aligned words of a list of bytes. -/
def words32 (bs : List Byte) : List Lane :=
  (List.range (bs.length / 4)).map fun i => BitVec.ofNat 32 (leNat ((bs.drop (4 * i)).take 4))

/-- A write into an enabled window at an offset from its base (R265, R267): whole aligned words are added; any other
write is discarded and sets badwr; a poisoned partial poisons its destination lines and is not added. The adds are charged to phase
backward (R253). -/
def Dev.windowPut (d : Dev) (p w off : Nat) (bs : List Byte) (bad : Bool) : Dev :=
  if off % 4 != 0 || bs.length % 4 != 0 then d.setBit (pSTV p) stvSts 19 true
  else if bad then d.addPoison (d.winBuf p w + d.winWidth p w * (off / 4)) (d.winWidth p w * (bs.length / 4))
  else ((d.phStart p phBackward).each ((words32 bs).zipIdx) fun x e => e.addWord p w (off / 4 + x.2) x.1).phEnd p phBackward

/-- The enabled window of partition p that a range meets first. -/
def Dev.windowAt (d : Dev) (p a n : Nat) : Option Nat :=
  (List.range 16).find? fun w => d.winOn p w && a < d.winBase p w + 4 * d.winN p w && d.winBase p w < a + n

/-- A write by any agent of bytes at a device address: the part of it that lies in a window is added there, the rest is
stored (R265). The number bounds how many windows it may meet. -/
def Dev.putIn (d : Dev) (a : Nat) (bs : List Byte) (bad : Bool) : Nat → Dev
  | 0 => d.storeBad a bs bad
  | k + 1 =>
    let p := (d.gran (a / granBytes)).part
    match (if whereIs a == .tier then d.windowAt p a bs.length else none) with
    | none => d.storeBad a bs bad
    | some w =>
      let lo := d.winBase p w
      let hi := lo + 4 * d.winN p w
      let d := d.windowPut p w (max a lo - lo) ((bs.drop (max a lo - a)).take (hi - max a lo)) bad
      let d := d.putIn a (bs.take (lo - a)) bad k
      d.putIn (max a hi) (bs.drop (hi - a)) bad k

def Dev.put (d : Dev) (a : Nat) (bs : List Byte) (bad : Bool) : Dev := d.putIn a bs bad 16

end Sys2Proof.Machine
end

