-- ==== Sys2Proof/Machine/Epochs.lean ====
section
/-! DEFINITION. Epoch slots and their pins (R285, R288, R289), shared by the cache manager, the request arbiter and the
Weights commands. -/

namespace Sys2Proof.Machine

def slFree : Nat := 0
def slLoading : Nat := 1
def slVoted : Nat := 2
def slCurrent : Nat := 3
def slOld : Nat := 4

def slotOff (i : Nat) : Nat := rWGT_SLOT.at i
def Dev.slotState (d : Dev) (p i : Nat) : Nat := d.fld (pWGT p) (slotOff i) 63 61
def Dev.setSlotState (d : Dev) (p i st : Nat) : Dev := d.setFld (pWGT p) (slotOff i) 63 61 st
def Dev.slotPins (d : Dev) (p i : Nat) : Nat := d.fld (pWGT p) (slotOff i) 55 32
def Dev.slotEpoch (d : Dev) (p i : Nat) : Nat := d.fld (pWGT p) (slotOff i) 31 0

/-- The slot that is current (R288). -/
def Dev.currentSlot (d : Dev) (p : Nat) : Option Nat := (List.range 4).find? fun i => d.slotState p i == slCurrent

/-- The slot that holds an epoch as current, or as old and pinned (R211). -/
def Dev.slotOf (d : Dev) (p epoch : Nat) : Option Nat :=
  (List.range 4).find? fun i =>
    d.slotEpoch p i == epoch && (d.slotState p i == slCurrent || (d.slotState p i == slOld && d.slotPins p i != 0))

def Dev.weights (d : Dev) (p : Nat) : Weights := (d.part p).weights
def Dev.setWeights (d : Dev) (p : Nat) (w : Weights) : Dev := d.setPart p { d.part p with weights := w }

/-- A slot becomes free: it holds nothing (R285). -/
def Dev.emptySlot (d : Dev) (p i : Nat) : Dev :=
  let w := d.weights p
  ((d.wr (pWGT p) (slotOff i) 0).wr (pWGT p) (rWGT_SLOT_MAN.at i) 0).setWeights p
    { w with regions := Tab.set (fun _ => []) w.regions i [], verified := w.verified.del i, localLoad := w.localLoad.del i,
             groupOf := Tab.set (fun _ => 0) w.groupOf i 0 }

/-- An old slot whose pin count is 0 becomes free, and the partition's event is raised (R288). -/
def Dev.retireSlot (d : Dev) (p i : Nat) : Dev :=
  if d.slotState p i == slOld && d.slotPins p i == 0 then (d.emptySlot p i).partEvt p evSlot else d

/-- A pin is raised (R289). -/
def Dev.pin (d : Dev) (p i : Nat) : Dev := d.setFld (pWGT p) (slotOff i) 55 32 (d.slotPins p i + 1)

/-- A pin is lowered (R289). -/
def Dev.unpin (d : Dev) (p i : Nat) : Dev := (d.setFld (pWGT p) (slotOff i) 55 32 (d.slotPins p i - 1)).retireSlot p i

/-- The pin of a request on the epoch of its admission is released (R217). -/
def Dev.unpinEpoch (d : Dev) (p epoch : Nat) : Dev :=
  match d.slotOf p epoch with
  | some i => d.unpin p i
  | none => d

end Sys2Proof.Machine
end

