-- ==== Sys2Proof/Machine/CacheOps.lean ====
section
/-! DEFINITION. Operations of the cache manager: geometry and addresses of page tiles, sequence records and page lists,
pages of the pool and the bank, closing and reopening of blocks, ships (R189 to R212). -/

namespace Sys2Proof.Machine

/-- A write by an engine of a partition to an address that it takes from a table: nothing is written outside the
partition's quota or world (R120). -/
def Dev.engineStore (d : Dev) (p a : Nat) (bs : List Byte) : Dev :=
  if d.tierOk p (d.partWorld p) a bs.length then d.put a bs false else d

/-- Lines that an engine of a partition cannot make good become poisoned: what it would write there is derived from lost
data (log entry 26). -/
def Dev.engineSpoil (d : Dev) (p a n : Nat) : Dev :=
  if d.tierOk p (d.partWorld p) a n then d.addPoison a n else d

/-! ### Geometry (R189 to R193) -/

def Dev.cOn (d : Dev) (p : Nat) : Bool := d.bit (pCACHE p) rCACHE_CTL.off 63
def Dev.cKv4 (d : Dev) (p : Nat) : Bool := d.bit (pPART p) rPART_CTL.off 60
def Dev.cHeads (d : Dev) (p : Nat) : Nat := d.fld (pCACHE p) rCACHE_GEOM.off 7 0
/-- Page tiles of a page. -/
def Dev.cTpp (d : Dev) (p : Nat) : Nat := d.fld (pCACHE p) rCACHE_GEOM.off 19 8 * d.cHeads p
/-- Head dimension d: 64, 128 or 256 channels. -/
def Dev.cDim (d : Dev) (p : Nat) : Nat := 64 * 2 ^ d.fld (pCACHE p) rCACHE_GEOM.off 33 32
/-- Positions that a page covers. -/
def Dev.cSpan (d : Dev) (p : Nat) : Nat := 32768 / d.cDim p
/-- Channel blocks of a head. -/
def Dev.cCb (d : Dev) (p : Nat) : Nat := d.cDim p / 32
def Dev.cTile (d : Dev) (p : Nat) : Nat := if d.cKv4 p then 32768 else 65536
def Dev.cParam (d : Dev) (p : Nat) : Nat := if d.cKv4 p then 128 else 256
def Dev.cBase (d : Dev) (p off : Nat) : Nat := d.fld (pCACHE p) off 31 0 * 0x10000
def Dev.poolPages (d : Dev) (p : Nat) : Nat := d.fld (pCACHE p) rCACHE_POOL.off 55 32
def Dev.bankPages (d : Dev) (p : Nat) : Nat := d.fld (pCACHE p) rCACHE_BANK.off 55 32
def Dev.nseq (d : Dev) (p : Nat) : Nat := d.fld (pCACHE p) rCACHE_SEQ.off 46 32

/-- A page as a page-list entry holds it (R197): a bank page or a pool page, and its number. -/
structure PageRef where
  bank : Bool
  page : Nat
deriving DecidableEq, Repr

def PageRef.ofNat (n : Nat) : PageRef := ⟨n.testBit 31, bits n 23 0⟩
def PageRef.toNat (r : PageRef) : Nat := b2n r.bank * 2 ^ 31 + r.page

/-- Address of page tile t of a page (R189). -/
def Dev.tileAddr (d : Dev) (p : Nat) (r : PageRef) (t : Nat) : Nat :=
  d.cBase p (if r.bank then rCACHE_BANK.off else rCACHE_POOL.off) + (r.page * d.cTpp p + t) * d.cTile p

/-- Address of the parameter record of page tile t of a page (R191). -/
def Dev.paramAddr (d : Dev) (p : Nat) (r : PageRef) (t : Nat) : Nat :=
  (if r.bank then d.fld (pCACHE p) rCACHE_PARAM.off 63 32 else d.fld (pCACHE p) rCACHE_PARAM.off 31 0) * 0x10000
    + (r.page * d.cTpp p + t) * d.cParam p

/-- Address of chunk c of the tail of tile t of a sequence (R193): keys first, then values. -/
def Dev.tailAddr (d : Dev) (p s t c : Nat) : Nat :=
  d.cBase p rCACHE_TAIL.off + (s * d.cTpp p + t) * 256 * d.cDim p + c * 4096

/-- Address of the KV4 shadow of an address, when its granule has one (R166, R186). -/
def Dev.shadowAddr (d : Dev) (a : Nat) : Option Nat :=
  let e := d.gran (a / granBytes)
  if e.valid && e.shadow then some (e.sgran * granBytes + b2n e.shalf * 0x2000000 + a % granBytes / 2) else none

/-! ### Sequence records and page lists (R196, R197) -/

def sqFree : Nat := 0
def sqActive : Nat := 1
def sqPaused : Nat := 2
def sqBanking : Nat := 3
def sqBanked : Nat := 4
def sqRestoring : Nat := 5
def sqAwaiting : Nat := 6
def sqShipping : Nat := 7
def sqArriving : Nat := 8
/-- Does a copy of the cache manager run for a sequence in this state (R253)? -/
def seqCopies (st : Nat) : Bool := st == sqBanking || st == sqRestoring || st == sqShipping

def Dev.seqAt (d : Dev) (p s : Nat) : Nat := d.cBase p rCACHE_SEQ.off + 64 * s
def Dev.seqWord (d : Dev) (p s : Nat) : Nat := d.loadNatNew (d.seqAt p s) 4
def Dev.setSeqWord (d : Dev) (p s hi lo n : Nat) : Dev := d.storeNat (d.seqAt p s) 4 (putBits (d.seqWord p s) hi lo n)
def Dev.seqState (d : Dev) (p s : Nat) : Nat := bits (d.seqWord p s) 31 28
def Dev.seqH (d : Dev) (p s : Nat) : Bool := (d.seqWord p s).testBit 27
def Dev.seqLen (d : Dev) (p s : Nat) : Nat := bits (d.loadNatNew (d.seqAt p s + 4) 4) 19 0
def Dev.seqPages (d : Dev) (p s : Nat) : Nat := bits (d.loadNatNew (d.seqAt p s + 8) 4) 23 0
def Dev.seqExpiry (d : Dev) (p s : Nat) : Nat := d.loadNatNew (d.seqAt p s + 32) 8
def Dev.pageEntry (d : Dev) (p s i : Nat) : Nat := bits (d.loadNatNew (d.seqAt p s + 16) 8) 47 0 + 4 * i
def Dev.pageRef (d : Dev) (p s i : Nat) : PageRef := .ofNat (d.loadNatNew (d.pageEntry p s i) 4)
def Dev.setPageRef (d : Dev) (p s i : Nat) (r : PageRef) : Dev := d.engineStore p (d.pageEntry p s i) (natLe 4 r.toNat)
/-- Pages of a sequence in use, in order. -/
def Dev.seqRefs (d : Dev) (p s : Nat) : List PageRef := (List.range (d.seqPages p s)).map (d.pageRef p s)

def Dev.cAwaiting (d : Dev) (p : Nat) : Nat := d.fld (pCACHE p) rCACHE_STS.off 14 0
def Dev.cActive (d : Dev) (p : Nat) : Nat := d.fld (pCACHE p) rCACHE_BSTS.off 46 32
def Dev.cRsv (d : Dev) (p : Nat) : Nat := d.fld (pCACHE p) rCACHE_STS.off 39 16

/-- The free counts of CACHE_STS and CACHE_BSTS follow from the pages taken. -/
def Dev.cacheSync (d : Dev) (p : Nat) : Dev :=
  (d.setFld (pCACHE p) rCACHE_STS.off 63 40 (d.poolPages p - (d.part p).pool.length + d.cRsv p)).setFld (pCACHE p)
    rCACHE_BSTS.off 23 0 (d.bankPages p - (d.part p).bankUsed.length)

/-- The state of a sequence changes, with the counts of active and awaiting sequences. -/
def Dev.setSeqState (d : Dev) (p s st : Nat) : Dev :=
  let old := d.seqState p s
  let d := d.setSeqWord p s 31 28 st
  let d := if seqCopies st && !seqCopies old then d.phStart p phBank
    else if seqCopies old && !seqCopies st then d.phEnd p phBank else d
  let d := d.setFld (pCACHE p) rCACHE_BSTS.off 46 32 (d.cActive p + b2n (st == sqActive) - b2n (old == sqActive))
  let d := d.setFld (pCACHE p) rCACHE_STS.off 14 0 (d.cAwaiting p + b2n (st == sqAwaiting) - b2n (old == sqAwaiting))
  let x := d.part p
  let rest := x.awaiting.filter (· != s)
  d.setPart p { x with awaiting := if st == sqAwaiting then rest ++ [s] else rest }

/-- The headroom flag h of a sequence changes, with pool_rsv. -/
def Dev.setSeqH (d : Dev) (p s : Nat) (h : Bool) : Dev :=
  let old := d.seqH p s
  ((d.setSeqWord p s 27 27 (b2n h)).setFld (pCACHE p) rCACHE_STS.off 39 16 (d.cRsv p + b2n h - b2n old)).cacheSync p

/-! ### Pages (R202) -/

/-- Available pages: free and not reserved. -/
def Dev.available (d : Dev) (p : Nat) : Nat := d.poolPages p - (d.part p).pool.length

/-- The n-th number that is not in a sorted list. -/
def nthFree (used : List Nat) (n : Nat) : Nat := used.foldl (fun k u => if u ≤ k then k + 1 else k) n

/-- A free pool page is taken for an index of a sequence's page list. Which free page it is, the spec leaves open: a free
value chooses it (log entry 5). -/
def Dev.takePage (d : Dev) (p s i : Nat) : Dev :=
  let f := d.free
  let n := nthFree ((d.part p).pool.map Prod.fst) (f.2.toNat % d.available p)
  let d := f.1.setPart p { d.part p with pool := Tab.set (fun _ => 0) (d.part p).pool n (s * 8192 + i + 1) }
  d.setPageRef p s i ⟨false, n⟩

/-- n free bank pages are taken. -/
def Dev.takeBank (d : Dev) (p : Nat) : Nat → Dev × List Nat
  | 0 => (d, [])
  | k + 1 =>
    let f := d.free
    let n := nthFree (d.part p).bankUsed (f.2.toNat % (d.bankPages p - (d.part p).bankUsed.length))
    let r := Dev.takeBank (f.1.setPart p { d.part p with bankUsed := (d.part p).bankUsed.add n }) p k
    (r.1, n :: r.2)

/-- n free pool pages are taken for a restoring copy of a sequence, without entering its page list yet. -/
def Dev.takePool (d : Dev) (p s : Nat) : Nat → Dev × List Nat
  | 0 => (d, [])
  | k + 1 =>
    let f := d.free
    let n := nthFree ((d.part p).pool.map Prod.fst) (f.2.toNat % d.available p)
    let r := Dev.takePool (f.1.setPart p { d.part p with pool := Tab.set (fun _ => 0) (d.part p).pool n (s * 8192 + 8191) }) p s k
    (r.1, n :: r.2)

/-- Headroom for a sequence, when a page is available (R204). -/
def Dev.giveHeadroom (d : Dev) (p s : Nat) : Dev :=
  if d.available p = 0 || d.seqH p s then d else (d.takePage p s (d.seqPages p s)).setSeqH p s true

/-- The pool pages of a sequence are free, its reservation included. -/
def Dev.freePool (d : Dev) (p s : Nat) : Dev :=
  let d := d.setSeqH p s false
  (d.setPart p { d.part p with pool := (d.part p).pool.filter fun x => (x.2 - 1) / 8192 != s }).cacheSync p

/-- Bank pages are free. -/
def Dev.freeBank (d : Dev) (p : Nat) (l : List Nat) : Dev :=
  (d.setPart p { d.part p with bankUsed := (d.part p).bankUsed.filter fun n => !l.contains n }).cacheSync p

def Dev.copyingOf (d : Dev) (p s : Nat) : List Nat := Tab.get (fun _ => []) (d.part p).copying s
def Dev.setCopying (d : Dev) (p s : Nat) (l : List Nat) : Dev :=
  d.setPart p { d.part p with copying := Tab.set (fun _ => []) (d.part p).copying s l }

def Dev.setSeqResult (d : Dev) (p s r : Nat) : Dev := d.setSeqWord p s 23 16 r

/-- The epoch that an arrived sequence pins is released when it is freed (R211, R289). -/
def Dev.unpinSeq (d : Dev) (p s : Nat) : Dev :=
  match Tab.get (fun _ => 0) (d.part p).seqPins s with
  | 0 => d
  | i + 1 => Dev.unpin (d.setPart p { d.part p with seqPins := Tab.set (fun _ => 0) (d.part p).seqPins s 0 }) p i

/-- A sequence becomes free with all its pages (R206). -/
def Dev.freeSeq (d : Dev) (p s : Nat) (expired shipped : Bool) : Dev :=
  let banked := ((d.seqRefs p s).filter PageRef.bank).map PageRef.page
  let d := (d.freePool p s).freeBank p (banked ++ (if d.seqState p s == sqBanking then d.copyingOf p s else []))
  let d := (d.setCopying p s []).setSeqState p s sqFree
  let d := (d.setSeqWord p s 26 26 (b2n expired)).setSeqWord p s 25 25 (b2n shipped)
  let d := d.store (d.seqAt p s + 4) (natLe 4 0 ++ natLe 4 0)
  let x := d.part p
  Dev.unpinSeq (d.setPart p { x with ships := x.ships.filter fun y => y.1 != s }) p s

/-! ### Blocks (R190, R194, R195, R107) -/

/-- Key of the count of quantised blocks of a tile, keys or values. -/
def quantKey (s t : Nat) (vals : Bool) : Nat := (s * 4096 + t) * 2 + b2n vals

/-- Blocks of a tile that are quantised, of its keys or its values. -/
def Dev.quantOf (d : Dev) (p s t : Nat) (vals : Bool) : Nat :=
  max (Tab.get (fun _ => 0) (d.part p).quant (quantKey s t vals)) (Tab.get (fun _ => 0) (d.part p).quantBase s)

/-- Every tile of a sequence counts n blocks as quantised. -/
def Dev.setQuantAll (d : Dev) (p s n : Nat) : Dev :=
  let x := d.part p
  d.setPart p { x with quant := Tab.clear x.quant (s * 8192) ((s + 1) * 8192),
                       quantBase := Tab.set (fun _ => 0) x.quantBase s n }

/-- Bytes of a cache block and of its parameter slot. -/
def blockBytes (kv4 : Bool) : Nat := if kv4 then 1024 else 2048
def slotBytes (kv4 : Bool) : Nat := if kv4 then 4 else 8

/-- Values of a BF16 chunk of 64 positions × 32 channels; positions from n on are unwritten. -/
def chunkValues (bs : List Byte) (n : Nat) : List (Option FVal) :=
  (List.range 2048).map fun i =>
    if i / 32 < n then some (layBf16.value (leNat ((bs.drop (2 * i)).take 2))) else none

/-- The exact values of a stored block of which n positions are written. -/
def blockValues (kv4 : Bool) (param : Nat) (bs : List Byte) (n : Nat) : List (Option FVal) :=
  (List.range 2048).map fun i => if i / 32 < n then some (cacheValue kv4 param bs i) else none

/-- A quantised block as it is stored: its bytes and its parameter slot. -/
def storedBlock (kv4 : Bool) (vs : List (Option FVal)) : List Byte × List Byte :=
  let q := (quantiseBlock kv4 vs).1
  (q.bytes kv4, natLe (slotBytes kv4) q.param)

/-- Address of block b of a page tile and of its parameter slot. -/
def Dev.blockAddr (d : Dev) (p : Nat) (r : PageRef) (t b : Nat) : Nat := d.tileAddr p r t + b * blockBytes (d.cKv4 p)
def Dev.slotAddr (d : Dev) (p : Nat) (r : PageRef) (t b : Nat) : Nat := d.paramAddr p r t + b * slotBytes (d.cKv4 p)

/-- The KV4 shadow of block b of a KV8 page tile, made from the block as it is stored (R107, R194, R207); of a block that is
poisoned the shadow's lines are spoiled. -/
def Dev.writeShadow (d : Dev) (p : Nat) (r : PageRef) (t b : Nat) : Dev :=
  let a := d.blockAddr p r t b
  let pa := d.slotAddr p r t b
  if d.cKv4 p then d
  else match d.shadowAddr a, d.shadowAddr pa with
  | some sa, some spa =>
    if d.poisoned a 2048 || d.poisoned pa 4 then d.engineSpoil p sa 1024
    else
      let y := storedBlock true (blockValues false (d.loadNatNew pa 4) (d.loadNew a 2048) 64)
      (d.engineStore p sa y.1).engineStore p spa y.2
  | _, _ => d

/-- Block b of a page tile written with its parameter slot, and its KV4 shadow where the granule has one (R194, R107). -/
def Dev.writeBlock (d : Dev) (p : Nat) (r : PageRef) (t b : Nat) (vs : List (Option FVal)) : Dev :=
  let x := storedBlock (d.cKv4 p) vs
  ((d.engineStore p (d.blockAddr p r t b) x.1).engineStore p (d.slotAddr p r t b) x.2).writeShadow p r t b

/-- Block that holds channel block c of the positions pb × 64 on of a page tile: keys first, then values (R190). -/
def Dev.blockNo (d : Dev) (p pb c : Nat) : Nat := if c < d.cCb p then pb * d.cCb p + c else 16 + pb * d.cCb p + (c - d.cCb p)

/-- Chunk c of the tail of tile t holds values rather than keys. -/
def Dev.isVals (d : Dev) (p c : Nat) : Bool := d.cCb p ≤ c

/-- Blocks of one tile of a sequence that are open (R195): block number along the sequence, and channel block. -/
def Dev.openBlocks (d : Dev) (p s t : Nat) : List (Nat × Nat) :=
  (List.range ((d.seqLen p s + 63) / 64)).flatMap fun j =>
    ((List.range (2 * d.cCb p)).filter fun c => d.quantOf p s t (d.isVals p c) ≤ j).map fun c => (j, c)

/-- The open blocks of one tile of a sequence are closed (R195): every block from the first one not quantised to the one
that holds the last position below len, keys and values of every channel block. A block whose tail is left poisoned is
spoiled. -/
def Dev.closeTile (d : Dev) (p s t : Nat) : Dev :=
  let len := d.seqLen p s
  d.each (d.openBlocks p s t) fun x e =>
    let pos := 64 * x.1
    let r := e.pageRef p s (pos / e.cSpan p)
    let b := e.blockNo p (pos % e.cSpan p / 64) x.2
    let src := e.tailAddr p s t x.2
    if e.poisoned src 4096 then (e.engineSpoil p (e.blockAddr p r t b) (blockBytes (e.cKv4 p))).writeShadow p r t b
    else e.writeBlock p r t b (chunkValues (e.loadNew src 4096) (min 64 (len - pos)))

def Dev.closeSeq (d : Dev) (p s : Nat) : Dev := d.each (List.range (d.cTpp p)) fun t e => e.closeTile p s t

/-- Blocks that reopening one tile decodes, with the chunk of the tail that each fills (R195). -/
def Dev.reopenBlocks (d : Dev) (p s : Nat) : List (Nat × Nat) :=
  let pos := d.seqLen p s - d.seqLen p s % 64
  (List.range (2 * d.cCb p)).map fun c => (d.blockNo p (pos % d.cSpan p / 64) c, c)

/-- The page that holds the open block of a sequence. -/
def Dev.openPage (d : Dev) (p s : Nat) : PageRef := d.pageRef p s ((d.seqLen p s - d.seqLen p s % 64) / d.cSpan p)

/-- The open block of one tile is reopened (R195): its written positions are decoded into the tail as BF16; a block left
poisoned spoils its part of the tail. -/
def Dev.reopenTile (d : Dev) (p s t : Nat) : Dev :=
  let n := d.seqLen p s % 64
  let kv4 := d.cKv4 p
  let r := d.openPage p s
  d.each (d.reopenBlocks p s) fun x e =>
    let a := e.blockAddr p r t x.1
    let pa := e.slotAddr p r t x.1
    if e.poisoned a (blockBytes kv4) || e.poisoned pa 4 then e.engineSpoil p (e.tailAddr p s t x.2) 4096
    else
      let bs := e.loadNew a (blockBytes kv4)
      let param := e.loadNatNew pa 4
      let vs := (List.range (32 * n)).map fun i => layBf16.encode (layBf16.convert (cacheValue kv4 param bs i)).1
      e.engineStore p (e.tailAddr p s t x.2) (vs.flatMap (natLe 2))

/-- A sequence that returns to active after a pause, a restore or an arrival (R195). -/
def Dev.reopenSeq (d : Dev) (p s : Nat) : Dev :=
  let d := d.setQuantAll p s (d.seqLen p s / 64)
  if d.seqLen p s % 64 = 0 then d else d.each (List.range (d.cTpp p)) fun t e => e.reopenTile p s t

/-! ### Copies (R207) -/

/-- Bytes copied by an engine, with their poison. -/
def Dev.copyBytes (d : Dev) (p src dst n : Nat) : Dev :=
  let lines := d.poison.filter fun l => src / 64 ≤ l && l < (src + n) / 64
  let d := d.engineStore p dst (d.loadNew src n)
  d.each lines fun l e => e.addPoison (dst + (l * 64 - src)) 64

/-- One page copied, tiles and parameter records; toward the bank with the KV4 shadows of its granules. -/
def Dev.copyPage (d : Dev) (p : Nat) (src dst : PageRef) : Dev :=
  d.each (List.range (d.cTpp p)) fun t e =>
    let e := e.copyBytes p (e.tileAddr p src t) (e.tileAddr p dst t) (e.cTile p)
    let e := e.copyBytes p (e.paramAddr p src t) (e.paramAddr p dst t) (e.cParam p)
    if dst.bank then e.each (List.range 32) fun b x => x.writeShadow p dst t b else e

/-! ### What an operation reads (R178, R185, R346) -/

/-- Ranges of a page: its tiles and parameter records. -/
def Dev.pageReads (d : Dev) (p : Nat) (r : PageRef) : List (Nat × Nat) :=
  (List.range (d.cTpp p)).flatMap fun t => [(d.tileAddr p r t, d.cTile p), (d.paramAddr p r t, d.cParam p)]

/-- Ranges that closing a sequence reads. -/
def Dev.closeReads (d : Dev) (p s : Nat) : List (Nat × Nat) :=
  (List.range (d.cTpp p)).flatMap fun t => (d.openBlocks p s t).map fun x => (d.tailAddr p s t x.2, 4096)

/-- Ranges that reopening a sequence reads. -/
def Dev.reopenReads (d : Dev) (p s : Nat) : List (Nat × Nat) :=
  if d.seqLen p s % 64 = 0 then []
  else (List.range (d.cTpp p)).flatMap fun t => (d.reopenBlocks p s).flatMap fun x =>
    [(d.blockAddr p (d.openPage p s) t x.1, blockBytes (d.cKv4 p)), (d.slotAddr p (d.openPage p s) t x.1, 4)]

/-- A paused sequence starts banking, when the bank has pages for it (R204, R206). -/
def Dev.startBanking (d : Dev) (p s : Nat) : Dev :=
  let n := d.seqPages p s
  if d.seqState p s != sqPaused || d.bankPages p - (d.part p).bankUsed.length < n then d
  else
    let r := d.takeBank p n
    ((r.1.setCopying p s r.2).cacheSync p).setSeqState p s sqBanking

/-- Step k of a partition starts (R231). -/
def Dev.startStep (d : Dev) (p : Nat) (k : Word) : Dev :=
  let x := d.part p
  d.setPart p { x with damp := (x.damp.filter fun y => y.k != k) ++ [{ k := k, start := d.now, last := 0, ended := none }] }

/-- A step boundary ends, and the steps that waited for it start (R204). -/
def Dev.endBoundary (d : Dev) (p : Nat) : Dev :=
  let x := d.part p
  (d.setPart p { x with boundary := false, heldSteps := [], drainTo := none }).each x.heldSteps fun k e => e.startStep p k

/-! ### Ships (R210 to R212) -/

def shTile : Nat := 0
def shParams : Nat := 1
def shRecord : Nat := 2
def shAgain : Nat := 3
def shAck : Nat := 4
def shAbort : Nat := 5

def Dev.ship? (d : Dev) (p s : Nat) : Option Ship := (((d.part p).ships.find? fun x => x.1 == s).map Prod.snd)
def Dev.setShip (d : Dev) (p s : Nat) (x : Ship) : Dev :=
  d.setPart p { d.part p with ships := ((d.part p).ships.drop s).insert s x }
def Dev.dropShip (d : Dev) (p s : Nat) : Dev := d.setPart p { d.part p with ships := (d.part p).ships.drop s }

/-- A transfer of a ship to the peer's slot, with its own CRC-32C (R210; log entry 11). -/
def Dev.sendShip (d : Dev) (x : Ship) (kind page tile : Nat) (data : List Byte) : Dev :=
  d.sendLong x.peerDev 3 { type := tyShip, part := x.peerPart, arg := kind + x.peerSlot * 2 ^ 8,
                           payload := natLe 4 page ++ natLe 4 tile ++ natLe 4 (crc32c.of data) ++ data }
    fun i _ m => { m with arg := m.arg + i * 2 ^ 22 }

/-- One transfer of a ship as the source's pages hold it: page tile t of page index i, its parameter record, or the sequence
record. -/
def Dev.sendItem (d : Dev) (p s : Nat) (x : Ship) (kind i t : Nat) : Dev :=
  let r := d.pageRef p s i
  let data := if kind = shTile then d.loadNew (d.tileAddr p r t) (d.cTile p)
    else if kind = shParams then d.loadNew (d.paramAddr p r t) (d.cParam p)
    else d.loadNew (d.seqAt p s) 64
  d.sendShip x kind i t data

/-- A transfer asked for again is sent again (R210 step 4). -/
def Dev.resendItem (d : Dev) (p s kind i t : Nat) : Dev :=
  match d.ship? p s with
  | some x => if d.seqState p s == sqShipping then d.sendItem p s x kind i t else d
  | none => d

/-- A ship fails at the source: the sequence returns to the state it was shipped from, with result 0x06 (R206, R212). -/
def Dev.failShip (d : Dev) (p s : Nat) (x : Ship) : Dev :=
  ((d.setSeqState p s x.prior).setSeqResult p s 0x06).dropShip p s

/-- An arrival fails: the sequence is free and the source hears of it (R206, R212). -/
def Dev.failArrival (d : Dev) (p s : Nat) (x : Ship) (result : Nat) (tell : Bool) : Dev :=
  let d := if tell then d.sendShip x shAbort 0 0 [] else d
  (d.freeSeq p s false false).setSeqResult p s result

/-- Ships to or from a lost member fail on this side (R212, R321). -/
def Dev.failShipsOf (d : Dev) (dst : Nat) : Dev :=
  d.each (List.range 64) fun p e => e.each (e.part p).ships fun x e =>
    if x.2.peerDev != dst then e
    else if e.seqState p x.1 == sqShipping then e.failShip p x.1 x.2
    else e.failArrival p x.1 x.2 0x06 false

/-! ### Commits of task code (R194, R203) -/

/-- A position of page index npages is written: the reserved page is in use (R203). -/
def Dev.useHeadroom (d : Dev) (p s : Nat) : Dev :=
  if d.seqH p s then (d.storeNat (d.seqAt p s + 8) 4 (d.seqPages p s + 1)).setSeqH p s false else d

/-- Blocks of the keys or the values of one page tile that a write of n bytes at an offset of the tile ends in: the number
of the last one plus 1; 0 when it touches none. -/
def lastBlock (size off n : Nat) (vals : Bool) : Nat :=
  let first := off / size
  let last := (off + n - 1) / size
  if vals then (if last < 16 then 0 else last - 15) else (if 16 ≤ first then 0 else min 15 last + 1)

/-- A committed write into a tile of a pool page: the blocks it touches count as quantised, and a reserved page comes into
use. -/
def Dev.commitPage (d : Dev) (p a n : Nat) : Dev :=
  let off := a - d.cBase p rCACHE_POOL.off
  let page := off / (d.cTpp p * d.cTile p)
  let t := off / d.cTile p % d.cTpp p
  match Tab.get (fun _ => 0) (d.part p).pool page with
  | 0 => d
  | o + 1 =>
    let s := o / 8192
    let i := o % 8192
    let d := if i = d.seqPages p s then d.useHeadroom p s else d
    d.each [false, true] fun v e =>
      let last := lastBlock (blockBytes (e.cKv4 p)) (off % e.cTile p) n v
      let j := i * (e.cSpan p / 64) + (last - 1) / e.cCb p + 1
      if 0 < last && e.quantOf p s t v < j then
        e.setPart p { e.part p with quant := Tab.set (fun _ => 0) (e.part p).quant (quantKey s t v) j }
      else e

/-- A committed write into one chunk of a tail area: row r of the chunk holds the least position not below len, nor below
the blocks of its keys or values that are quantised, that is r modulo 64. -/
def Dev.commitTail (d : Dev) (p a n : Nat) : Dev :=
  let off := a - d.cBase p rCACHE_TAIL.off
  let area := 256 * d.cDim p
  let s := off / (d.cTpp p * area)
  let t := off / area % d.cTpp p
  if d.nseq p ≤ s || d.seqState p s != sqActive then d
  else
    let r := min 63 (off % 4096 / 64 + (n - 1) / 64)
    let base := max (d.seqLen p s) (64 * d.quantOf p s t (d.isVals p (off % area / 4096)))
    let pos := base + (r + 64 - base % 64) % 64
    if d.seqPages p s * d.cSpan p ≤ pos then d.useHeadroom p s else d

/-- What the cache manager sees of a committed write of task code. -/
def Dev.cacheCommit (d : Dev) (p a n : Nat) : Dev :=
  if !d.cOn p || n = 0 || d.cTpp p = 0 then d
  else
    let pool := d.cBase p rCACHE_POOL.off
    let tail := d.cBase p rCACHE_TAIL.off
    if pool ≤ a && a < pool + d.poolPages p * d.cTpp p * d.cTile p then
      d.each (pieces (d.cTile p) a n) fun r e => e.commitPage p r.1 r.2
    else if tail ≤ a && a < tail + d.nseq p * d.cTpp p * 256 * d.cDim p then
      d.each (pieces 4096 a n) fun r e => e.commitTail p r.1 r.2
    else d

end Sys2Proof.Machine
end

