-- ==== Sys2Proof/Machine/Staging.lean ====
section
/-! DEFINITION. Prefetch streams, staged tiles and the lateness of direct reads (R183 to R187). -/

namespace Sys2Proof.Machine

/-- Index of stream s of partition p among the STRM registers. -/
def strmIx (p s : Nat) : Nat := 4 * p + s
def strmCtl (p s : Nat) : Nat := rSTRM_CTL.at (strmIx p s)
def strmSts (p s : Nat) : Nat := rSTRM_STS.at (strmIx p s)
def Dev.strmOn (d : Dev) (p s : Nat) : Bool := d.bit pTIER (strmCtl p s) 63
def Dev.strmD (d : Dev) (p s : Nat) : Nat := d.fld pTIER (strmSts p s) 3 0
def Dev.stream (d : Dev) (p s : Nat) : Stream := Tab.get (fun _ => {}) d.tier.streams (strmIx p s)
def Dev.setStream (d : Dev) (p s : Nat) (x : Stream) : Dev :=
  { d with tier := { d.tier with streams := Tab.set (fun _ => {}) d.tier.streams (strmIx p s) x } }

/-- First engine-ready tile and count of layer n of a stream, from its layer table (R184); none where the table cannot be
read. -/
def Dev.layerSpan (d : Dev) (p s n : Nat) : Nat × Nat :=
  let i := n % max 1 (d.fld pTIER (strmCtl p s) 27 16)
  let a := d.fld pTIER (rSTRM_TBL.at (strmIx p s)) 47 4 * 16 + 16 * i
  if !d.tierOk p (d.partWorld p) a 16 || d.poisoned a 16 then (0, 0)
  else
    let base := bits (d.loadNat a 8) 47 0
    if base % tileBytes != 0 then (0, 0) else (base / tileBytes, d.loadNat (a + 8) 4)

/-- Does the tile lie in a slow frame? -/
def Dev.slowTile (d : Dev) (t : Nat) : Bool := (d.gran (t / 1024)).valid && (d.gran (t / 1024)).slow

/-- The staging of a tile: none, issued, or done (R183). -/
def Dev.staging (d : Dev) (t : Nat) : Option Bool := (d.tier.staged.find? fun x => x.1 == t).map fun x => x.2.done

/-- Tiles of a range that must be read from the slow tier directly: no staging read of them has been issued (R185). -/
def Dev.directTiles (d : Dev) (a n : Nat) : List Nat := (tilesOf a n).filter fun t => d.slowTile t && (d.staging t).isNone

/-- Tiles of a range whose staging read is under way: a read waits for it (R185). -/
def Dev.stagingTiles (d : Dev) (a n : Nat) : List Nat :=
  (tilesOf a n).filter fun t => d.slowTile t && d.staging t == some false

/-- Tiles staged for a partition, ascending. -/
def Dev.stagedOf (d : Dev) (p : Nat) : List Nat := (d.tier.staged.filter fun x => x.2.part == p).map Prod.fst

/-- Tiles that a partition's stage cache can hold now. -/
def Dev.stageRoom (d : Dev) (p : Nat) : Nat := 1024 * (d.stageOf p).length

/-- Staged copies of some tiles are dropped. -/
def Dev.unstage (d : Dev) (tiles : List Nat) : Dev :=
  { d with tier := { d.tier with staged := d.tier.staged.filter fun x => !tiles.contains x.1 } }

/-- Tiles of layer n of a stream, in order. -/
def Dev.layerTiles (d : Dev) (p st n : Nat) : List Nat :=
  let x := d.layerSpan p st n
  (List.range x.2).map (x.1 + ·)

/-- The address of the length table that `tableSeqs` reads. -/
def Dev.ltabAt (d : Dev) (p : Nat) : Nat :=
  let k := match (d.part p).damp.getLast? with
    | some x => x.k.toNat
    | none => 0
  d.cBase p rCACHE_LTAB.off + k % 2 * 0x100000

/-- The sequences of the current length table (R198): that of the newest step the Damper has seen. -/
def Dev.tableSeqs (d : Dev) (p : Nat) : List Nat :=
  let a := d.ltabAt p
  if !d.tierOk p (d.partWorld p) a 0x40040 || d.poisoned a 64 then []
  else (List.range (min 16384 (d.loadNat (a + 8) 4))).map fun e => bits (d.loadNat (a + 64 + 16 * e) 4) 13 0

/-- Key–value tiles of layer n of every sequence of the length table, for the stream that CACHE_CTL.kv_stream names. -/
def Dev.kvTiles (d : Dev) (p st n : Nat) : List Nat :=
  if !d.cOn p || d.fld (pCACHE p) rCACHE_CTL.off 57 56 != st then []
  else
    let heads := d.cHeads p
    let layer := n % max 1 (d.fld (pCACHE p) rCACHE_GEOM.off 19 8)
    (d.tableSeqs p).flatMap fun q =>
      ((d.seqRefs p q).filter fun r => !r.bank).flatMap fun r =>
        (List.range heads).flatMap fun h => tilesOf (d.tileAddr p r (layer * heads + h)) (d.cTile p)

/-- Tiles that a stream stages for layer n. -/
def Dev.stageList (d : Dev) (p st n : Nat) : List Nat := d.layerTiles p st n ++ d.kvTiles p st n

/-- Does a tile belong to layer n of a stream, of its table or of the sequences it follows (R184, R187)? -/
def Dev.inLayer (d : Dev) (p s n t : Nat) : Bool :=
  let x := d.layerSpan p s n
  (x.1 ≤ t && t < x.1 + x.2) || (d.kvTiles p s n).contains t

/-- The tables that a stream is staged from are asked for: lines that the companion holds come back, and poisoned ones
enter re-fetch (R179, R346). -/
def Dev.askTables (d : Dev) (p st : Nat) : Dev :=
  let t := d.fld pTIER (rSTRM_TBL.at (strmIx p st)) 47 4 * 16
  let rs := (t, 16 * d.fld pTIER (strmCtl p st) 27 16) ::
    (if d.cOn p && d.fld (pCACHE p) rCACHE_CTL.off 57 56 == st then [(d.ltabAt p, 0x40040)] else [])
  d.each (rs.filter fun r => d.tierOk p (d.partWorld p) r.1 r.2) fun r e => (e.snoop r.1 r.2).refetchRange r.1 r.2

/-- Tiles of layers c to c + D of the enabled streams of a partition. -/
def Dev.wantedTiles (d : Dev) (p : Nat) : List Nat :=
  ((List.range 4).filter (d.strmOn p)).flatMap fun st =>
    (List.range (d.strmD p st + 1)).flatMap fun i => d.stageList p st ((d.stream p st).c + i)

/-- Room is made for tiles to be staged: copies of tiles that no stream wants are evicted, as far as needed (R184). -/
def Dev.evictFor (d : Dev) (p n : Nat) : Dev :=
  let have_ := (d.stagedOf p).length
  if have_ + n ≤ d.stageRoom p then d
  else
    let want := d.wantedTiles p
    let idle := (d.stagedOf p).filter fun t => d.staging t == some true && !want.contains t
    d.unstage (idle.take (have_ + n - d.stageRoom p))

/-- A staging read of a tile is issued, when its partition owns the tile and the cache has room. -/
def Dev.stageTile (d : Dev) (p t : Nat) : Dev :=
  if d.slowTile t && (d.gran (t / 1024)).part == p && (d.staging t).isNone && (d.stagedOf p).length < d.stageRoom p then
    { d with tier := { d.tier with staged := Tab.insert t { part := p, done := false } d.tier.staged } }
  else d

/-- Layers c + 1 to c + D are staged in order (R184). -/
def Dev.stageAhead (d : Dev) (p st : Nat) : Dev :=
  let d := d.askTables p st
  let c := (d.stream p st).c
  let tiles := ((List.range (d.strmD p st)).flatMap fun i => d.stageList p st (c + 1 + i)).filter fun t =>
    d.slowTile t && (d.staging t).isNone
  (d.evictFor p tiles.length).each tiles fun t e => e.stageTile p t

/-- Every enabled stream keeps its layers staged (R184): tiles whose copy was dropped, that found no room, or that have moved
to the slow tier since are staged. -/
def Dev.keepStaged (d : Dev) : Dev :=
  d.each (List.range 64) fun p e => e.each (List.range 4) fun st e => if e.strmOn p st then e.stageAhead p st else e

/-- Is a phase one of learning, whose lateness the Damper does not count (R233)? -/
def learningPhase (ph : Nat) : Bool := 2 ≤ ph && ph ≤ 7

/-- The current layer of a stream is late (R187): D rises by 1 up to dmax, the newly covered layer is staged, and the late
layer is reported. -/
def Dev.lateLayer (d : Dev) (p s : Nat) (ph : Option Nat) : Dev :=
  let dmax := d.fld pTIER (strmCtl p s) 43 40
  let d := d.setFld pTIER (strmSts p s) 3 0 (min dmax (d.strmD p s + 1))
  let d := (d.setStream p s { d.stream p s with late := true, clean := 0 }).count pTIER (strmSts p s) 31 16 1
  let d := if ph.any learningPhase then d else d.count (pGEN p) rDAMP_STAT.off 47 32 1
  (match ph with | some n => d.phCount p (phWord n 3) 15 0 1 | none => d).stageAhead p s

/-- Direct reads: those of a task are counted in its phase, and all by the stream whose current layer holds the tiles (R187, R254). -/
def Dev.readDirect (d : Dev) (p : Nat) (ph : Option Nat) (tiles : List Nat) : Dev :=
  if tiles.isEmpty then d
  else
    let d := match ph with | some n => d.phCount p (phWord n 2) 63 32 tiles.length | none => d
    d.each (List.range 4) fun s e =>
      let hit := tiles.filter (e.inLayer p s (e.stream p s).c)
      if !e.strmOn p s || hit.isEmpty then e
      else
        let e := e.count pTIER (strmSts p s) 63 32 hit.length
        if (e.stream p s).late then e else e.lateLayer p s ph

/-- A read of the tier range by an engine of a partition: it raises the heat of its granules, and its direct tiles count
against the streams (R166, R187). -/
def Dev.engineRead (d : Dev) (p a n : Nat) : Dev :=
  if whereIs a == .tier then (d.readDirect p none (d.directTiles a n)).warm a n else d

/-- Reads of several ranges by an engine. -/
def Dev.engineReads (d : Dev) (p : Nat) (rs : List (Nat × Nat)) : Dev := d.each rs fun r e => e.engineRead p r.1 r.2

/-- What an engine finds where it would read. -/
inductive Gate where
  | clear | wait | bad
deriving DecidableEq, Repr

/-- An engine looks at ranges that it would read: it waits for lines that the companion holds modified (R346), for staging
reads under way (R185), for segments that a core's instructions hold (R54), and for poisoned lines in re-fetch (R180);
lines left poisoned are bad (R181). -/
def Dev.readGate (d : Dev) (rs : List (Nat × Nat)) : Dev × Gate :=
  if rs.any fun r => d.companionOwns r.1 r.2 then (d.each rs fun r e => e.snoop r.1 r.2, .wait)
  else if rs.any fun r => !(d.stagingTiles r.1 r.2).isEmpty || d.scratchBusy r.1 r.2 false then (d, .wait)
  else if !rs.any fun r => d.poisoned r.1 r.2 then (d, .clear)
  else
    let d := d.refetchAll (rs.filter fun r => d.poisoned r.1 r.2)
    (d, if d.lost rs then .bad else .wait)

/-- Is every write of an engine visible: none is held for a granule that switches (R53, R171)? -/
def Dev.engineVisible (d : Dev) : Bool := !(d.tier.mig.any fun x => !x.2.held.isEmpty)

end Sys2Proof.Machine
end

