-- ==== Sys2Proof/Machine/Cache.lean ====
section
/-! DEFINITION. The cache manager: its command ring, step boundaries, banking, expiry and ships (chapter 07). -/

namespace Sys2Proof.Machine

/-! ### Commands (R206, R210, R213) -/

/-- The arguments of a ring entry. -/
structure CacheArgs where
  seq : Nat
  arg0 : Nat
  arg1 : Nat
deriving DecidableEq, Repr

/-- Pages that n positions need. -/
def Dev.pagesFor (d : Dev) (p n : Nat) : Nat := (n + d.cSpan p - 1) / d.cSpan p

/-- n pages are taken into the page list of a sequence, from an index on. -/
def Dev.takePages (d : Dev) (p s i : Nat) : Nat → Dev
  | 0 => d
  | k + 1 => Dev.takePages (d.takePage p s i) p s (i + 1) k

/-- What a command of the ring comes to: the state, and its result; none while it waits for what it reads. -/
abbrev CacheDone := Dev × Option Nat

/-- An operation runs once the ranges that it reads can be read; it learns whether they are good (R178, R185, R346). -/
def Dev.whenRead (d : Dev) (p : Nat) (rs : List (Nat × Nat)) (f : Dev → Bool → CacheDone) : CacheDone :=
  match d.readGate rs with
  | (d, .wait) => (d, none)
  | (d, g) => f (d.engineReads p rs) (g == .clear)

/-- open (R202). -/
def Dev.openSeq (d : Dev) (p : Nat) (x : CacheArgs) : CacheDone :=
  let s := x.seq
  let n := d.pagesFor p x.arg0
  if d.seqState p s != sqFree then (d, some 0x03)
  else if 1048575 < x.arg0 || 4096 < n then (d, some 0x08)
  else if d.available p < n + 1 then (d, some 0x04)
  else
    let d := (d.takePages p s 0 n).setSeqState p s sqActive
    let d := d.store (d.seqAt p s + 4) (natLe 4 0 ++ natLe 4 n ++ natLe 4 (bits x.arg1 31 0))
    let d := d.storeNat (d.seqAt p s + 40) 4 (bits x.arg1 63 32)
    ((d.giveHeadroom p s).setQuantAll p s 0, some 0)

/-- pause (R206): open blocks are closed, and with bank_on_pause the sequence banks at once. -/
def Dev.pauseSeq (d : Dev) (p : Nat) (x : CacheArgs) : CacheDone :=
  let s := x.seq
  if d.seqState p s != sqActive && d.seqState p s != sqAwaiting then (d, some 0x03)
  else d.whenRead p (d.closeReads p s) fun d _ =>
    let ttl := (if x.arg0 = 0 then d.fld (pCACHE p) rCACHE_CTL.off 31 0 else x.arg0) * 1000000
    let d := (d.closeSeq p s).setSeqState p s sqPaused
    let d := d.store (d.seqAt p s + 24) (natLe 8 d.now ++ natLe 8 (d.now + ttl))
    (if d.bit (pCACHE p) rCACHE_CTL.off 62 then d.startBanking p s else d, some 0)

/-- resume (R206). -/
def Dev.resumeSeq (d : Dev) (p : Nat) (x : CacheArgs) : CacheDone :=
  let s := x.seq
  let st := d.seqState p s
  if st = sqPaused then
    d.whenRead p (d.reopenReads p s) fun d _ => ((d.setSeqState p s sqActive).reopenSeq p s, some 0)
  else if st = sqBanking then
    d.whenRead p (d.reopenReads p s) fun d _ =>
      ((((d.freeBank p (d.copyingOf p s)).setCopying p s []).setSeqState p s sqActive).reopenSeq p s, some 0)
  else if st = sqBanked then
    if d.available p < d.seqPages p s + 1 then (d, some 0x04)
    else
      let r := d.takePool p s (d.seqPages p s)
      (((r.1.setCopying p s r.2).setSeqState p s sqRestoring).cacheSync p, some 0)
  else (d, some 0x03)

/-- free (R206, R212). -/
def Dev.dropSeq (d : Dev) (p : Nat) (x : CacheArgs) : CacheDone :=
  let s := x.seq
  if d.seqState p s = sqFree then (d, some 0x03)
  else
    let d := match d.ship? p s with
      | some y => d.sendShip y shAbort 0 0 []
      | none => d
    (d.freeSeq p s false false, some 0)

/-- A ship's peer as arg1 names it. -/
def shipOf (prior now arg1 : Nat) : Ship :=
  { prior := prior, peerDev := bits arg1 13 0, peerPart := bits arg1 19 14, peerSlot := bits arg1 33 20, since := now }

/-- receive (R210 step 1). -/
def Dev.receiveSeq (d : Dev) (p : Nat) (x : CacheArgs) : CacheDone :=
  let s := x.seq
  if d.seqState p s != sqFree then (d, some 0x03)
  else if 4096 < x.arg0 then (d, some 0x08)
  else if d.available p < x.arg0 + 1 then (d, some 0x04)
  else
    let d := (d.takePages p s 0 x.arg0).setSeqState p s sqArriving
    let d := d.store (d.seqAt p s + 4) (natLe 4 0 ++ natLe 4 x.arg0)
    ((d.giveHeadroom p s).setShip p s (shipOf sqFree d.now x.arg1), some 0)

/-- ship (R210 steps 2 and 3). Pages left poisoned are not sent: the ship fails with 0x06 (log entry 26). -/
def Dev.shipSeq (d : Dev) (p : Nat) (x : CacheArgs) : CacheDone :=
  let s := x.seq
  let st := d.seqState p s
  if st != sqActive && st != sqPaused then (d, some 0x03)
  else
    let pages := (d.seqRefs p s).flatMap (d.pageReads p)
    d.whenRead p (d.closeReads p s ++ pages) fun d _ =>
      let d := d.closeSeq p s
      if pages.any fun r => d.poisoned r.1 r.2 then (d, some 0x06)
      else
        let y := shipOf st d.now x.arg1
        let d := (d.setSeqState p s sqShipping).setShip p s y
        let d := d.each (List.range (d.seqPages p s)) fun i e => e.each (List.range (e.cTpp p)) fun t e =>
          (e.sendItem p s y shTile i t).sendItem p s y shParams i t
        (d.sendItem p s y shRecord 0 0, some 0)

/-! ### The ring (R213) -/

def Dev.cqSize (d : Dev) (p : Nat) : Nat := 2 ^ (d.fld (pCACHE p) rCACHE_CQ.off 35 32 + 4)
def Dev.cqCi (d : Dev) (p : Nat) : Nat := d.fld (pCACHE p) rCACHE_CQ_IDX.off 47 32
def Dev.cqPi (d : Dev) (p : Nat) : Nat := d.fld (pCACHE p) rCACHE_CQ_IDX.off 15 0
def Dev.cqAt (d : Dev) (p i : Nat) : Nat := d.cBase p rCACHE_CQ.off + 16 * (i % d.cqSize p)
def Dev.cqOp (d : Dev) (p i : Nat) : Nat := d.loadNatNew (d.cqAt p i) 4 % 16
def Dev.cqArgs (d : Dev) (p i : Nat) : CacheArgs :=
  ⟨bits (d.loadNatNew (d.cqAt p i) 4) 21 8, d.loadNatNew (d.cqAt p i + 4) 4, d.loadNatNew (d.cqAt p i + 8) 8⟩

/-- Reserved ops and fields of an entry (R213). -/
def Dev.cqBad (d : Dev) (p i : Nat) : Bool :=
  let h := d.loadNatNew (d.cqAt p i) 4
  let x := d.cqArgs p i
  let op := h % 16
  op = 0 || 6 < op || bits h 7 4 != 0 || bits h 31 22 != 0
    || ((op = 3 || op = 4 || op = 6) && x.arg0 != 0) || ((op = 5 || op = 6) && bits x.arg1 63 34 != 0)
    || ((op = 2 || op = 3 || op = 4) && x.arg1 != 0)

/-- ci advances past its entry, whose result goes to the slot's record. A slot at or above nseq has no record to take
result 0x02. -/
def Dev.cqNext (d : Dev) (p : Nat) : Dev :=
  d.setFld (pCACHE p) rCACHE_CQ_IDX.off 47 32 ((d.cqCi p + 1) % d.cqSize p)

/-- The entry at ci is executed by an operation, unless it waits: then ci stays. -/
def Dev.cqRun (d : Dev) (p : Nat) (f : Dev → CacheArgs → CacheDone) : Dev :=
  let i := d.cqCi p
  let x := d.cqArgs p i
  if d.nseq p ≤ x.seq then d.cqNext p
  else if d.cqBad p i then (d.setSeqResult p x.seq 0x01).cqNext p
  else match f d x with
  | (d, some r) => (d.setSeqResult p x.seq r).cqNext p
  | (d, none) => d

/-- Frees of request completions that stand before the entry at ci (R213, R221). -/
def Dev.cqFrees (d : Dev) (p i : Nat) : Dev :=
  let x := d.part p
  let due := x.frees.filter fun y => y.1 == i
  (d.setPart p { x with frees := x.frees.filter fun y => y.1 != i }).each due fun y e =>
    if e.nseq p ≤ y.2 then e
    else let r := e.dropSeq p ⟨y.2, 0, 0⟩
         r.1.setSeqResult p y.2 (r.2.getD 0)

/-- Lengths that finished steps kept (R221). -/
def Dev.applyKeeps (d : Dev) (p : Nat) : Dev :=
  let ks := (d.part p).keeps
  (d.setPart p { d.part p with keeps := [] }).each ks fun x e =>
    if e.nseq p ≤ x.1 then e else e.storeNat (e.seqAt p x.1 + 4) 4 x.2

/-- The operation that an op code names. -/
def cacheOp (p op : Nat) : Dev → CacheArgs → CacheDone :=
  match op with
  | 1 => fun d x => d.openSeq p x
  | 2 => fun d x => d.pauseSeq p x
  | 3 => fun d x => d.resumeSeq p x
  | 4 => fun d x => d.dropSeq p x
  | 5 => fun d x => d.receiveSeq p x
  | _ => fun d x => d.shipSeq p x

/-- The commands up to a producer index, in order, as far as none waits (R204 step 1). -/
def Dev.cqDrain (d : Dev) (p pi : Nat) : Nat → Dev
  | 0 => d
  | k + 1 =>
    let i := d.cqCi p
    let d := d.cqFrees p i
    if i = pi then d
    else
      let d := d.cqRun p (cacheOp p (d.cqOp p i))
      if d.cqCi p = i then d else Dev.cqDrain d p pi k

/-- May a command of the ring execute now: between steps, or while a boundary still executes commands? -/
def Dev.cqReady (d : Dev) (p op : Nat) : Bool :=
  d.cOn p && !d.inTest ukEngine (pCACHE p) && (!(d.part p).boundary || (d.part p).drainTo.any (· != d.cqCi p))
    && d.cqCi p != d.cqPi p && d.cqOp p (d.cqCi p) == op

/-- One command of the ring executes, after the lengths that steps kept and the frees that stand before it. -/
def Dev.cqOne (d : Dev) (p : Nat) (f : Dev → CacheArgs → CacheDone) : Dev :=
  ((d.applyKeeps p).cqFrees p (d.cqCi p)).cqRun p f

def execCacheOpen (p : Fin 64) (s : State) : Host.Outcome State Fault Refusal :=
  s.run fun d => d.when (d.cqReady p 1) fun d => d.cqOne p fun e x => e.openSeq p x

def execCachePause (p : Fin 64) (s : State) : Host.Outcome State Fault Refusal :=
  s.run fun d => d.when (d.cqReady p 2) fun d => d.cqOne p fun e x => e.pauseSeq p x

def execCacheResume (p : Fin 64) (s : State) : Host.Outcome State Fault Refusal :=
  s.run fun d => d.when (d.cqReady p 3) fun d => d.cqOne p fun e x => e.resumeSeq p x

def execCacheFree (p : Fin 64) (s : State) : Host.Outcome State Fault Refusal :=
  s.run fun d => d.when (d.cqReady p 4) fun d => d.cqOne p fun e x => e.dropSeq p x

def execCacheReceive (p : Fin 64) (s : State) : Host.Outcome State Fault Refusal :=
  s.run fun d => d.when (d.cqReady p 5) fun d => d.cqOne p fun e x => e.receiveSeq p x

def execCacheShip (p : Fin 64) (s : State) : Host.Outcome State Fault Refusal :=
  s.run fun d => d.when (d.cqReady p 6) fun d => d.cqOne p fun e x => e.shipSeq p x

/-! ### Step boundaries (R204) -/

/-- Slots of a partition in a state, ascending. -/
def Dev.slotsIn (d : Dev) (p st : Nat) : List Nat := (List.range (d.nseq p)).filter fun s => d.seqState p s == st

/-- Active sequences without headroom. -/
def Dev.lacking (d : Dev) (p : Nat) : List Nat := (d.slotsIn p sqActive).filter fun s => !d.seqH p s

/-- Step 2: sequences awaiting page, oldest entry first. -/
def Dev.serveAwaiting (d : Dev) (p : Nat) : Dev :=
  d.each (d.part p).awaiting fun s e =>
    if e.available p = 0 && !e.seqH p s then e else (e.giveHeadroom p s).setSeqState p s sqActive

/-- Sequences that still lack headroom, those that await a page included (R204 step 4). -/
def Dev.short (d : Dev) (p : Nat) : Nat :=
  (d.lacking p).length + ((d.slotsIn p sqAwaiting).filter fun s => !d.seqH p s).length

/-- Step 3: active sequences without headroom, in ascending slot order. -/
def Dev.serveActive (d : Dev) (p : Nat) : Dev := d.each (d.lacking p) fun s e => e.giveHeadroom p s

/-- A paused sequence put before those that were paused later, or at the same time in a higher slot. -/
def putByPause (x : Nat × Nat) : List (Nat × Nat) → List (Nat × Nat)
  | [] => [x]
  | y :: t => if x.1 < y.1 then x :: y :: t else y :: putByPause x t

/-- Paused sequences, oldest paused_at first, ties in slot order. -/
def Dev.pausedByAge (d : Dev) (p : Nat) : List Nat :=
  (((d.slotsIn p sqPaused).map fun s => (d.loadNatNew (d.seqAt p s + 24) 8, s)).foldl (fun l x => putByPause x l) []).map Prod.snd

/-- Pages that the banking copies in progress will free: those of the sequences, reservations included. -/
def Dev.bankingPages (d : Dev) (p : Nat) : Nat :=
  ((d.slotsIn p sqBanking).map fun s => d.seqPages p s + b2n (d.seqH p s)).sum

/-- Step 4: paused sequences are banked until enough pages come free. -/
def Dev.bankForRoom (d : Dev) (p : Nat) : Dev :=
  d.each (d.pausedByAge p) fun s e => if e.available p + e.bankingPages p < e.short p then e.startBanking p s else e

/-- Step 5: active sequences that still lack headroom await a page. -/
def Dev.awaitPages (d : Dev) (p : Nat) : Dev :=
  d.each (d.lacking p) fun s e => (e.setSeqState p s sqAwaiting).count (pCACHE p) rCACHE_STAT.off 31 16 1

/-- Steps 3 to 5: the boundary ends at once, or waits for the copies of step 4. -/
def Dev.boundaryRest (d : Dev) (p : Nat) : Dev :=
  let d := d.serveActive p
  if d.short p = 0 then d.endBoundary p
  else
    let d := d.bankForRoom p
    if (d.slotsIn p sqBanking).isEmpty then (d.awaitPages p).endBoundary p else d

/-- Steps 3 to 5 again, when a copy of the standing boundary has ended. -/
def Dev.boundaryAgain (d : Dev) (p : Nat) : Dev :=
  if (d.part p).boundary && (d.part p).drainTo.isNone then d.boundaryRest p else d

/-- A boundary: its commands up to producer index pi, and once none waits the headroom of steps 2 to 5. -/
def Dev.runBoundary (d : Dev) (p pi : Nat) : Dev :=
  let d := Dev.cqDrain (d.setPart p { d.part p with boundary := true, drainTo := some pi }) p pi (d.cqSize p + 1)
  if d.cqCi p = pi then ((d.setPart p { d.part p with drainTo := none }).serveAwaiting p).boundaryRest p else d

/-- A step boundary; one whose commands still wait goes on with them. -/
def execCacheStepBoundary (p : Fin 64) (s : State) : Host.Outcome State Fault Refusal :=
  s.run fun d => d.when (d.cOn p && !d.inTest ukEngine (pCACHE p)) fun d =>
    match (d.part p).boundary, (d.part p).drainTo with
    | false, _ => (d.applyKeeps p).runBoundary p (d.cqPi p)
    | true, some pi => d.runBoundary p pi
    | true, none => d

/-! ### Copies (R206, R207) -/

/-- The pages of a sequence are copied to others, once they can be read; lost lines stay poisoned in the copy. -/
def Dev.copyPages (d : Dev) (p s : Nat) (dst : List PageRef) (f : Dev → Dev) : Dev :=
  let src := d.seqRefs p s
  let rs := src.flatMap (d.pageReads p)
  match d.readGate rs with
  | (d, .wait) => d
  | (d, _) => f ((d.engineReads p rs).each (src.zip dst) fun x e => e.copyPage p x.1 x.2)

def execBankingCopyDone (p : Fin 64) (q : Fin 16384) (s : State) : Host.Outcome State Fault Refusal :=
  s.run fun d => d.when (d.cOn p && q < d.nseq p && d.seqState p q == sqBanking) fun d =>
    let dst := (d.copyingOf p q).map fun n => (⟨true, n⟩ : PageRef)
    d.copyPages p q dst fun d =>
      let d := d.freePool p q
      let d := d.each dst.zipIdx fun x e => e.setPageRef p q x.2 x.1
      (((d.setCopying p q []).setSeqState p q sqBanked).count (pCACHE p) rCACHE_STAT.off 63 48 1).boundaryAgain p

def execRestoringCopyDone (p : Fin 64) (q : Fin 16384) (s : State) : Host.Outcome State Fault Refusal :=
  s.run fun d => d.when (d.cOn p && q < d.nseq p && d.seqState p q == sqRestoring) fun d =>
    let src := d.seqRefs p q
    let dst := (d.copyingOf p q).map fun n => (⟨false, n⟩ : PageRef)
    d.copyPages p q dst fun d =>
      let d := d.freeBank p (src.map PageRef.page)
      let d := d.each dst.zipIdx fun x e =>
        Dev.setPageRef (e.setPart p { e.part p with pool := Tab.set (fun _ => 0) (e.part p).pool x.1.page (q * 8192 + x.2 + 1) })
          p q x.2 x.1
      let d := ((d.setCopying p q []).reopenSeq p q).giveHeadroom p q
      if d.seqH p q then d.setSeqState p q sqActive
      else (d.setSeqState p q sqAwaiting).count (pCACHE p) rCACHE_STAT.off 31 16 1

/-- Does a resume or free stand in the ring whose write took effect at or before the expiry of the sequence it names
(R208)? -/
def Dev.spared (d : Dev) (p s : Nat) : Bool :=
  (List.range ((d.cqPi p + d.cqSize p - d.cqCi p) % d.cqSize p)).any fun k =>
    let i := (d.cqCi p + k) % d.cqSize p
    (d.cqOp p i == 3 || d.cqOp p i == 4) && !d.cqBad p i && (d.cqArgs p i).seq == s
      && Tab.get (fun _ => 0) (d.part p).cqTimes i ≤ d.seqExpiry p s

/-- A paused, banking or banked sequence expires (R208), unless a resume or free that reached the ring in time prevents
it. -/
def execSequenceExpiry (p : Fin 64) (q : Fin 16384) (s : State) : Host.Outcome State Fault Refusal :=
  s.run fun d => d.when (d.cOn p && q < d.nseq p
      && (d.seqState p q == sqPaused || d.seqState p q == sqBanking || d.seqState p q == sqBanked)
      && d.seqExpiry p q ≤ d.now && !d.spared p q) fun d =>
    ((d.freeSeq p q true false).count (pCACHE p) rCACHE_STAT.off 47 32 1).boundaryAgain p

/-! ### Ships (R210 to R212) -/

/-- Key of a received transfer of a ship. -/
def ShipItem.key : ShipItem → Nat
  | .tile page t _ => page * 4096 + t
  | .params page t _ => 2 ^ 28 + page * 4096 + t
  | .record _ _ _ _ => 2 ^ 29

/-- A transfer that arrived whole: data goes to its page, and a record is checked and pins its epoch (R211). -/
def Dev.landItem (d : Dev) (p s : Nat) (x : Ship) (item : ShipItem) : Dev :=
  let got := { x with since := d.now, got := NSet.add (ShipItem.key item) x.got }
  match item with
  | .tile page t data =>
    if page < d.seqPages p s && t < d.cTpp p && data.length == d.cTile p then
      Dev.setShip (d.engineStore p (d.tileAddr p (d.pageRef p s page) t) data) p s got
    else d
  | .params page t data =>
    if page < d.seqPages p s && t < d.cTpp p && data.length == d.cParam p then
      Dev.setShip (d.engineStore p (d.paramAddr p (d.pageRef p s page) t) data) p s got
    else d
  | .record data kv4 tpp dh =>
    if kv4 != d.cKv4 p || tpp != d.cTpp p || dh != d.cDim p then d.failArrival p s x 0x07 true
    else match d.slotOf p (leNat ((data.drop 12).take 4)) with
      | none => d.failArrival p s x 0x05 true
      | some i =>
        let d := if Tab.get (fun _ => 0) (d.part p).seqPins s != 0 then d
          else (d.pin p i).setPart p { (d.pin p i).part p with seqPins := Tab.set (fun _ => 0) (d.part p).seqPins s (i + 1) }
        d.setShip p s { got with record := some data }

def execShipTileArrival (p : Fin 64) (q : Fin 16384) (item : ShipItem) (crcOk : Bool) (s : State) :
    Host.Outcome State Fault Refusal :=
  s.run fun d => d.when (d.hears && d.cOn p && q < d.nseq p && d.seqState p q == sqArriving) fun d =>
    match d.ship? p q with
    | none => d
    | some x =>
      if crcOk then d.landItem p q x item
      else
        let n := Tab.get (fun _ => 0) x.tries (ShipItem.key item)
        if 4 ≤ n then d.failArrival p q x 0x06 true
        else (d.setShip p q { x with since := d.now, tries := Tab.set (fun _ => 0) x.tries (ShipItem.key item) (n + 1) }).sendShip x
          shAgain (ShipItem.key item / 4096) (ShipItem.key item % 4096) []

/-- Have every tile, parameter record and the sequence record landed? -/
def Dev.shipWhole (d : Dev) (p s : Nat) (x : Ship) : Bool :=
  x.record.isSome && (List.range (d.seqPages p s)).all fun i => (List.range (d.cTpp p)).all fun t =>
    x.got.contains (i * 4096 + t) && x.got.contains (2 ^ 28 + i * 4096 + t)

def execArrivalComplete (p : Fin 64) (q : Fin 16384) (s : State) : Host.Outcome State Fault Refusal :=
  s.run fun d => d.when (d.cOn p && q < d.nseq p && d.seqState p q == sqArriving) fun d =>
    match d.ship? p q with
    | none => d
    | some x =>
      match x.record with
      | none => d
      | some r =>
        if !d.shipWhole p q x || !d.engineVisible then d
        else
          let field := fun a n => (r.drop a).take n
          let d := d.store (d.seqAt p q + 4) (field 4 4)
          let d := (d.store (d.seqAt p q + 12) (field 12 4)).store (d.seqAt p q + 40) (field 40 4)
          let d := ((d.setSeqState p q sqActive).setSeqResult p q 0).reopenSeq p q
          (d.sendShip x shAck 0 0 []).dropShip p q

def execShipAcknowledgement (p : Fin 64) (q : Fin 16384) (s : State) : Host.Outcome State Fault Refusal :=
  s.run fun d => d.when (d.hears && d.cOn p && q < d.nseq p && d.seqState p q == sqShipping) fun d =>
    ((d.freeSeq p q false true).setSeqResult p q 0).count (pCACHE p) rCACHE_STAT.off 15 0 1

def execShipAbortReceive (p : Fin 64) (q : Fin 16384) (s : State) : Host.Outcome State Fault Refusal :=
  s.run fun d => d.when (d.hears && d.cOn p && q < d.nseq p && (d.seqState p q == sqShipping || d.seqState p q == sqArriving)) fun d =>
    match d.ship? p q with
    | none => d
    | some x => if d.seqState p q == sqShipping then d.failShip p q x else d.failArrival p q x 0x06 false

def Dev.shipTo (d : Dev) (p : Nat) : Nat := d.fld (pCACHE p) rCACHE_CTL.off 47 32 * 1000

def execArrivalTimeout (p : Fin 64) (q : Fin 16384) (s : State) : Host.Outcome State Fault Refusal :=
  s.run fun d => d.when (d.cOn p && q < d.nseq p && d.seqState p q == sqArriving) fun d =>
    match d.ship? p q with
    | none => d
    | some x => if x.since + d.shipTo p ≤ d.now then d.failArrival p q x 0x06 false else d

def execShipAckTimeout (p : Fin 64) (q : Fin 16384) (s : State) : Host.Outcome State Fault Refusal :=
  s.run fun d => d.when (d.cOn p && q < d.nseq p && d.seqState p q == sqShipping) fun d =>
    match d.ship? p q with
    | none => d
    | some x => if x.since + 2 * d.shipTo p ≤ d.now then d.failShip p q x else d

/-! ### Registers -/

/-- The time of the write that produced the entries from one producer index to another (R208). -/
def Dev.stampCq (d : Dev) (p old new : Nat) : Dev :=
  let n := d.cqSize p
  let fresh := (List.range ((new + n - old) % n)).map fun k => (old + k) % n
  let times := fresh.foldl (fun (t : Tab Nat) (i : Nat) => Tab.set (fun _ => 0) t i d.now) (d.part p).cqTimes
  d.setPart p { d.part p with cqTimes := times }

def execCacheCqPiWrite (a : Access) (p : Fin 64) (v : Word) (s : State) : Host.Outcome State Fault Refusal :=
  s.run fun d => d.regWrite a (pCACHE p) rCACHE_CQ_IDX.off true fun d =>
    let pi := bits v.toNat 15 0 % d.cqSize p
    Dev.stampCq (d.setFld (pCACHE p) rCACHE_CQ_IDX.off 15 0 pi) p (d.cqPi p) pi

/-- Does a base lie in granules of the partition of kind key–value, or, for the tails and length tables, in HBM
granules of the partition (R214)? -/
def Dev.cacheBaseOk (d : Dev) (p a : Nat) (hbm : Bool) : Bool :=
  d.tierOk p (d.partWorld p) a 1 && (if hbm then !(d.gran (a / granBytes)).slow else (d.gran (a / granBytes)).kind == 2)

/-- May the cache manager be enabled (R214)? -/
def Dev.cacheSound (d : Dev) (p : Nat) : Bool :=
  let ctl := rCACHE_CTL.off
  d.cTpp p != 0 && d.cTpp p ≤ 4096 && d.fld (pCACHE p) rCACHE_GEOM.off 33 32 != 3 && d.nseq p != 0
    && d.fld (pCACHE p) ctl 47 32 != 0 && d.fld (pCACHE p) ctl 31 0 != 0
    && [rCACHE_POOL, rCACHE_BANK, rCACHE_SEQ, rCACHE_CQ].all (fun r => d.cacheBaseOk p (d.cBase p r.off) false)
    && d.cacheBaseOk p (d.fld (pCACHE p) rCACHE_PARAM.off 63 32 * 0x10000) false
    && d.cacheBaseOk p (d.fld (pCACHE p) rCACHE_PARAM.off 31 0 * 0x10000) false
    && [rCACHE_TAIL, rCACHE_LTAB].all (fun r => d.cacheBaseOk p (d.cBase p r.off) true)

def execCacheCtlWrite (a : Access) (p : Fin 64) (v : Word) (s : State) : Host.Outcome State Fault Refusal :=
  s.run fun d => d.regWrite a (pCACHE p) rCACHE_CTL.off false fun d =>
    let e := d.store8 a (pCACHE p) rCACHE_CTL.off rCACHE_CTL v
    if d.cOn p && !e.cOn p then
      if (List.range (d.nseq p)).all fun q => d.seqState p q == sqFree then e else d
    else if !d.cOn p && e.cOn p then
      if e.cacheSound p then
        ((e.setPart p { e.part p with pool := [], bankUsed := [], awaiting := [], copying := [], ships := [] }).setFld (pCACHE p)
          rCACHE_STS.off 39 0 0).cacheSync p
      else e.setBit (pCACHE p) rCACHE_CTL.off 63 false
    else e

def execCacheStatRead (a : Access) (p : Fin 64) (s : State) : Host.Outcome State Fault Refusal :=
  s.run fun d => d.regRead a (pCACHE p) rCACHE_STAT.off rCACHE_STAT id

end Sys2Proof.Machine
end

