-- ==== Sys2Proof/Machine/Tasks.lean ====
section
/-! DEFINITION. Tasks as they enter the task queues of a partition: descriptors (R72), captured modes (R26, R463), the
ash log's task records (R259), occupancy and context states (R381 to R384). -/

namespace Sys2Proof.Machine

/-- A task descriptor read from its 64 bytes (R72). -/
def TaskDesc.ofBytes (bs : List Byte) : TaskDesc :=
  let w := fun i => leNat ((bs.drop (8 * i)).take 8)
  { entry := bits (w 0) 47 0, doneEn := (w 1).testBit 30, doneEmber := bits (w 1) 29 16, phase := bits (w 1) 7 4,
    context := bits (w 1) 3 0, args := (List.range 6).map fun i => BitVec.ofNat 64 (w (2 + i)) }

/-! ### Contexts -/

def cxOff : Nat := 0
def cxIdle : Nat := 1
def cxReady : Nat := 2
def cxCurrent : Nat := 3
def cxHeld : Nat := 4
def cxSaving : Nat := 5
def cxRestoring : Nat := 6

def ctxReg (c : Nat) : Nat := rPART_CTX.at c
/-- Number of contexts of a partition. -/
def Dev.nctx (d : Dev) (p : Nat) : Nat := d.fld (pPART p) rPART_CTL.off 35 32 + 1
/-- Is the context enabled? -/
def Dev.ctxOn (d : Dev) (p c : Nat) : Bool := c < d.nctx p && d.bit (pPART p) (ctxReg c) 63
def Dev.ctxState (d : Dev) (p c : Nat) : Nat := d.fld (pPART p) (ctxReg c) 58 56
def Dev.setCtxState (d : Dev) (p c st : Nat) : Dev := d.setFld (pPART p) (ctxReg c) 58 56 st
def Dev.ctxPrio (d : Dev) (p c : Nat) : Nat := d.fld (pPART p) (ctxReg c) 61 59

/-! ### Task queues (R382, R383) -/

/-- Tasks that hold a slot of queue q of context c: PART_TQOCCc. -/
def Dev.occ (d : Dev) (p c q : Nat) : Nat := d.fld (pPART p) (rPART_TQOCC.at c) (8 * q + 7) (8 * q)
def Dev.setOcc (d : Dev) (p c q n : Nat) : Dev := d.setFld (pPART p) (rPART_TQOCC.at c) (8 * q + 7) (8 * q) n
def Dev.queueFull (d : Dev) (p c q : Nat) : Bool := 255 ≤ d.occ p c q

def queueKey (c q : Nat) : Nat := c * 8 + q
def Dev.tasks (d : Dev) (p c q : Nat) : List Task := Tab.get (fun _ => []) (d.part p).queues (queueKey c q)
def Dev.setTasks (d : Dev) (p c q : Nat) (l : List Task) : Dev :=
  d.setPart p { d.part p with queues := Tab.set (fun _ => []) (d.part p).queues (queueKey c q) l }

/-- A context is runnable when it is enabled and a task holds a slot of its queues, queued, running, suspended or saved
(R383, R384), and it is not contained (R425). -/
def Dev.runnable (d : Dev) (p c : Nat) : Bool :=
  d.ctxOn p c && d.rd (pPART p) (rPART_TQOCC.at c) != 0 && !(d.part p).contained.contains c

/-- A context that a task enters is ready, unless it is current, in a switch, or contained. -/
def Dev.makeReady (d : Dev) (p c : Nat) : Dev :=
  if (d.ctxState p c == cxIdle || d.ctxState p c == cxHeld) && !(d.part p).contained.contains c && (d.part p).current != some c
  then d.setCtxState p c cxReady else d

/-- A task ends or is refused: its slot is free (R383). -/
def Dev.freeQueueSlot (d : Dev) (p c q : Nat) : Dev := d.setOcc p c q (d.occ p c q - 1)

/-! ### Entry of a task -/

/-- The modes that a task of a context captures at its admission (R26, R463). -/
def Dev.capture (d : Dev) (p c : Nat) : Admit :=
  { precise := d.bit (pPART p) rPART_CTL.off 62, degraded := d.bit (pPART p) rPART_CTL.off 61,
    stochastic := d.bit (pPART p) (ctxReg c) 62, freeRunning := d.bit (pLRN p) (rLRN_GEN.at c) 0,
    seed := d.rd (pLRN p) (rLRN_SEED.at c), isa := d.fld (pPART p) (ctxReg c) 55 48 }

/-- A mode record of the ash log (R259). -/
def Dev.modeRecord (d : Dev) (p mode value adm : Nat) : Dev :=
  d.ashAppend p 3 0 (natLe 8 mode ++ natLe 8 value ++ natLe 4 adm)

/-- Changes of the recorded context's modes since they were last recorded are logged, with the number of the next
admission, the first that uses them (R249, R259). -/
def Dev.noteModes (d : Dev) (p : Nat) : Dev :=
  if !d.bit (pLRN p) rLRN_ASH_CTL.off 63 then d
  else
    let m := d.capture p (d.fld (pLRN p) rLRN_ASH_CTL.off 3 0)
    let a := (d.part p).ash
    let n := a.admitted
    let d := if m.freeRunning != a.freeRunning then d.modeRecord p 0 (b2n m.freeRunning) n else d
    let d := if m.seed != a.seed then d.modeRecord p 1 m.seed n else d
    let d := if m.stochastic != a.stochastic then d.modeRecord p 2 (b2n m.stochastic) n else d
    d.setAsh p { (d.part p).ash with freeRunning := m.freeRunning, seed := m.seed, stochastic := m.stochastic }

/-- The ash log's record of an admission (R259). -/
def Dev.recordTask (d : Dev) (p q : Nat) (bytes : List Byte) : Dev :=
  let d := d.noteModes p
  let n := (d.part p).ash.admitted
  let d := d.ashAppend p 2 0 (bytes ++ natLe 4 q ++ natLe 4 n)
  d.setAsh p { (d.part p).ash with admitted := n + 1 }

/-- A task enters queue q of its context at the tail. -/
def Dev.enqueue (d : Dev) (p q : Nat) (t : Task) : Dev :=
  let c := t.desc.context
  ((d.setTasks p c q (d.tasks p c q ++ [t])).setOcc p c q (d.occ p c q + 1)).makeReady p c

/-- A descriptor admitted to queue q, from a work queue's packet or a post. -/
def Dev.enterTask (d : Dev) (p q : Nat) (bytes : List Byte) (source : Option TaskSource) : Dev :=
  let t := TaskDesc.ofBytes bytes
  let m := d.capture p t.context
  let rec_ := d.recording p t.context
  let adm := { m with admNo := if rec_ then some (d.part p).ash.admitted else none }
  let d := if rec_ then d.recordTask p q bytes else d
  d.enqueue p q { desc := t, queue := q, source := source, adm := adm, saved := none, waits := [] }

/-- A descriptor whose context is not enabled is treated as a task that faulted with code 0x0B (R382). -/
def Dev.refuseTask (d : Dev) (p addr : Nat) : Dev :=
  ((d.count (pPART p) rPART_STAT.off 15 0 1).partEvt p evFault).log (pPART p)
    { code := 0x81, detail := 0x0B, addr := addr, rkind := 0, part := p, world := d.partWorld p }

end Sys2Proof.Machine
end

