-- ==== Sys2Proof/Machine/Companion.lean ====
section
/-! DEFINITION. The Vexio Link: ports, loss and coherence with the companion, work queues, notices and interrupts
(chapter 13). -/

namespace Sys2Proof.Machine

/-! ### Requests of the companion (R342, R346) -/

/-- Why a companion access of n bytes fails: 0 for none, 0x80 for an unmapped address, 0x81 for the other world. -/
def Dev.companionCode (d : Dev) (secure : Bool) (a n : Nat) : Nat :=
  match whereIs a with
  | .tier =>
    if 0x030000000000 < a + n || !(granules a n).all (fun g => (d.gran g).valid) then 0x80
    else if (granules a n).all fun g => (d.gran g).world == secure then 0 else 0x81
  | .scratch k =>
    if scratchBase + (k + 1) * scratchBytes < a + n then 0x80
    else if d.pageWorld (pCORE k) == secure then 0 else 0x81
  | _ => 0x80

/-- A companion access that fails: logged in the VEX page, completed with error status (R342, R450). -/
def Dev.companionFail (d : Dev) (secure : Bool) (a code : Nat) : Dev :=
  (d.log pVEX { code := code, addr := a, rkind := 3, world := secure }).emit (.readback 0 true)

/-- The device address that a companion address reaches (R342). -/
def Dev.fromCompanion (d : Dev) (a : Nat) : Option Nat :=
  let base := d.rd pVEX rVEX_WIN_D.off
  if base ≤ a && a - base < 2 ^ 48 then some (a - base) else none

/-- A request with the addresses it reaches, under the apertures as it was issued (R342, R358): a device address, or for a
recall the address in the window. -/
def Dev.reached (d : Dev) (r : CompanionReq) : Option CompanionReq :=
  match r with
  | .read a n => (d.fromCompanion a).map fun x => .read x n
  | .write a bs bad => (d.fromCompanion a).map fun x => .write x bs bad
  | .share l => (d.fromCompanion (64 * l)).map fun x => .share (x / 64)
  | .own l => (d.fromCompanion (64 * l)).map fun x => .own (x / 64)
  | .writeBack l bs bad => (d.fromCompanion (64 * l)).map fun x => .writeBack (x / 64) bs bad
  | .recall l =>
    let c := d.rd pVEX rVEX_WIN_C.off
    if c ≤ 64 * l && 64 * l - c < 2 ^ 44 then some (.recall ((windowBase + (64 * l - c)) / 64)) else none

/-- The address that a request names. -/
def reqAddr : CompanionReq → Nat
  | .read a _ => a
  | .write a _ _ => a
  | .share l => 64 * l
  | .own l => 64 * l
  | .writeBack l _ _ => 64 * l
  | .recall l => 64 * l

/-- Highest version negotiated by a port that is up or asleep. -/
def Dev.vexVersion (d : Dev) : Nat := max (d.fld pVEX (rVEX_PORT.at 0) 47 46) (d.fld pVEX (rVEX_PORT.at 1) 47 46)

/-- Data returned to the companion: a poisoned line is carried as poison with feature [2], and is a completion error
without it (R344); its granule enters re-fetch (R179). -/
def Dev.answerRead (d : Dev) (a n : Nat) : Dev :=
  let bad := d.poisoned a n
  let d := if bad then d.refetchRange a n else d
  if bad && !d.vexFeature 2 then d.emit (.readback 0 true) else d.emit (.memData (d.companionAddr a) (d.loadNew a n) bad)

/-- Lines that one snoop filter tracks (R346). -/
def filterSize : Nat := 1048576

/-- A line is granted to the companion; a full filter first recalls its oldest line, and the request waits while that
line's data comes back (R346). A line is tracked by the filter of its number's parity (log entry 12). -/
def Dev.grantLine (d : Dev) (line : Nat) (modify : Bool) (again : CompanionReq) (secure : Bool) : Dev :=
  let here := d.vex.filter.filter fun x => x.1 % 2 == line % 2 && x.1 != line
  let grant := fun (d : Dev) =>
    Dev.answerRead { d with vex := { d.vex with filter := (d.vex.filter.filter fun x => x.1 != line) ++ [(line, modify)] } }
      (line * 64) 64
  match here with
  | old :: _ =>
    if here.length < filterSize then grant d
    else if old.2 then
      Dev.toCompanion { d with vex := { d.vex with heldReqs := d.vex.heldReqs ++ [.memory secure again] } }
        (.snoop (d.companionAddr (64 * old.1)))
    else
      grant (Dev.toCompanion { d with vex := { d.vex with filter := d.vex.filter.filter fun x => x != old } }
        (.snoop (d.companionAddr (64 * old.1))))
  | [] => grant d

/-- A request that waits. -/
def Dev.holdReq (d : Dev) (secure : Bool) (r : CompanionReq) : Dev :=
  { d with vex := { d.vex with heldReqs := d.vex.heldReqs ++ [.memory secure r] } }

/-- A line that the companion held modified comes back (R346): the bytes that the device has written since stay, and a
line not held modified changes nothing. -/
def Dev.takeBack (d : Dev) (line : Nat) (bs : List Byte) (bad : Bool) : Dev :=
  if !d.vex.filter.contains (line, true) then d
  else
    let a := line * 64
    let mine := fun i => d.vex.written.contains (a + i)
    let data := (bs.zip ((d.load a 64).zipIdx)).map fun x => if mine x.2.2 then x.2.1 else x.1
    let any := (List.range 64).any mine
    let e := { d with vex := { d.vex with filter := d.vex.filter.filter fun x => x.1 != line,
                                          written := d.vex.written.clear a (a + 64) } }
    if (List.range 64).all mine then e else e.put a data (bad || (any && d.poisoned a 64))

/-- A request of the companion reaches its device address (R342, R346); one to a scratchpad segment in use waits (R54). -/
def Dev.serve (d : Dev) (secure : Bool) (r : CompanionReq) : Dev :=
  match r with
  | .read a n =>
    let c := d.companionCode secure a n
    if c != 0 then d.companionFail secure a c
    else if d.scratchBusy a n false then d.holdReq secure r
    else (d.answerRead a n).warm a n
  | .write a bs bad =>
    let c := d.companionCode secure a bs.length
    if c != 0 then d.companionFail secure a c
    else if d.scratchBusy a bs.length true then d.holdReq secure r
    else (d.put a bs bad).emit (.readback 0 false)
  | .share line =>
    let c := d.companionCode secure (line * 64) 64
    if c != 0 then d.companionFail secure (line * 64) c
    else if d.vexFeature 0 && whereIs (line * 64) == .tier then d.grantLine line false r secure
    else d.answerRead (line * 64) 64
  | .own line =>
    let c := d.companionCode secure (line * 64) 64
    if c != 0 then d.companionFail secure (line * 64) c
    else if d.vexFeature 0 && whereIs (line * 64) == .tier then d.grantLine line true r secure
    else d.answerRead (line * 64) 64
  | .writeBack line bs bad =>
    d.takeBack line bs bad
  | .recall line => (d.windowDrop (line * 64) 64).emit (.readback 0 false)

/-- The doorbell of a work queue (R353, R354). -/
def Dev.doorbell (d : Dev) (p q pi : Nat) : Dev :=
  let old := d.wqPi p q
  let ahead := span32 old pi
  if d.wqOn p q && ahead = 0 then d
  else if d.wqOn p q && ahead ≤ span32 old (d.wqGrant p q) then d.setFld (pVWQ p) (rVWQ_DB.at q) 31 0 pi
  else (d.setBit (pVWQ p) (rVWQ_WQ_CI.at q) 63 true).partEvt p evWq

/-- A read of VWQ_NPOP (R356): the oldest notice of the highest class, or a hold, or an empty notice. -/
def Dev.npop (d : Dev) (p : Nat) : Dev :=
  let n := (d.part p).notices
  match n.oldest with
  | some (c, w) => (d.popNotice p c).emit (.readback w false)
  | none =>
    let hold := d.fld (pVWQ p) rVWQ_NCTL.off 63 48
    if hold != 0 && d.vexVersion == 2 && n.held.length < 16 then
      d.setNotices p { n with held := n.held ++ [d.now + hold * 1000] }
    else d.emit (.readback 0 false)

/-- What has come over the link waits, behind what waits already. -/
def Dev.holdLink (d : Dev) (x : LinkReq) : Dev := { d with vex := { d.vex with heldReqs := d.vex.heldReqs ++ [x] } }

/-- One that was held is served. A doorbell stays behind the writes before it (R347). -/
def Dev.serveLink (d : Dev) (x : LinkReq) : Dev :=
  match x with
  | .memory secure r => d.serve secure r
  | .bell p q pi =>
    let waits := fun (y : LinkReq) => match y with | .memory _ _ => true | _ => false
    if d.vex.heldReqs.any waits then d.holdLink x else d.doorbell p q pi
  | .pop p => d.npop p

/-- What was held is served in order, while a port carries it (R349). -/
def Dev.serveHeld (d : Dev) : Dev :=
  if d.vexUp then Dev.each { d with vex := { d.vex with heldReqs := [] } } d.vex.heldReqs fun x e => e.serveLink x else d

/-- A request of class M from the companion at its companion address (R342): it is served, or held while no port carries it
(R345, R349). -/
def Dev.companionRequest (d : Dev) (secure : Bool) (r : CompanionReq) : Dev :=
  match d.reached r with
  | none => if d.vexUp then d.companionFail secure (reqAddr r) 0x80 else d
  | some x => if d.vexUp then d.serve secure x else d.holdReq secure x

/-- A response of the companion (R346, R347). -/
def execCompanionResponse (r : CompanionResp) (s : State) : Host.Outcome State Fault Refusal :=
  s.run fun d => d.when d.vexUp fun d =>
    match r with
    | .writeAck id => { d with vex := { d.vex with writes := d.vex.writes.filter fun w => w.id != id } }
    | .readData a bs bad =>
      if whereIs a != .companion then d
      else
        let open_ := d.vex.reads.filter fun r => r.1 < a || a + bs.length < r.1 + r.2
        let d := { d with mem := memStore d.mem a bs, vex := { d.vex with reads := open_ } }
        let d := d.windowFill a bs.length
        if bad then d.addPoison a bs.length else d
    | .snoop line bs bad =>
      let d := match bs with
        | some l => d.takeBack line l bad
        | none => d
      Dev.serveHeld { d with vex := { d.vex with filter := d.vex.filter.filter fun x => x.1 != line,
                                                 written := d.vex.written.clear (line * 64) (line * 64 + 64) } }

/-! ### Ports (R344, R345, R349, R350) -/

def Dev.vexState (d : Dev) (n : Nat) : Nat := d.fld pVEX (rVEX_PORT.at n) 51 48
def vxDown : Nat := 0
def vxTraining : Nat := 1
def vxUp : Nat := 2
def vxIncompatible : Nat := 3
def vxAsleep : Nat := 5

/-- Is a port up or asleep? -/
def Dev.vexCarries (d : Dev) (n : Nat) : Bool := d.vexState n == vxUp || d.vexState n == vxAsleep

/-- Pops held while neither port was up take the notices that have come (R356). -/
def Dev.servePops (d : Dev) (p : Nat) : Nat → Dev
  | 0 => d
  | k + 1 =>
    let n := (d.part p).notices
    match n.held, n.oldest with
    | _ :: rest, some (c, w) =>
      Dev.servePops (((d.setNotices p { n with held := rest }).popNotice p c).emit (.readback w false)) p k
    | _, _ => d

/-- What was held while neither port was up goes out, and requests and pops held are served (R349). -/
def Dev.vexFlush (d : Dev) : Dev :=
  if d.vexUp then
    (Dev.serveHeld (Dev.each { d with vex := { d.vex with heldOut := [] } } d.vex.heldOut fun o e => e.linkSend o)).each (List.range 64)
      fun p e => e.servePops p (e.part p).notices.held.length
  else d

/-- The credit word of every enabled work queue is written (R350). -/
def Dev.rewriteCredits (d : Dev) : Dev :=
  d.each (List.range 64) fun p e => e.each (List.range 16) fun q f => if f.wqOn p q then f.creditWrite p q else f

/-- The lost-link timer starts once neither port is up (R349). -/
def Dev.noCarrier (d : Dev) : Dev :=
  if d.vexCarries 0 || d.vexCarries 1 || d.vex.lostAt.isSome || d.vex.linkLost then d
  else { d with vex := { d.vex with lostAt := some (d.now + d.fld pVEX rVEX_CTL.off 15 0 * 1000000) } }

/-- A capability exchange of a port (R344): the version and the features both ends have, or incompatible, which takes a port that
was up out of use. The first port that comes back ends the lost-link timer; after a lost link the credit words are written again,
behind what was held (R349, R350). -/
def execVexioCapabilityExchange (n : Fin 2) (lowest highest : Nat) (feat : Word) (s : State) :
    Host.Outcome State Fault Refusal :=
  s.run fun d => d.when (d.bit pVEX (rVEX_PORT.at n) 63 && d.pow.refclkB && d.vexState n != vxAsleep) fun d =>
    let d := d.emit (.vexCaps n 1 2 7)
    let ver := min 2 highest
    let f := bits feat.toNat 2 0
    let other := 1 - n.val
    let differs := d.vexCarries other
      && (d.fld pVEX (rVEX_PORT.at other) 47 46 != ver || d.fld pVEX (rVEX_PORT.at other) 2 0 != f)
    if ver < max 1 lowest || differs then
      let e := ((d.setFld pVEX (rVEX_PORT.at n) 51 48 vxIncompatible).setFld pVEX (rVEX_PORT.at n) 47 46 0).setFld pVEX
        (rVEX_PORT.at n) 2 0 0
      if d.vexCarries n then (e.event pVEX).noCarrier else e
    else
      let d := ((d.setFld pVEX (rVEX_PORT.at n) 51 48 vxUp).setFld pVEX (rVEX_PORT.at n) 47 46 ver).setFld pVEX
        (rVEX_PORT.at n) 2 0 f
      let was := d.vex.linkLost
      let d := { d with vex := { d.vex with lostAt := none, linkLost := false } }
      if was then d.vexFlush.rewriteCredits else d.vexFlush

/-- A port that is up sends an idle flit (R349). -/
def execIdleFlitSend (n : Fin 2) (s : State) : Host.Outcome State Fault Refusal :=
  s.run fun d => d.when (d.vexState n == vxUp) fun d => d.emit (.idleFlit n)

/-- A Vexio port goes down (R349): the link event, and the lost-link timer once neither port is up. -/
def Dev.vexPortDown (d : Dev) (n : Nat) : Dev :=
  let next := if d.bit pVEX (rVEX_PORT.at n) 63 && d.pow.refclkB then vxTraining else vxDown
  let d := (((d.setFld pVEX (rVEX_PORT.at n) 51 48 next).setFld pVEX (rVEX_PORT.at n) 47 46 0).setFld pVEX (rVEX_PORT.at n) 2
    0 0).event pVEX
  d.noCarrier

/-- A port that is not asleep received no flit for 10 µs (R349). -/
def execVexioPortLoss (n : Fin 2) (s : State) : Host.Outcome State Fault Refusal :=
  s.run fun d => d.when (d.vexState n == vxUp || d.vexState n == vxIncompatible) fun d => d.vexPortDown n

/-- An idle port in power state sleep asks the companion, and sleeps when it agrees (R345). -/
def execVexioSleep (n : Fin 2) (agreed : Bool) (s : State) : Host.Outcome State Fault Refusal :=
  s.run fun d =>
    d.when (d.vexState n == vxUp && d.fld pVEX (rVEX_PORT.at n) 62 61 == 1 && d.fld pVEX (rVEX_PORT.at n) 47 46 == 2) fun d =>
      let d := d.emit (.vexSleep n)
      if agreed then d.setFld pVEX (rVEX_PORT.at n) 51 48 vxAsleep else d

/-- Queued traffic wakes an asleep port (R345). -/
def execVexioPortWake (n : Fin 2) (s : State) : Host.Outcome State Fault Refusal :=
  s.run fun d => d.when (d.vexState n == vxAsleep) fun d => (d.setFld pVEX (rVEX_PORT.at n) 51 48 vxUp).vexFlush

/-- Is a message that waits one of its own: no read of the window, which completes poisoned, and no write of it, which is
counted among those not acknowledged? -/
def ownMessage : Out → Bool
  | .companionRead _ _ _ => false
  | .companionWrite id _ _ _ _ => id.isNone
  | _ => true

/-- The lost-link timer expires (R350). -/
def execLinkLost (s : State) : Host.Outcome State Fault Refusal :=
  s.run fun d =>
    d.when (!d.vexCarries 0 && !d.vexCarries 1 && (match d.vex.lostAt with | some t => decide (t ≤ d.now) | none => false)) fun d =>
      let lines := (d.vex.filter.filter (·.2)).map (·.1)
      let reads := d.vex.reads
      let pops := ((List.range 64).map fun p => (d.part p).notices.held.length).sum
      let lost := d.vex.writes.length + (d.vex.heldOut.filter ownMessage).length + d.vex.heldReqs.length + pops
      let d := d.each lines fun l e => { e with poison := e.poison.add l }
      let d := d.count pVEX rVEX_STS.off 63 32 lines.length
      let d := d.count pVEX rVEX_STS.off 31 0 lost
      let d := d.each (List.range 64) fun p e =>
        if (e.part p).notices.held.isEmpty then e else e.setNotices p { (e.part p).notices with held := [] }
      let d := { d with mem := Tab.clear d.mem windowBase 0x200000000000,
                        poison := NSet.clear d.poison (windowBase / 64) (0x200000000000 / 64),
                        vex := { d.vex with filter := [], written := [], cached := [], writes := [], reads := [], heldReqs := [], heldOut := [],
                                            lostAt := none, linkLost := true } }
      let d := d.each reads fun y e => (e.windowFill y.1 y.2).addPoison y.1 y.2
      d.event pVEX

/-! ### Work queues (R351 to R354) -/

/-- Does a message of class X of the companion wait: no port carries it (R345, R349)? -/
def Dev.classX (d : Dev) (a : Access) : Bool := a.by_ == .companion && !d.vexUp

/-- A doorbell write of a work queue: one of the companion comes in class X, behind its earlier writes (R347, R349). -/
def execVwqDbWrite (a : Access) (p : Fin 64) (q : Fin 16) (v : Word) (s : State) : Host.Outcome State Fault Refusal :=
  s.run fun d =>
    let pi := bits v.toNat 31 0
    if d.classX a then (if d.reachable (pVWQ p) && d.worldOk a (pVWQ p) then d.holdLink (.bell p q pi) else d)
    else d.regWrite a (pVWQ p) (rVWQ_DB.at q) true fun d => if a.by_ == .companion then d.serveLink (.bell p q pi) else d.doorbell p q pi

/-- May the queue be enabled with the fields it holds (R354)? -/
def Dev.wqSound (d : Dev) (p q : Nat) : Bool :=
  4 ≤ d.wqK p q && d.wqK p q ≤ 16 && d.wqBase p q % 64 == 0
    && d.hbmOk p (d.partWorld p) (d.wqBase p q) (64 * 2 ^ d.wqK p q) && d.rd (pVWQ p) (rVWQ_WQ_CRED.at q) % 8 == 0

/-- Enabling a queue: indices and grant start together, then the first credits (R354). -/
def Dev.wqEnable (d : Dev) (p q : Nat) : Dev :=
  let start := d.fld (pVWQ p) (rVWQ_WQ_START.at q) 63 32
  let d := (d.setFld (pVWQ p) (rVWQ_WQ_CI.at q) 31 0 start).wr (pVWQ p) (rVWQ_DB.at q) (start * 2 ^ 32 + start)
  let e := d.regrant1 p q
  if e.wqGrant p q == start then e.creditWrite p q else e

/-- Disabling a queue: unused reservations are released, and the grant falls to pi (R354). -/
def Dev.wqDisable (d : Dev) (p q : Nat) : Dev :=
  let unused := span32 (d.wqPi p q) (d.wqGrant p q)
  let n := (d.part p).notices
  let c := d.wqClass p q
  let d := if d.wqNotify p q then
      d.setNotices p { n with reserved := Tab.set (fun _ => 0) n.reserved c (Tab.get (fun _ => 0) n.reserved c - unused) }
    else d
  let d := (d.setBit (pVWQ p) (rVWQ_WQ.at q) 63 false).setFld (pVWQ p) (rVWQ_DB.at q) 63 32 (d.wqPi p q)
  (d.creditWrite p q).regrant p

/-- A write of the first word of VWQ_WQq (R354, R358). -/
def execVwqWqEnWrite (a : Access) (p : Fin 64) (q : Fin 16) (v : Word) (s : State) : Host.Outcome State Fault Refusal :=
  s.run fun d => d.regWrite a (pVWQ p) (rVWQ_WQ.at q) false fun d =>
    if d.wqOn p q then (if a.reaches 63 63 && !v.toNat.testBit 63 then d.wqDisable p q else d)
    else
      let e := d.store8 a (pVWQ p) (rVWQ_WQ.at q) rVWQ_WQ v
      if !e.wqOn p q then e
      else if e.wqSound p q then e.wqEnable p q
      else e.setBit (pVWQ p) (rVWQ_WQ.at q) 63 false

/-- ci advances past the entry, and the grants are computed again (R352). -/
def Dev.wqAdvance (d : Dev) (p q : Nat) : Dev :=
  (d.setFld (pVWQ p) (rVWQ_WQ_CI.at q) 31 0 ((d.wqCi p q + 1) % 2 ^ 32)).regrant p

/-- Address of the entry at ci. -/
def Dev.wqEntry (d : Dev) (p q : Nat) : Nat := d.wqBase p q + d.wqCi p q % 2 ^ d.wqK p q * 64

/-- The next entry of a work queue passes to its task queue (R353, R382): it waits for a full queue, a line in re-fetch or
one that the companion holds; a context that is not enabled consumes it as a fault; a line left poisoned consumes it with
fault code 0x07 (log entry 9). -/
def execWorkEntryPass (p : Fin 64) (q : Fin 16) (s : State) : Host.Outcome State Fault Refusal :=
  s.run fun d => d.when (d.wqOn p q && d.wqCi p q != d.wqPi p q) fun d =>
    let addr := d.wqEntry p q
    let i := d.wqCi p q
    let tq := d.wqTq p q
    let t := TaskDesc.ofBytes (d.load addr 64)
    if d.companionOwns addr 64 then d.snoop addr 64
    else if d.poisoned addr 64 then
      let d := d.refetchRange addr 64
      if d.refetching addr 64 then d
      else (((d.count (pPART p) rPART_STAT.off 15 0 1).partEvt p evFault).noticeFor p (some (d.packetSource p q i)) 0x07).wqAdvance p q
    else if !d.ctxOn p t.context then ((d.refuseTask p addr).noticeFor p (some (d.packetSource p q i)) 0x0B).wqAdvance p q
    else if d.queueFull p t.context tq then d
    else (d.enterTask p tq (d.load addr 64) (some (d.packetSource p q i))).wqAdvance p q

/-! ### Notices and interrupts (R355 to R357) -/

/-- A pop of a partition's notices. A 32-bit read returns half of the oldest and removes nothing (R445). -/
def execVwqNpopRead (a : Access) (p : Fin 64) (s : State) : Host.Outcome State Fault Refusal :=
  s.run fun d =>
    let page := pVWQ p
    if !d.reachable page then d
    else if d.classX a then (if d.worldOk a page && a.width == .full then d.holdLink (.pop p) else d)
    else if !d.worldOk a page then d.badAccess a page page rVWQ_NPOP.off 0x01
    else if d.blockInReset page rVWQ_NPOP.off then d.emit (.readback 0 false)
    else if a.width == .full then d.npop p
    else
      let w := match (d.part p).notices.oldest with
        | some (_, w) => w.toNat
        | none => 0
      d.emit (.readback (BitVec.ofNat 64 (a.width.view w)) false)

/-- The hold of a held pop expires with no notice, and its completion can be delivered (R356). -/
def execNoticePopHoldExpiry (p : Fin 64) (s : State) : Host.Outcome State Fault Refusal :=
  s.run fun d => d.when d.vexUp fun d =>
    let n := (d.part p).notices
    match n.held.findIdx? (· ≤ d.now) with
    | some i => (d.setNotices p { n with held := n.held.eraseIdx i }).emit (.readback 0 false)
    | none => d

/-- A write of VEX_VECi, second word (R357): unmasking a pending vector sends it. -/
def execVexVecWrite (a : Access) (i : Fin 512) (v : Word) (s : State) : Host.Outcome State Fault Refusal :=
  s.run fun d => d.regWrite a pVEX (rVEX_VEC.at i) false fun d =>
    let d := d.store8 a pVEX (rVEX_VEC.at i) rVEX_VEC v
    if d.bit pVEX (rVEX_VEC.at i) 33 && !d.bit pVEX (rVEX_VEC.at i) 32 then
      (d.setBit pVEX (rVEX_VEC.at i) 33 false).vector i
    else d

/-- A read of VEX_STS returns and clears the loss counts (R350). -/
def execVexStsRead (a : Access) (s : State) : Host.Outcome State Fault Refusal :=
  s.run fun d => d.regRead a pVEX rVEX_STS.off rVEX_STS id

end Sys2Proof.Machine
end

