-- ==== Sys2Proof/Machine/Operands.lean ====
section
/-! DEFINITION. What an instruction word names (R115 to R120): its fields, formats, scalar and vector registers,
accumulator rows, scratchpad records and random draws of the generators. -/

namespace Sys2Proof.Machine

/-! ### The instruction word (R115) -/

/-- The fields of an instruction word. -/
structure Ins where
  op : Nat
  d : Nat
  a : Nat
  b : Nat
  c : Nat
  fa : Nat
  fb : Nat
  sub : Nat
  md : Nat
  imm : Nat
deriving DecidableEq, Repr

def Ins.of (w : BitVec 128) : Ins :=
  let n := w.toNat
  { op := bits n 7 0, d := bits n 13 8, a := bits n 19 14, b := bits n 25 20, c := bits n 31 26, fa := bits n 35 32,
    fb := bits n 39 36, sub := bits n 43 40, md := bits n 47 44, imm := bits n 127 64 }

/-- Modifier bit 44 + j. -/
def Ins.mod (i : Ins) (j : Nat) : Bool := i.md.testBit j

/-- Fields as bit ranges of the word. -/
abbrev Span := Nat × Nat
def uD : Span := (13, 8)
def uA : Span := (19, 14)
def uB : Span := (25, 20)
def uC : Span := (31, 26)
def uFa : Span := (35, 32)
def uFb : Span := (39, 36)
def uSub : Span := (43, 40)
def uMod (hi lo : Nat) : Span := (44 + hi, 44 + lo)
def uImm (hi lo : Nat) : Span := (64 + hi, 64 + lo)

/-- Is a bit outside the opcode and the fields used not 0 (R116)? -/
def unusedSet (w : BitVec 128) (used : List Span) : Bool :=
  ((7, 0) :: used).foldl (fun v r => putBits v r.1 r.2 0) w.toNat != 0

/-- The opcodes of version 1 (R123). -/
def opcodes : List Nat :=
  [0x01, 0x02, 0x03, 0x04, 0x05, 0x06, 0x07, 0x08, 0x09, 0x0A, 0x0F,
   0x20, 0x21, 0x22, 0x23, 0x24, 0x25, 0x26, 0x27, 0x28, 0x29, 0x2A, 0x2B, 0x2C,
   0x40, 0x48, 0x49, 0x4A, 0x4B, 0x50, 0x51, 0x52, 0x54, 0x55, 0x58,
   0x70, 0x71, 0x72, 0x73, 0x74, 0x78, 0x79]

/-- Opcodes of the matrix and the vector unit, whose issue slots the cap and the temperature withhold (R32, R41). -/
def gatedOp (op : Nat) : Bool := 0x20 ≤ op && op ≤ 0x4B

/-- Is a vector index out of range (R117)? -/
def badVec (i : Nat) : Bool := 32 ≤ i

/-! ### Registers of a core (R49, R66) -/

/-- A run of table entries written from key lo on. -/
def Tab.setRow {α : Type} [DecidableEq α] (dflt : Nat → α) (t : Tab α) (lo : Nat) : List α → Tab α
  | [] => t
  | v :: vs => Tab.setRow dflt (Tab.set dflt t lo v) (lo + 1) vs

/-- Scalar register r; s0 reads 0. -/
def Live.s (l : Live) (r : Nat) : Word := if r = 0 then 0 else Tab.get (fun _ => 0) l.sregs r
/-- A write of scalar register r; a write of s0 is discarded. -/
def Live.setS (l : Live) (r : Nat) (v : Word) : Live :=
  if r = 0 then l else { l with sregs := Tab.set (fun _ => 0) l.sregs r v }

/-- One lane of a vector register. -/
def Live.lane (l : Live) (r j : Nat) : Lane := Tab.get (fun _ => 0) l.vregs (r * 128 + j)
/-- The 128 lanes of a vector register. -/
def Live.vrow (l : Live) (r : Nat) : List Lane := (List.range 128).map (l.lane r)
def Live.setLane (l : Live) (r j : Nat) (v : Lane) : Live :=
  { l with vregs := Tab.set (fun _ => 0) l.vregs (r * 128 + j) v }
def Live.setV (l : Live) (r : Nat) (row : List Lane) : Live :=
  { l with vregs := Tab.setRow (fun _ => 0) l.vregs (r * 128) (row.take 128) }

/-- Key of the first element of row i of a tile. -/
def accKey (t i : Nat) : Nat := t * 16384 + i * 128
def Live.tileLive (l : Live) (t : Nat) : Bool := l.accLive.contains t
def Live.tileInt (l : Live) (t : Nat) : Bool := l.accInt.contains t
/-- An accumulator element; a tile that is not live reads zeros. -/
def Live.accAt (l : Live) (t i j : Nat) : Lane :=
  if l.tileLive t then Tab.get (fun _ => 0) l.acc (accKey t i + j) else 0
def Live.accRow (l : Live) (t i : Nat) : List Lane := (List.range 128).map (l.accAt t i)
/-- A row written: the tile is live, and elements never written are zero. -/
def Live.setAccRow (l : Live) (t i : Nat) (row : List Lane) (isInt : Bool) : Live :=
  let old := if l.tileLive t then l.acc else Tab.clear l.acc (accKey t 0) (accKey (t + 1) 0)
  { l with acc := Tab.setRow (fun _ => 0) old (accKey t i) (row.take 128), accLive := l.accLive.add t,
           accInt := if isInt then l.accInt.add t else l.accInt.del t }
/-- The release of a tile (R66, R111, R152). -/
def Live.releaseTile (l : Live) (t : Nat) : Live :=
  { l with acc := Tab.clear l.acc (accKey t 0) (accKey (t + 1) 0), accLive := l.accLive.del t, accInt := l.accInt.del t,
           addCnt := Tab.set (fun _ => 0) l.addCnt t 0 }
def Live.adds (l : Live) (t : Nat) : Nat := Tab.get (fun _ => 0) l.addCnt t
def Live.setAdds (l : Live) (t n : Nat) : Live := { l with addCnt := Tab.set (fun _ => 0) l.addCnt t n }

/-- Sticky flags set (R97). -/
def Live.flag (l : Live) (g : NFlags) : Live := { l with flags := l.flags.or g }

def Dev.lv (d : Dev) (k : Nat) : Live := (d.core k).live
def Dev.setLv (d : Dev) (k : Nat) (l : Live) : Dev := d.setCore k { d.core k with live := l }
def Dev.onLv (d : Dev) (k : Nat) (f : Live → Live) : Dev := d.setLv k (f (d.lv k))
/-- Scalar register of a core, as a number. -/
def Dev.sr (d : Dev) (k r : Nat) : Nat := ((d.lv k).s r).toNat

/-! ### The scratchpad (R54, R56, R119) -/

def spSize : Nat := 0x1000000
def spSegBytes : Nat := 0x40000

/-- A scratchpad address: base register plus offset (R119). -/
def Dev.spAddr (d : Dev) (k r off : Nat) : Nat := (d.sr k r + off) % 2 ^ 64
/-- A range that leaves the scratchpad or is not aligned: fault 0x03 (R119). -/
def spBad (a n align : Nat) : Bool := spSize < a + n || a % align != 0
/-- A device address: base register plus offset (R120). -/
def Dev.devAddr (d : Dev) (k r off : Nat) : Nat := (d.sr k r + off) % 2 ^ 48

/-- Segments of a scratchpad range. -/
def spSegs (a n : Nat) : List Nat :=
  if n = 0 then [] else (List.range ((a + n - 1) / spSegBytes + 1 - a / spSegBytes)).map (a / spSegBytes + ·)

def Dev.spLoad (d : Dev) (k a n : Nat) : List Byte := d.load (scratchAddr k a) n
def Dev.spNat (d : Dev) (k a n : Nat) : Nat := d.loadNat (scratchAddr k a) n
/-- A write of the core to its scratchpad: the segments become live (R56). -/
def Dev.spStore (d : Dev) (k a : Nat) (bs : List Byte) : Dev := (d.storeRaw (scratchAddr k a) bs).liveSegs k a bs.length

/-- A segment of core k is released: it reads zeros (R56). -/
def Dev.releaseSeg (d : Dev) (k n : Nat) : Dev :=
  let lo := scratchAddr k (n * spSegBytes)
  Dev.onLv { d with mem := Tab.clear d.mem lo (lo + spSegBytes), poison := NSet.clear d.poison (lo / 64) ((lo + spSegBytes) / 64) }
    k fun l => { l with segLive := l.segLive.del n }

/-! ### Row records (R89, R118) -/

/-- Element j of a record of K elements at a scratchpad address, as it is encoded. -/
def Dev.recElem (d : Dev) (k a : Nat) (f : Fmt) (j : Nat) : Nat :=
  let w := f.elemBits
  (d.spNat k (a + w * j / 8) ((w * j % 8 + w + 7) / 8) >>> (w * j % 8)) % 2 ^ w

/-- Scale byte b of a record of n elements; 127 in a format without scales. -/
def Dev.recScale (d : Dev) (k a : Nat) (f : Fmt) (n b : Nat) : Nat :=
  if f.scaled then d.spNat k (a + n * f.elemBits / 8 + b) 1 else 127

/-- Element j of a record of n elements, as a value with its scale. -/
def Dev.recValue (d : Dev) (k a : Nat) (f : Fmt) (n j : Nat) : FVal :=
  elemValue f (d.recElem k a f j) (d.recScale k a f n (j / 32))

/-- The bytes of a record: element bits, lowest first, then the scale bytes (R89). -/
def packRecord (f : Fmt) (elems scales : List Nat) : List Byte :=
  natLe (elems.length * f.elemBits / 8) (elems.foldr (fun e v => e % 2 ^ f.elemBits + 2 ^ f.elemBits * v) 0)
    ++ scales.map (BitVec.ofNat 8)

/-- Bytes of a record of 128 elements. -/
def Fmt.rec128 (f : Fmt) : Nat := f.recordBytes 128

/-- Groups of 32 of a row under recipe 2 (R105, R106): element fields and scale bytes. -/
def quantiseRow (f : Fmt) (row : List FVal) : (List Nat × List Nat) × NFlags :=
  let l := f.layout.getD layE4m3
  mapF (eachF (List.range (row.length / 32)) fun g =>
    let q := quantiseGroup l false ((row.drop (32 * g)).take 32)
    ((q.1, q.2.1), q.2.2)) fun gs => (gs.flatMap Prod.snd, gs.map Prod.fst)

/-- A row in a format under recipe 0 or 2: the bytes of its record. -/
def encodeRow (f : Fmt) (row : List FVal) : List Byte × NFlags :=
  if f.scaled then mapF (quantiseRow f row) fun x => packRecord f x.1 x.2
  else mapF (eachF row (encodeElem f)) fun es => packRecord f es []

/-- Flag nan for NaN operands read as numbers (R97). -/
def nanFlag (l : List FVal) : NFlags := .ofNan (l.any FVal.isNan)

/-! ### Generators (R112) -/

/-- Generator n of a core as Fender's source filled it. -/
def genDefault (base n : Nat) : GenState :=
  { key := (Config.random (base + 3 * n)).toNat,
    counter := (Config.random (base + 3 * n + 1)).toNat + (Config.random (base + 3 * n + 2)).toNat * 2 ^ 64,
    rest := 0, restBits := 0 }

/-- A draw of n bits from a generator's own state (R112). -/
def GenState.draw (g : GenState) (n : Nat) : Nat × GenState :=
  if n ≤ g.restBits then (g.rest % 2 ^ n, { g with rest := g.rest >>> n, restBits := g.restBits - n })
  else
    let c := fun i => bits g.counter (32 * i + 31) (32 * i)
    let out := philox (bits g.key 31 0) (bits g.key 63 32) (c 0) (c 1) (c 2) (c 3)
    (out % 2 ^ n, { key := g.key, counter := (g.counter + 1) % 2 ^ 128, rest := out >>> n, restBits := 128 - n })

def Live.gen (l : Live) (n : Nat) : GenState := Tab.get (genDefault l.genBase) l.gens n
def Live.setGen (l : Live) (n : Nat) (g : GenState) : Live :=
  { l with gens := Tab.set (genDefault l.genBase) l.gens n g }

end Sys2Proof.Machine
end

