-- ==== Sys2Proof/Machine/CoreOps.lean ====
section
/-! DEFINITION. How a core issues an instruction (R50 to R53, R115 to R121), what a fault, a poisoned operand and a
contained error do to its task (R77, R80, R424), and the end of a tile (R74, R151). -/

namespace Sys2Proof.Machine

/-! ### Leaving a core -/

/-- What the running task of a core captured at its admission. -/
def Dev.modes (d : Dev) (k : Nat) : Admit :=
  match (d.core k).task with
  | some t => t.adm
  | none => {}

/-- The generators of a context on core k, kept while it runs no task of the context (R112). -/
def Dev.ctxGens (d : Dev) (p c k : Nat) : Nat × Tab GenState :=
  Tab.get (fun _ => (Tab.get (fun _ => 0) (d.part p).genBase c + 768 * k, [])) (d.part p).gens (c * 512 + k)
def Dev.setCtxGens (d : Dev) (p c k : Nat) (g : Nat × Tab GenState) : Dev :=
  let x := d.part p
  d.setPart p { x with gens := Tab.set (fun _ => (Tab.get (fun _ => 0) x.genBase c + 768 * k, [])) x.gens (c * 512 + k) g }

/-- The bytes and the poison of the scratchpad of core k are cleared: no segment is live. -/
def Dev.clearScratch (d : Dev) (k : Nat) : Dev :=
  let lo := scratchAddr k 0
  { d with mem := Tab.clear d.mem lo (lo + scratchBytes), poison := NSet.clear d.poison (lo / 64) ((lo + scratchBytes) / 64) }

/-- State of a core that holds no task: idle, under its self-test, or retired. -/
def Dev.freeSt (d : Dev) (k : Nat) : CoreSt :=
  if (d.unit ukCore k).retired then .retired else if (d.unit ukCore k).testing then .selfTest else .idle

/-- The core gives up its task: every live bit is cleared and the core is idle. A core at rest has left its task's phase
already (R254). -/
def Dev.vacate (d : Dev) (k : Nat) : Dev :=
  let c := d.core k
  let d := match c.task with
    | some t => (if c.atRest then d else d.phEnd c.part t.desc.phase).setCtxGens c.part t.desc.context k (c.live.genBase, c.live.gens)
    | none => d
  (d.clearScratch k).setCore k
    { c with st := d.freeSt k, struck := false, task := none, live := .empty,
             tileStart := .empty, carry := false, forced := false, tileOpen := none, outs := [], committing := [],
             ending := false, begun := false, ibuf := [], mmas := [], tlds := [], wait := none, suspendedOn := [] }

/-- Numeric flags ORed into the flag word of a context (R98). -/
def Dev.orFlags (d : Dev) (p c : Nat) (g : NFlags) : Dev :=
  d.setFld (pPART p) (ctxReg c) 3 0 (d.fld (pPART p) (ctxReg c) 3 0 ||| g.toNat)

/-- A fault of the running task at its instruction address (R80): the open tile's outputs and flags are discarded. -/
def Dev.coreFault (d : Dev) (k code : Nat) : Dev :=
  let c := d.core k
  let p := c.part
  let d := d.wr (pCORE k) rCORE_FAULT.off (c.live.pc % 2 ^ 48 * 2 ^ 16 + code)
  let d := (d.count (pPART p) rPART_STAT.off 15 0 1).partEvt p evFault
  match c.task with
  | none => d.vacate k
  | some t =>
    let cx := t.desc.context
    let d := d.ashFault p cx t.adm.admNo code c.live.pc
    let d := (d.orFlags p cx c.tileStart.flags).vacate k
    (d.freeQueueSlot p cx t.queue).noticeFor p t.source code

/-- Is every write that the core issued before visible (R53)? -/
def Dev.writesVisible (d : Dev) (k : Nat) : Bool :=
  !(d.vex.writes.any fun w => w.owner == k + 1) && !(d.tier.mig.any fun x => !x.2.held.isEmpty)

/-- Does the end of the core's task append a notice (R355)? -/
def Core.notifies (c : Core) : Bool := c.task.any fun t => t.source.any TaskSource.notify

/-- A fault waits until the outputs of ended tiles are committed: they stay committed (R80), and visible before a notice
tells of them (R355). -/
def Dev.takeFault (d : Dev) (k code : Nat) : Dev :=
  if (d.core k).committing.isEmpty && (!(d.core k).notifies || d.writesVisible k) then d.coreFault k code else d

/-- Copy of the live segments of a saved state in the scratchpad of core k: bytes and poisoned lines by offset. -/
def Dev.copySegs (d : Dev) (k : Nat) (segs : NSet) : Tab Byte × NSet :=
  let lo := scratchAddr k 0
  let keep := fun off => segs.contains (off / spSegBytes)
  (((Tab.slice d.mem lo (lo + scratchBytes)).map fun (x : Nat × Byte) => (x.1 - lo, x.2)).filter fun x => keep x.1,
   ((d.poison.filter fun l => lo / 64 ≤ l && l < (lo + scratchBytes) / 64).map (· - lo / 64)).filter fun l => keep (64 * l))

/-- A saved state put on core k: its registers, tiles and segments, and nothing else live. -/
def Dev.putLive (d : Dev) (k : Nat) (l : Live) : Dev :=
  let lo := scratchAddr k 0
  let d := d.clearScratch k
  let d := { d with mem := l.scratch.foldl (fun m (x : Nat × Byte) => Tab.set (fun _ => 0) m (lo + x.1) x.2) d.mem,
                    poison := l.scratchPoison.foldl (fun s x => s.add (lo / 64 + x)) d.poison }
  d.setLv k { l with scratch := [], scratchPoison := [] }

/-- The whole live state of core k, with the bytes of its live segments. -/
def Dev.takeLive (d : Dev) (k : Nat) : Live :=
  let s := d.copySegs k (d.lv k).segLive
  { d.lv k with scratch := s.1, scratchPoison := s.2 }

/-- A task returns to the head of its queue, positioned at its tile, and waits for the ranges it was refused (R77, R383). -/
def Dev.requeue (d : Dev) (k : Nat) (rs : List (Nat × Nat)) : Dev :=
  let c := d.core k
  match c.task with
  | none => d
  | some t =>
    let s := d.copySegs k c.tileStart.segLive
    let saved := { c.tileStart with scratch := s.1, scratchPoison := s.2 }
    let again := { t with saved := some saved, waits := rs }
    let d := d.vacate k
    d.setTasks c.part t.desc.context t.queue (again :: d.tasks c.part t.desc.context t.queue)

/-- The context is marked contained (R424, R425): it starts no more tasks, and a recorded step carries the fault flag. -/
def Dev.containContext (d : Dev) (p cx : Nat) : Dev :=
  let d := d.setPart p { d.part p with contained := (d.part p).contained.add cx }
  let d := if d.ctxState p cx == cxIdle || d.ctxState p cx == cxReady then d.setCtxState p cx cxHeld else d
  let d := if d.recording p cx then d.setBit (pLRN p) rLRN_ASH_STS.off 2 true else d
  d.partEvt p evFault

/-- The task of a core cannot be rebuilt (R424): its outputs and its live state are discarded. -/
def Dev.contain (d : Dev) (k : Nat) : Dev :=
  let c := d.core k
  match c.task with
  | none => d
  | some t => ((d.vacate k).freeQueueSlot c.part t.desc.context t.queue).containContext c.part t.desc.context

/-- A task that a contained error has struck leaves the core (R424), once the outputs of its ended tiles are committed and
what they still load has landed; a task at its end has nothing left to lose. `lost`: its state cannot be rebuilt. -/
def Dev.leaveStruck (d : Dev) (k : Nat) (lost : Bool) : Dev :=
  let c := d.core k
  if c.struck && !c.ending && c.committing.isEmpty && (lost || !c.tlds.any TldOp.old) then
    if lost || c.carry then d.contain k else d.requeue k []
  else d

/-- A contained error strikes the task of core k. -/
def Dev.strike (d : Dev) (k : Nat) : Dev :=
  if (d.core k).task.isNone then d else Dev.leaveStruck (d.setCore k { d.core k with struck := true }) k false

/-- What poisoned ranges do to the task that would read them (R77): while their granules are in re-fetch it is suspended, or
requeued at its tile; with no re-fetch to come, it is contained (R181, R424). -/
def Dev.poisonStop (d : Dev) (k : Nat) (keep : Bool) (rs : List (Nat × Nat)) : Dev :=
  let c := d.core k
  if d.lost rs then (if c.committing.isEmpty then d.contain k else d)
  else if c.carry || keep then d.setCore k { c with st := .suspended, begun := false, suspendedOn := rs }
  else if c.committing.isEmpty && !c.tlds.any TldOp.old then d.requeue k rs
  else d

/-- Poisoned ranges that an instruction would read: their granules enter re-fetch, and the task stops. -/
def Dev.refuse (d : Dev) (k : Nat) (keep : Bool) (rs : List (Nat × Nat)) : Dev := (d.refetchAll rs).poisonStop k keep rs

/-! ### Tiles (R74, R75, R151) -/

/-- Scratchpad segments that an output reads at its commit. -/
def TileOut.segs : TileOut → List Nat
  | .tst src _ n => spSegs src n
  | .submit _ a => spSegs a 64
  | .esig _ _ => []

/-- The end of the open tile: its outputs start to commit, its duration is recorded, and the next tile opens. -/
def Dev.tileEnd (d : Dev) (k : Nat) : Dev :=
  let c := d.core k
  let ns := min 0xFFFFFFFF (match c.tileOpen with | some t => d.now - t | none => 0)
  let d := if d.fld (pCORE k) rCORE_TILE_MAX.off 31 0 < ns then d.setFld (pCORE k) rCORE_TILE_MAX.off 31 0 ns else d
  d.setCore k { c with committing := c.committing ++ c.outs, outs := [], carry := false, forced := false, tileOpen := none,
                       tileStart := c.live, tlds := c.tlds.map fun t => { t with old := true } }

/-! ### Fetch (R50, R461) -/

/-- What issue finds at the instruction address. -/
inductive Fetched where
  | wait
  | bad
  | word (w : BitVec 128)
deriving DecidableEq, Repr

def lineAddr (pc : Nat) : Nat := pc / 4096 * 4096

/-- Can the core read its instruction address? -/
def Dev.pcReadable (d : Dev) (k : Nat) : Bool :=
  let c := d.core k
  d.tierOk c.part (d.partWorld c.part) (c.live.pc % 2 ^ 48) 16

def Dev.fetch (d : Dev) (k : Nat) : Fetched :=
  let c := d.core k
  let pc := c.live.pc
  if pc % 16 != 0 then .bad
  else match c.ibuf.find? fun l => l.addr == lineAddr pc with
  | none => if d.pcReadable k then .wait else .bad
  | some l =>
    if l.poison.contains (pc % 4096 / 64) then
      if !d.mayMend (pc / granBytes) && d.poisoned pc 16 then .bad else .wait
    else .word (BitVec.ofNat 128 (leNat (memLoad l.bytes pc 16)))

/-! ### Issue -/

/-- What an instruction needs and touches. -/
structure Needs where
  /-- Fields it uses; every other bit must be 0 (R116). -/
  used : List Span
  /-- Fault conditions that depend on no format, with their codes. -/
  faults : List (Bool × Nat) := []
  /-- The formats are permitted together, and the conditions that depend on them (R121). -/
  formats : Bool := true
  fmtFaults : List (Bool × Nat) := []
  /-- Scalar registers it reads or writes. -/
  sregs : List Nat := []
  /-- Scratchpad ranges it reads as operands and those it writes, as offset and bytes. -/
  reads : List (Nat × Nat) := []
  writes : List (Nat × Nat) := []
  /-- Segments it releases. -/
  frees : List Nat := []
  tileR : List Nat := []
  tileW : List Nat := []
  /-- Accumulates into the tile of the matrix instruction before it (R61). -/
  chains : Bool := false
  /-- Device ranges that it reads at once. -/
  devReads : List (Nat × Nat) := []
  /-- Is it an output of the tile (R151)? -/
  output : Bool := false
  /-- Is it a TLD, of which 16 may be in flight (R149)? -/
  moves : Bool := false
  /-- Does it end the tile first and wait for everything in flight (R159, R160)? -/
  drains : Bool := false
deriving DecidableEq, Repr

def Needs.segR (n : Needs) : List Nat := n.reads.flatMap fun r => spSegs r.1 r.2
def Needs.segW (n : Needs) : List Nat := (n.writes.flatMap fun r => spSegs r.1 r.2) ++ n.frees

/-- The lowest code of the conditions that hold; 0 when none does (R121). -/
def lowestCode (l : List (Bool × Nat)) : Nat :=
  match (l.filter Prod.fst).map Prod.snd with
  | [] => 0
  | c :: cs => cs.foldl min c

/-- The fault code of an instruction; 0 for none (R116, R121). -/
def Needs.code (n : Needs) (w : BitVec 128) : Nat :=
  lowestCode ((unusedSet w n.used, 0x02) :: n.faults ++ (if n.formats then n.fmtFaults else [(true, 0x09)]))

/-- Must the core come to rest for the change of CCLK: the device has risen to SL2, and its die still runs at 470 MHz
(R420)? -/
def Dev.cclkRest (d : Dev) (k : Nat) : Bool :=
  2 ≤ d.fld pMOD rMOD_SL.off 1 0 && d.pow.cclkMHz == 470 && d.fld pMOD rMOD_SL.off 14 12 == k / 64

/-- May the core issue its next instruction now (R50, R75, R82, R386, R387, R420)? A pre-emption stops the precise mode at any
instruction and the other mode at a tile boundary; SAVE and RSTR complete first (R161), and one that has begun is not
stopped by a halt. -/
def Dev.canIssue (d : Dev) (k op : Nat) : Bool :=
  let c := d.core k
  let precise := match c.task with | some t => t.adm.precise | none => true
  d.live && (decide (c.st = .running) || (c.begun && decide (c.st = .halted))) && !c.struck && c.task.isSome
    && c.wait.isNone && !c.ending && !c.atRest && (c.begun || !d.bit (pCORE k) rCORE_CTL.off 0)
    && !(c.preempt && (precise || c.forced || c.tileOpen.isNone) && !(op == 0x78 || op == 0x79))
    && !(d.cclkRest k && (c.forced || c.tileOpen.isNone))
    && !(gatedOp op && (d.pow.thermGate || d.pow.capGate))

def meets (a b : List Nat) : Bool := a.any b.contains

/-- Segments of core k that a device range lies in (R54). -/
def ownSegs (k a n : Nat) : List Nat :=
  let r := ownSpan k a n
  if whereIs a == .scratch (windowCore a) then spSegs r.1 r.2 else []

/-- Segments of core k that an output writes at its commit: those of a TST to the core's own window. -/
def TileOut.fills (k : Nat) : TileOut → List Nat
  | .tst _ dst n => ownSegs k dst n
  | _ => []

/-- Is the output a TST? -/
def TileOut.moves : TileOut → Bool
  | .tst _ _ _ => true
  | _ => false

/-- Is the output a SUBMIT? -/
def TileOut.submits : TileOut → Bool
  | .submit _ _ => true
  | _ => false

/-- Does an earlier instruction of core k still hold a resource that this one needs (R51)? A transfer in flight fills its
destination and reads its source, where that lies in the core's own window; so does a TST that commits. At most 16 TLD and
TST are in flight (R149). -/
def Core.busy (c : Core) (k : Nat) (n : Needs) : Bool :=
  let filling := (c.tlds.flatMap fun t => spSegs t.dst t.count) ++ c.committing.flatMap (TileOut.fills k)
  let reading := (c.mmas.flatMap MmaOp.segs) ++ (c.committing.flatMap TileOut.segs)
    ++ c.tlds.flatMap fun t => ownSegs k t.src t.count
  let tiles := c.mmas.map MmaOp.tile
  let held := if n.chains && (c.mmas.getLast?.map MmaOp.tile) == n.tileW.head? then [] else tiles
  meets (n.segR ++ n.segW) filling || meets n.segW reading || meets (n.tileR ++ n.tileW) held
    || (n.moves && 16 ≤ c.tlds.length + (c.committing.filter TileOut.moves).length)
    || (n.drains && !(c.mmas.isEmpty && c.tlds.isEmpty && c.committing.isEmpty))

/-- Does a TLD in flight still owe a scalar register its flag? -/
def Core.flagBusy (c : Core) (n : Needs) : Bool := c.tlds.any fun t => t.flagReg != 0 && n.sregs.contains t.flagReg

/-- Must the tile end before the instruction issues (R151, R159, R160)? -/
def Core.endsTile (c : Core) (n : Needs) : Bool :=
  (n.output && 32 ≤ c.outs.length) || meets n.segW (c.outs.flatMap TileOut.segs) || (n.drains && c.tileOpen.isSome)

/-- Does the instruction change what was live when the tile began (R76)? -/
def Core.carries (c : Core) (n : Needs) : Bool := meets n.segW c.tileStart.segLive || meets n.tileW c.tileStart.accLive

/-- Ranges that the instruction reads and that hold poisoned lines, as device addresses. -/
def Dev.poisonOf (d : Dev) (k : Nat) (n : Needs) : List (Nat × Nat) :=
  ((n.reads.map fun r => (scratchAddr k r.1, r.2)) ++ n.devReads).filter fun r => d.poisoned r.1 r.2

/-- The instruction is the next of the open tile, and the instruction address moves on. -/
def Dev.advance (d : Dev) (k : Nat) (n : Needs) : Dev :=
  let c := d.core k
  d.setCore k { c with begun := false, tileOpen := some (c.tileOpen.getD d.now), carry := c.carry || c.carries n,
                       live := { c.live with pc := (c.live.pc + 16) % 2 ^ 48 } }

/-- SAVE or RSTR has begun: it holds the core until it completes (R161). -/
def Dev.begin_ (d : Dev) (k : Nat) (n : Needs) : Dev :=
  if n.drains then d.setCore k { d.core k with begun := true } else d

/-- An instruction free of faults: it waits for what it depends on, meets poison, or takes effect. -/
def Dev.issueGo (d : Dev) (k : Nat) (n : Needs) (eff : Dev → Dev) : Dev :=
  if (d.core k).busy k n then d.begin_ k n
  else if n.devReads.any (fun r => d.companionOwns r.1 r.2) then
    (d.begin_ k n).each n.devReads fun r e => e.snoop r.1 r.2
  else if !(d.poisonOf k n).isEmpty then d.refuse k n.drains (d.poisonOf k n)
  else eff (d.advance k n)

/-- An instruction at issue: it waits for the scalar registers that it reads, faults, or goes on; where it ends the tile
first, what it needs is looked at again after that end. -/
def Dev.issueIns (d : Dev) (k : Nat) (w : BitVec 128) (needs : Dev → Needs) (eff : Dev → Dev) : Dev :=
  let n := needs d
  if (d.core k).flagBusy n then d
  else if n.code w != 0 then d.takeFault k (n.code w)
  else if (d.core k).endsTile n then
    let d := d.tileEnd k
    let n := needs d
    if !d.canIssue k (Ins.of w).op then d
    else if n.code w != 0 then d.takeFault k (n.code w)
    else d.issueGo k n eff
  else d.issueGo k n eff

/-- Core k issues the word at its instruction address, when that is the word named and its opcode that of the row. A word
whose opcode is not defined faults (R116). -/
def Dev.issue (d : Dev) (k op : Nat) (w : BitVec 128) (needs : Dev → Ins → Needs) (eff : Ins → Dev → Dev) : Dev :=
  if !d.canIssue k (Ins.of w).op then d
  else match d.fetch k with
  | .wait => d
  | .bad => d.takeFault k 0x07
  | .word x =>
    if x != w then d
    else if !opcodes.contains (Ins.of w).op then d.takeFault k 0x01
    else if (Ins.of w).op != op then d
    else d.issueIns k w (fun e => needs e (Ins.of w)) (eff (Ins.of w))

/-- Is the word the next instruction of core k, whose opcode has this row, and may it issue? -/
def Dev.issues (d : Dev) (k op : Nat) (w : BitVec 128) : Bool :=
  d.canIssue k op && decide (d.fetch k = .word w) && (Ins.of w).op == op && opcodes.contains op

/-- Does the instruction take effect at once: no fault, no dependence, no implicit tile end, no poison? -/
def Dev.clear (d : Dev) (k : Nat) (w : BitVec 128) (n : Needs) : Bool :=
  !(d.core k).flagBusy n && n.code w == 0 && !(d.core k).endsTile n && !(d.core k).busy k n
    && !n.devReads.any (fun r => d.companionOwns r.1 r.2) && (d.poisonOf k n).isEmpty

end Sys2Proof.Machine
end

