-- ==== Sys2Proof/Machine/Collective.lean ====
section
/-! DEFINITION. Bellows descriptors, ring arithmetic, barriers and the progress of a collective (R323 to R338). -/

namespace Sys2Proof.Machine

/-! ### Group registers -/

def gFree : Nat := 0
def gJoining : Nat := 1
def gReady : Nat := 2
def gError : Nat := 3

def gsts (g : Nat) : Nat := rFAB_GSTS.at g
def Dev.groupState (d : Dev) (g : Nat) : Nat := d.fld pFAB (gsts g) 63 60
def Dev.group (d : Dev) (g : Nat) : Group := Tab.get (fun _ => {}) d.fab.groups g
def Dev.setGroup (d : Dev) (g : Nat) (x : Group) : Dev :=
  { d with fab := { d.fab with groups := Tab.set (fun _ => {}) d.fab.groups g x } }

/-- Is any collective group of the device not free (R315)? -/
def Dev.anyGroup (d : Dev) : Bool :=
  (Tab.slice d.regs (regKey pFAB rFAB_GSTS.off) (regKey pFAB (rFAB_GSTS.off + 8192))).any fun x => bits x.2.toNat 63 60 != 0

def causeMismatch : Nat := 1
def causeLost : Nat := 2
def causeJoin : Nat := 3

/-- The group enters state error (R325, R327, R321). -/
def Dev.groupError (d : Dev) (g cause : Nat) : Dev := (d.setFld pFAB (gsts g) 63 60 gError).setFld pFAB (gsts g) 59 56 cause

/-- Rounds of a dissemination barrier over n members (R336). -/
def barrierRounds (n : Nat) : Nat := if n ≤ 1 then 0 else Nat.log2 (n - 1) + 1

/-- Device ID of a member. -/
def Group.dev (g : Group) (i : Nat) : Nat := ((g.members[i]?).getD (0, 0, 0)).1
/-- Partition of a member on its device. -/
def Group.partOf (g : Group) (i : Nat) : Nat := ((g.members[i]?).getD (0, 0, 0)).2.2
def Group.size (g : Group) : Nat := g.members.length

/-- A message to member i of a group. -/
def Dev.toMember (d : Dev) (g i vc : Nat) (m : Message) : Dev :=
  d.send ((d.group g).dev i) vc { m with group := g, part := (d.group g).partOf i }

/-- Collectives of a group in progress on this member. -/
def Dev.setActive (d : Dev) (g : Nat) (l : List Collective) : Dev := d.setGroup g { d.group g with active := l }

/-- One collective of a group replaced by sequence number and put flag. -/
def Dev.setColl (d : Dev) (g : Nat) (c : Collective) : Dev :=
  d.setActive g ((d.group g).active.map fun x => if x.cseq == c.cseq && (x.desc.op == 6) == (c.desc.op == 6) then c else x)

/-! ### Descriptors (R330, R331) -/

def opBarrier : Nat := 1
def opBroadcast : Nat := 2
def opReduceScatter : Nat := 3
def opAllGather : Nat := 4
def opAllReduce : Nat := 5
def opPut : Nat := 6
def opSnapshot : Nat := 7

/-- A descriptor read from its 64 bytes; `none` when a reserved field is not 0 or a field is malformed (status 0x01). -/
def BDesc.ofBytes (bs : List Byte) : Option BDesc :=
  let w := fun i => leNat ((bs.drop (8 * i)).take 8)
  let h := w 0
  let e := leNat ((bs.drop 40).take 2)
  let x : BDesc :=
    { op := bits h 3 0, fmt := bits h 7 4, rop := bits h 9 8, turn := h.testBit 10, tbl := h.testBit 11,
      phase := bits h 15 12, group := bits h 25 16, eng := bits h 27 26, root := bits h 41 28, src := w 1, dst := w 2,
      len := w 3, sts := w 4, ember := e }
  let reduces := x.op == opReduceScatter || x.op == opAllReduce
  let moves := x.op != opBarrier && x.op != opSnapshot
  let blocks := reduces || x.op == opAllGather
  let ok := bs.length == 64 && bits h 63 42 == 0 && 1 ≤ x.op && x.op ≤ 7
    && (if reduces then x.fmt == 0 || x.fmt == 1 || x.fmt == 2 || x.fmt == 9 else x.fmt == 0)
    && (!reduces || x.rop != 3) && x.src < 2 ^ 48 && x.dst < 2 ^ 48 && x.len < 2 ^ 48 && x.sts < 2 ^ 48
    && x.src % 64 == 0 && x.dst % 64 == 0 && x.sts % 8 == 0 && bits e 14 14 == 0
    && (bs.drop 42).all (· == 0) && (!x.tbl || blocks)
    && (!moves || x.tbl || (x.len % 64 == 0 && 64 ≤ x.len && x.len < 2 ^ 40))
  if ok then some x else none

/-- Offset and length of the n blocks, from the block table or from len; `none` for a malformed table. -/
def BDesc.blocks (x : BDesc) (n : Nat) (table : List Byte) : Option (List (Nat × Nat)) :=
  if x.op == opBarrier || x.op == opSnapshot then some []
  else if x.op == opBroadcast || x.op == opPut then some [(0, x.len)]
  else if !x.tbl then some ((List.range n).map fun b => (b * x.len, x.len))
  else
    let l := (List.range n).map fun b =>
      (leNat ((table.drop (16 * b)).take 8), leNat ((table.drop (16 * b + 8)).take 8))
    if l.all fun y => y.1 < 2 ^ 48 && y.2 < 2 ^ 40 && y.2 % 64 == 0 then some l else none

/-- Bytes from the start of the blocks to the end of the last of them. -/
def blocksEnd (l : List (Nat × Nat)) : Nat := (l.map fun y => if y.2 = 0 then 0 else y.1 + y.2).foldl max 0

/-- The digest of a descriptor (R327), over its fields in one byte each, root in two, and len in eight (log entry 11). -/
def BDesc.digest (x : BDesc) (table : List Byte) : Nat :=
  crc16.of (natLe 1 x.op ++ natLe 1 x.fmt ++ natLe 1 x.rop ++ natLe 2 x.root
    ++ natLe 8 (if x.tbl then crc32c.of table else x.len))

/-! ### Ring arithmetic (R335) -/

/-- Two elements of a floating-point format added, or their maximum or minimum taken. -/
def ringFloat (f : FLayout) (rop a c : Nat) : Nat × NFlags :=
  let x := f.value a
  let y := f.value c
  let nan : NFlags := { nan := x.isNan || y.isNan }
  if x.isNan || y.isNan then (f.canonNan, nan)
  else if rop != 0 then
    let less := x.lt y || (x.isZero && y.isZero && x.isNeg && !y.isNeg)
    (if less == (rop == 1) then c else a, {})
  else if x.isInf && y.isInf && x.isNeg != y.isNeg then (f.canonNan, { inv := true })
  else if x.isInf then (a, {})
  else if y.isInf then (c, {})
  else
    let s := x.add y
    if s.isZero then (f.encode (FVal.zero (x.isZero && y.isZero && x.isNeg && y.isNeg)), {})
    else let (r, sat) := f.roundTo .rne s
         (f.encode r, .ofOvf sat)

/-- Two 32-bit integers added with saturation, or their maximum or minimum taken. -/
def ringInt (rop a c : Nat) : Nat × NFlags :=
  let x := signed 32 a
  let y := signed 32 c
  if rop == 1 then (if x < y then c else a, {})
  else if rop == 2 then (if y < x then c else a, {})
  else
    let s := x + y
    let t := clampInt (-2147483648) 2147483647 s
    (unsigned 32 t, { isat := t != s })

/-- ring_add on one element of a format code. -/
def ringAdd (fmt rop a c : Nat) : Nat × NFlags :=
  match fmt with
  | 0 => ringFloat layFp32 rop a c
  | 1 => ringFloat layBf16 rop a c
  | 2 => ringFloat layFp16 rop a c
  | _ => ringInt rop a c

/-- Bytes of one element. -/
def ringWidth (fmt : Nat) : Nat := if fmt == 1 || fmt == 2 then 2 else 4

/-- ring_add over the elements of two pieces of equal length. -/
def ringBytes (fmt rop : Nat) : Nat → List Byte → List Byte → List Byte × NFlags
  | 0, _, _ => ([], {})
  | n + 1, a, c =>
    let w := ringWidth fmt
    let (e, f) := ringAdd fmt rop (leNat (a.take w)) (leNat (c.take w))
    let (r, f') := ringBytes fmt rop n (a.drop w) (c.drop w)
    (natLe w e ++ r, f.or f')

/-! ### Segments on their way (R326, R336) -/

def segBytes : Nat := 65536

/-- A member of a group with a device ID. -/
def Group.memberOf (x : Group) (dev : Nat) : Option Nat := (List.range x.size).find? fun i => x.dev i == dev

/-- Credits for buffers go to the member that is a device (R326). -/
def Dev.giveCredit (d : Dev) (g dev n : Nat) : Dev :=
  match (d.group g).memberOf dev with
  | some i => d.toMember g i 0 { type := tyCredit, arg := n }
  | none => d

/-- The packets of a segment leave, all on one port; each says its place within the segment (R322, R336). -/
def Dev.launch (d : Dev) (g : Nat) (x : SegOut) : Dev :=
  let y := d.group g
  d.sendWhole (y.dev x.member) 1
    { type := tySegment, group := g, part := y.partOf x.member, digest := x.digest, cseq := x.cseq,
      place := x.block + x.seg * 2 ^ 14, arg := b2n x.gather, payload := x.data }
    fun i m => { m with place := m.place + i * 2 ^ 38 }

/-- A segment is sent to a member against one of its credits, or waits for one (R326). -/
def Dev.sendSeg (d : Dev) (g : Nat) (x : SegOut) : Dev :=
  let y := d.group g
  let n := Tab.get (fun _ => 0) y.credits x.member
  if n = 0 || y.waiting.any (·.member == x.member) then d.setGroup g { y with waiting := y.waiting ++ [x] }
  else (d.setGroup g { y with credits := Tab.set (fun _ => 0) y.credits x.member (n - 1) }).launch g x

/-- Credits of a member arrive: segments that wait for it leave, in order. -/
def Dev.takeCredit (d : Dev) (g dev n : Nat) : Dev :=
  let x := d.group g
  match x.memberOf dev with
  | none => d
  | some i =>
    let credits := Tab.set (fun _ => 0) x.credits i (Tab.get (fun _ => 0) x.credits i + n)
    (d.setGroup g { x with credits := credits, waiting := [] }).each x.waiting fun w e => e.sendSeg g w

/-- Reduction slots in use on a die: those whose sums have not left (R337). -/
def Group.slotsOn (x : Group) (die : Nat) : Nat := (x.waiting.filter fun w => w.die == some die).length
def Dev.slotsOn (d : Dev) (die : Nat) : Nat := (d.fab.groups.map fun x => x.2.slotsOn die).sum
def slotCount : Nat := 128

/-- The lowest buffer of a group that holds no segment. -/
def Group.freeBuffer (x : Group) : Option Nat := (List.range x.nbuf).find? fun b => !x.held.any (·.buf == b)

/-- Address of a buffer of a group (R326). -/
def Group.bufAt (x : Group) (b : Nat) : Nat := x.bufBase + b * segBytes

/-! ### Ends of a collective (R332, R333) -/

/-- Are the bytes that a collective wrote here visible (R333)? -/
def Dev.collVisible (d : Dev) (part : Nat) : Bool := d.engineVisible && (d.part part).heldAdds.isEmpty

/-- The end of a collective or put: the status word, then the ember, and the phase accounting (log entry 11). -/
def Dev.collEnd (d : Dev) (c : Collective) (status : Nat) : Dev :=
  let w := status + c.flags.toNat * 2 ^ 8 + b2n c.endpoint * 2 ^ 12 + c.cseq % 2 ^ 32 * 2 ^ 32
  let d := if c.desc.sts = 0 then d else d.put c.desc.sts (natLe 8 w) false
  let d := if c.desc.ember.testBit 15 then d.signal1 c.part (bits c.desc.ember 13 0) else d
  (d.phEnd c.part c.desc.phase).setFld pFAB (rFAB_BLW_STS.at c.desc.eng) 15 8
    (d.fld pFAB (rFAB_BLW_STS.at c.desc.eng) 15 8 - 1)

/-- Collectives of a group in progress that a test picks, ended with a status; what they hold or have to send goes, and the
credits of the segments they held return (R326). -/
def Dev.endAll (d : Dev) (g status : Nat) (pick : Collective → Bool) : Dev :=
  let x := d.group g
  let l := x.active.filter pick
  let seqs := (l.filter fun c => c.desc.op != opPut).map (·.cseq)
  let x' := { x with active := x.active.filter fun c => !pick c
                     held := x.held.filter fun h => !seqs.contains h.seg.cseq
                     waiting := x.waiting.filter fun w => !seqs.contains w.cseq
                     aborts := x.aborts ++ seqs.map fun n => (n, status) }
  let d := (d.setGroup g x').each (x.held.filter fun h => seqs.contains h.seg.cseq) fun h e => e.giveCredit g h.seg.src 1
  d.each l fun c e => e.collEnd c status

/-- An abort of a collective goes to every other member (R327, R334). -/
def Dev.abortAll (d : Dev) (g cseq status : Nat) : Dev :=
  let x := d.group g
  d.each ((List.range x.size).filter (· != x.own)) fun i e =>
    e.toMember g i 0 { type := tyAbort, cseq := cseq, arg := status }

/-- A sequence mismatch (R327), by an arrival with a number. -/
def Dev.mismatch (d : Dev) (g cseq : Nat) : Dev :=
  (((d.endAll g 0x08 fun c => c.desc.op != opPut).groupError g causeMismatch).count pFAB rFAB_STAT.off 7 0 1).abortAll g cseq
    0x08

/-! ### Barriers (R336) -/

/-- Consecutive rounds heard from a first one on, of at most n. -/
def heardFrom (rounds : NSet) (key : Nat) : Nat → Nat
  | 0 => 0
  | n + 1 => if rounds.contains key then heardFrom rounds (key + 1) n + 1 else 0

/-- Bits of arg in a barrier arrival above the round: the second barrier of a snapshot, and a join (log entry 11). -/
def argSecond : Nat := 32
def argJoin : Nat := 64

/-- The arrival of round k goes to member own + 2^k. -/
def Dev.sendRound (d : Dev) (g cseq digest phase k : Nat) (payload : List Byte) : Dev :=
  let x := d.group g
  if x.size = 0 then d
  else d.toMember g ((x.own + 2 ^ k) % x.size) 0
    { type := tyBarrier, digest := digest, cseq := cseq, arg := phase + k, payload := payload }

/-- First sends of a barrier: round 0, and each later round whose predecessors have been heard already. -/
def Dev.startRounds (d : Dev) (g cseq digest phase : Nat) : Dev :=
  let x := d.group g
  let n := barrierRounds x.size
  let h := heardFrom x.rounds (cseq * 64 + phase) n
  d.each ((List.range n).filter (· ≤ h)) fun k e => e.sendRound g cseq digest phase k []

/-- Round r of a barrier is heard; the rounds this allows are sent. -/
def Dev.hearRound (d : Dev) (g cseq digest phase r : Nat) : Dev :=
  let x := d.group g
  let n := barrierRounds x.size
  let h := heardFrom x.rounds (cseq * 64 + phase) n
  let x' := { x with rounds := x.rounds.add (cseq * 64 + phase + r) }
  let h' := heardFrom x'.rounds (cseq * 64 + phase) n
  (d.setGroup g x').each ((List.range n).filter fun k => h < k && k ≤ h') fun k e => e.sendRound g cseq digest phase k []

/-- Has every round of a barrier been heard? -/
def Group.roundsDone (x : Group) (cseq phase : Nat) : Bool :=
  heardFrom x.rounds (cseq * 64 + phase) (barrierRounds x.size) == barrierRounds x.size

/-! ### Joins (R325) -/

/-- CRC-32C of the member list. -/
def Group.listCrc (x : Group) : Nat := crc32c.of (x.members.flatMap fun m => natLe 4 (m.1 + m.2.1 * 2 ^ 14 + m.2.2 * 2 ^ 24))

/-- Rounds of the join barrier heard without a gap. -/
def Group.joinHeard (x : Group) : Nat :=
  ((List.range (barrierRounds x.size)).takeWhile fun k => x.joins.any (·.1 == k)).length

/-- The highest version of this device, or the lowest that it has heard of before a round (R313, R325). -/
def Group.lowestVersion (x : Group) (k : Nat) : Nat := ((x.joins.filter fun j => j.1 < k).map fun j => j.2.2).foldl min 2

/-- Is every CRC heard in the join barrier that of this member's list (R325)? -/
def Group.crcsEqual (x : Group) : Bool := x.joins.all fun j => j.2.1 == x.listCrc

/-- Has a member of the group version 1 as its highest (R313, R325)? -/
def Group.anyV1 (x : Group) : Bool := x.lowestVersion 32 == 1

/-- The arrival of round k of the join barrier: this member's CRC and the lowest version it knows of (log entry 11). -/
def Dev.sendJoin (d : Dev) (g k : Nat) : Dev :=
  let x := d.group g
  d.sendRound g 0 0 argJoin k (natLe 4 x.listCrc ++ natLe 1 (x.lowestVersion k))

/-- The join barrier begins; rounds heard before the create count. -/
def Dev.startJoin (d : Dev) (g : Nat) : Dev :=
  let x := d.group g
  d.each ((List.range (barrierRounds x.size)).filter (· ≤ x.joinHeard)) fun k e => e.sendJoin g k

/-- An arrival of a join barrier is heard: it is kept until the group has been created here, and allows further rounds. -/
def Dev.hearJoin (d : Dev) (g r : Nat) (payload : List Byte) : Dev :=
  let x := d.group g
  let x' := { x with joins := x.joins.filter (·.1 != r) ++ [(r, leNat (payload.take 4), leNat ((payload.drop 4).take 1))] }
  let d := d.setGroup g x'
  if !x.joining then d
  else d.each ((List.range (barrierRounds x.size)).filter fun k => x.joinHeard < k && k ≤ x'.joinHeard) fun k e => e.sendJoin g k

/-- A member that is ready grants each member that may send to it, member own - 2^k, an equal share of its buffers (R326; log
entry 33). -/
def Dev.grantCredits (d : Dev) (g : Nat) : Dev :=
  let x := d.group g
  let n := barrierRounds x.size
  d.each (List.range n) fun k e => e.giveCredit g (x.dev ((x.own + x.size - 2 ^ k) % x.size)) (x.nbuf / n)

/-! ### Segments (R336, R337) -/

/-- Segments of a block of a given length. -/
def segsOf (len : Nat) : Nat := (len + segBytes - 1) / segBytes

/-- Key of a finished segment: block, segment and direction. -/
def segKey (block seg : Nat) (gather : Bool) : Nat := (block * 2 ^ 24 + seg) * 2 + b2n gather

def Collective.blockAt (c : Collective) (b : Nat) : Nat × Nat := (c.blocks[b]?).getD (0, 0)

/-- Address and length of a segment within a base. -/
def Collective.segAt (c : Collective) (base b s : Nat) : Nat × Nat :=
  let y := c.blockAt b
  (base + y.1 + s * segBytes, min segBytes (y.2 - s * segBytes))

/-- Address at which this member keeps the result of a block: a reduce-scatter keeps its own block at dst. -/
def Collective.dstAt (c : Collective) (b s : Nat) : Nat :=
  if c.desc.op == opReduceScatter then c.desc.dst + s * segBytes else (c.segAt c.desc.dst b s).1

/-- Does the operation add (R335)? -/
def Collective.reduces (c : Collective) : Bool := c.desc.op == opReduceScatter || c.desc.op == opAllReduce

/-- A segment of a collective for a member. -/
def Collective.segOut (c : Collective) (i b s : Nat) (gather : Bool) (data : List Byte) (die : Option Nat) : SegOut :=
  { member := i, cseq := c.cseq, digest := c.digest, block := b, seg := s, gather := gather, data := data, die := die }

/-- Members to which a member of a broadcast passes segments: tree or ring (R336). -/
def Dev.bcastTargets (d : Dev) (g : Nat) (c : Collective) : List Nat :=
  let x := d.group g
  let n := x.size
  let j := (x.own + n - c.desc.root % n) % n
  if (c.blockAt 0).2 ≤ d.fld pFAB rFAB_CTL.off 63 32 * segBytes then
    ((List.range (barrierRounds n)).filter fun k => j < 2 ^ k && j + 2 ^ k < n).map fun k => (c.desc.root + j + 2 ^ k) % n
  else if j + 1 < n then [(x.own + 1) % n] else []

/-- The collective stops at source bytes that it may not read yet (R334). -/
def Dev.stopAt (d : Dev) (g : Nat) (c : Collective) (r : Nat × Nat) : Dev := d.setColl g { c with stopped := some r }

/-- The blocks of its source that a member reads before anything arrives. -/
def Collective.firstBlocks (c : Collective) (own n : Nat) : List Nat :=
  if c.reduces then (if n = 1 then [0] else [(own + n - 1) % n])
  else if c.desc.op == opAllGather then [own]
  else if c.desc.op == opBroadcast then (if own == c.desc.root then [0] else [])
  else if c.desc.op == opPut then [0]
  else []

/-- Where a member reads a block of its source: an all-gather has its own block at src. -/
def Collective.srcAt (c : Collective) (b s : Nat) : Nat × Nat :=
  if c.desc.op == opAllGather then (c.desc.src + s * segBytes, (c.segAt 0 b s).2) else c.segAt c.desc.src b s

/-- The source bytes that a collective has to read next: its first blocks, or those at which it stopped. -/
def Collective.reads (c : Collective) (own n : Nat) : List (Nat × Nat) :=
  if c.started then c.stopped.toList
  else ((c.firstBlocks own n).map fun b => ((c.srcAt b 0).1, (c.blockAt b).2)).filter fun r => 0 < r.2

/-- One of its own segments written as a result on this member. -/
def Dev.keepSeg (d : Dev) (g : Nat) (c : Collective) (b s : Nat) (gather : Bool) (data : List Byte) : Dev :=
  (d.put (c.dstAt b s) data false).setColl g { c with done := c.done.add (segKey b s gather) }

/-- The collective of a group with a sequence number, puts apart. -/
def Group.find (x : Group) (cseq : Nat) : Option Collective :=
  x.active.find? fun c => c.cseq == cseq && c.desc.op != opPut

/-- A member's first sends and own results of one segment. -/
def Dev.startSeg (d : Dev) (g cseq b s : Nat) : Dev :=
  let x := d.group g
  let n := x.size
  match x.find cseq with
  | none => d
  | some c =>
    let (a, m) := c.srcAt b s
    let data := d.loadNew a m
    if c.desc.op == opAllGather then
      let d := d.keepSeg g c b s true data
      if n = 1 then d else d.sendSeg g (c.segOut ((x.own + 1) % n) b s true data none)
    else if c.desc.op == opBroadcast then
      (d.keepSeg g c b s true data).each (d.bcastTargets g c) fun i e => e.sendSeg g (c.segOut i b s true data none)
    else if n = 1 then
      let d := d.keepSeg g c b s false data
      if c.desc.op == opAllReduce then
        (match (d.group g).find cseq with
         | some c' => d.setColl g { c' with done := c'.done.add (segKey b s true) }
         | none => d)
      else d
    else d.sendSeg g (c.segOut ((x.own + 1) % n) b s false data none)

/-! ### Puts (R331, R333) -/

/-- A put of this device that its target has acknowledged. -/
def Dev.putAcked (d : Dev) (g cseq : Nat) : Dev :=
  match (d.group g).active.find? fun c => c.desc.op == opPut && c.cseq == cseq with
  | some c => d.setColl g { c with acked := true }
  | none => d

/-- Puts that have come whole and whose bytes are visible are acknowledged, oldest first (R333). -/
def Dev.ackPuts (d : Dev) : Dev :=
  let ready := fun (x : PutIn) => x.last && d.collVisible x.part
  Dev.each { d with fab := { d.fab with puts := d.fab.puts.filter fun x => !ready x } } (d.fab.puts.filter ready) fun x e =>
    if x.src == e.id then e.putAcked x.group x.cseq
    else e.send x.src 4 { type := tyPutAck, part := x.part, group := x.group, cseq := x.cseq }

/-- Bytes of a put are written in the world of the partition that they are for. A put of which the partition may not write
some bytes is not acknowledged (log entry 33). -/
def Dev.putBytes (d : Dev) (x : PutIn) (a : Nat) (bs : List Byte) : Dev :=
  let same := fun (y : PutIn) => y.src == x.src && y.group == x.group && y.cseq == x.cseq
  let may := d.tierOk x.part (d.partWorld x.part) a bs.length
  let ok := may && ((d.fab.puts.find? same).map (·.ok)).getD true
  let d := if may then d.put a bs false else d
  let rest := d.fab.puts.filter fun y => !same y
  Dev.ackPuts { d with fab := { d.fab with puts := if x.last && !ok then rest else rest ++ [{ x with ok := ok }] } }

/-- A put sends its bytes, each packet with its address and the last of them marked (R322, R331); one to this device itself is
written here. -/
def Dev.startPut (d : Dev) (g : Nat) (c : Collective) : Dev :=
  let x := d.group g
  let bs := d.loadNew c.desc.src c.desc.len
  let part := x.partOf c.desc.root
  if x.dev c.desc.root == d.id then
    d.putBytes { src := d.id, group := g, part := part, cseq := c.cseq, last := true } c.desc.dst bs
  else d.sendLong (x.dev c.desc.root) 4
    { type := tyPut, part := part, group := g, cseq := c.cseq, place := c.desc.dst, payload := bs }
    fun i last m => { m with place := m.place + packetBytes * i, arg := b2n last }

/-! ### The start of a collective, and what arrives for it (R327, R334, R337) -/

/-- A collective begins its own part, once its source can be read: poison, and lines on their way, stop it first (R334). -/
def Dev.begin (d : Dev) (g : Nat) (c : Collective) : Dev :=
  let x := d.group g
  let rs := c.reads x.own x.size
  match d.readGate rs with
  | (d, .clear) =>
    let c := { c with started := true, stopped := none }
    let d := (d.engineReads c.part rs).setColl g c
    if c.desc.op == opBarrier || c.desc.op == opSnapshot then d.startRounds g c.cseq c.digest 0
    else if c.desc.op == opPut then d.startPut g c
    else d.each (c.firstBlocks x.own x.size) fun b e =>
      e.each (List.range (segsOf (c.blockAt b).2)) fun s f => f.startSeg g c.cseq b s
  | (d, _) => d.stopAt g c (rs.head?.getD (0, 0))

/-- Is an arriving number that of a collective that has completed here (R327)? -/
def Dev.completed (d : Dev) (g cseq : Nat) : Bool :=
  let back := span32 cseq (d.fld pFAB (gsts g) 31 0)
  1 ≤ back && back ≤ 2 ^ 31 && ((d.group g).find cseq).isNone

/-- Is an arriving number that of a collective that an abort has ended (R334)? -/
def Group.aborted (x : Group) (cseq : Nat) : Bool := x.aborts.any (·.1 == cseq)

/-- The die that claims a reduction slot for a segment (R337): the segment comes from the ring predecessor to be reduced, the
die of its port has a slot free and the group may take one there, and the group may reduce in transit. -/
def Dev.slotFor (d : Dev) (c : Collective) (s : Segment) : Option Nat :=
  let g := s.group.val
  let x := d.group g
  let die := s.port.val / 6
  if c.reduces && !s.gather && s.src == x.dev ((x.own + x.size - 1) % x.size) && d.slotsOn die < slotCount
      && x.slotsOn die < d.fld pFAB rFAB_CTL.off 15 8 && !d.bit pFAB (gsts g) 53 then some die
  else none

/-- A segment of a collective that this member has begun: added and passed on, or written and passed on. Whether it could be:
its own part may have to be waited for (R334). -/
def Dev.takeSeg (d : Dev) (c : Collective) (s : Segment) (die : Option Nat) : Dev × Bool :=
  let g := s.group.val
  let x := d.group g
  let n := x.size
  let next := (x.own + 1) % n
  let (a, m) := c.segAt c.desc.src s.block s.seg
  if s.data.length != m || m = 0 || c.done.contains (segKey s.block s.seg s.gather) then (d, true)
  else if s.gather then
    let e := d.keepSeg g c s.block s.seg true s.data
    if c.desc.op == opBroadcast then
      (e.each (d.bcastTargets g c) fun i e => e.sendSeg g (c.segOut i s.block s.seg true s.data none), true)
    else if next == s.block then (e, true)
    else (e.sendSeg g (c.segOut next s.block s.seg true s.data none), true)
  else if !c.reduces then (d, true)
  else match d.readGate [(a, m)] with
  | (d, .clear) =>
    let (sum, fl) := ringBytes c.desc.fmt c.desc.rop (m / ringWidth c.desc.fmt) s.data (d.loadNew a m)
    let d := d.engineRead c.part a m
    let c := { c with flags := c.flags.or fl, endpoint := c.endpoint || die.isNone, done := c.done.add (segKey s.block s.seg false) }
    let d := if die.isNone then d.count pFAB rFAB_STAT.off 31 8 1 else d.count pFAB rFAB_STAT.off 63 32 1
    if x.own != s.block then ((d.setColl g c).sendSeg g (c.segOut next s.block s.seg false sum die), true)
    else if c.desc.op != opAllReduce then (d.keepSeg g c s.block s.seg false sum, true)
    else ((d.keepSeg g c s.block s.seg true sum).sendSeg g (c.segOut next s.block s.seg true sum none), true)
  | (d, _) => (d.stopAt g c (a, m), false)

/-- A segment waits in a free buffer of its group (R326, R327). -/
def Dev.holdSeg (d : Dev) (s : Segment) : Dev :=
  let g := s.group.val
  match (d.group g).freeBuffer with
  | some b =>
    let d := d.store ((d.group g).bufAt b) s.data
    d.setGroup g { d.group g with held := (d.group g).held ++ [⟨b, s⟩] }
  | none => d

/-- A segment for which no slot is claimed lands in a free buffer of the group first (R338). -/
def Dev.landSeg (d : Dev) (s : Segment) : Dev :=
  match (d.group s.group.val).freeBuffer with
  | some b => d.store ((d.group s.group.val).bufAt b) s.data
  | none => d

/-- A segment arrives at this member (R327, R337, R338). The credit for its buffer returns as it is taken. -/
def Dev.arriveSeg (d : Dev) (s : Segment) : Dev :=
  let g := s.group.val
  let x := d.group g
  if d.groupState g != gReady then d
  else match x.find s.cseq with
  | some c =>
    if c.digest != s.digest then d.mismatch g s.cseq
    else if !c.started || c.stopped.isSome then d.holdSeg s
    else
      let die := d.slotFor c s
      match (if die.isSome then d else d.landSeg s).takeSeg c s die with
      | (d, true) => d.giveCredit g s.src 1
      | (d, false) => d.holdSeg s
  | none =>
    if x.aborted s.cseq then d.giveCredit g s.src 1
    else if d.completed g s.cseq then d.mismatch g s.cseq
    else d.holdSeg s

/-- The segments held for a collective are taken up, oldest first; the buffer of each is free again, and its credit returns. -/
def Dev.takeHeld (d : Dev) (g cseq : Nat) : Dev :=
  d.each ((d.group g).held.filter fun h => h.seg.cseq == cseq) fun h e =>
    match (e.group g).find cseq with
    | none => e
    | some c =>
      if c.digest != h.seg.digest then e.mismatch g cseq
      else if !c.started || c.stopped.isSome then e
      else match e.takeSeg c h.seg none with
      | (e, true) => (e.setGroup g { e.group g with held := (e.group g).held.filter (· != h) }).giveCredit g h.seg.src 1
      | (e, false) => e

/-- A barrier arrival at this member (R325, R327, R336): one for a collective that is still to come is kept. -/
def Dev.arriveRound (d : Dev) (g cseq digest arg : Nat) (payload : List Byte) : Dev :=
  let x := d.group g
  if argJoin ≤ arg then d.hearJoin g (arg % 32) payload
  else if d.groupState g == gJoining then d.setGroup g { x with early := x.early ++ [⟨cseq, digest, arg⟩] }
  else if d.groupState g != gReady then d
  else match x.find cseq with
  | some c =>
    if c.digest != digest then d.mismatch g cseq
    else d.hearRound g cseq digest (arg / 32 * 32) (arg % 32)
  | none =>
    if x.aborted cseq then d
    else if d.completed g cseq then d.mismatch g cseq
    else d.setGroup g { x with early := x.early ++ [⟨cseq, digest, arg⟩] }

/-- Barrier arrivals heard before their collective was accepted are taken up. -/
def Dev.takeEarly (d : Dev) (g cseq : Nat) : Dev :=
  let x := d.group g
  (d.setGroup g { x with early := x.early.filter fun r => r.cseq != cseq }).each (x.early.filter fun r => r.cseq == cseq)
    fun r e => e.arriveRound g cseq r.digest r.round []

/-- Segment keys that a member must have finished before its collective completes. -/
def Collective.needs (c : Collective) (own n : Nat) : List Nat :=
  let segs := fun b gather => (List.range (segsOf (c.blockAt b).2)).map fun s => segKey b s gather
  let others := (List.range n).filter fun b => n = 1 || b != (own + n - 1) % n
  if c.desc.op == opReduceScatter then others.flatMap fun b => segs b false
  else if c.desc.op == opAllReduce then
    (others.flatMap fun b => segs b false) ++ (List.range n).flatMap fun b => segs b true
  else if c.desc.op == opAllGather then (List.range n).flatMap fun b => segs b true
  else if c.desc.op == opBroadcast then segs 0 true
  else []

/-- A snapshot may run its second barrier: its first is done, every earlier descriptor of the group has completed, and
every put of this member has been acknowledged (R336). -/
def Dev.snapReady (d : Dev) (g : Nat) (c : Collective) : Bool :=
  let x := d.group g
  x.roundsDone c.cseq 0 && (x.active.takeWhile fun y => y != c).isEmpty
    && d.fab.groups.all fun y => y.2.active.all fun z => z.desc.op != opPut

/-- Has this member's part of a collective ended well? -/
def Dev.collDone (d : Dev) (g : Nat) (c : Collective) : Bool :=
  let x := d.group g
  c.started && c.stopped.isNone &&
    (if c.desc.op == opBarrier then x.roundsDone c.cseq 0
     else if c.desc.op == opSnapshot then c.second && x.roundsDone c.cseq argSecond
     else if c.desc.op == opPut then c.acked
     else (c.needs x.own x.size).all c.done.contains)

/-- Snapshots of a group whose second barrier may start send its first round. -/
def Dev.snapAdvance (d : Dev) (g : Nat) : Dev :=
  d.each ((d.group g).active.filter fun c => c.desc.op == opSnapshot && c.started && !c.second && d.snapReady g c) fun c e =>
    (e.setColl g { c with second := true }).startRounds g c.cseq c.digest argSecond

/-- Snapshots of every group: the end of a put may let any of them go on (R336). -/
def Dev.snapAll (d : Dev) : Dev := d.each d.fab.groups fun x e => e.snapAdvance x.1

end Sys2Proof.Machine
end

