-- ==== Sys2Proof/Machine/Weights.lean ====
section
/-! DEFINITION. Epoch slots, manifests, fetching over the storage links, the epoch commit and the Flue engines
(chapter 11). -/

namespace Sys2Proof.Machine

def wgtSts : Nat := rWGT_STS.off
def wgtOp (v : Word) : Nat := bits v.toNat 63 60
def wgtSlot (v : Word) : Nat := bits v.toNat 59 58
def wgtLocal (v : Word) : Bool := v.toNat.testBit 57
def wgtGroup (v : Word) : Nat := bits v.toNat 41 32

/-- A command ends with a result (R309); the unit stays busy while a fetch is in progress, or another command that waits. -/
def Dev.wgtEnd (d : Dev) (p r : Nat) : Dev :=
  (d.setFld (pWGT p) wgtSts 7 0 r).setBit (pWGT p) wgtSts 8 ((d.weights p).fetching.isSome || (d.weights p).held.isSome)

/-- A command waits for what it reads: lines that the companion holds modified, or in re-fetch (R180, R346). -/
def Dev.wgtWait (d : Dev) (p : Nat) (v : Word) : Dev :=
  (d.setWeights p { d.weights p with held := some v }).setBit (pWGT p) wgtSts 8 true

/-- A command of WGT_CMD (R309): lost while one is in progress, unless it is one that acts on a load or a vote in
progress; a reserved field set gives 0x01. -/
def Dev.wgtCommand (d : Dev) (a : Access) (p : Nat) (v : Word) (during : Bool) (work : Dev → Dev) : Dev :=
  d.regWrite a (pWGT p) rWGT_CMD.off true fun d =>
    if d.bit (pWGT p) wgtSts 8 && !during then d.setBit (pWGT p) wgtSts 9 true
    else if bits v.toNat 56 42 != 0 then d.setFld (pWGT p) wgtSts 7 0 0x01
    else work d

/-! ### Regions (R286, R287) -/

/-- Granules of a region list. -/
def regionGrans (l : List (Nat × Nat)) : List Nat := l.flatMap fun r => (List.range r.2).map (r.1 + ·)

/-- Does a range lie within a region list? -/
def inRegions (l : List (Nat × Nat)) (a n : Nat) : Bool :=
  (granules a n).all fun g => l.any fun r => r.1 ≤ g && g < r.1 + r.2

def Dev.regionsOf (d : Dev) (p i : Nat) : List (Nat × Nat) := Tab.get (fun _ => []) (d.weights p).regions i

/-- open (R286): reserved bits of a region entry are ignored (R6). A list left poisoned is refused (R178; log entry 38). -/
def Dev.openEpochSlot (d : Dev) (p i : Nat) (v : Word) : Dev :=
  let n := d.fld (pWGT p) (rWGT_SLOT_NREG.at i) 44 32
  let base := bits v.toNat 31 0 * 0x10000
  if d.slotState p i != slFree then d.wgtEnd p 0x02
  else if n = 0 || 4096 < n || !d.tierOk p (d.partWorld p) base (8 * n) then d.wgtEnd p 0x06
  else match d.readGate [(base, 8 * n)] with
  | (d, .wait) => d.wgtWait p v
  | (d, .bad) => d.wgtEnd p 0x06
  | (d, .clear) =>
    let es := (List.range n).map fun k => d.loadNat (base + 8 * k) 8
    let rs := es.map fun e => (bits e 15 0, bits e 31 16)
    let others := (List.range 4).filter fun j => j != i && d.slotState p j != slFree
    if !(rs.all fun r => (List.range r.2).all fun k => (d.gran (r.1 + k)).valid && (d.gran (r.1 + k)).part == p)
        || others.any fun j => (d.regionsOf p j).any fun o => rs.any fun r =>
            r.2 != 0 && o.2 != 0 && r.1 < o.1 + o.2 && o.1 < r.1 + r.2 then d.wgtEnd p 0x06
    else
      let w := d.weights p
      let d := d.setWeights p { w with regions := Tab.set (fun _ => []) w.regions i rs, verified := w.verified.del i,
                                       localLoad := if wgtLocal v then w.localLoad.add i else w.localLoad.del i,
                                       groupOf := Tab.set (fun _ => 0) w.groupOf i (if wgtLocal v then 0 else wgtGroup v + 1) }
      ((d.wr (pWGT p) (slotOff i) 0).setSlotState p i slLoading).wgtEnd p 0

def execOpenSlot (a : Access) (p : Fin 64) (v : Word) (s : State) : Host.Outcome State Fault Refusal :=
  s.run fun d => if wgtOp v != 1 then d else d.wgtCommand a p v false fun d => d.openEpochSlot p (wgtSlot v) v

/-! ### The manifest (R292 to R295) -/

structure Manifest where
  nsrc : Nat
  nchunk : Nat
  member : Nat
  members : Nat
  part : Nat
  total : Nat
  ekey : Nat
  lkey : Nat
  form : Bool
deriving DecidableEq, Repr

def Dev.manifest (d : Dev) (a : Nat) : Manifest :=
  let n := fun off k => d.loadNat (a + off) k
  { nsrc := n 8 4, nchunk := n 12 4, member := n 24 2, members := n 26 2, part := bits (n 28 1) 5 0, total := n 32 8, ekey := n 40 2,
    lkey := n 42 2,
    form := d.load a 4 == [0x5A, 0x53, 0x4D, 0x46] && n 4 2 == 1 && n 6 2 == 0 && 1 ≤ n 8 4 && n 8 4 ≤ 256 && 1 ≤ n 12 4
      && n 12 4 ≤ 1048575 && n 24 2 < 16384 && 1 ≤ n 26 2 && n 26 2 ≤ 16384 && bits (n 28 1) 7 6 == 0 && n 29 3 == 0
      && leNat (d.load (a + 44) 212) == 0 }

/-- Bytes of a manifest up to its signature block, and in all. -/
def Manifest.signed (m : Manifest) : Nat := 256 + 32 * m.nsrc + 96 * m.nchunk
def Manifest.size (m : Manifest) : Nat := m.signed + 2816

def sourceAt (a i : Nat) : Nat := a + 256 + 32 * i
def Manifest.chunkAt (m : Manifest) (a c : Nat) : Nat := a + 256 + 32 * m.nsrc + 96 * c

def Dev.connAt (d : Dev) (p i : Nat) : Nat := d.fld (pWGT p) rWGT_CONN.off 31 0 * 0x10000 + 64 * i
def Dev.nconn (d : Dev) (p : Nat) : Nat := d.fld (pWGT p) rWGT_CONN.off 41 32
def Dev.connPort (d : Dev) (p i : Nat) : Nat := d.loadNat (d.connAt p i) 1 % 2
def Dev.connType (d : Dev) (p i : Nat) : Nat := bits (d.loadNat (d.connAt p i) 1) 2 1

/-- Is source record i well formed (R292)? -/
def Dev.sourceOk (d : Dev) (p a i : Nat) : Bool :=
  let n := fun off k => d.loadNat (sourceAt a i + off) k
  let ty := n 2 1
  n 0 2 < d.nconn p && (ty == 1 || ty == 2) && ty == d.connType p (n 0 2) && n 3 1 == 0
    && (if ty == 1 then n 16 4 == 0 else n 16 4 == 512 || n 16 4 == 4096) && n 20 8 == 0 && n 28 4 == 0

structure Chunk where
  dest : Nat
  tiles : Nat
  off : Nat
  src : List Nat
  digest : List Byte
  reserved0 : Bool
deriving DecidableEq, Repr

def Dev.chunk (d : Dev) (m : Manifest) (a c : Nat) : Chunk :=
  let b := m.chunkAt a c
  let w := d.loadNat b 8
  { dest := bits w 47 0, tiles := bits w 54 48, off := d.loadNat (b + 8) 8, src := (List.range 4).map fun i => d.loadNat (b + 16 + 2 * i) 2,
    digest := d.load (b + 32) 48,
    reserved0 := bits w 63 55 == 0 && d.loadNat (b + 24) 8 == 0 && leNat (d.load (b + 80) 16) == 0 }

def Chunk.len (c : Chunk) : Nat := c.tiles * tileBytes

/-- Source indices of a chunk in the order of attempts (R297). -/
def Chunk.sources (c : Chunk) : List Nat := c.src.filter (· != 0xFFFF)

/-- Is a chunk well formed, after one that ends at `from` (R292, R293)? -/
def Dev.chunkOk (d : Dev) (m : Manifest) (a : Nat) (c : Chunk) (from_ : Nat) : Bool :=
  c.reserved0 && c.dest % tileBytes == 0 && 1 ≤ c.tiles && c.tiles ≤ 64 && from_ ≤ c.dest
    && c.dest / granBytes == (c.dest + c.len - 1) / granBytes && c.src.head? != some 0xFFFF && c.sources.all fun i => i < m.nsrc
      && (d.loadNat (sourceAt a i + 2) 1 == 1 || c.off % d.loadNat (sourceAt a i + 16) 4 == 0)

/-- The chunk table in order (R293). -/
def Dev.chunksOk (d : Dev) (m : Manifest) (a : Nat) : Nat → Nat → Nat → Bool
  | _, _, 0 => true
  | c, from_, k + 1 =>
    let x := d.chunk m a c
    d.chunkOk m a x from_ && Dev.chunksOk d m a (c + 1) (x.dest + x.len) k

/-- The key bytes of a Fender slot. -/
def Dev.keyBytes (d : Dev) (slot n : Nat) : List Byte :=
  ((List.range 12).flatMap fun w => natLe 8 (d.rd pFEN ((rFEN_KEY_WORD w).at slot))).take n

/-- Is a key slot of a kind valid (R404)? -/
def Dev.keyValid (d : Dev) (slot lo hi : Nat) : Bool := lo ≤ slot && slot < hi && d.bit pFEN (rFEN_KEY.at slot) 62

/-- Do both signatures of a manifest verify (R294, R404)? -/
def Dev.signaturesOk (d : Dev) (m : Manifest) (a : Nat) : Bool :=
  let msg := d.load a m.signed
  let sig := a + m.signed
  d.keyValid m.ekey 0 16 && d.keyValid m.lkey 16 32
    && Config.ecdsaVerify (d.keyBytes m.ekey 96) (d.load sig 96) (Config.sha384 msg)
    && Config.lmsVerify (d.keyBytes m.lkey 56) (d.load (sig + 96) 2668) msg

/-- Form of a manifest (R292, R293). -/
def Dev.manifestForm (d : Dev) (p a : Nat) : Bool :=
  let m := d.manifest a
  a % 64 == 0 && d.tierOk p (d.partWorld p) a 256 && m.form && d.tierOk p (d.partWorld p) a m.size && !d.poisoned a m.size
    && (List.range m.nsrc).all (d.sourceOk p a) && d.chunksOk m a 0 0 m.nchunk
    && m.total == ((List.range m.nchunk).map fun c => (d.chunk m a c).len).sum && leNat (d.load (a + m.signed + 2764) 52) == 0

/-- Where a manifest stands, when the partition may read it: its header, and once that tells the size, all of it. -/
def Dev.manifestRange (d : Dev) (p a : Nat) : List (Nat × Nat) :=
  let w := d.partWorld p
  if a % 64 != 0 || !d.tierOk p w a 256 then []
  else if d.poisoned a 256 || d.companionOwns a 256 || !d.tierOk p w a (d.manifest a).size then [(a, 256)]
  else [(a, (d.manifest a).size)]

/-- Position and size of the load's group for this device: those of the named group, or of a load outside any group. -/
def Dev.loadGroup (d : Dev) (p i g : Nat) : Nat × Nat :=
  if (d.weights p).localLoad.contains i then (0, 1) else ((d.group g).own, (d.group g).size)

/-- The checks of verify, in their order (R295). -/
def Dev.verifyChecks (d : Dev) (p i g : Nat) : Dev :=
  let a := d.fld (pWGT p) rWGT_MAN.off 47 0
  let m := d.manifest a
  if d.slotState p i != slLoading then d.wgtEnd p 0x02
  else if !(d.weights p).localLoad.contains i && d.groupState g != gReady then d.wgtEnd p 0x0B
  else if !d.manifestForm p a then d.wgtEnd p 0x03
  else if !d.signaturesOk m a then d.wgtEnd p 0x04
  else if m.part != p || (m.member, m.members) != d.loadGroup p i g then d.wgtEnd p 0x05
  else if !((List.range m.nchunk).all fun c => inRegions (d.regionsOf p i) (d.chunk m a c).dest (d.chunk m a c).len) then d.wgtEnd p 0x06
  else
    let w := d.weights p
    ((d.setWeights p { w with verified := w.verified.add i }).wr (pWGT p) (rWGT_SLOT_MAN.at i) a).wgtEnd p 0

/-- verify (R295): it waits for its manifest. -/
def Dev.verifySlot (d : Dev) (p : Nat) (v : Word) : Dev :=
  if d.slotState p (wgtSlot v) != slLoading then d.verifyChecks p (wgtSlot v) (wgtGroup v)
  else match d.readGate (d.manifestRange p (d.fld (pWGT p) rWGT_MAN.off 47 0)) with
  | (d, .wait) => d.wgtWait p v
  | (d, _) => d.verifyChecks p (wgtSlot v) (wgtGroup v)

def execVerify (a : Access) (p : Fin 64) (v : Word) (s : State) : Host.Outcome State Fault Refusal :=
  s.run fun d => if wgtOp v != 2 then d else d.wgtCommand a p v false fun d => d.verifySlot p v

/-- A command that waits is taken up again (log entry 3). -/
def Dev.retryLoad (d : Dev) (p : Nat) : Dev :=
  match (d.weights p).held with
  | none => d
  | some v =>
    let d := d.setWeights p { d.weights p with held := none }
    if wgtOp v = 1 then d.openEpochSlot p (wgtSlot v) v else d.verifySlot p v

def Dev.tickLoads (d : Dev) : Dev := d.each (List.range 64) fun p e => e.retryLoad p

/-! ### Fetching (R296 to R298) -/

def ethUp : Nat := 2
def Dev.ethState (d : Dev) (n : Nat) : Nat := d.fld (pETH n) rETH_PORT.off 51 48

/-- Is a connection record of a supported form (R290, R291)? -/
def Dev.connForm (d : Dev) (p i : Nat) : Bool :=
  let n := fun off k => d.loadNat (d.connAt p i + off) k
  let mtu := bits (n 1 1) 2 0
  (d.connType p i == 1 || d.connType p i == 2) && bits (n 0 1) 7 3 == 0 && bits (n 1 1) 7 6 == 0 && 2 ≤ mtu && mtu ≤ 4
    && (if d.connType p i == 1 then n 2 2 == 0 else 2 ≤ n 46 1 && n 46 1 ≤ 128) && leNat (d.load (d.connAt p i + 48) 16) == 0

/-- Records on the port of a connection that come before it, by partition and index. -/
def Dev.connBefore (d : Dev) (p i : Nat) : List (Nat × Nat) :=
  ((List.range (p + 1)).flatMap fun r => (List.range (if r < p then d.nconn r else i)).map fun k => (r, k)).filter
    fun x => d.connPort x.1 x.2 == d.connPort p i

/-- Does the port have a queue pair for the connection, and an I/O queue for one of NVMe (R290; log entry 36)? -/
def Dev.connServed (d : Dev) (p i : Nat) : Bool :=
  let l := d.connBefore p i
  l.length < 256 && (d.connType p i != 2 || (l.filter fun x => d.connType x.1 x.2 == 2).length < 64)

/-- Can an attempt go through a connection (R290, R291)? -/
def Dev.connUsable (d : Dev) (p i : Nat) : Bool :=
  i < d.nconn p && d.ethState (d.connPort p i) == ethUp && d.connForm p i && d.connServed p i
    && !d.eth.lost.contains (d.connAt p i)

/-- Where a chunk lies at a source of the manifest at a: its remote address, or its LBA (R293). -/
def Dev.remoteOf (d : Dev) (a src : Nat) (c : Chunk) : Nat :=
  let n := fun off k => d.loadNat (sourceAt a src + off) k
  if n 2 1 = 1 then (n 8 8 + c.off) % 2 ^ 64 else n 8 8 + c.off / n 16 4

/-- Manifest address of the slot being fetched. -/
def Dev.fetchMan (d : Dev) (p : Nat) : Nat := d.rd (pWGT p) (rWGT_SLOT_MAN.at ((d.weights p).fetching.getD 0))

def Dev.maxAttempts (d : Dev) (p : Nat) : Nat := d.fld (pWGT p) rWGT_CTL.off 63 60 + 1

/-- Source, connection and port of attempt number k of chunk c of the manifest at a, when its connection can be used. -/
def Dev.attempt (d : Dev) (p a c k : Nat) : Option (Nat × Nat × Nat) :=
  let ss := (d.chunk (d.manifest a) a c).sources
  let src := (ss[k % ss.length]?).getD 0
  let conn := d.loadNat (sourceAt a src) 2
  if d.connUsable p conn then some (src, conn, d.connPort p conn) else none

/-- The first of the attempts that are left, from number k on, whose connection can be used; those before it fail at once
(R291, R297). -/
def Dev.nextAttempt (d : Dev) (p a c k : Nat) : Option (Nat × Nat × Nat × Nat) :=
  ((List.range (d.maxAttempts p - k)).map (k + ·)).findSome? fun j => (d.attempt p a c j).map fun x => (j, x)

/-- The read that an attempt starts. -/
def Dev.emitRead (d : Dev) (p a c src conn : Nat) : Dev :=
  let x := d.chunk (d.manifest a) a c
  d.emit (.readChunk p conn (d.remoteOf a src x) x.len)

/-- Attempts of a partition in flight on a port. -/
def Weights.onPort (w : Weights) (port : Nat) : Nat := (w.chunks.filter fun c => c.inFlight && c.port == port).length

/-- The next attempt of a chunk from number k on (R296, R297): it starts, waits for room on its port, or fails, so that
after the last attempt the load fails. -/
def Dev.tryChunk (d : Dev) (p c k : Nat) : Dev :=
  let w := d.weights p
  let rest := w.chunks.filter fun x => x.chunk != c
  match d.nextAttempt p (d.fetchMan p) c k with
  | none => d.setWeights p { w with chunks := rest, failedChunk := some (w.failedChunk.getD c) }
  | some (j, src, conn, port) =>
    let go := w.onPort port < 64
    let t : ChunkTry := { chunk := c, attempts := j, source := src, port := port, start := d.now, inFlight := go }
    let d := d.setWeights p { w with chunks := rest ++ [t] }
    if go then d.emitRead p (d.fetchMan p) c src conn else d

/-- No further attempts start once a chunk has failed its last one, was refused, or after an abort (R287, R298). -/
def Weights.failing (w : Weights) : Bool := w.failedChunk.isSome || w.refused || w.aborted

/-- Chunks in ascending index while there is room: those that wait first, then those not yet tried. -/
def Dev.pump (d : Dev) (p : Nat) : Nat → Dev
  | 0 => d
  | n + 1 =>
    let w := d.weights p
    let a := d.fetchMan p
    if w.failing then d
    else match w.chunks.find? fun c => !c.inFlight with
    | some c => if w.onPort c.port < 64 then Dev.pump (d.tryChunk p c.chunk c.attempts) p n else d
    | none =>
      if w.nextChunk < (d.manifest a).nchunk && (w.onPort 0 < 64 || w.onPort 1 < 64) then
        Dev.pump (Dev.tryChunk (d.setWeights p { w with nextChunk := w.nextChunk + 1 }) p w.nextChunk 0) p n
      else d

/-- Every chunk has arrived: the fetch is done. -/
def Dev.fetchSettle (d : Dev) (p : Nat) : Dev :=
  let d := d.pump p 300
  let w := d.weights p
  if w.fetching.isSome && !w.failing && w.chunks.isEmpty && (d.manifest (d.fetchMan p)).nchunk ≤ w.nextChunk then
    ((d.setWeights p { w with fetching := none }).wgtEnd p 0).phEnd p phFetch
  else d

/-- fetch (R296). -/
def Dev.startFetch (d : Dev) (p i : Nat) : Dev :=
  let w := d.weights p
  if d.slotState p i != slLoading || !w.verified.contains i then d.wgtEnd p 0x02
  else
    let d := d.setWeights p { w with fetching := some i, chunks := [], nextChunk := 0, failedChunk := none, refused := false,
                                     aborted := false }
    let d := ((d.setBit (pWGT p) (slotOff i) 60 false).setFld (pWGT p) wgtSts 63 24 0).setBit (pWGT p) wgtSts 8 true
    (d.phStart p phFetch).fetchSettle p

def execFetch (a : Access) (p : Fin 64) (v : Word) (s : State) : Host.Outcome State Fault Refusal :=
  s.run fun d => if wgtOp v != 3 then d else d.wgtCommand a p v false fun d => d.startFetch p (wgtSlot v)

/-- abort (R298): no further attempts start; LOAD_FAILED ends the fetch once those in flight have ended. -/
def execAbort (a : Access) (p : Fin 64) (v : Word) (s : State) : Host.Outcome State Fault Refusal :=
  s.run fun d => if wgtOp v != 4 then d else d.wgtCommand a p v true fun d =>
    let w := d.weights p
    if w.fetching == some (wgtSlot v) then
      d.setWeights p { w with aborted := true, chunks := w.chunks.filter ChunkTry.inFlight }
    else if d.bit (pWGT p) wgtSts 8 then d.setBit (pWGT p) wgtSts 9 true
    else d.wgtEnd p 0x02

/-- An attempt fails (R297): another follows, unless the load is failing or it was the last. -/
def Dev.failAttempt (d : Dev) (p : Nat) (c : ChunkTry) : Dev :=
  let w := d.weights p
  if w.failing then d.setWeights p { w with chunks := w.chunks.filter fun x => x.chunk != c.chunk }
  else (d.tryChunk p c.chunk (c.attempts + 1)).fetchSettle p

/-! ### Re-fetch from storage (R180, R299) -/

def Dev.refetchTry (d : Dev) (t : Nat) : Option ChunkTry := (d.eth.refetch.find? fun x => x.1 == t).map Prod.snd
def Dev.dropRefetch (d : Dev) (t : Nat) : Dev := { d with eth := { d.eth with refetch := d.eth.refetch.drop t } }

/-- The manifest address and the chunk that cover a tile, when the re-fetch record names a verified manifest (R299). -/
def Dev.chunkOver (d : Dev) (t : Nat) : Option (Nat × Nat) :=
  let e := d.gran (t / 1024)
  match (d.sourceRec (t / 1024)).bind SourceRec.slot with
  | none => none
  | some slot =>
    let a := d.rd (pWGT e.part) (rWGT_SLOT_MAN.at slot)
    let m := d.manifest a
    if !(d.weights e.part).verified.contains slot || d.poisoned a m.size then none
    else ((List.range m.nchunk).find? fun c =>
      let x := d.chunk m a c
      x.dest ≤ t * tileBytes && (t + 1) * tileBytes ≤ x.dest + x.len).map fun c => (a, c)

/-- A tile that has failed at every source stays poisoned (R181). -/
def Dev.failTile (d : Dev) (t : Nat) : Dev :=
  (Dev.leavePoisoned (Dev.dropRefetch { d with tier := { d.tier with tried := d.tier.tried.add t } } t) [t]).settle (t / 1024)

/-- The next re-fetch attempt of a tile from number k on (R297, R299): it starts at once, before load chunks. -/
def Dev.tryRefetch (d : Dev) (t k : Nat) : Dev :=
  let p := (d.gran (t / 1024)).part
  match d.chunkOver t with
  | none => d.failTile t
  | some (a, c) =>
    match d.nextAttempt p a c k with
    | none => d.failTile t
    | some (j, src, conn, port) =>
      let x : ChunkTry := { chunk := c, attempts := j, source := src, port := port, start := d.now, inFlight := true }
      Dev.emitRead { d with eth := { d.eth with refetch := (d.eth.refetch.drop t).insert t x } } p a c src conn

/-! ### Ends of attempts -/

/-- Is the connection of an attempt on a manifest the one that is lost, or any? -/
def Dev.lostBy (d : Dev) (p a : Nat) (c : ChunkTry) (port : Nat) (conn : Option (Nat × Nat)) : Bool :=
  c.inFlight && c.port == port && conn.all fun x => x.1 == p && d.loadNat (sourceAt a c.source) 2 == x.2

/-- Attempts in flight on a port fail, all of them or those through one connection of a partition (R291, R458). -/
def Dev.failPort (d : Dev) (port : Nat) (conn : Option (Nat × Nat)) : Dev :=
  let d := d.each d.eth.refetch fun x e =>
    let a := ((e.chunkOver x.1).map Prod.fst).getD 0
    if e.lostBy (e.gran (x.1 / 1024)).part a x.2 port conn then e.tryRefetch x.1 (x.2.attempts + 1) else e
  d.each (List.range 64) fun p e =>
    e.each ((e.weights p).chunks.filter fun c => e.lostBy p (e.fetchMan p) c port conn) fun c e => e.failAttempt p c

def Dev.tryOf (d : Dev) (p chunk : Nat) : Option ChunkTry := (d.weights p).chunks.find? fun c => c.chunk == chunk && c.inFlight

/-- Is the destination of a chunk still that of the loading slot being fetched (R287)? -/
def Dev.chunkOpen (d : Dev) (p : Nat) (x : Chunk) : Bool :=
  let i := (d.weights p).fetching.getD 0
  d.slotState p i == slLoading && inRegions (d.regionsOf p i) x.dest x.len

/-- The end of an attempt with the bytes that have arrived, which stand in the destination whatever the outcome (R296): a
destination that is no longer open refuses them and fails the load (R287); a whole chunk with the digest of its record is
done; anything else is followed by another attempt. -/
def Dev.endAttempt (d : Dev) (p : Nat) (c : ChunkTry) (data : List Byte) (whole : Bool) : Dev :=
  let a := d.fetchMan p
  let x := d.chunk (d.manifest a) a c.chunk
  let w := d.weights p
  let rest := w.chunks.filter fun y => y.chunk != c.chunk
  if !d.chunkOpen p x then d.setWeights p { w with chunks := rest.filter ChunkTry.inFlight, refused := true }
  else
    let d := if data.isEmpty then d else d.engineStore p x.dest (data.take x.len)
    if whole && data.length == x.len && Config.sha384 data == x.digest then
      ((d.setWeights p { w with chunks := rest }).setFld (pWGT p) wgtSts 43 24 (d.fld (pWGT p) wgtSts 43 24 + 1)).fetchSettle p
    else d.failAttempt p c

def execChunkAttemptEnd (p : Fin 64) (chunk : Nat) (r : ChunkResult) (s : State) : Host.Outcome State Fault Refusal :=
  s.run fun d => d.when (d.tryOf p chunk).isSome fun d =>
    match d.tryOf p chunk, r with
    | some c, .arrived data => d.endAttempt p c data true
    | some c, .error data => d.endAttempt p c data false
    | none, _ => d

/-- An attempt that has run for ato ends with the bytes that have arrived (R297). -/
def execChunkAttemptTimeout (p : Fin 64) (chunk : ChunkPart) (s : State) : Host.Outcome State Fault Refusal :=
  s.run fun d => d.when (d.tryOf p chunk.number).isSome fun d =>
    match d.tryOf p chunk.number with
    | none => d
    | some c =>
      if c.start + d.fld (pWGT p) rWGT_CTL.off 47 32 * 1000000 ≤ d.now then d.endAttempt p c chunk.data false else d

/-! ### The epoch commit (R288, R301 to R303) -/

/-- The partition's epoch number (R288). -/
def Dev.epochNow (d : Dev) (p : Nat) : Nat :=
  match d.currentSlot p with
  | some i => d.slotEpoch p i
  | none => 0

/-- The commit of a slot (R288): it becomes current, and the slot that was current becomes old. -/
def Dev.commitSlot (d : Dev) (p i epoch : Nat) : Dev :=
  let old := d.currentSlot p
  let d := match old with
    | some j => d.setSlotState p j slOld
    | none => d
  let d := (d.setFld (pWGT p) (slotOff i) 31 0 epoch).setSlotState p i slCurrent
  match old with
  | some j => d.retireSlot p j
  | none => d

/-- Payload of a commit message (log entry 11): slot, epoch, vote, number of the commit in the group, round. -/
def commitPayload (slot epoch vote number round : Nat) : List Byte :=
  natLe 1 slot ++ natLe 4 epoch ++ natLe 1 vote ++ natLe 4 number ++ natLe 1 round

def ckOpen : Nat := 0
def ckVote : Nat := 1

/-- Members that member i sends to in a binomial-tree broadcast from member 0 over n members. -/
def treeChildren (i n : Nat) : List Nat :=
  ((List.range 14).filter fun k => (i = 0 || Nat.log2 i < k) && i + 2 ^ k < n).map fun k => i + 2 ^ k

/-- open(epoch) is passed down the tree (R301). -/
def Dev.sendOpen (d : Dev) (g slot epoch : Nat) : Dev :=
  d.each (treeChildren (d.group g).own (d.group g).size) fun m e =>
    e.toMember g m 0 { type := tyCommit, arg := ckOpen, payload := commitPayload slot epoch 0 ((d.group g).commits + 1) 0 }

/-- Rounds of the vote barrier of the commit in progress; a load outside any group has none. -/
def Dev.voteRounds (d : Dev) (p : Nat) : Nat :=
  let w := d.weights p
  if w.localLoad.contains (w.commitSlot.getD 0) then 0 else barrierRounds (d.group w.commitGroup).size

/-- The message of a round of the vote barrier goes to the member 2^round on, with the AND of the votes so far (R301,
R336). -/
def Dev.sendVote (d : Dev) (p : Nat) : Dev :=
  let w := d.weights p
  let x := d.group w.commitGroup
  if d.voteRounds p ≤ w.voteRound then d
  else d.toMember w.commitGroup ((x.own + 2 ^ w.voteRound) % x.size) 0
    { type := tyCommit, arg := ckVote,
      payload := commitPayload (w.commitSlot.getD 0) w.commitEpoch (b2n w.allYes) x.commits w.voteRound }

/-- Rounds whose message has come are done, one after another, and the next round's message is sent (R301). -/
def Dev.advanceVotes (d : Dev) (p : Nat) : Nat → Dev
  | 0 => d
  | n + 1 =>
    let w := d.weights p
    let x := d.group w.commitGroup
    match x.votes.find? fun v => v.1 == x.commits && v.2.1 == w.voteRound with
    | some v =>
      if d.voteRounds p ≤ w.voteRound then d
      else Dev.advanceVotes
        (Dev.sendVote (d.setWeights p { w with voteRound := w.voteRound + 1, allYes := w.allYes && v.2.2 }) p) p n
    | none => d

/-- The arrival at the vote barrier (R301). -/
def Dev.castVote (d : Dev) (p : Nat) (yes : Bool) : Dev :=
  let w := d.weights p
  let i := w.commitSlot.getD 0
  let d := d.setWeights p { w with vote := some yes, voteRound := 0, allYes := yes }
  let d := if d.slotState p i == slLoading then d.setSlotState p i slVoted else d
  (d.sendVote p).advanceVotes p 14

/-- A vote of another member arrives (R301): it is kept for the commit in progress or the next one to be opened, or
discarded with a commit that is frozen or over; one of any other commit is a mismatch, an error of the group. -/
def Dev.hearVote (d : Dev) (g number round : Nat) (yes : Bool) : Dev :=
  let x := d.group g
  let w := d.weights x.part
  let live := w.commitSlot.isSome && w.commitGroup == g
  if d.groupState g != gReady then d
  else if number != x.commits && number != x.commits + 1 then d.mismatch g number
  else if number == x.commits && (!live || w.frozen) then d
  else
    let d := d.setGroup g { x with votes := x.votes ++ [(number, round, yes)] }
    if number == x.commits && w.vote.isSome then d.advanceVotes x.part 14 else d

/-- A member of a group arrives with no when the slot of the open commit has its failed bit set (R301). -/
def Dev.voteFailed (d : Dev) (p : Nat) : Dev :=
  let w := d.weights p
  match w.commitSlot with
  | none => d
  | some i =>
    if w.vote.isNone && !w.localLoad.contains i && d.slotState p i == slLoading && d.bit (pWGT p) (slotOff i) 60 then
      d.castVote p false
    else d

/-- A failing load whose attempts have all ended (R298): the slot's failed bit is set, for which an open commit hears no. -/
def execLoadFailed (p : Fin 64) (s : State) : Host.Outcome State Fault Refusal :=
  s.run fun d =>
    let w := d.weights p
    match w.fetching with
    | none => d
    | some i => d.when (w.failing && !(w.chunks.any ChunkTry.inFlight)) fun d =>
      let d := d.setWeights p { w with fetching := none, chunks := [], failedChunk := none, refused := false, aborted := false }
      let d := (d.setBit (pWGT p) (slotOff i) 60 true).phEnd p phFetch
      (if w.aborted then d.wgtEnd p 0x0A
       else if w.refused then d.wgtEnd p 0x06
       else (d.setFld (pWGT p) wgtSts 63 44 (w.failedChunk.getD 0)).wgtEnd p 0x07).voteFailed p

/-- The commit in progress is over; the partition waits no longer for it (R253). -/
def Dev.commitOver (d : Dev) (p : Nat) : Dev :=
  let d := if d.phAgents p phWaiting = 0 then d else d.phEnd p phWaiting
  d.setWeights p { d.weights p with commitSlot := none, vote := none, frozen := false, voteRound := 0, allYes := false }

/-- An open is heard (R301): the timeout starts, and a member whose epoch differs, or whose slot has failed, votes no. -/
def Dev.hearOpen (d : Dev) (p i g epoch : Nat) : Dev :=
  let w := d.weights p
  let d := d.setWeights p { w with commitSlot := some i, commitGroup := g, commitEpoch := epoch, vote := none, frozen := false,
                                   voteRound := 0, allYes := false,
                                   groupOf := if w.localLoad.contains i then w.groupOf else Tab.set (fun _ => 0) w.groupOf i (g + 1),
                                   deadline := d.now + d.fld (pWGT p) rWGT_CTL.off 31 0 * 1000000 }
  let d := if w.localLoad.contains i then d
    else
      let n := (d.group g).commits + 1
      d.setGroup g { d.group g with commits := n, votes := (d.group g).votes.filter fun v => v.1 == n }
  if epoch != (d.epochNow p + 1) % 2 ^ 32 then (d.castVote p false).setFld (pWGT p) wgtSts 7 0 0x08 else d.voteFailed p

/-- commit-open at the master, or for a load outside any group (R301, R303). -/
def execCommitOpen (a : Access) (p : Fin 64) (v : Word) (s : State) : Host.Outcome State Fault Refusal :=
  s.run fun d => if wgtOp v != 5 then d else d.wgtCommand a p v false fun d =>
    let i := wgtSlot v
    let g := wgtGroup v
    let alone := wgtLocal v || (d.weights p).localLoad.contains i
    let epoch := (d.epochNow p + 1) % 2 ^ 32
    if d.slotState p i != slLoading then d.wgtEnd p 0x02
    else if alone then
      let w := d.weights p
      ((d.setWeights p { w with localLoad := w.localLoad.add i }).wgtEnd p 0).hearOpen p i g epoch
    else if d.groupState g != gReady || (d.group g).own != 0 then d.wgtEnd p 0x0B
    else ((d.wgtEnd p 0).sendOpen g i epoch).hearOpen p i g epoch

def execCommitOpenReceive (p : Fin 64) (slot : Fin 4) (group : Fin 1024) (epoch : BitVec 32) (s : State) :
    Host.Outcome State Fault Refusal :=
  s.run fun d => d.when (d.hears && d.groupState group == gReady) fun d =>
    (d.sendOpen group slot epoch.toNat).hearOpen p slot group epoch.toNat

/-- May the slot vote now? -/
def Dev.mayVote (d : Dev) (p i : Nat) : Bool :=
  let w := d.weights p
  w.commitSlot == some i && w.vote.isNone && d.slotState p i == slLoading

/-- The turn boundary of a slot's load is over (R329): turn_open of its group clears. -/
def Dev.turnOver (d : Dev) (p i : Nat) : Dev :=
  match Tab.get (fun _ => 0) (d.weights p).groupOf i with
  | 0 => d
  | g + 1 => if d.groupState g != gFree && (d.group g).part == p then d.setBit pFAB (gsts g) 54 false else d

/-- The outcome of a vote on this member (R301). -/
def Dev.commitOutcome (d : Dev) (p : Nat) (yes : Bool) : Dev :=
  let w := d.weights p
  let i := w.commitSlot.getD 0
  let d := if yes then ((d.commitSlot p i w.commitEpoch).turnOver p i).wgtEnd p 0
    else (if d.slotState p i == slVoted then d.setSlotState p i slLoading else d).wgtEnd p 0x09
  d.commitOver p

/-- A vote of the runtime: a load outside any group is decided at once (R303). The partition waits from its ready on
(R253). -/
def Dev.voteCommand (d : Dev) (p i : Nat) (yes : Bool) : Dev :=
  let w := d.weights p
  if w.localLoad.contains i then
    if d.slotState p i != slLoading then d.wgtEnd p 0x02
    else if yes && !d.bit (pWGT p) (slotOff i) 60 then
      (((d.commitSlot p i ((d.epochNow p + 1) % 2 ^ 32))).wgtEnd p 0).commitOver p
    else (d.wgtEnd p 0x09).commitOver p
  else if !d.mayVote p i then d.wgtEnd p 0x02
  else
    let d := d.setBit (pWGT p) wgtSts 8 true
    (if yes then d.phStart p phWaiting else d).castVote p (yes && !d.bit (pWGT p) (slotOff i) 60)

def execReady (a : Access) (p : Fin 64) (v : Word) (s : State) : Host.Outcome State Fault Refusal :=
  s.run fun d => if wgtOp v != 6 then d else d.wgtCommand a p v false fun d => d.voteCommand p (wgtSlot v) true

def execFail (a : Access) (p : Fin 64) (v : Word) (s : State) : Host.Outcome State Fault Refusal :=
  s.run fun d => if wgtOp v != 7 then d else d.wgtCommand a p v false fun d => d.voteCommand p (wgtSlot v) false

/-- Is the slot voted, with its outcome open (R302)? -/
def Dev.undecided (d : Dev) (p i : Nat) : Bool := d.slotState p i == slVoted && (d.weights p).commitSlot == some i

/-- Is a commit of the slot open on this member, voted or not (R302)? -/
def Dev.inCommit (d : Dev) (p i : Nat) : Bool :=
  (d.weights p).commitSlot == some i && (d.slotState p i == slVoted || d.slotState p i == slLoading)

/-- freeze (R302): barrier messages of the commit are discarded from now on. -/
def execFreeze (a : Access) (p : Fin 64) (v : Word) (s : State) : Host.Outcome State Fault Refusal :=
  s.run fun d => if wgtOp v != 8 then d else d.wgtCommand a p v true fun d =>
    if d.inCommit p (wgtSlot v) then (d.setWeights p { d.weights p with frozen := true }).setFld (pWGT p) wgtSts 7 0 0
    else if d.bit (pWGT p) wgtSts 8 then d.setBit (pWGT p) wgtSts 9 true
    else d.wgtEnd p 0x02

/-- force-commit (R302). -/
def execForceCommit (a : Access) (p : Fin 64) (v : Word) (s : State) : Host.Outcome State Fault Refusal :=
  s.run fun d => if wgtOp v != 9 then d else d.wgtCommand a p v true fun d =>
    if d.undecided p (wgtSlot v) then
      (((d.commitSlot p (wgtSlot v) (d.weights p).commitEpoch).turnOver p (wgtSlot v)).wgtEnd p 0).commitOver p
    else if d.bit (pWGT p) wgtSts 8 then d.setBit (pWGT p) wgtSts 9 true
    else d.wgtEnd p 0x02

/-- abandon (R302): a member that has not voted has its slot loading already. -/
def execAbandon (a : Access) (p : Fin 64) (v : Word) (s : State) : Host.Outcome State Fault Refusal :=
  s.run fun d => if wgtOp v != 10 then d else d.wgtCommand a p v true fun d =>
    if d.inCommit p (wgtSlot v) then (((d.setSlotState p (wgtSlot v) slLoading).turnOver p (wgtSlot v)).wgtEnd p 0).commitOver p
    else if d.bit (pWGT p) wgtSts 8 then d.setBit (pWGT p) wgtSts 9 true
    else d.wgtEnd p 0x02

/-- release (R309): only a loading slot. -/
def execReleaseSlot (a : Access) (p : Fin 64) (v : Word) (s : State) : Host.Outcome State Fault Refusal :=
  s.run fun d => if wgtOp v != 11 then d else d.wgtCommand a p v false fun d =>
    if d.slotState p (wgtSlot v) == slLoading then
      (((d.turnOver p (wgtSlot v)).emptySlot p (wgtSlot v)).wgtEnd p 0) else d.wgtEnd p 0x02

/-- The commit timeout expires before a vote (R301); outside any group the outcome is no at once. -/
def execCommitTimeout (p : Fin 64) (s : State) : Host.Outcome State Fault Refusal :=
  s.run fun d =>
    let w := d.weights p
    d.when (w.commitSlot.isSome && w.vote.isNone && w.deadline ≤ d.now) fun d =>
      if w.localLoad.contains (w.commitSlot.getD 0) then d.commitOutcome p false else d.castVote p false

/-- The vote barrier completes once every round is done (R301), unless the member is frozen (R302). The outcome is the AND of
the votes heard; the event does not occur with the other one (log entry 2). -/
def execCommitBarrierComplete (p : Fin 64) (allYes : Bool) (s : State) : Host.Outcome State Fault Refusal :=
  s.run fun d =>
    let w := d.weights p
    d.when (w.commitSlot.isSome && w.vote.isSome && !w.frozen && d.voteRounds p ≤ w.voteRound && allYes == w.allYes) fun d =>
      d.commitOutcome p allYes

/-! ### Flue engines (R304 to R307) -/

def Dev.flue (d : Dev) (n : Nat) : Flue := Tab.get (fun _ => {}) d.flues n
def Dev.setFlue (d : Dev) (n : Nat) (f : Flue) : Dev := { d with flues := Tab.set (fun _ => {}) d.flues n f }

/-- A descriptor joins the queue of a die's Flue engine, when there is room. -/
def Dev.flueSubmit (d : Dev) (n : Nat) (x : Submitted) : Option Dev :=
  let f := d.flue n
  if 16 ≤ f.queue.length then none else some (d.setFlue n { f with queue := f.queue ++ [x] })

structure FDesc where
  src : Nat
  sfmt : Nat
  rem : Bool
  dst : Nat
  dfmt : Nat
  recipe : Nat
  rsrc : Nat
  nrec : Nat
  ks : Nat
  kd : Nat
  sk0 : Nat
  dk0 : Nat
  nk : Nat
  sts : Nat
  ember : Nat
  emberOn : Bool
  reserved0 : Bool
deriving DecidableEq, Repr

def FDesc.ofBytes (bs : List Byte) : FDesc :=
  let w := fun i => leNat ((bs.drop (8 * i)).take 8)
  let h := fun i => leNat ((bs.drop (24 + 4 * i)).take 4)
  let e := leNat ((bs.drop 56).take 2)
  { src := bits (w 0) 47 0, sfmt := bits (w 0) 51 48, rem := (w 0).testBit 52, dst := bits (w 1) 47 0, dfmt := bits (w 1) 51 48,
    recipe := bits (w 1) 55 52, rsrc := bits (w 2) 47 0, nrec := bits (h 0) 19 0, ks := bits (h 1) 19 0, kd := bits (h 2) 19 0,
    sk0 := bits (h 3) 19 0, dk0 := bits (h 4) 19 0, nk := bits (h 5) 19 0, sts := bits (w 6) 47 0, ember := bits e 13 0,
    emberOn := e.testBit 15,
    reserved0 := bits (w 0) 63 53 == 0 && bits (w 1) 63 56 == 0 && bits (w 2) 63 48 == 0 && (List.range 6).all (fun i => bits (h i) 31 20 == 0)
      && bits (w 6) 63 48 == 0 && bits (w 6) 2 0 == 0 && !e.testBit 14 && leNat (bs.drop 58) == 0 }

/-- Formats that the Flue reads and writes (R304). -/
def flueFmt (code : Nat) : Option Fmt := if code ≤ 7 then Fmt.ofCode code else none

/-- Is a format block-scaled? -/
def codeScaled (code : Nat) : Bool := ((flueFmt code).map Fmt.scaled).getD false

/-- Bytes of a record of k elements in a format code. -/
def codeRecord (code k : Nat) : Nat := ((flueFmt code).map fun f => f.recordBytes k).getD 0

/-- Rows that share a scale (R305). -/
def FDesc.rows (x : FDesc) : Nat := if x.recipe = 1 || x.recipe = 3 || x.recipe = 4 then 32 else 1

/-- Does a range lie in the region list of a loading slot (R287)? -/
def Dev.flueOpen (d : Dev) (p a n : Nat) : Bool :=
  (List.range 4).any fun i => d.slotState p i == slLoading && inRegions (d.regionsOf p i) a n

/-- Bytes of the destination records. -/
def FDesc.dstLen (x : FDesc) : Nat := x.nrec * codeRecord x.dfmt x.kd

/-- The status of a descriptor's check, made whole before anything is written (R305, R306). -/
def Dev.flueCheck (d : Dev) (p : Nat) (x : FDesc) : Nat :=
  let scaled := codeScaled x.sfmt || codeScaled x.dfmt
  if !x.reserved0 || x.nrec = 0 || x.nk = 0 || x.ks < x.sk0 + x.nk || x.kd < x.dk0 + x.nk
      || (scaled && !([x.ks, x.kd, x.sk0, x.dk0, x.nk].all fun n => n % 32 == 0)) || x.nrec % x.rows != 0
      || (!x.rem && x.rsrc != 0) || (x.emberOn && !d.ownsEmber p x.ember) then 0x01
  else if 7 < x.sfmt || 7 < x.dfmt || 4 < x.recipe || (x.rem && x.sfmt != 1) || (x.recipe = 0) == codeScaled x.dfmt then 0x02
  else
    let w := d.partWorld p
    let ok := fun a n => d.rangeCode p w a n == 0
    if !ok x.src (x.nrec * codeRecord x.sfmt x.ks) || !d.tierOk p w x.dst x.dstLen || !d.flueOpen p x.dst x.dstLen
        || (x.rem && !ok x.rsrc (x.nrec * x.ks)) || (x.sts != 0 && !ok x.sts 8) then 0x03
    else 0

/-- The bits of element j of a run of w-bit elements at an address (R89). -/
def Dev.elemAt (d : Dev) (a w j : Nat) : Nat :=
  let k := w * j
  bits (d.loadNat (a + k / 8) ((k % 8 + w + 7) / 8)) (k % 8 + w - 1) (k % 8)

/-- Encoded elements as bytes (R89). -/
def packElems (w : Nat) (l : List Nat) : List Byte := natLe (w * l.length / 8) (l.foldr (fun e n => e + 2 ^ w * n) 0)

/-- Value of element j of a source record, joined with its remainder (R305). -/
def Dev.flueValue (d : Dev) (x : FDesc) (f : Fmt) (i j : Nat) : FVal :=
  let a := x.src + i * f.recordBytes x.ks
  let scale := if f.scaled then d.loadNat (a + x.ks * f.elemBits / 8 + j / 32) 1 else 0
  let v := elemValue f (d.elemAt a f.elemBits j) scale
  if x.rem then joinMaster v (signed 8 (d.loadNat (x.rsrc + i * x.ks + j) 1)) else v

/-- Writes of consecutive encoded elements from element k of destination record i on. -/
def Dev.flueElems (d : Dev) (x : FDesc) (f : Fmt) (i k : Nat) (es : List Nat) : Dev :=
  d.store (x.dst + i * f.recordBytes x.kd + k * f.elemBits / 8) (packElems f.elemBits es)

/-- Writes of the scale byte of block b of destination record i. -/
def Dev.flueScale (d : Dev) (x : FDesc) (f : Fmt) (i b scale : Nat) : Dev :=
  d.storeNat (x.dst + i * f.recordBytes x.kd + x.kd * f.elemBits / 8 + b) 1 scale

/-- One group of records converted (R305): its flags. -/
def Dev.flueGroup (d : Dev) (x : FDesc) (fs fd : Fmt) (i0 : Nat) : Dev × NFlags :=
  let rows := (List.range x.rows).map (i0 + ·)
  let vals := rows.map fun i => (List.range x.nk).map fun t => d.flueValue x fs i (x.sk0 + t)
  let nan : NFlags := .ofNan (vals.any fun r => r.any FVal.isNan)
  if x.recipe = 0 then
    let es := vals.map fun r => eachF r (encodeElem fd)
    (d.each (es.zip rows) (fun y e => e.flueElems x fd y.2 x.dk0 y.1.1), es.foldl (fun g y => g.or y.2) nan)
  else if fs == fd && !x.rem && x.recipe = 1 then
    let raw := rows.map fun i =>
      let a := x.src + i * fs.recordBytes x.ks
      (i, (List.range x.nk).map (fun t => d.elemAt a fs.elemBits (x.sk0 + t)),
        d.load (a + x.ks * fs.elemBits / 8 + x.sk0 / 32) (x.nk / 32))
    (d.each raw fun y e => (e.flueElems x fd y.1 x.dk0 y.2.1).store
      (x.dst + y.1 * fd.recordBytes x.kd + x.kd * fd.elemBits / 8 + x.dk0 / 32) y.2.2, nan)
  else
    (List.range (x.nk / 32)).foldl (fun r b =>
      let group := vals.flatMap fun row => (row.drop (32 * b)).take 32
      match fd.layout with
      | none => r
      | some lay =>
        let q := quantiseGroup lay (x.recipe == 4) group
        let d := r.1.each rows.zipIdx fun y e =>
          (e.flueElems x fd y.1 (x.dk0 + 32 * b) ((q.2.1.drop (32 * y.2)).take 32)).flueScale x fd y.1 (x.dk0 / 32 + b) q.1
        (d, r.2.or q.2.2)) (d, nan)

/-- Source ranges that a group of records reads. -/
def FDesc.reads (x : FDesc) (f : Fmt) (i0 : Nat) : List (Nat × Nat) :=
  ((List.range x.rows).map (i0 + ·)).flatMap fun i =>
    let a := x.src + i * f.recordBytes x.ks
    let lo := x.sk0 * f.elemBits / 8
    [(a + lo, (x.sk0 + x.nk) * f.elemBits / 8 - lo)]
      ++ (if f.scaled then [(a + x.ks * f.elemBits / 8 + x.sk0 / 32, x.nk / 32)] else [])
      ++ (if x.rem then [(x.rsrc + i * x.ks + x.sk0, x.nk)] else [])

/-- A descriptor is refused since its destination lies outside the loading slots: status 0x03, and result 0x06 of the
partition's commands (R287, R306; log entry 28). -/
def Dev.flueRefuse (d : Dev) (n p : Nat) : Dev :=
  (d.setFlue n { d.flue n with status := 0x03 }).setFld (pWGT p) wgtSts 7 0 0x06

/-- Groups converted one after another until the end, or until one cannot read its source: then the engine waits, or ends
with 0x04 for lines left poisoned (R306). A destination that is no longer that of a loading slot stops it (R287). -/
def Dev.flueRun (d : Dev) (n p : Nat) (x : FDesc) (fs fd : Fmt) : Nat → Dev
  | 0 => d
  | k + 1 =>
    let f := d.flue n
    if x.nrec ≤ f.records then d
    else if !d.flueOpen p x.dst x.dstLen then d.flueRefuse n p
    else
      let rs := x.reads fs f.records
      match d.readGate rs with
      | (d, .wait) => d.setFlue n { f with held := true }
      | (d, .bad) => d.setFlue n { f with status := 0x04 }
      | (d, .clear) =>
        let y := (d.engineReads p rs).flueGroup x fs fd f.records
        Dev.flueRun (y.1.setFlue n { f with records := f.records + x.rows, flags := f.flags.or y.2 }) n p x fs fd k

/-- The descriptor in progress goes on. -/
def Dev.flueGo (d : Dev) (n : Nat) : Dev :=
  match (d.flue n).active with
  | none => d
  | some y =>
    let x := FDesc.ofBytes (d.descBytes y)
    match flueFmt x.sfmt, flueFmt x.dfmt with
    | some fs, some fd => d.flueRun n y.part x fs fd (x.nrec + 1)
    | _, _ => d

/-- The Flue engine of a die takes its next descriptor and checks it whole; a sound one is converted. -/
def execFlueDescriptorStart (die : Fin 8) (s : State) : Host.Outcome State Fault Refusal :=
  s.run fun d =>
    let f := d.flue die
    match f.active, f.queue with
    | none, y :: rest => d.when (!d.inTest ukEngine (pFLUE die)) fun d =>
      let x := FDesc.ofBytes (d.descBytes y)
      let st := d.flueCheck y.part x
      let d := (d.setFlue die { queue := rest, active := some y, status := st }).phStart y.part phReshard
      if st = 0 then d.flueGo die
      else if st = 0x03 && !d.flueOpen y.part x.dst x.dstLen then d.flueRefuse die y.part
      else d
    | _, _ => d

/-- A stopped engine looks at its source again (R306). -/
def execFluePoisonResume (die : Fin 8) (s : State) : Host.Outcome State Fault Refusal :=
  s.run fun d => d.when (d.flue die).held fun d => (d.setFlue die { d.flue die with held := false }).flueGo die

/-- The status word of a finished descriptor (R306). -/
def Flue.statusWord (f : Flue) : Nat := f.status + f.flags.toNat * 2 ^ 8 + f.records * 2 ^ 32

/-- Are the data of a descriptor visible, and can its status word be written to be so too (R53, R306)? -/
def Dev.flueVisible (d : Dev) (x : FDesc) : Bool :=
  d.rangeVisible x.dst x.dstLen && (d.switching x.sts 8).isNone && !d.scratchBusy x.sts 8 true

/-- The status word is written after the data, a failure marks the slot, and the ember is signalled (R306). -/
def execFlueDescriptorDone (die : Fin 8) (s : State) : Host.Outcome State Fault Refusal :=
  s.run fun d =>
    let f := d.flue die
    match f.active with
    | none => d
    | some y =>
      let p := y.part
      let x := FDesc.ofBytes (d.descBytes y)
      d.when (!f.held && d.flueVisible x) fun d =>
      let d := if x.sts != 0 && x.sts % 8 == 0 && d.rangeCode p (d.partWorld p) x.sts 8 == 0 then
          d.put x.sts (natLe 8 f.statusWord) false
        else d
      let d := if f.status = 0 then d else
        let hit := (List.range 4).filter fun i =>
          (d.slotState p i == slLoading || d.slotState p i == slVoted) && inRegions (d.regionsOf p i) x.dst 1
        ((d.each hit fun i e => e.setBit (pWGT p) (slotOff i) 60 true).voteFailed p).partEvt p evEngine
      let d := (d.setFlue die { queue := f.queue }).phEnd p phReshard
      if x.emberOn && d.ownsEmber p x.ember then d.signal1 p x.ember else d

end Sys2Proof.Machine
end

