-- ==== Sys2Proof/Machine/Fabric.lean ====
section
/-! DEFINITION. The Clatil Fabric: ports, identity and floods, routing and flows, group commands, the Bellows engines
(chapter 12). -/

namespace Sys2Proof.Machine

/-! ### Ports -/

/-- A stack join goes to the master while the ID is valid (R315). -/
def Dev.joinStack (d : Dev) : Dev :=
  if d.hears && !d.bit pFAB rFAB_STACK.off 63 && d.fld pFAB rFAB_STACK.off 13 0 != d.id then
    d.send (d.fld pFAB rFAB_STACK.off 13 0) 0 { type := tyJoin, arg := d.fld pFAB rFAB_STACK.off 17 14 }
  else d

/-- Unit code of a SerDes lane (R432, R433). -/
def ukLane : Nat := 6

/-- Has a lane no fault: it is neither under test nor retired (R310, R433)? -/
def Dev.laneGood (d : Dev) (i : Nat) : Bool := !d.inTest ukLane i

/-- The widest training of a port on its lanes with no fault: x4, x2 on a pair, or x1, as FAB_PORTn.width codes them; `none`
with no lane left (R29, R310). -/
def Dev.widest (d : Dev) (n : Nat) : Option Nat :=
  let good := fun i => d.laneGood (4 * n + i)
  if good 0 && good 1 && good 2 && good 3 then some 0
  else if (good 0 && good 1) || (good 2 && good 3) then some 1
  else if good 0 || good 1 || good 2 || good 3 then some 2
  else none

/-- Rate of a port's lanes in Gbit/s (R310). -/
def Dev.laneRate (d : Dev) (n : Nat) : Nat :=
  if d.fld pMOD rMOD_SL.off 1 0 == 2 || d.fld pFAB (rFAB_PORT.at n) 62 61 != 0 then 100 else 200

/-- A trained port reports its width, no wider than its good lanes, and starts to exchange hellos (R310, R312). The links have
no clock while REFCLK_B is lost (R42). -/
def execFabricPortTrained (n : Fin 24) (lanes : Fin 3) (s : State) : Host.Outcome State Fault Refusal :=
  s.run fun d => d.when (2 ≤ d.fld pMOD rMOD_SL.off 1 0 && d.portState n == portTraining && d.pow.refclkB
      && (d.widest n).any (· ≤ lanes.val)) fun d =>
    Dev.setFld { d with fab := { d.fab with trained := d.fab.trained.add n, rateTrain := d.fab.rateTrain.del n } }
      pFAB (rFAB_PORT.at n) 47 46 lanes

/-- The hello that a port sends (R312). -/
def Dev.helloOf (d : Dev) (n : Nat) : Hello :=
  { id := d.id, idValid := d.hears, master := d.fld pFAB rFAB_STACK.off 13 0, port := n, verLo := 1,
    verHi := 2, caps := 0, sleep := d.fab.askSleep.contains n }

/-- A trained port that is not asleep sends a hello (R312). -/
def execHelloSend (n : Fin 24) (s : State) : Host.Outcome State Fault Refusal :=
  s.run fun d => d.when (d.fab.trained.contains n && d.portState n != portAsleep) fun d => d.emit (.hello n (d.helloOf n))

/-- Versions of a hello that this device implements too: the highest, or none (R313). -/
def commonVersion (h : Hello) : Option Nat :=
  let hi := min 2 h.verHi
  if max 1 h.verLo ≤ hi then some hi else none

/-- The peer fields of a port hold the hello (R312). -/
def Dev.setPeer (d : Dev) (n : Nat) (h : Hello) : Dev :=
  ((d.setBit pFAB (rFAB_PORT.at n) 43 true).setFld pFAB (rFAB_PORT.at n) 42 38 h.port).setFld pFAB (rFAB_PORT.at n) 33 20 h.id

/-- State of a port that receives a hello (R312, R313), and its version. -/
def Dev.helloState (d : Dev) (h : Hello) : Nat × Nat :=
  if h.idValid && d.hears && h.id == d.id then (portConflict, 0)
  else match commonVersion h with
  | some v => (portUp, v)
  | none => (portIncompatible, 0)

/-- Destinations declared lost that a test picks can be sent to again: rediscovery needs no reset (R314, R321). -/
def Dev.found (d : Dev) (back : Nat → Bool) : Dev :=
  { d with fab := { d.fab with lost := d.fab.lost.filter fun x => !back x } }

/-- A hello arrives (R311 to R313): the port enters its state, holds the peer's fields, and joins the peer's sleep. -/
def execHelloReceive (n : Fin 24) (h : Hello) (s : State) : Host.Outcome State Fault Refusal :=
  s.run fun d => d.when (d.fab.trained.contains n && d.portState n != portAsleep) fun d =>
    let was := d.portState n
    let (st, ver) := d.helloState h
    let d := ((d.setPeer n h).setFld pFAB (rFAB_PORT.at n) 51 48 st).setFld pFAB (rFAB_PORT.at n) 45 44 ver
    let ps := if h.sleep then d.fab.peerSleep.add n else d.fab.peerSleep.del n
    let d := { d with fab := { d.fab with peerSleep := ps } }
    if st == portUp && was != portUp then (((d.found fun x => (d.routeOf x).testBit n).event pFAB).stackSync).joinStack
    else if st == portUp && ps.contains n && d.fab.askSleep.contains n then d.setFld pFAB (rFAB_PORT.at n) 51 48 portAsleep
    else d.stackSync

/-- A port that is not asleep heard nothing for 10 µs: it goes down and retrains (R314). -/
def execFabricPortLoss (n : Fin 24) (s : State) : Host.Outcome State Fault Refusal :=
  s.run fun d => d.when (d.fab.trained.contains n && d.portState n != portAsleep) fun d => d.fabPortDown n

/-- An idle port in power state sleep asks for sleep, and sleeps when both ends ask (R311). -/
def execPortSleepRequest (n : Fin 24) (s : State) : Host.Outcome State Fault Refusal :=
  s.run fun d => d.when (d.fld pFAB (rFAB_PORT.at n) 60 59 == 2 && d.portState n == portUp) fun d =>
    let d := { d with fab := { d.fab with askSleep := d.fab.askSleep.add n } }
    if d.fab.peerSleep.contains n then (d.setFld pFAB (rFAB_PORT.at n) 51 48 portAsleep).emit (.portSleep n) else d

/-- An asleep port is up again (R311): packets that waited for it leave. -/
def Dev.wakePort (d : Dev) (n : Nat) : Dev :=
  let fab := { d.fab with askSleep := d.fab.askSleep.del n, peerSleep := d.fab.peerSleep.del n, asleep := [] }
  (Dev.setFld { d with fab := fab } pFAB (rFAB_PORT.at n) 51 48 portUp).each d.fab.asleep fun p e => e.depart p

/-- Queued traffic at either end wakes an asleep port (R311). -/
def execPortWake (n : Fin 24) (s : State) : Host.Outcome State Fault Refusal :=
  s.run fun d => d.when (d.portState n == portAsleep) fun d => d.wakePort n

/-- Half power with a peer of version 2: lanes 2 and 3 go idle or carry traffic again (R311). -/
def execPortHalfIdle (n : Fin 24) (idle : Bool) (s : State) : Host.Outcome State Fault Refusal :=
  s.run fun d =>
    d.when (d.portState n == portUp && d.fld pFAB (rFAB_PORT.at n) 45 44 == 2
        && (!idle || d.fld pFAB (rFAB_PORT.at n) 60 59 == 1)) fun d =>
      { d with fab := { d.fab with halfIdle := if idle then d.fab.halfIdle.add n else d.fab.halfIdle.del n } }

/-! ### Identity, stacks and floods -/

/-- A write of FAB_ID, ignored while any group is not free (R315). Ports in conflict wait for their next hello. -/
def execFabIdWrite (a : Access) (v : Word) (s : State) : Host.Outcome State Fault Refusal :=
  s.run fun d => d.regWrite a pFAB rFAB_ID.off false fun d =>
    if d.anyGroup then d
    else
      let e := d.store8 a pFAB rFAB_ID.off rFAB_ID v
      let e := if e.id == d.id then e
        else e.each (List.range 24) fun n f =>
          if f.portState n == portConflict then f.setFld pFAB (rFAB_PORT.at n) 51 48 portTraining else f
      e.joinStack

/-- A member joins its stack at the master (R315): recorded by index, or refused where the index is held. -/
def execStackJoinReceive (src : Fin 16384) (index : Fin 16) (s : State) : Host.Outcome State Fault Refusal :=
  s.run fun d => d.when (d.bit pFAB rFAB_STACK.off 63 && d.hears) fun d =>
    if Tab.get (fun _ => 0) d.fab.stack index != 0 then d.event pFAB
    else Dev.stackSync { d with fab := { d.fab with stack := Tab.set (fun _ => 0) d.fab.stack index (src + 1) } }

/-- A flood to every member that the master has recorded, itself left out (R316). -/
def Dev.floodStack (d : Dev) : Dev :=
  d.each d.fab.stack fun x e => if x.2 = 0 || x.2 - 1 == e.id then e else e.send (x.2 - 1) 0 { type := tyFlood, arg := 1 }

/-- The master list (FAB_MLIST). -/
def Dev.masters (d : Dev) : List Nat :=
  (List.range (d.fld pFAB rFAB_MLIST.off 42 32)).map fun i =>
    bits (d.loadNatNew (d.fld pFAB rFAB_MLIST.off 31 0 * 0x10000 + 2 * i) 2) 13 0

/-- Position of a device in a list. -/
def positionIn (l : List Nat) (x : Nat) : Option Nat := (List.range l.length).find? fun i => l[i]? == some x

/-- Place of a device in the tree over a list that is rooted at another (R316, R336). -/
def treePlace (l : List Nat) (root x : Nat) : Option Nat :=
  match positionIn l x, positionIn l root with
  | some i, some r => some ((i + l.length - r) % l.length)
  | _, _ => none

/-- The device at a place of the tree. -/
def treeDevice (l : List Nat) (root j : Nat) : Nat := (l[((positionIn l root).getD 0 + j) % l.length]?).getD 0

/-- A system flood passed down the binomial tree over the master list that is rooted at the master which sends it (R316,
R336). -/
def Dev.floodTree (d : Dev) (root : Nat) : Dev :=
  let l := d.masters
  match treePlace l root d.id with
  | none => d
  | some j =>
    d.each ((List.range (barrierRounds l.length)).filter fun k => j < 2 ^ k && j + 2 ^ k < l.length) fun k e =>
      e.send (treeDevice l root (j + 2 ^ k)) 0 { type := tyFlood, arg := 2 }

/-- The device whose system floods this master accepts: the root of their tree (FAB_STACK.sysm). -/
def Dev.sysMaster (d : Dev) : Nat := d.fld pFAB rFAB_STACK.off 45 32

/-- The tree parent of this master (R336). -/
def Dev.treeParent (d : Dev) : Option Nat :=
  match treePlace d.masters d.sysMaster d.id with
  | some j => if j = 0 then none else some (treeDevice d.masters d.sysMaster (j - 2 ^ Nat.log2 j))
  | none => none

/-- A write of FAB_FLOOD at a master (R316): the flood goes out, then the device enters warm reset. -/
def execFabFloodWrite (a : Access) (v : Word) (s : State) : Host.Outcome State Fault Refusal :=
  s.run fun d => d.regWrite a pFAB rFAB_FLOOD.off true fun d =>
    let scope := bits v.toNat 1 0
    if !d.bit pFAB rFAB_STACK.off 63 then d
    else if scope == 1 then d.floodStack.warmTrigger causeFlood
    else if scope == 2 && d.bit pFAB rFAB_STACK.off 62 then ((d.floodTree d.id).floodStack).warmTrigger causeFlood
    else d

/-- Does the device act on a flood from this source (R316)? -/
def Dev.floodFrom (d : Dev) (src : Nat) (system : Bool) : Bool :=
  if d.bit pFAB rFAB_STACK.off 63 then system && (src == d.sysMaster || d.treeParent == some src)
  else !system && src == d.fld pFAB rFAB_STACK.off 13 0

/-- A flood arrives (R316): forwarded as its scope requires, then a warm reset. One that arrives during a warm reset is
absorbed into it (R39). -/
def execFloodReceive (src : Fin 16384) (system : Bool) (s : State) : Host.Outcome State Fault Refusal :=
  s.run fun d =>
    if !d.pow.pwrGood || d.pow.stopped || !d.hears || !d.floodFrom src system then d
    else if d.pow.reset.isSome then d.warmTrigger causeFlood
    else if system then ((d.floodTree d.sysMaster).floodStack).warmTrigger causeFlood
    else d.warmTrigger causeFlood

/-! ### Routing and flows -/

/-- An access to FAB_RT_DATA reads or writes the routing entry at FAB_RT_ADDR.index and advances the index (R317). -/
def execFabRtDataAccess (a : Access) (write : Option Word) (s : State) : Host.Outcome State Fault Refusal :=
  s.run fun d =>
    let i := d.fld pFAB rFAB_RT_ADDR.off 13 0
    let next := fun (d : Dev) => d.setFld pFAB rFAB_RT_ADDR.off 13 0 ((i + 1) % 16384)
    match write with
    | some v =>
      d.regWrite a pFAB rFAB_RT_DATA.off false fun d =>
        let e := v &&& 0x8000000000FFFFFF#64
        if a.width == .full then
          ((next { d with fab := { d.fab with routes := Tab.set (fun _ => 0) d.fab.routes i e } }).found (· == i)).stackSync
        else next d
    | none => d.regReadOf a pFAB rFAB_RT_DATA.off rFAB_RT_DATA (d.routeOf i) next

/-- A transfer of a ship that the destination asks for again (R210): kind, page and tile stand in the key it received. -/
def Dev.askedAgain (d : Dev) (p : Packet) : Dev :=
  let key := leNat (p.payload.take 4) * 4096 + leNat ((p.payload.drop 4).take 4)
  let kind := if 2 ^ 29 ≤ key then shRecord else if 2 ^ 28 ≤ key then shParams else shTile
  d.resendItem p.part (bits p.arg 21 8) kind (key % 2 ^ 28 / 4096) (key % 4096)

/-- A commit message that carries a vote (R301; log entry 11). -/
def Dev.takeVote (d : Dev) (p : Packet) : Dev :=
  d.hearVote p.group (leNat ((p.payload.drop 6).take 4)) (leNat ((p.payload.drop 10).take 1)) ((p.payload.drop 5).head? == some 1)

/-- What a delivered packet does by itself; the types with a row of their own act at that row (log entry 11). -/
def Dev.deliver (d : Dev) (p : Packet) : Dev :=
  if p.type == tyPut then
    d.putBytes { src := p.src, group := p.group, part := p.part, cseq := p.cseq, last := p.arg.testBit 0 } (bits p.place 47 0)
      p.payload
  else if p.type == tyPutAck then (d.putAcked p.group p.cseq).snapAll
  else if p.type == tyBarrier then (d.arriveRound p.group p.cseq p.digest p.arg p.payload).snapAdvance p.group
  else if p.type == tyCredit then d.takeCredit p.group p.src p.arg
  else if p.type == tyCommit && p.arg == ckVote then d.takeVote p
  else if p.type == tyShip && p.arg % 256 == shAgain then d.askedAgain p
  else d

/-- The packets of a flow held early that have become next in order are delivered. -/
def Dev.deliverEarly (d : Dev) (src vc : Nat) : Nat → Dev
  | 0 => d
  | n + 1 =>
    let f := d.flow src vc
    match f.early.find? fun p => p.fseq == f.expect with
    | some p =>
      ((d.setFlow src vc { f with expect := (f.expect + 1) % 2 ^ 32, early := f.early.filter fun q => q.fseq != p.fseq }).deliver
        p).deliverEarly src vc n
    | none => d

/-- The cumulative acknowledgement of a flow (R320), with the flow's VC as its payload (log entry 11). -/
def Dev.ackFlow (d : Dev) (src vc : Nat) : Dev :=
  d.sendOnce src { type := tyAck, arg := ((d.flow src vc).expect + 2 ^ 32 - 1) % 2 ^ 32, payload := natLe 1 vc }

/-- A packet of a flow for this device (R320): duplicates are discarded, early ones held, the next one delivered. -/
def Dev.acceptPacket (d : Dev) (p : Packet) : Dev :=
  let f := d.flow p.src p.vc
  let ahead := span32 f.expect p.fseq
  if ahead = 0 then
    (((d.setFlow p.src p.vc { f with expect := (f.expect + 1) % 2 ^ 32 }).deliver p).deliverEarly p.src p.vc
      f.early.length).ackFlow p.src p.vc
  else if ahead < 2 ^ 31 && !f.early.any (fun q => q.fseq == p.fseq) then
    (d.setFlow p.src p.vc { f with early := f.early ++ [p] }).ackFlow p.src p.vc
  else d.ackFlow p.src p.vc

/-- A packet arrives on a port with its CRC (R317, R320, R322): one that fails its check is replayed by the link, one for another
device is forwarded, one for this device is taken in the order of its flow, and shows that its sender is not lost. A reserved
type stops the model (R322). -/
def execPacketReceive (n : Fin 24) (pkt : Packet) (crc : BitVec 32) (s : State) : Host.Outcome State Fault Refusal :=
  let d := s.dev
  let ok := crc.toNat == packetCrc pkt
  if d.live && d.portState n == portUp && ok && d.hears && pkt.dst == d.id && 14 ≤ pkt.type then
    .fault .reservedPacketType
  else
    s.run fun d => d.when (d.portState n == portUp) fun d =>
      if !ok then d.count pFAB (rFAB_PERR.at n) 63 32 1
      else if !d.hears then d
      else if pkt.dst != d.id then d.depart pkt
      else if unflowed pkt then d.found (· == pkt.src)
      else (d.found (· == pkt.src)).acceptPacket pkt

/-- Is a packet covered by a cumulative acknowledgement? -/
def ackedBy (fseq : Nat) (p : Packet) : Bool := span32 p.fseq fseq < 2 ^ 31

/-- A cumulative acknowledgement frees the packets it covers (R320). -/
def execAckReceive (src : Fin 16384) (vc : Fin 8) (fseq : BitVec 32) (s : State) : Host.Outcome State Fault Refusal :=
  s.run fun d => d.when (d.hears) fun d =>
    let f := d.flow src vc
    let l := f.unacked.filter fun p => !ackedBy fseq.toNat p
    if l.length == f.unacked.length then d else d.setFlow src vc { f with unacked := l, resends := 0 }

/-- Puts of a group to a device. -/
def Group.putTo (x : Group) (dst : Nat) (c : Collective) : Bool := c.desc.op == opPut && x.dev c.desc.root == dst

/-- A destination is lost (R321): its flows, the collectives of its groups, the puts and the ships to it end. What it did not
acknowledge is not sent again, and its numbers go to what is sent once it is found (log entry 33). A group that was joining
keeps its join in progress until its time is over (R325). -/
def Dev.loseDest (d : Dev) (dst : Nat) : Dev :=
  let d := Dev.each { d with fab := { d.fab with lost := d.fab.lost.add dst } } d.fab.flows fun x e =>
    if x.1 / 8 == dst then
      e.setFlow dst (x.1 % 8) { x.2 with unacked := [], resends := 0, next := (x.2.unacked.head?.map (·.fseq)).getD x.2.next }
    else e
  let d := d.each d.fab.groups fun x e =>
    if x.2.members.any fun m => m.1 == dst then
      ((e.endAll x.1 0x06 fun c => c.desc.op != opPut || x.2.putTo dst c).groupError x.1 causeLost)
    else e
  ((d.failShipsOf dst).event pFAB).snapAll

/-- Ports of a destination's mask that retrain for the rise to SL3 (R420). -/
def Dev.retraining (d : Dev) (dst : Nat) : Bool :=
  (d.portTo dst).isNone && (List.range 24).any fun n => (d.routeOf dst).testBit n && d.fab.rateTrain.contains n

/-- 50 µs without an acknowledgement (R320): the flow is resent from its oldest packet, or the destination is lost after
8 resends without progress. -/
def execFlowResendTimeout (dst : Fin 16384) (vc : Fin 8) (s : State) : Host.Outcome State Fault Refusal :=
  s.run fun d => d.when (!(d.flow dst vc).unacked.isEmpty) fun d =>
    let f := d.flow dst vc
    if d.retraining dst then d
    else if 8 ≤ f.resends then d.loseDest dst
    else (d.setFlow dst vc { f with resends := f.resends + 1 }).each f.unacked fun p e => e.depart p

/-! ### Group commands -/

def gcmdSts : Nat := rFAB_GCMD_STS.off

/-- A write of FAB_GCMD (R340): lost while a command is in progress, and otherwise the command's work on its group. -/
def Dev.groupCommand (d : Dev) (a : Access) (v : Word) (op : Nat) (work : Dev → Nat → Dev) : Dev :=
  d.regWrite a pFAB rFAB_GCMD.off true fun d =>
    if bits v.toNat 63 60 != op then d
    else if d.bit pFAB gcmdSts 8 then d.setBit pFAB gcmdSts 9 true
    else if bits v.toNat 59 10 != 0 then d.setFld pFAB gcmdSts 7 0 0x01
    else work d (bits v.toNat 9 0)

/-- The member list at an address: device, domain and partition of n members (R323), and whether a reserved bit is set. -/
def Dev.memberList (d : Dev) (addr n : Nat) : List (Nat × Nat × Nat) × Bool :=
  let w := (List.range n).map fun i => d.loadNatNew (addr + 4 * i) 4
  (w.map fun x => (bits x 13 0, bits x 23 14, bits x 29 24), w.any fun x => bits x 31 30 != 0)

/-- The group command in progress ends with a result. -/
def Dev.joinEnd (d : Dev) (r : Nat) : Dev := (d.setBit pFAB gcmdSts 8 false).setFld pFAB gcmdSts 7 0 r

/-- The checks of a create (R324), in order, and the group it makes of the arguments present at the write. `clear` says that the
member list can be read. A device without a valid ID is in no list (R315). Arrivals of the join barrier that came earlier
count. -/
def Dev.createGroup (d : Dev) (g a0 a1 : Nat) (clear : Bool) : Dev :=
  let n := bits a0 61 48 + 1
  let list := bits a0 47 0
  let part := bits a1 59 54
  let ctx := bits a1 63 60
  let buddy := bits a1 53 44
  let nbuf := bits a1 43 32 + 1
  let base := bits a1 31 0 * 0x10000
  let w := d.partWorld part
  let readable := d.tierOk part w list (4 * n) && clear
  let (l, bad) := d.memberList list n
  let dom := d.fld pFAB rFAB_ID.off 57 48
  let mine := (List.range n).filter fun i => d.hears && ((l[i]?).getD (0, 0, 0)).1 == d.id
  let own := (mine.head?).getD 0
  let one := l.all fun m => m.2.1 == dom
  if d.groupState g != gFree then d.joinEnd 0x02
  else if nbuf < 16 || list % 4 != 0 || (readable && bad) then d.joinEnd 0x01
  else if !d.bit pFAB rFAB_ID.off 62 then d.joinEnd 0x03
  else if !readable || mine.length != 1 || l[own]? != some (d.id, dom, part) then d.joinEnd 0x04
  else if !one && buddy == dom then d.joinEnd 0x05
  else if 1 < n && d.bit (pLRN part) (rLRN_GEN.at ctx) 0 then d.joinEnd 0x06
  else if !d.tierOk part w base (nbuf * segBytes) then d.joinEnd 0x09
  else
    let x : Group := { part := part, ctx := ctx, own := own, members := l, buddy := buddy, bufBase := base, nbuf := nbuf,
                       joining := true, joinStart := d.now, joins := (d.group g).joins, early := (d.group g).early }
    let sts := gJoining * 2 ^ 60 + b2n one * 2 ^ 55 + bits a0 63 62 * 2 ^ 48 + (n - 1) * 2 ^ 34
    ((((d.setGroup g x).wr pFAB (gsts g) sts).setBit pFAB gcmdSts 8 true).setFld pFAB gcmdSts 7 0 0).startJoin g

/-- A create reads its member list: while lines of it are on their way or in re-fetch the command stays in progress (R180,
R346). -/
def Dev.tryCreate (d : Dev) (g a0 a1 : Nat) : Dev :=
  let part := bits a1 59 54
  let list := (bits a0 47 0, 4 * (bits a0 61 48 + 1))
  if d.groupState g != gFree || !d.tierOk part (d.partWorld part) list.1 list.2 then d.createGroup g a0 a1 false
  else match d.readGate [list] with
  | (d, .wait) => Dev.setBit { d with fab := { d.fab with creating := some (g, a0, a1) } } pFAB gcmdSts 8 true
  | (d, gate) => d.createGroup g a0 a1 (gate == .clear)

/-- A create that waits is tried again. -/
def Dev.retryCreate (d : Dev) : Dev :=
  match d.fab.creating with
  | some x => Dev.tryCreate { d with fab := { d.fab with creating := none } } x.1 x.2.1 x.2.2
  | none => d

/-- Group command create (R324, R325). -/
def execCreate (a : Access) (v : Word) (s : State) : Host.Outcome State Fault Refusal :=
  s.run fun d => d.groupCommand a v 1 fun d g => d.tryCreate g (d.rd pFAB rFAB_GARG0.off) (d.rd pFAB rFAB_GARG1.off)

/-- Group command destroy (R328): its collectives end with 0x05, and the group is free. Arrivals of the join barrier of its
next creation are kept. -/
def execDestroy (a : Access) (v : Word) (s : State) : Host.Outcome State Fault Refusal :=
  s.run fun d => d.groupCommand a v 2 fun d g =>
    ((((d.endAll g 0x05 fun _ => true).setGroup g { joins := (d.group g).joins }).wr pFAB (gsts g) 0).joinEnd 0x00).snapAll

/-- The join barrier of a group completes with its last round (R325): every CRC heard must equal its own. A ready member grants
its credits (R326), and the members of version 1 hold the group to the endpoint. The event says what was heard, and does not
occur with anything else (log entry 2). -/
def execGroupJoinDone (g : Fin 1024) (crcsEqual anyV1 : Bool) (s : State) : Host.Outcome State Fault Refusal :=
  s.run fun d =>
    let x := d.group g
    d.when (d.groupState g == gJoining && x.joining && x.joinHeard == barrierRounds x.size && crcsEqual == x.crcsEqual
        && anyV1 == x.anyV1) fun d =>
      let d := d.setGroup g { x with joining := false, joins := [] }
      if crcsEqual then
        (((d.setFld pFAB (gsts g) 63 60 gReady).setBit pFAB (gsts g) 53 anyV1).joinEnd 0x00).grantCredits g
      else (d.groupError g causeJoin).joinEnd 0x07

/-- A join is not complete within FAB_CTL.jto µs (R325). -/
def execGroupJoinTimeout (g : Fin 1024) (s : State) : Host.Outcome State Fault Refusal :=
  s.run fun d =>
    let x := d.group g
    d.when (x.joining && x.joinStart + d.fld pFAB rFAB_CTL.off 31 16 * 1000 ≤ d.now) fun d =>
      let d := (d.setGroup g { x with joining := false, joins := [] }).joinEnd 0x08
      if d.groupState g == gJoining then d.groupError g causeJoin else d

/-! ### Bellows engines -/

def Dev.bellowsQueue (d : Dev) (e : Nat) : List Submitted := Tab.get (fun _ => []) d.fab.queues e
def Dev.setBellowsQueue (d : Dev) (e : Nat) (q : List Submitted) : Dev :=
  Dev.setFld { d with fab := { d.fab with queues := Tab.set (fun _ => []) d.fab.queues e q } } pFAB (rFAB_BLW_STS.at e) 7 0
    q.length

/-- A descriptor joins the queue of an engine, when there is room (chapter 12, Bellows descriptors). -/
def Dev.bellowsSubmit (d : Dev) (e : Nat) (x : Submitted) : Option Dev :=
  let q := d.bellowsQueue e
  if 64 ≤ q.length then none else some (d.setBellowsQueue e (q ++ [x]))

/-- A write of FAB_BLWe_SUB; the descriptor acts for the partition whose granule holds it. -/
def execFabBlwSubWrite (a : Access) (e : Fin 4) (v : Word) (s : State) : Host.Outcome State Fault Refusal :=
  s.run fun d => d.regWrite a pFAB (rFAB_BLW_SUB.at e) true fun d =>
    let addr := bits v.toNat 47 0
    match d.bellowsSubmit e ⟨addr, (d.gran (addr / granBytes)).part, none⟩ with
    | some d => d
    | none => d.setBit pFAB (rFAB_BLW_STS.at e) 16 true

/-- Ranges of memory that a descriptor reads and writes on this member. -/
def BDesc.ranges (x : BDesc) (own : Nat) (blocks : List (Nat × Nat)) : List (Nat × Nat) :=
  let mine := ((blocks[own]?).getD (0, 0)).2
  let all := blocksEnd blocks
  let data := if x.op == opReduceScatter then [(x.src, all), (x.dst, mine)]
    else if x.op == opAllReduce then [(x.src, all), (x.dst, all)]
    else if x.op == opAllGather then [(x.src, mine), (x.dst, all)]
    else if x.op == opBroadcast then (if own == x.root then [(x.src, x.len)] else []) ++ [(x.dst, x.len)]
    else if x.op == opPut then [(x.src, x.len)]
    else []
  (if x.sts = 0 then data else (x.sts, 8) :: data).filter fun y => y.2 != 0

/-- The block table that a descriptor names, when the partition may read it. -/
def Dev.tableOf (d : Dev) (part : Nat) (bs : List Byte) : List (Nat × Nat) :=
  match BDesc.ofBytes bs with
  | none => []
  | some x =>
    let n := 16 * (d.group x.group).size
    if x.tbl && d.tierOk part (d.partWorld part) x.len n then [(x.len, n)] else []

/-- The checks of a descriptor (R328, R329, R332): a status, or what the accepted collective works on. -/
def Dev.checkDesc (d : Dev) (e part : Nat) (bs : List Byte) : Nat ⊕ (BDesc × List (Nat × Nat) × Nat) :=
  match BDesc.ofBytes bs with
  | none => .inl 0x01
  | some x =>
    let g := d.group x.group
    let w := d.partWorld part
    let n := g.size
    let st := d.groupState x.group
    if x.ember.testBit 15 && !d.ownsEmber part (bits x.ember 13 0) then .inl 0x01
    else if st == gFree || st == gJoining || x.eng != e || d.fld pFAB (gsts x.group) 49 48 != e || g.part != part then .inl 0x02
    else if (x.op == opBroadcast || x.op == opPut) && n ≤ x.root then .inl 0x01
    else if x.tbl && !(d.tierOk part w x.len (16 * n)) then .inl 0x03
    else
      let table := if x.tbl then d.loadNew x.len (16 * n) else []
      match x.blocks n table with
      | none => .inl 0x01
      | some blocks =>
        if !(x.ranges g.own blocks).all (fun y => d.tierOk part w y.1 y.2) then .inl 0x03
        else if st == gError then .inl 0x05
        else if x.turn && (x.op == opReduceScatter || x.op == opAllReduce) && d.bit pFAB (gsts x.group) 54 then .inl 0x07
        else .inr (x, blocks, x.digest table)

/-- A descriptor that fails its checks: its status word and its ember, as far as they lie in the partition. -/
def Dev.refuseDesc (d : Dev) (part : Nat) (bs : List Byte) (status : Nat) : Dev :=
  let sts := leNat ((bs.drop 32).take 8)
  let em := leNat ((bs.drop 40).take 2)
  let d := if sts != 0 && sts % 8 == 0 && d.tierOk part (d.partWorld part) sts 8 then d.put sts (natLe 8 status) false else d
  if em.testBit 15 && d.ownsEmber part (bits em 13 0) then d.signal1 part (bits em 13 0) else d

/-- An accepted descriptor becomes a collective or a put of its group and begins, and takes up what came for it; one that a
member has aborted already ends at once (R334). -/
def Dev.acceptDesc (d : Dev) (part : Nat) (x : BDesc) (blocks : List (Nat × Nat)) (digest : Nat) : Dev :=
  let g := x.group
  let seq := d.fld pFAB (gsts g) 31 0
  let c : Collective := { desc := x, blocks := blocks, part := part, digest := digest,
                          cseq := if x.op == opPut then d.fab.nextPut else seq }
  let d := if x.op == opPut then { d with fab := { d.fab with nextPut := d.fab.nextPut + 1 } }
    else d.setFld pFAB (gsts g) 31 0 ((seq + 1) % 2 ^ 32)
  let d := if x.turn && (x.op == opReduceScatter || x.op == opAllReduce) then d.setBit pFAB (gsts g) 54 true else d
  let d := (d.setActive g ((d.group g).active ++ [c])).phStart part x.phase
  let d := (d.setFld pFAB (rFAB_BLW_STS.at x.eng) 15 8 (d.fld pFAB (rFAB_BLW_STS.at x.eng) 15 8 + 1))
  match (d.group g).aborts.find? fun y => x.op != opPut && y.1 == c.cseq with
  | some y => d.endAll g y.2 fun z => z == c
  | none =>
    let d := d.begin g c
    if x.op == opPut then d else (((d.takeEarly g c.cseq).takeHeld g c.cseq)).snapAdvance g

/-- Groups of an engine with collectives in progress. -/
def Dev.busyGroups (d : Dev) (e : Nat) : Nat :=
  (d.fab.groups.filter fun x => !x.2.active.isEmpty && d.fld pFAB (gsts x.1) 49 48 == e).length

/-- A Bellows engine starts the descriptor at the head of its queue (R332): it is read, checked whole and accepted or
refused. The engine waits while the descriptor's line or its block table is re-fetched or on its way; a table left poisoned
gives status 0x04. -/
def execBellowsDescriptorStart (e : Fin 4) (s : State) : Host.Outcome State Fault Refusal :=
  s.run fun d => d.when (2 ≤ d.fld pMOD rMOD_SL.off 1 0 && !d.inTest ukEngine (pBLW e) && d.busyGroups e < 64) fun d =>
    match d.bellowsQueue e with
    | [] => d
    | y :: rest =>
      let part := y.part
      let fetch := y.bytes.isNone
      if fetch && !d.tierOk part (d.partWorld part) y.addr 64 then d.setBellowsQueue e rest
      else match d.readGate (if fetch then [(y.addr, 64)] else []) with
      | (d, .wait) => d
      | (d, .bad) => d.setBellowsQueue e rest
      | (d, .clear) =>
        let bs := d.descBytes y
        match d.readGate (d.tableOf part bs) with
        | (d, .wait) => d
        | (d, .bad) => (d.setBellowsQueue e rest).refuseDesc part bs 0x04
        | (d, .clear) =>
          match d.checkDesc e part bs with
          | .inl status => (d.setBellowsQueue e rest).refuseDesc part bs status
          | .inr (x, blocks, digest) => (d.setBellowsQueue e rest).acceptDesc part x blocks digest

/-- A collective segment arrives from another member (R315, R337, R338). -/
def execSegmentArrival (seg : Segment) (s : State) : Host.Outcome State Fault Refusal :=
  s.run fun d => d.when d.hears fun d => d.arriveSeg seg

/-- A collective or put of the group that has ended well, the oldest first, completes (R333): once what it wrote is visible, its
status word is written, then its ember signalled. -/
def execCollectiveComplete (g : Fin 1024) (s : State) : Host.Outcome State Fault Refusal :=
  s.run fun d => d.when true fun d =>
    match (d.group g).active.find? (d.collDone g) with
    | some c =>
      if d.collVisible c.part then ((d.setActive g ((d.group g).active.filter (· != c))).collEnd c 0x00).snapAll else d
    | none => d

/-- An abort of another member (R327, R334) ends the collective with its number here, at once or when it is accepted, with the
sender's status; after a sequence mismatch it ends all of the group in flight. -/
def execCollectiveAbortReceive (g : Fin 1024) (status : AbortStatus) (s : State) : Host.Outcome State Fault Refusal :=
  s.run fun d => d.when (d.hears && d.groupState g == gReady) fun d =>
    let n := status.cseq.toNat
    let st := status.status.toNat
    if st == 0x08 then (d.endAll g 0x08 fun c => c.desc.op != opPut).snapAll
    else match (d.group g).find n with
    | some c => (d.endAll g st fun x => x == c).snapAll
    | none =>
      let x := d.group g
      if x.aborted n || d.completed g n then d
      else d.setGroup g { x with aborts := x.aborts ++ [(n, st)] }

/-- A stopped collective goes on when its source can be read, and ends with 0x04 everywhere when a line is left poisoned
(R334). -/
def Dev.resumeColl (d : Dev) (g : Nat) (c : Collective) : Dev :=
  let x := d.group g
  match d.readGate (c.reads x.own x.size) with
  | (d, .wait) => d
  | (d, .bad) =>
    let e := (d.endAll g 0x04 fun x => x == c).snapAll
    if c.desc.op == opPut then e else e.abortAll g c.cseq 0x04
  | (d, .clear) =>
    if c.started then (d.setColl g { c with stopped := none }).takeHeld g c.cseq
    else ((d.begin g c).takeEarly g c.cseq).takeHeld g c.cseq

/-- An engine stopped on a poisoned source resumes or ends its collective (R334). -/
def execBellowsPoisonResume (g : Fin 1024) (s : State) : Host.Outcome State Fault Refusal :=
  s.run fun d => d.when true fun d => d.each ((d.group g).active.filter (·.stopped.isSome)) fun c e => e.resumeColl g c

/-! ### Embers and counts -/

/-- A remote ember operation arrives for a partition (R394): a target outside its range, of kind off, or itself remote,
discards it and counts it. -/
def execEmberOperationReceive (p : Fin 64) (e : Fin 16384) (op : EmberOp) (s : State) : Host.Outcome State Fault Refusal :=
  s.run fun d => d.when (d.hears) fun d =>
    if !d.ownsEmber p e || d.emberRemote e || d.emberKind e == ebOff || (d.emberKind e == ebBarrier && d.emberParties e == 0)
    then d.count (pPART p) rPART_STAT.off 31 16 1
    else d.applySignal p e op fun d => d.misfit p e

/-- A read of FAB_STAT, or of FAB_PERRn, returns and clears the counts (R338). -/
def execFabStatRead (a : Access) (port : Option (Fin 24)) (s : State) : Host.Outcome State Fault Refusal :=
  s.run fun d =>
    match port with
    | none => d.regRead a pFAB rFAB_STAT.off rFAB_STAT id
    | some n => d.regRead a pFAB (rFAB_PERR.at n) rFAB_PERR id

end Sys2Proof.Machine
end

