-- ==== Sys2Proof/Machine/Sampling.lean ====
section
/-! DEFINITION. The arithmetic of the Geyser: distributions, draws and the verification of drafts (R222 to R226). -/

namespace Sys2Proof.Machine

/-- A result rounded into FP32, without its flags. -/
def rnd (v : FVal) : FVal := (layFp32.convert v).1
def expR (v : FVal) : FVal := (satFn expVal v).1
def logR (v : FVal) : FVal := (satFn logVal v).1
def csumR (l : List FVal) : FVal := (csum l).1

/-- Largest of a list of values; −infinity for an empty one. -/
def maxVal (l : List FVal) : FVal := l.foldl (fun m v => if m.lt v then v else m) (.inf true)

/-- The sampling parameters of a request (R215). -/
structure Params where
  temp : FVal
  topP : FVal
  minP : FVal
  topK : Nat
deriving DecidableEq, Repr

/-- A modified distribution of R222: the tokens with a weight in ascending order, their normaliser, and what lpmod needs.
Under temperature 0 `point` holds the one token. -/
structure Dist where
  p : List (Nat × FVal)
  z : FVal
  dy : List FVal
  logz : FVal
  point : Option Nat
deriving DecidableEq, Repr

/-- A token put into a list sorted by weight, highest first, then by index. -/
def putByWeight (x : Nat × FVal) : List (Nat × FVal) → List (Nat × FVal)
  | [] => [x]
  | y :: t => if y.2.lt x.2 then x :: y :: t else y :: putByWeight x t

/-- Shortest prefix whose running sum reaches a threshold. -/
def topPrefix (t : FVal) : FVal → List (Nat × FVal) → List (Nat × FVal)
  | _, [] => []
  | run, x :: rest =>
    let r := rnd (run.add x.2)
    if t.le r then [x] else x :: topPrefix t r rest

/-- Weights in ascending index. -/
def byIndex (n : Nat) (l : List (Nat × FVal)) : List (Nat × FVal) :=
  (List.range n).filterMap fun i => l.find? fun x => x.1 == i

/-- The modified distribution of one row (R222); `none` when no token can be selected. -/
def distOf (l bias : List FVal) (q : Params) : Option Dist :=
  let y := (l.zip bias).map fun x => rnd (x.1.add x.2)
  if y.all fun v => v.isInf && v.isNeg then none
  else if q.temp.isZero then
    let m := maxVal y
    ((y.zipIdx).find? fun x => x.1.eq m).map fun g =>
      { p := [(g.2, .ofNat 1)], z := .ofNat 1, dy := [], logz := .zero false, point := some g.2 }
  else
    let y := y.map fun v => rnd (v.div q.temp)
    let m := maxVal y
    let dy := y.map fun v => rnd (v.sub m)
    let p := ((dy.map expR).zipIdx.map fun x => (x.2, x.1)).filter fun x => (FVal.zero false).lt x.2
    let kk := if 0 < q.topK then q.topK else if q.topP.lt (.ofNat 1) then 1024 else l.length
    let c := (p.foldl (fun s x => putByWeight x s) []).take kk
    let c := if q.topP.lt (.ofNat 1) then topPrefix (rnd (q.topP.mul (csumR (c.map Prod.snd)))) (.zero false) c else c
    let c := if (FVal.zero false).lt q.minP then c.filter fun x => !x.2.lt q.minP else c
    let c := byIndex l.length c
    if c.isEmpty then none
    else
      let z := csumR (c.map Prod.snd)
      some { p := c, z := z, dy := dy, logz := logR z, point := none }

/-- The weight of a token. -/
def Dist.weight (q : Dist) (t : Nat) : FVal := ((q.p.find? fun x => x.1 == t).map Prod.snd).getD (.zero false)

/-- The modified log-probability of a token (R222); −infinity for one outside the distribution. -/
def Dist.lpmod (q : Dist) (t : Nat) : FVal :=
  match q.point with
  | some g => if t = g then .zero false else .inf true
  | none => if (q.weight t).isZero then .inf true else rnd (((q.dy[t]?).getD (.inf true)).sub q.logz)

/-- The raw log-probability of a token in a row (R222). -/
def lpraw (l : List FVal) (t : Nat) : FVal :=
  let mr := maxVal l
  let dy := l.map fun v => rnd (v.sub mr)
  match l[t]? with
  | some v => rnd ((rnd (v.sub mr)).sub (logR (csumR (dy.map expR))))
  | none => .inf true

/-- The 24 random bits of a draw (R223): sub-index 0 for a sampling draw, 1 for an acceptance draw. -/
def drawBits (seed a ident element : Nat) : Nat := bits (draw128 seed 3 a 0 0 ident element) 31 8

/-- The token at which the running sum first exceeds a fraction r / 2^24 of the total. -/
def walk (r : Nat) (tot : FVal) : FVal → List (Nat × FVal) → Option Nat
  | _, [] => none
  | cum, x :: rest =>
    let c := rnd (cum.add x.2)
    if (tot.mul (.ofNat r)).lt (c.scale 24) then some x.1 else walk r tot c rest

/-- `draw_token` of R223 from weights in ascending index. -/
def drawToken (seed ident element : Nat) (w : List (Nat × FVal)) : Nat :=
  let w := w.filter fun x => (FVal.zero false).lt x.2
  (walk (drawBits seed 0 ident element) (csumR (w.map Prod.snd)) (.zero false) w).getD ((w.getLast?.map Prod.fst).getD 0)

/-- What verification needs of one request. -/
structure Verify where
  seed : Nat
  ident : Nat
  nout : Nat
  /-- Modified distributions of main rows lrow to lrow + nd'. -/
  main : List (Option Dist)
  /-- Each draft token, with the weights and normaliser from which it was drawn; none where its row has no selectable
  token. -/
  draft : List (Nat × Option (List (Nat × FVal) × FVal))
  vocab : Nat
deriving DecidableEq, Repr

/-- The weight a token has in a list of weights. -/
def weightIn (l : List (Nat × FVal)) (t : Nat) : FVal := ((l.find? fun x => x.1 == t).map Prod.snd).getD (.zero false)

/-- The residual weights after a rejection (R225). -/
def residual (q : Dist) (pd : List (Nat × FVal)) (zd : FVal) : List (Nat × FVal) :=
  q.p.map fun x =>
    let v := rnd ((x.2.mul zd).sub ((weightIn pd x.1).mul q.z))
    (x.1, if (FVal.zero false).lt v then v else .zero false)

/-- The verification of drafts from number j on (R225): emitted tokens with their row, and how many drafts were accepted;
`none` when a row that it reaches, a main row or a draft row, has no selectable token. -/
def Verify.run (v : Verify) :
    Nat → List (Option Dist) → List (Nat × Option (List (Nat × FVal) × FVal)) → Option (List (Nat × Nat) × Nat)
  | j, q :: qs, d :: ds =>
    match q, d.2 with
    | some q, some w =>
      let r := drawBits v.seed 1 v.ident (v.nout + j)
      if ((weightIn w.1 d.1).mul q.z |>.mul (.ofNat r)).lt (((q.weight d.1).mul w.2).scale 24) then
        (Verify.run v (j + 1) qs ds).map fun x => ((d.1, j) :: x.1, x.2 + 1)
      else
        let u := residual q w.1 w.2
        some ([(if u.all fun x => x.2.isZero then d.1 else drawToken v.seed v.ident (v.nout + j) u, j)], 0)
    | _, _ => none
  | j, q :: _, [] => q.map fun q => ([(drawToken v.seed v.ident (v.nout + j) q.p, j)], 0)
  | _, [], _ => none

end Sys2Proof.Machine
end

