-- ==== Sys2Proof/Machine/Generation.lean ====
section
/-! DEFINITION. The request arbiter, the Geysers and the Damper (chapter 08). -/

namespace Sys2Proof.Machine

/-! ### Request records (R215) -/

def Dev.reqAt (d : Dev) (p n : Nat) : Nat := d.fld (pGEN p) rGEN_REQ.off 31 0 * 0x10000 + 128 * n
def Dev.nreq (d : Dev) (p : Nat) : Nat := d.fld (pGEN p) rGEN_REQ.off 47 32
def Dev.reqWord (d : Dev) (p n : Nat) : Nat := d.loadNatNew (d.reqAt p n) 8
def Dev.reqState (d : Dev) (p n : Nat) : Nat := bits (d.reqWord p n) 63 60
def Dev.setReqWord (d : Dev) (p n v : Nat) : Dev := d.storeNat (d.reqAt p n) 8 v
def Dev.reqSeq (d : Dev) (p n : Nat) : Nat := bits (d.loadNatNew (d.reqAt p n + 20) 4) 13 0

def rqFree : Nat := 0
def rqRunning : Nat := 1
def rqFinished : Nat := 2
def rqCancelled : Nat := 3
def rqFailed : Nat := 4

/-- The state word of R215. -/
def stateWord (state reason nout epoch : Nat) : Nat := state * 2 ^ 60 + reason * 2 ^ 56 + nout * 2 ^ 32 + epoch

/-- The draft fields of bytes 44 to 47. -/
def Dev.reqDraft (d : Dev) (p n : Nat) : Nat := d.loadNatNew (d.reqAt p n + 44) 4
def draftWord (allowed probe wcount whead : Nat) : Nat := allowed + probe * 2 ^ 4 + wcount * 2 ^ 11 + whead * 2 ^ 17
def Dev.setReqDraft (d : Dev) (p n v : Nat) : Dev := d.storeNat (d.reqAt p n + 44) 4 v
def Dev.reqDmax (d : Dev) (p n : Nat) : Nat := bits (d.loadNatNew (d.reqAt p n + 40) 4) 27 24

def Dev.reqParams (d : Dev) (p n : Nat) : Params :=
  let a := d.reqAt p n
  { temp := f32c (d.loadNatNew (a + 28) 4), topP := f32c (d.loadNatNew (a + 32) 4), minP := f32c (d.loadNatNew (a + 36) 4),
    topK := bits (d.loadNatNew (a + 40) 4) 10 0 }

/-- Do the fields that the runtime wrote lie in the ranges of R215? -/
def Dev.reqSound (d : Dev) (p n : Nat) : Bool :=
  let a := d.reqAt p n
  let q := d.reqParams p n
  let w := d.loadNatNew (a + 40) 4
  let zero := FVal.zero false
  let one := FVal.ofNat 1
  1 ≤ bits (d.loadNatNew (a + 24) 4) 19 0 && !q.temp.isNan && !q.temp.isInf && zero.le q.temp && zero.lt q.topP && q.topP.le one
    && zero.le q.minP && q.minP.le one && q.topK ≤ 1024 && bits w 27 24 ≤ 8

/-- A request leaves running (R217, R221): its pin is released and its sequence will be freed at the next boundary. -/
def Dev.reqLeaves (d : Dev) (p n epoch : Nat) : Dev :=
  let x := d.part p
  let pi := d.fld (pCACHE p) rCACHE_CQ_IDX.off 15 0
  Dev.unpinEpoch (d.setPart p { x with running := x.running - 1, frees := x.frees ++ [(pi, d.reqSeq p n)] }) p epoch

/-! ### Commands (R216) -/

/-- A command of GEN_CMD, executed at once: its result goes to GEN_CMD_STS. -/
def Dev.genCommand (d : Dev) (a : Access) (p : Nat) (v : Word) (work : Dev → Nat → Dev × Nat) : Dev :=
  d.regWrite a (pGEN p) rGEN_CMD.off true fun d =>
    let n := bits v.toNat 15 0
    let r := if d.nreq p ≤ n then (d, 0x02) else work d n
    r.1.setFld (pGEN p) rGEN_CMD_STS.off 7 0 r.2

def genOp (v : Word) : Nat := bits v.toNat 63 60

/-- The context whose generator mode decides for the arbiter: the current one, or 0 when none is current (R217). -/
def Dev.genContext (d : Dev) (p : Nat) : Nat := (d.part p).current.getD 0

/-- admit (R216, R217, R288). -/
def Dev.admitReq (d : Dev) (p n : Nat) : Dev × Nat :=
  if d.reqState p n != rqFree then (d, 0x03)
  else if !d.reqSound p n then (d, 0x04)
  else match d.currentSlot p with
  | none => (d, 0x03)
  | some i =>
    let epoch := d.slotEpoch p i
    let d := d.pin p i
    let d := if d.loadNatNew (d.reqAt p n + 8) 8 = 0 && d.bit (pLRN p) (rLRN_GEN.at (d.genContext p)) 0 then
        d.draw.1.storeNat (d.reqAt p n + 8) 8 d.draw.2.toNat
      else d
    let d := d.setReqDraft p n (draftWord (d.reqDmax p n) 0 0 (bits (d.reqDraft p n) 21 17))
    let d := d.setReqWord p n (stateWord rqRunning 0 0 epoch)
    (d.setPart p { d.part p with running := (d.part p).running + 1 }, 0)

def execAdmitReq (a : Access) (p : Fin 64) (v : Word) (s : State) : Host.Outcome State Fault Refusal :=
  s.run fun d => if genOp v != 1 then d else d.genCommand a p v fun d n => d.admitReq p n

/-- cancel (R216). -/
def execCancel (a : Access) (p : Fin 64) (v : Word) (s : State) : Host.Outcome State Fault Refusal :=
  s.run fun d => if genOp v != 2 then d else d.genCommand a p v fun d n =>
    if d.reqState p n != rqRunning then (d, 0)
    else
      let w := d.reqWord p n
      ((d.setReqWord p n (putBits w 63 60 rqCancelled)).reqLeaves p n (bits w 31 0), 0)

/-- release (R216). -/
def execRelease (a : Access) (p : Fin 64) (v : Word) (s : State) : Host.Outcome State Fault Refusal :=
  s.run fun d => if genOp v != 3 then d else d.genCommand a p v fun d n =>
    let st := d.reqState p n
    if st = rqFinished || st = rqCancelled || st = rqFailed then (d.setReqWord p n (putBits (d.reqWord p n) 63 60 rqFree), 0)
    else (d, 0x03)

/-- draft on (R216). -/
def execDraftOn (a : Access) (p : Fin 64) (v : Word) (s : State) : Host.Outcome State Fault Refusal :=
  s.run fun d => if genOp v != 4 then d else d.genCommand a p v fun d n => (d.setReqDraft p n (draftWord (d.reqDmax p n) 0 0 0), 0)

/-! ### Geyser descriptors (R218, R219) -/

def Dev.geyser (d : Dev) (n : Nat) : Geyser := Tab.get (fun _ => {}) d.geysers n
def Dev.setGeyser (d : Dev) (n : Nat) (g : Geyser) : Dev := { d with geysers := Tab.set (fun _ => {}) d.geysers n g }

/-- A descriptor joins the queue of a die's Geyser, when there is room. -/
def Dev.geyserSubmit (d : Dev) (n : Nat) (x : Submitted) : Option Dev :=
  let g := d.geyser n
  if 16 ≤ g.queue.length then none else some (d.setGeyser n { g with queue := g.queue ++ [x] })

structure GDesc where
  logits : Nat
  fmt : Nat
  dmode : Bool
  last : Bool
  rows : Nat
  nrows : Nat
  compl : Nat
  vocab : Nat
  epoch : Nat
  step : Nat
  ember : Nat
  emberOn : Bool
  ok : Bool
deriving DecidableEq, Repr

def GDesc.ofBytes (bs : List Byte) : GDesc :=
  let w := fun i => leNat ((bs.drop (8 * i)).take 8)
  let e := bits (w 5) 15 0
  { logits := bits (w 0) 47 0, fmt := bits (w 0) 51 48, dmode := (w 0).testBit 52, last := (w 0).testBit 53,
    rows := bits (w 1) 47 0, nrows := bits (w 1) 63 48, compl := bits (w 2) 47 0, vocab := bits (w 3) 18 0,
    epoch := bits (w 3) 63 32, step := w 4, ember := bits e 13 0, emberOn := e.testBit 15,
    ok := bits (w 0) 63 54 == 0 && bits (w 2) 63 48 == 0 && bits (w 3) 31 19 == 0 && !e.testBit 14
      && leNat (bs.drop 42) == 0 && bits (w 0) 7 0 == 0 && bits (w 1) 5 0 == 0 && bits (w 2) 7 0 == 0
      && 1 ≤ bits (w 1) 63 48 && bits (w 1) 63 48 ≤ 4096 && 1 ≤ bits (w 3) 18 0 && bits (w 3) 18 0 ≤ 262144 }

/-- Bytes of one logit, and of one logits row with its padding. -/
def GDesc.eb (g : GDesc) : Nat := if g.fmt = 0 then 4 else 2
def GDesc.stride (g : GDesc) : Nat := (g.vocab * g.eb + 255) / 256 * 256

structure RowEntry where
  req : Nat
  nd : Nat
  degraded : Bool
  lrow : Nat
  drow : Nat
  base : Nat
  draft : List Nat
  ok : Bool
deriving DecidableEq, Repr

def RowEntry.ofBytes (bs : List Byte) : RowEntry :=
  let w := fun i => leNat ((bs.drop (4 * i)).take 4)
  { req := bits (w 0) 15 0, nd := bits (w 0) 19 16, degraded := (w 0).testBit 20, lrow := bits (w 1) 23 0,
    drow := bits (w 2) 23 0, base := bits (w 3) 19 0, draft := (List.range 8).map fun i => bits (w (4 + i)) 17 0,
    ok := bits (w 0) 19 16 ≤ 8 && bits (w 0) 31 21 == 0 && bits (w 1) 31 24 == 0 && bits (w 2) 31 24 == 0
      && bits (w 3) 31 20 == 0 && (List.range 8).all (fun i => bits (w (4 + i)) 31 18 == 0) && leNat (bs.drop 48) == 0 }

def Dev.rowEntry (d : Dev) (g : GDesc) (i : Nat) : RowEntry := .ofBytes (d.load (g.rows + 64 * i) 64)

/-- Logits rows that a row entry names: first row and count. -/
def RowEntry.spans (e : RowEntry) (dmode : Bool) : List (Nat × Nat) :=
  (e.lrow, e.nd + 1) :: (if dmode && e.nd != 0 then [(e.drow, e.nd)] else [])

/-- The code with which a descriptor is refused whole; 0 for a sound one (R220). -/
def Dev.geyserCode (d : Dev) (p : Nat) (g : GDesc) : Nat :=
  let form := (if g.ok then [] else [0x02]) ++ (if g.fmt ≤ 1 then [] else [0x09])
    ++ (if g.emberOn && !d.ownsEmber p g.ember then [0x06] else [])
  let codes :=
    if !form.isEmpty then form
    else
      let w := d.partWorld p
      let areas := [d.rangeCode p w g.rows (64 * g.nrows), d.rangeCode p w g.compl (256 * g.nrows)]
      if areas.any (· != 0) then areas
      else
        let es := (List.range g.nrows).map (d.rowEntry g)
        (if es.all RowEntry.ok then [] else [0x02]) ++ es.flatMap fun e => (e.spans g.dmode).map fun r =>
          d.rangeCode p w (g.logits + r.1 * g.stride) ((r.2 - 1) * g.stride + g.vocab * g.eb)
  match codes.filter (· != 0) with
  | [] => 0
  | c :: cs => cs.foldl min c

/-- Is the request of row i running, as the row is reached? -/
def Dev.rowRunning (d : Dev) (p : Nat) (g : GDesc) (i : Nat) : Bool :=
  let n := (d.rowEntry g i).req
  n < d.nreq p && d.reqState p n == rqRunning

/-- The Geyser of a die takes its next descriptor, or refuses it whole (R218, R220). -/
def execGeyserDescriptorStart (die : Fin 8) (s : State) : Host.Outcome State Fault Refusal :=
  s.run fun d =>
    let x := d.geyser die
    match x.active, x.queue with
    | none, y :: rest => d.when (!d.inTest ukEngine (pGEY die)) fun d =>
      let p := y.part
      let g := GDesc.ofBytes (d.descBytes y)
      let code := d.geyserCode p g
      if code != 0 then
        (((d.setGeyser die { x with queue := rest }).count (pPART p) rPART_STAT.off 15 0 1).partEvt p evFault).log (pGEY die)
          { code := 0x80, detail := code, addr := y.addr, part := p, world := d.partWorld p }
      else
        let z : Geyser := { queue := rest, active := some y, running := d.rowRunning p g 0 }
        (d.setGeyser die z).phStart p phGenerate
    | _, _ => d

/-! ### Rows (R220 to R228) -/

/-- The draft cap of a step (R224, R232): the budget published for it, else the last published. -/
def Dev.draftCap (d : Dev) (p step : Nat) : Nat :=
  match (d.part p).budgets.find? fun x => x.1 == step % 2 ^ 32 with
  | some x => x.2 - 1
  | none => d.fld (pGEN p) rDAMP_BUDGET.off 27 24

/-- The bias of every token of a vocabulary (R222); an entry with token 0 ends the table. -/
def biasRow (bs : List Byte) (vocab : Nat) : List FVal :=
  let es := ((List.range 256).map fun i => leNat ((bs.drop (8 * i)).take 8)).takeWhile fun w => bits w 17 0 != 0
  (List.range vocab).map fun t => ((es.find? fun w => bits w 17 0 == t).map fun w => f32c (bits w 63 32)).getD (.zero false)

/-- A logits row. -/
def Dev.logitsRow (d : Dev) (g : GDesc) (r : Nat) : List FVal :=
  (List.range g.vocab).map fun i =>
    let n := d.loadNat (g.logits + r * g.stride + g.eb * i) g.eb
    if g.fmt = 0 then f32c n else layBf16.value n

/-- The end of a row: its status, what it emitted, and what the record says after it. -/
structure RowEnd where
  status : Nat
  trunc : Bool := false
  nacc : Nat := 0
  keep : Nat := 0
  tokens : List (Nat × FVal × FVal) := []
deriving DecidableEq, Repr

/-- The completion record of R220. -/
def completion (e : RowEntry) (x : RowEnd) (state reason : Nat) : List Byte :=
  let head := natLe 4 (x.status + x.tokens.length * 2 ^ 8 + b2n x.trunc * 2 ^ 12 + b2n e.degraded * 2 ^ 13 + state * 2 ^ 16
      + reason * 2 ^ 20 + x.nacc * 2 ^ 24) ++ natLe 4 (x.keep % 2 ^ 20) ++ natLe 4 e.req ++ natLe 4 0
  let toks := x.tokens.flatMap fun t => natLe 4 t.1 ++ natLe 4 (toF32 t.2.1).toNat ++ natLe 4 (toF32 t.2.2).toNat ++ natLe 4 0
  head ++ toks ++ List.replicate (256 - (head ++ toks).length) 0

/-- Finishing tests of R227 after a token: the reason, or 0. -/
def Dev.finishReason (d : Dev) (p n tok nout len : Nat) : Nat :=
  let a := d.reqAt p n
  if (List.range 8).any fun i => let w := d.loadNatNew (a + 80 + 4 * i) 4; w.testBit 31 && bits w 17 0 == tok then 1
  else if bits (d.loadNatNew (a + 24) 4) 19 0 ≤ nout then 2
  else if min 1048575 (4096 * d.cSpan p) ≤ len then 3
  else 0

/-- Tokens committed in emission order until one finishes the request (R227): how many, and the reason. -/
def Dev.commitTokens (d : Dev) (p n base : Nat) : Nat → Nat → List Nat → Nat × Nat
  | _, k, [] => (k, 0)
  | nout, k, t :: ts =>
    let r := d.finishReason p n t (nout + 1) (base + 1 + k)
    if r != 0 then (k + 1, r) else Dev.commitTokens d p n base (nout + 1) (k + 1) ts

/-- The draft window after a committed row (R226): the row's fields and window bytes. -/
def Dev.draftWindow (d : Dev) (p n nd nacc : Nat) (probeRow : Bool) : Dev :=
  let thr := d.fld (pGEN p) rGEN_DRAFT.off 15 8
  let w := d.reqDraft p n
  let allowed := bits w 3 0
  let probe := bits w 10 4
  let wcount := bits w 16 11
  let whead := bits w 21 17
  let win := d.reqAt p n + 48
  let d := if nd = 0 then d else d.storeNat (win + whead) 1 (nd + nacc * 16)
  let wcount' := if nd = 0 then wcount else min 32 (wcount + 1)
  let whead' := if nd = 0 then whead else (whead + 1) % 32
  let es := (List.range 32).map fun i => d.loadNatNew (win + i) 1
  let low := nd != 0 && wcount' == 32 && (es.map fun x => bits x 7 4).sum * 256 < thr * (es.map fun x => bits x 3 0).sum
  let d := if low then d.store win (List.replicate 32 0) else d
  let after := if low then (0, 64, 0, 0) else (allowed, probe, wcount', whead')
  let ap :=
    if allowed != 0 then (after.1, after.2.1)
    else if probeRow then (if nd != 0 && thr * nd ≤ nacc * 256 then (d.reqDmax p n, probe) else (0, 64))
    else (0, probe - 1)
  d.setReqDraft p n (draftWord ap.1 ap.2 after.2.2.1 after.2.2.2)

/-- The outcome of a row of a running request with sound parameters and readable logits, computed and committed against
its state word (R222 to R228). -/
def Dev.commitRow (d : Dev) (p : Nat) (g : GDesc) (e : RowEntry) (nd : Nat) (probeRow : Bool) (bias : List FVal) : Dev × RowEnd :=
  let n := e.req
  let w := d.reqWord p n
  let main := (List.range (nd + 1)).map fun j => d.logitsRow g (e.lrow + j)
  let drafts := if g.dmode then (List.range nd).map fun j => d.logitsRow g (e.drow + j) else []
  if (main ++ drafts).any fun l => l.any FVal.isNan then (d, { status := 0x04, trunc := nd < e.nd, keep := e.base })
  else
    let q := d.reqParams p n
    let dists := main.map fun l => distOf l bias q
    let ds := (List.range nd).map fun j =>
      let t := (e.draft[j]?).getD 0
      if g.dmode then
        (t, (distOf ((drafts[j]?).getD []) bias q).map fun x => (x.p, x.z))
      else (t, some ([(t, FVal.ofNat 1)], FVal.ofNat 1))
    let nout := bits w 51 32
    let v : Verify := { seed := d.loadNatNew (d.reqAt p n + 8) 8, ident := d.loadNatNew (d.reqAt p n + 16) 4, nout := nout, main := dists,
                        draft := ds, vocab := g.vocab }
    match v.run 0 dists ds with
    | none =>
      let d := d.setReqWord p n (stateWord rqFailed 4 nout (bits w 31 0))
      (d.reqLeaves p n (bits w 31 0), { status := 0x05, trunc := nd < e.nd, keep := e.base })
    | some (toks, nacc) =>
      let c := d.commitTokens p n e.base nout 0 (toks.map Prod.fst)
      let out := (toks.take c.1).map fun t =>
        (t.1, lpraw ((main[t.2]?).getD []) t.1, (((dists[t.2]?).getD none).map fun x => x.lpmod t.1).getD (.inf true))
      let keep := e.base + 1 + nacc
      let state := if c.2 = 0 then rqRunning else rqFinished
      let d := (d.draftWindow p n nd nacc probeRow).setReqWord p n (stateWord state c.2 (nout + c.1) (bits w 31 0))
      let d := d.setPart p { d.part p with keeps := (d.part p).keeps ++ [(d.reqSeq p n, keep)] }
      let d := if c.2 = 0 then d else d.reqLeaves p n (bits w 31 0)
      (d, { status := 0, trunc := nd < e.nd, nacc := nacc, keep := keep, tokens := out })

/-- What a row meets before it is computed: its status and whether its drafts were cut, a wait, with whether it is one for
poisoned lines, or the draft length and bias with which it goes on (R220, R224, R226, R230). -/
inductive RowStart where
  | ends (status : Nat) (trunc : Bool)
  | waits (poison : Bool)
  | goes (nd : Nat) (probeRow : Bool) (bias : List FVal)
deriving DecidableEq, Repr

/-- Does another Geyser of the device still hold a row of the request of an earlier step (R227; log entry 27)? -/
def Dev.earlierRow (d : Dev) (die p step n : Nat) : Bool :=
  (List.range 8).any fun o =>
    let x := d.geyser o
    let has_ := fun (y : Submitted) (from_ : Nat) =>
      let g := GDesc.ofBytes (d.descBytes y)
      y.part == p && g.step < step && (List.range g.nrows).any fun i => from_ ≤ i && (d.rowEntry g i).req == n
    o != die && (x.active.any (fun y => has_ y x.row) || x.queue.any fun y => has_ y 0)

/-- Ranges that row i of a descriptor reads, with nd draft tokens and a bias table at ba. -/
def GDesc.rowReads (g : GDesc) (i : Nat) (e : RowEntry) (nd : Nat) (ba : Option Nat) : List (Nat × Nat) :=
  let row := fun r => (g.logits + r * g.stride, g.vocab * g.eb)
  (g.rows + 64 * i, 64) :: (ba.toList.map fun a => (a, 2048)) ++ (List.range (nd + 1)).map (fun j => row (e.lrow + j))
    ++ (if g.dmode then (List.range nd).map fun j => row (e.drow + j) else [])

def Dev.rowStart (d : Dev) (die p : Nat) (g : GDesc) (i : Nat) (wasRunning : Bool) : Dev × RowStart :=
  let e := d.rowEntry g i
  let n := e.req
  let twice := 1 < ((List.range g.nrows).filter fun j => (d.rowEntry g j).req == n).length
  if d.scratchBusy (g.compl + 256 * i) 256 true then (d, .waits false)
  else if d.nreq p ≤ n || twice || !d.tierOk p (d.partWorld p) (d.reqAt p n) 128 then (d, .ends 0x06 false)
  else if d.earlierRow die p g.step n then (d, .waits false)
  else if d.reqState p n != rqRunning then
    (d, .ends (if wasRunning && d.reqState p n == rqCancelled then 0x01 else 0x02) false)
  else if bits (d.reqWord p n) 31 0 != g.epoch then (d, .ends 0x03 false)
  else if !d.reqSound p n then (d, .ends 0x08 false)
  else
    let w := d.reqDraft p n
    let probeRow := bits w 3 0 == 0 && bits w 10 4 == 0
    let allowed := if probeRow then d.fld (pGEN p) rGEN_DRAFT.off 3 0 else bits w 3 0
    let nd := min (min e.nd allowed) (min (d.draftCap p g.step) (63 - e.base % 64))
    let table := bits (d.loadNatNew (d.reqAt p n + 40) 4) 23 16
    let ba := if table = 0 then none else some (d.fld (pGEN p) rGEN_BIAS.off 31 0 * 0x10000 + 2048 * table)
    if ba.any fun a => !d.tierOk p (d.partWorld p) a 2048 then (d, .ends 0x08 (nd < e.nd))
    else
      let rs := g.rowReads i e nd ba
      match d.readGate rs with
      | (d, .wait) => (d, .waits (rs.any fun r => d.poisoned r.1 r.2))
      | (d, .bad) => (d, .ends 0x07 (nd < e.nd))
      | (d, .clear) => (d.engineReads p rs, .goes nd probeRow (match ba with
          | none => List.replicate g.vocab (.zero false)
          | some a => biasRow (d.load a 2048) g.vocab))

/-- The record of a finished row is written, and the next row is reached (R220, R233). -/
def Dev.endRow (d : Dev) (die p : Nat) (g : GDesc) (x : Geyser) (e : RowEntry) (r : RowEnd) : Dev :=
  let known := e.req < d.nreq p && d.tierOk p (d.partWorld p) (d.reqAt p e.req) 128
  let w := d.reqWord p e.req
  let d := d.put (g.compl + 256 * x.row) (completion e r (if known then bits w 63 60 else 0) (if known then bits w 59 56 else 0)) false
  let d := if e.degraded then d.count (pGEN p) rDAMP_STAT.off 31 0 1 else d
  let next := x.row + 1
  d.setGeyser die { x with row := next, held := false, finished := g.nrows ≤ next,
                           running := next < g.nrows && d.rowRunning p g next }

/-- The row in progress is worked as far as it can be. -/
def Dev.workRow (d : Dev) (die : Nat) : Dev :=
  let x := d.geyser die
  match x.active with
  | none => d
  | some y =>
    if x.finished then d
    else
      let p := y.part
      let g := GDesc.ofBytes (d.descBytes y)
      let e := d.rowEntry g x.row
      let r := d.rowStart die p g x.row x.running
      match r.2 with
      | .ends st cut => r.1.endRow die p g x e { status := st, trunc := cut, keep := e.base }
      | .waits held => r.1.setGeyser die { x with held := held }
      | .goes nd probeRow bias =>
        let y := r.1.commitRow p g e nd probeRow bias
        y.1.endRow die p g x e y.2

def execGeyserRowCommit (die : Fin 8) (s : State) : Host.Outcome State Fault Refusal :=
  s.run fun d => d.when (!(d.geyser die).held) fun d => d.workRow die

/-- A held row is looked at again (R230). -/
def execGeyserPoisonResume (die : Fin 8) (s : State) : Host.Outcome State Fault Refusal :=
  s.run fun d => d.when (d.geyser die).held fun d => (d.setGeyser die { d.geyser die with held := false }).workRow die

/-- A last-marked descriptor of a step is committed (R231). -/
def Dev.stepLast (d : Dev) (p step : Nat) : Dev :=
  let need := max 1 (d.fld (pGEN p) rDAMP_CTL.off 55 52)
  let x := d.part p
  d.setPart p { x with damp := x.damp.map fun y =>
    if y.k.toNat == step && y.ended.isNone then
      { y with last := y.last + 1, ended := if need ≤ y.last + 1 then some d.now else none }
    else y }

/-- Every record of the descriptor is visible (R220): its ember is signalled and the Geyser is free. -/
def execGeyserDescriptorDone (die : Fin 8) (s : State) : Host.Outcome State Fault Refusal :=
  s.run fun d =>
    let x := d.geyser die
    match x.active with
    | none => d
    | some y =>
      let p := y.part
      let g := GDesc.ofBytes (d.descBytes y)
      d.when (x.finished && d.rangeVisible g.compl (256 * g.nrows)) fun d =>
      let d := (d.setGeyser die { queue := x.queue }).phEnd p phGenerate
      let d := if g.last then d.stepLast p g.step else d
      if g.emberOn then d.signal1 p g.ember else d

/-! ### The Damper (R231 to R234) -/

/-- A write of k to DAMP_STEP starts step k; while a step boundary still works, step k starts at its end (R204). -/
def execDampStepWrite (a : Access) (p : Fin 64) (v : Word) (s : State) : Host.Outcome State Fault Refusal :=
  s.run fun d => d.regWrite a (pGEN p) rDAMP_STEP.off true fun d =>
    let d := d.wr (pGEN p) rDAMP_STEP.off v.toNat
    if (d.part p).boundary then d.setPart p { d.part p with heldSteps := (d.part p).heldSteps ++ [v] } else d.startStep p v

/-- Debt and level at a step end, and the budget published for the next step (R232, R233). -/
def Dev.endStep (d : Dev) (p : Nat) (k : Word) (t : Nat) : Dev :=
  let page := pGEN p
  let ctl := rDAMP_CTL.off
  let period := d.fld page ctl 31 16 * 1000
  let debt := min (d.fld page ctl 15 0 * 1000) (d.rd page rDAMP_DEBT.off + t - period)
  let quantum := max 1 (d.fld page ctl 47 32) * 1000
  let level := match d.fld page ctl 63 62 with
    | 1 => min 7 ((debt + quantum - 1) / quantum)
    | 2 => d.fld page ctl 61 59
    | _ => 0
  let lvl := d.rd page (rDAMP_LVL.at level)
  let step := (k.toNat + 1) % 2 ^ 32
  let d := if period < t then d.count page rDAMP_STAT.off 63 48 1 else d
  let d := (d.wr page rDAMP_DEBT.off debt).wr page rDAMP_BUDGET.off
    (step * 2 ^ 32 + level * 2 ^ 29 + bits lvl 35 32 * 2 ^ 24 + bits lvl 23 0)
  d.setPart p { d.part p with budgets := Tab.set (fun _ => 0) (d.part p).budgets step (bits lvl 35 32 + 1) }

/-- The last descriptor of step k has been committed (R232). -/
def execDamperStepEnd (p : Fin 64) (k : Word) (s : State) : Host.Outcome State Fault Refusal :=
  s.run fun d => d.when true fun d =>
    match (d.part p).damp.find? fun y => y.k == k with
    | some y =>
      match y.ended with
      | some t => (d.setPart p { d.part p with damp := (d.part p).damp.filter fun y => y.k != k }).endStep p k (t - y.start)
      | none => d
    | none => d

/-- A write of DAMP_CTL (R234): while a request runs, only mode and level take; mode 11b is ignored. -/
def execDampCtlWrite (a : Access) (p : Fin 64) (v : Word) (s : State) : Host.Outcome State Fault Refusal :=
  s.run fun d => d.regWrite a (pGEN p) rDAMP_CTL.off false fun d =>
    let old := d.rd (pGEN p) rDAMP_CTL.off
    let e := d.store8 a (pGEN p) rDAMP_CTL.off rDAMP_CTL v
    let e := if (d.part p).running = 0 then e
      else e.setFld (pGEN p) rDAMP_CTL.off 58 0 (bits old 58 0)
    if e.fld (pGEN p) rDAMP_CTL.off 63 62 = 3 then e.setFld (pGEN p) rDAMP_CTL.off 63 62 (bits old 63 62) else e

def execDampStatRead (a : Access) (p : Fin 64) (s : State) : Host.Outcome State Fault Refusal :=
  s.run fun d => d.regRead a (pGEN p) rDAMP_STAT.off rDAMP_STAT id

end Sys2Proof.Machine
end

