-- ==== Sys2Proof/Machine/CoreMove.lean ====
section
/-! DEFINITION. Movement instructions, and the commit of a tile's outputs (R53, R74, R149 to R153, R185, R186). -/

namespace Sys2Proof.Machine

/-! ### TLD -/

/-- A count that breaks R149. -/
def badCount (n : Nat) : Bool := n % 256 != 0 || n < 256 || spSize < n

def tldSrc (d : Dev) (k : Nat) (i : Ins) : Nat := d.devAddr k i.a (bits i.imm 63 24)
def tldDst (d : Dev) (k : Nat) (i : Ins) : Nat := d.spAddr k i.d (bits i.imm 23 0)

/-- May the copy be served from the KV4 shadow (R185, R463)? -/
def Dev.mayShadow (d : Dev) (k : Nat) (kind src n : Nat) : Bool :=
  whereIs src == .tier && kind == 2 && (d.modes k).degraded && (granules src n).all fun g => (d.gran g).valid && (d.gran g).shadow

/-- The ranges of the KV4 shadow of a range, granule by granule (R186). -/
def Dev.shadowRanges (d : Dev) (src n : Nat) : List (Nat × Nat) :=
  (pieces granBytes src n).filterMap fun r => (d.shadowAddr r.1).map fun a => (a, r.2 / 2)

/-- The bytes of the KV4 shadow of a range (R186). -/
def Dev.shadowBytes (d : Dev) (src n : Nat) : List Byte := (d.shadowRanges src n).flatMap fun r => d.load r.1 r.2

/-- May an agent of a partition read the shadow of a range: 0, or the lowest code of R120? -/
def Dev.shadowCode (d : Dev) (p src n : Nat) : Nat :=
  lowestCode ((d.shadowRanges src n).map fun r =>
    (d.accessCode p (d.partWorld p) r.1 r.2 != 0, d.accessCode p (d.partWorld p) r.1 r.2))

/-- Is the shadow used (R185): a tile is neither in HBM nor staged or being staged, or a line is poisoned? -/
def Dev.usesShadow (d : Dev) (k : Nat) (kind src n : Nat) : Bool :=
  d.mayShadow k kind src n && (!(d.directTiles src n).isEmpty || d.poisoned src n)

/-- Device ranges that a transfer reads. -/
def Dev.tldRanges (d : Dev) (shadow : Bool) (src n : Nat) : List (Nat × Nat) :=
  if shadow then d.shadowRanges src n else [(src, n)]

def tldNeeds (k : Nat) (d : Dev) (i : Ins) : Needs :=
  let n := d.sr k i.b
  let src := tldSrc d k i
  let dst := tldDst d k i
  let p := (d.core k).part
  let code := d.accessCode p (d.partWorld p) src n
  let sh := code == 0 && d.usesShadow k (i.md % 4) src n
  let own := ownSpan k src n
  { used := [uD, uA, uB, uC, uMod 1 0, uImm 63 0], sregs := [i.d, i.a, i.b, i.c],
    faults := [(badCount n || spBad dst n 256 || src % 256 != 0, 0x03), (code != 0, code),
      (sh && d.shadowCode p src n != 0, d.shadowCode p src n)],
    reads := if (ownSegs k src n).isEmpty then [] else [own],
    writes := [(dst, n)], devReads := d.tldRanges sh src n, moves := true }

/-- TLD (R149): the transfer starts, and lateness of its tiles is reported (R187). Where a poisoned line sends it to the
shadow, the granule of that line enters re-fetch all the same (R179). -/
def execTld (k : Fin 512) (w : BitVec 128) (s : State) : Host.Outcome State Fault Refusal :=
  s.run fun d => d.issue k 0x51 w (tldNeeds k) fun i d =>
    let n := d.sr k i.b
    let src := tldSrc d k i
    let sh := d.usesShadow k (i.md % 4) src n
    let op : TldOp := { src := src, dst := tldDst d k i, count := n, flagReg := i.c, shadow := sh,
                        mayShadow := d.mayShadow k (i.md % 4) src n, old := false }
    let c := d.core k
    let d := d.setCore k { c with tlds := c.tlds ++ [op] }
    let ph := match c.task with | some t => t.desc.phase | none => 0
    let d := if sh then d.refetchRange src n else d
    let d := d.each ((d.tldRanges sh src n).filter fun r => whereIs r.1 == .tier) fun r e =>
      e.readDirect c.part (some ph) (e.directTiles r.1 r.2)
    if whereIs src == .companion then d.windowAsk src n (d.partWorld c.part) else d

/-- Is a range of a scratchpad window free of what its core's instructions hold, for an access of core k? Its own window
is ordered by issue (R51). -/
def Dev.othersFree (d : Dev) (k a n : Nat) (write : Bool) : Bool :=
  whereIs a != .scratch (windowCore a) || (pieces scratchBytes a n).all fun r =>
    windowCore r.1 == k || !d.scratchBusy r.1 r.2 write

/-- Has the source of a transfer of core k arrived: staged tiles (R185), lines that the companion holds or is the home of
(R346), a segment that is not being filled? -/
def Dev.sourceHere (d : Dev) (k : Nat) (t : TldOp) : Bool :=
  if whereIs t.src == .companion then d.windowHere t.src t.count
  else d.othersFree k t.src t.count false && (d.tldRanges t.shadow t.src t.count).all fun r =>
    (d.stagingTiles r.1 r.2).isEmpty && !d.companionOwns r.1 r.2

/-- What a transfer waits for is asked for. -/
def Dev.askSource (d : Dev) (k : Nat) (t : TldOp) : Dev :=
  if whereIs t.src == .companion then d.windowAsk t.src t.count (d.partWorld (d.core k).part)
  else d.each (d.tldRanges t.shadow t.src t.count) fun r e => e.snoop r.1 r.2

/-- The bytes of a transfer land (R149): the segments become live, and a transfer from the shadow sets its flag. -/
def Dev.land (d : Dev) (k : Nat) (t : TldOp) : Dev :=
  let rs := d.tldRanges t.shadow t.src t.count
  let bs := rs.flatMap fun r => d.load r.1 r.2
  let d := (d.spStore k t.dst bs).each (rs.filter fun r => whereIs r.1 == .tier) fun r e => e.warm r.1 r.2
  let d := if whereIs t.src == .companion then d.windowUsed t.src t.count else d
  let d := if t.shadow then d.count pTIER rTIER_STAT.off 23 8 1 else d
  let flag := fun (l : Live) => if t.shadow then l.setS t.flagReg (l.s t.flagReg ||| 1) else l
  let c := d.core k
  let live := flag c.live
  let start := if t.old then
      let l := flag c.tileStart
      { l with segLive := (spSegs t.dst bs.length).foldl (fun s x => s.add x) l.segLive }
    else c.tileStart
  Dev.serveHeld (d.setCore k { c with live := live, tileStart := start, tlds := c.tlds.tail })

/-- A transfer as it stands at its completion: a line of its source that has become poisoned sends it to the shadow where
that may serve it (R185). -/
def Dev.tldNow (d : Dev) (k : Nat) (t : TldOp) : TldOp :=
  { t with shadow := t.shadow || (t.mayShadow && d.poisoned t.src t.count && d.shadowCode (d.core k).part t.src t.count == 0) }

/-- Poisoned ranges that a transfer reads. -/
def Dev.tldBad (d : Dev) (t : TldOp) : List (Nat × Nat) :=
  (d.tldRanges t.shadow t.src t.count).filter fun r => d.poisoned r.1 r.2

/-- Must the transfer wait for a TST that was issued before it (R52, R149)? A TST has its place at the end of its tile
(log entry 29). -/
def Core.behindTst (c : Core) (t : TldOp) : Bool := !t.old && c.committing.any fun o => o.moves || o.submits

/-- The oldest transfer of a core completes (R52, R149); one whose source has become poisoned stops its task (R77). -/
def execTldComplete (k : Fin 512) (s : State) : Host.Outcome State Fault Refusal :=
  s.run fun d => d.when (d.core k).task.isSome fun d =>
    match (d.core k).tlds with
    | [] => d
    | t :: _ =>
      let t := d.tldNow k t
      if (d.core k).behindTst t then d
      else if !d.sourceHere k t then d.askSource k t
      else if !(d.tldBad t).isEmpty then
        if (d.core k).struck then
          let d := d.refetchAll (d.tldBad t)
          if d.lost (d.tldBad t) then d.leaveStruck k true else d
        else d.refuse k t.old (d.tldBad t)
      else (d.land k t).leaveStruck k false

/-! ### TST, SREL, AREL, SUBMIT -/

def Dev.addOut (d : Dev) (k : Nat) (o : TileOut) : Dev :=
  d.setCore k { d.core k with outs := (d.core k).outs ++ [o] }

def tstSrc (d : Dev) (k : Nat) (i : Ins) : Nat := d.spAddr k i.a (bits i.imm 23 0)
def tstDst (d : Dev) (k : Nat) (i : Ins) : Nat := d.devAddr k i.d (bits i.imm 63 24)

def tstNeeds (k : Nat) (d : Dev) (i : Ins) : Needs :=
  let n := d.sr k i.b
  let p := (d.core k).part
  let code := d.accessCode p (d.partWorld p) (tstDst d k i) n
  { used := [uD, uA, uB, uImm 63 0], sregs := [i.d, i.a, i.b],
    faults := [(badCount n || spBad (tstSrc d k i) n 256 || tstDst d k i % 256 != 0, 0x03), (code != 0, code)],
    reads := [(tstSrc d k i, n)], output := true }
def execTst (k : Fin 512) (w : BitVec 128) (s : State) : Host.Outcome State Fault Refusal :=
  s.run fun d => d.issue k 0x52 w (tstNeeds k) fun i d => d.addOut k (.tst (tstSrc d k i) (tstDst d k i) (d.sr k i.b))

/-- Numbers of the bits of imm that are 1. -/
def immBits (i : Ins) : List Nat := (List.range 64).filter i.imm.testBit

def srelNeeds (_ : Dev) (i : Ins) : Needs := { used := [uImm 63 0], frees := immBits i }
def execSrel (k : Fin 512) (w : BitVec 128) (s : State) : Host.Outcome State Fault Refusal :=
  s.run fun d => d.issue k 0x54 w srelNeeds fun i d => d.each (immBits i) fun n e => e.releaseSeg k n

def arelNeeds (_ : Dev) (i : Ins) : Needs := { used := [uImm 63 0], tileW := immBits i }
def execArel (k : Fin 512) (w : BitVec 128) (s : State) : Host.Outcome State Fault Refusal :=
  s.run fun d => d.issue k 0x55 w arelNeeds fun i d => d.onLv k fun l => (immBits i).foldl Live.releaseTile l

def submitNeeds (k : Nat) (d : Dev) (i : Ins) : Needs :=
  let a := d.spAddr k i.a i.imm
  { used := [uA, uSub, uImm 23 0], sregs := [i.a], faults := [(3 ≤ i.sub, 0x02), (spBad a 64 64, 0x03)],
    reads := [(a, 64)], output := true }
def execSubmit (k : Fin 512) (w : BitVec 128) (s : State) : Host.Outcome State Fault Refusal :=
  s.run fun d => d.issue k 0x58 w (submitNeeds k) fun i d => d.addOut k (.submit i.sub (d.spAddr k i.a i.imm))

/-! ### Commit (R53, R74, R153) -/

/-- A copy to memory line by line, with the poison of each. -/
def Dev.putLines (d : Dev) (src dst n : Nat) : Dev :=
  if !d.poisoned src n then d.put dst (d.load src n) false
  else d.each (List.range (n / 64)) fun j e => e.put (dst + 64 * j) (e.load (src + 64 * j) 64) (e.poisoned (src + 64 * j) 64)

/-- Does an output wait for a transfer issued before it (R52, R74): a TLD of an ended tile is in flight that can still
land? -/
def Dev.behindTld (d : Dev) (k : Nat) : Bool :=
  (d.core k).tlds.any fun t => t.old && !d.lost (d.tldBad (d.tldNow k t))

/-- A TST to the companion window: each 64-byte line goes out with the poison of its source (R347). -/
def Dev.putWindow (d : Dev) (k src dst n : Nat) : Dev :=
  let w := d.partWorld (d.core k).part
  if !d.poisoned src n then d.windowWrite (k + 1) dst (d.load src n) false w
  else d.each (List.range (n / 64)) fun j e =>
    e.windowWrite (k + 1) (dst + 64 * j) (e.load (src + 64 * j) 64) (e.poisoned (src + 64 * j) 64) w

/-- One output committed; none while its destination cannot take it. -/
def Dev.commitOut (d : Dev) (k : Nat) (o : TileOut) : Option Dev :=
  let p := (d.core k).part
  match o with
  | .tst src dst n =>
    if d.behindTld k then none
    else if d.accessCode p (d.partWorld p) dst n != 0 then some d
    else if !d.othersFree k dst n true then none
    else if whereIs dst == .companion then some (d.putWindow k (scratchAddr k src) dst n)
    else some ((d.putLines (scratchAddr k src) dst n).cacheCommit p dst n)
  | .submit engine a =>
    if d.behindTld k then none
    else
      let x : Submitted := ⟨scratchAddr k a, p, some (d.spLoad k a 64)⟩
      match engine with
      | 0 => d.geyserSubmit (k / 64) x
      | 1 => d.flueSubmit (k / 64) x
      | _ => d.bellowsSubmit (bits (d.spNat k a 8) 27 26) x
  | .esig e op => if d.writesVisible k then some (d.signal p e op) else none

/-- Outputs committed in issue order as far as their destinations take them. -/
def Dev.commitOuts (d : Dev) (k : Nat) : List TileOut → Dev
  | [] => d.setCore k { d.core k with committing := [] }
  | o :: os =>
    match Dev.commitOut (d.setCore k { d.core k with committing := os }) k o with
    | some e => e.commitOuts k os
    | none => d.setCore k { d.core k with committing := o :: os }

/-- The outputs of ended tiles commit (R74). -/
def execTileCommitDone (k : Fin 512) (s : State) : Host.Outcome State Fault Refusal :=
  s.run fun d => d.when (!(d.core k).committing.isEmpty) fun d => ((d.commitOuts k (d.core k).committing).serveHeld).leaveStruck k false

end Sys2Proof.Machine
end

