-- ==== Sys2Proof/Machine/CoreSync.lean ====
section
/-! DEFINITION. Sync instructions: tile and task ends, waits and signals, generator keys, SAVE and RSTR, and the events of
a task on its core (R71 to R82, R154 to R161, R395, R461). -/

namespace Sys2Proof.Machine

/-! ### Tile and task ends -/

def tendNeeds (_ : Dev) (_ : Ins) : Needs := { used := [] }
def execTend (k : Fin 512) (w : BitVec 128) (s : State) : Host.Outcome State Fault Refusal :=
  s.run fun d => d.issue k 0x70 w tendNeeds fun _ d => d.tileEnd k

/-- END is an output of the tile when the task signals an ember at its end (R151). -/
def endNeeds (k : Nat) (d : Dev) (_ : Ins) : Needs :=
  { used := [], output := match (d.core k).task with | some t => t.desc.doneEn | none => false }
def execEndTask (k : Fin 512) (w : BitVec 128) (s : State) : Host.Outcome State Fault Refusal :=
  s.run fun d => d.issue k 0x71 w (endNeeds k) fun _ d =>
    let d := d.tileEnd k
    d.setCore k { d.core k with ending := true }

/-- Is every instruction complete and every output of the task visible (R73)? -/
def Dev.taskOver (d : Dev) (k : Nat) : Bool :=
  let c := d.core k
  c.ending && c.outs.isEmpty && c.committing.isEmpty && c.mmas.isEmpty && c.tlds.isEmpty && d.writesVisible k

/-- The end of a task (R73, R98, R355). -/
def Dev.endTask (d : Dev) (k : Nat) (t : Task) : Dev :=
  let c := d.core k
  let p := c.part
  let cx := t.desc.context
  let d := if t.desc.doneEn then d.signal1 p t.desc.doneEmber else d
  let d := d.phCount p (phWord t.desc.phase 2) 31 0 1
  let d := (d.orFlags p cx c.live.flags).vacate k
  (d.freeQueueSlot p cx t.queue).noticeFor p t.source 0

def execTaskEnd (k : Fin 512) (s : State) : Host.Outcome State Fault Refusal :=
  s.run fun d => d.when (d.taskOver k) fun d =>
    match (d.core k).task with
    | some t => d.endTask k t
    | none => d

/-! ### Embers -/

/-- The ember that EWAIT and ESIG name (R155). -/
def Dev.emberOf (d : Dev) (k : Nat) (i : Ins) : Nat := (d.sr k i.a + i.imm) % 16384

/-- Does a wait condition fit the ember (R155, R391, R394)? -/
def Dev.waitFits (d : Dev) (e cond : Nat) : Bool :=
  !d.emberRemote e && d.emberKind e == cond && !(cond == ebBarrier && d.emberParties e == 0)

/-- Is the condition met (R155)? -/
def Dev.waitMet (d : Dev) (e cond operand : Nat) : Bool :=
  d.waitFits e cond &&
    (match cond with
     | 0 => operand ≤ d.emberValue e
     | 1 => operand < bits (d.emberValue e) 63 32
     | _ => (d.emberValue e).testBit 0)

/-- Field b may hold any number with sub 2, which does not read s[b] (DESIGN CHOICE, log entry 34). -/
def ewaitNeeds (k : Nat) (d : Dev) (i : Ins) : Needs :=
  { used := [uD, uA, uB, uC, uSub, uImm 13 0], sregs := [i.d, i.a, i.b, i.c],
    faults := [(3 ≤ i.sub, 0x02), (!d.ownsEmber (d.core k).part (d.emberOf k i), 0x06)] }
def execEwait (k : Fin 512) (w : BitVec 128) (s : State) : Host.Outcome State Fault Refusal :=
  s.run fun d => d.issue k 0x72 w (ewaitNeeds k) fun i d =>
    let e := d.emberOf k i
    if !d.waitFits e i.sub then d.onLv k fun l => l.setS i.d 2
    else
      let t := d.sr k i.c
      d.setCore k { d.core k with wait := some { ember := e, cond := i.sub, operand := d.sr k i.b,
                                                 deadline := if t = 0 then none else some (d.now + t), dest := i.d } }

/-- A wait completes with a result. -/
def Dev.endWait (d : Dev) (k : Nat) (x : EWait) (v : Word) : Dev :=
  (d.setCore k { d.core k with wait := none }).onLv k fun l => l.setS x.dest v

/-- Is the core at work on its task? -/
def Core.working (c : Core) : Bool := (decide (c.st = .running) || decide (c.st = .halted)) && !c.atRest

/-- The condition of a wait is met (R395). A wait whose ember is configured anew so that it fits no condition goes on until
it fits again or expires (DESIGN CHOICE, log entry 34). -/
def execEwaitSatisfied (k : Fin 512) (s : State) : Host.Outcome State Fault Refusal :=
  s.run fun d =>
    match (d.core k).wait with
    | none => d
    | some x => d.when ((d.core k).working && d.waitMet x.ember x.cond x.operand) fun d => d.endWait k x 0

/-- A wait expires; a condition that is met wins (R395). -/
def execEwaitTimeout (k : Fin 512) (s : State) : Host.Outcome State Fault Refusal :=
  s.run fun d =>
    match (d.core k).wait with
    | none => d
    | some x =>
      let due := match x.deadline with | some t => decide (t ≤ d.now) | none => false
      d.when ((d.core k).working && due && !d.waitMet x.ember x.cond x.operand) fun d =>
        (d.endWait k x 1).count (pPART (d.core k).part) rPART_STAT.off 63 32 1

def esigOp (sub : Nat) (v : Word) : EmberOp :=
  match sub with
  | 0 => .add v
  | 1 => .arrive
  | 2 => .set
  | _ => .clear

/-- Field b may hold any number with sub 1 to 3, which do not read s[b] (DESIGN CHOICE, log entry 34). -/
def esigNeeds (k : Nat) (d : Dev) (i : Ins) : Needs :=
  { used := [uA, uB, uSub, uImm 13 0], sregs := [i.a, i.b],
    faults := [(4 ≤ i.sub, 0x02), (!d.ownsEmber (d.core k).part (d.emberOf k i), 0x06)], output := true }
def execEsig (k : Fin 512) (w : BitVec 128) (s : State) : Host.Outcome State Fault Refusal :=
  s.run fun d => d.issue k 0x73 w (esigNeeds k) fun i d =>
    d.addOut k (.esig (d.emberOf k i) (esigOp i.sub ((d.lv k).s i.b)))

/-- A field whose modifier bit is 0 may hold any number (DESIGN CHOICE, log entry 34). -/
def gkeyNeeds (_ : Dev) (i : Ins) : Needs := { used := [uA, uB, uC, uMod 2 0], sregs := [i.a, i.b, i.c] }
def execGkey (k : Fin 512) (w : BitVec 128) (s : State) : Host.Outcome State Fault Refusal :=
  s.run fun d => d.issue k 0x74 w gkeyNeeds fun i d => d.onLv k fun l =>
    { l with gkStep := if i.mod 0 then (l.s i.a).toNat % 2 ^ 32 else l.gkStep,
             gkLayer := if i.mod 1 then (l.s i.b).toNat % 2 ^ 16 else l.gkLayer,
             gkTile := if i.mod 2 then (l.s i.c).toNat % 2 ^ 32 else l.gkTile }

/-! ### SAVE and RSTR (R158 to R161) -/

def areaBytes : Nat := 0x1410000
def tileSlot (t : Nat) : Nat := 0x10000 + t * 0x10000
def segSlot (n : Nat) : Nat := 0x410000 + n * 0x40000

/-- A set of numbers below 64 as a mask. -/
def maskOf (s : NSet) : Nat := (s.map fun n => 2 ^ n).sum
def maskBits (m : Nat) : NSet := (List.range 64).filter m.testBit

def genBytes (g : GenState) : List Byte := natLe 8 g.key ++ natLe 16 g.counter ++ natLe 14 g.rest ++ natLe 2 g.restBits
def genOf (bs : List Byte) : GenState :=
  ⟨leNat (bs.take 8), leNat ((bs.drop 8).take 16), leNat ((bs.drop 24).take 14), leNat ((bs.drop 38).take 2)⟩

/-- The control block (R78) as this model lays it out (log entry 16): 49,152 bytes. -/
def controlBlock (l : Live) : List Byte :=
  let head := ((List.range 64).flatMap fun r => natLe 8 (l.s r).toNat)
    ++ ((List.range 4096).flatMap fun n => natLe 4 (l.lane 0 n).toNat)
    ++ ((List.range 256).flatMap fun n => genBytes (l.gen n)) ++ List.replicate 7680 0
  let tail := natLe 8 l.pc ++ natLe 8 l.gkStep ++ natLe 8 l.gkLayer ++ natLe 8 l.gkTile ++ natLe 8 l.flags.toNat
    ++ ((List.range 64).flatMap fun t => natLe 8 (l.adds t))
  head ++ tail ++ List.replicate (14336 - tail.length) 0

/-- A little-endian number within a list of bytes. -/
def numAt (bs : List Byte) (off n : Nat) : Nat := leNat ((bs.drop off).take n)

/-- Registers, generators, keys, flags and counters of a control block, over a live state that gives the rest. -/
def ofControlBlock (bs : List Byte) (l : Live) : Live :=
  let l := (List.range 64).foldl (fun l r => l.setS r (BitVec.ofNat 64 (numAt bs (8 * r) 8))) l
  let l := { l with vregs := Tab.setRow (fun _ => 0) [] 0 ((List.range 4096).map fun n => BitVec.ofNat 32 (numAt bs (512 + 4 * n) 4)) }
  let l := (List.range 256).foldl (fun l n => l.setGen n (genOf ((bs.drop (16896 + 40 * n)).take 40))) l
  let t := 34816
  let l := { l with pc := numAt bs t 8, gkStep := numAt bs (t + 8) 8, gkLayer := numAt bs (t + 16) 8,
                    gkTile := numAt bs (t + 24) 8, flags := .ofNat (numAt bs (t + 32) 8) }
  (List.range 64).foldl (fun l n => l.setAdds n (numAt bs (t + 40 + 8 * n) 8)) l

/-- The 128 × 128 elements of a tile as bytes. -/
def tileBytesOf (l : Live) (t : Nat) : List Byte := (List.range 128).flatMap fun i => (l.accRow t i).flatMap fun x => natLe 4 x.toNat

/-- The first 32 bytes of a save area. -/
def areaHead (isa p cx : Nat) (l : Live) : List Byte :=
  natLe 8 (1 + isa * 2 ^ 16 + p * 2 ^ 24 + cx * 2 ^ 30) ++ natLe 8 (maskOf l.segLive) ++ natLe 8 (maskOf l.accLive)
    ++ natLe 8 (maskOf l.accInt)

def Dev.areaAt (d : Dev) (k : Nat) (i : Ins) : Nat := d.devAddr k i.a i.imm

def areaFaults (d : Dev) (p a : Nat) : List (Bool × Nat) :=
  let code := if whereIs a == .tier then d.accessCode p (d.partWorld p) a areaBytes else 4
  [(a % 0x10000 != 0, 0x03), (code != 0, code)]

def saveNeeds (k : Nat) (d : Dev) (i : Ins) : Needs :=
  { used := [uA, uImm 63 0], sregs := [i.a], faults := areaFaults d (d.core k).part (d.areaAt k i),
    reads := (d.lv k).segLive.map fun n => (n * spSegBytes, spSegBytes), drains := true }

/-- SAVE (R158, R159): the address of the next instruction is the resume address. -/
def execSave (k : Fin 512) (w : BitVec 128) (s : State) : Host.Outcome State Fault Refusal :=
  s.run fun d => d.issue k 0x78 w (saveNeeds k) fun i d =>
    let l := d.lv k
    let a := d.areaAt k i
    let c := d.core k
    let cx := match c.task with | some t => t.desc.context | none => 0
    let head := areaHead (d.modes k).isa c.part cx l
    let block := controlBlock l
    let segs := l.segLive.flatMap fun n => d.spLoad k (n * 0x40000) 0x40000
    let crc := crc32c.of (head ++ block ++ (l.accLive.flatMap (tileBytesOf l)) ++ segs)
    let d := d.put a (head ++ natLe 4 crc ++ List.replicate 220 0) false
    let d := d.put (a + 0x100) block false
    let d := d.each l.accLive fun t e => e.put (a + tileSlot t) (tileBytesOf l t) false
    d.each l.segLive fun n e => e.putLines (scratchAddr k (n * 0x40000)) (a + segSlot n) 0x40000

/-- What a save area says beside its bytes: masks of live segments, live tiles and integer tiles. -/
def Dev.areaMasks (d : Dev) (a : Nat) : NSet × NSet × NSet :=
  (maskBits (d.loadNat (a + 8) 8), maskBits (d.loadNat (a + 16) 8), maskBits (d.loadNat (a + 24) 8))

/-- Does a save area pass its checks for a partition and a version (R160)? -/
def Dev.areaOk (d : Dev) (p isa a : Nat) : Bool :=
  let m := d.areaMasks a
  let bytes := d.load a 32 ++ d.load (a + 0x100) 49152 ++ (m.2.1.flatMap fun t => d.load (a + tileSlot t) 65536)
    ++ (m.1.flatMap fun n => d.load (a + segSlot n) 0x40000)
  let v := d.loadNat a 8
  d.loadNat (a + 32) 4 == crc32c.of bytes && bits v 15 0 == 1 && 1 ≤ bits v 23 16 && bits v 23 16 ≤ isa && bits v 29 24 == p

/-- The ranges of a save area that RSTR reads. -/
def Dev.areaReads (d : Dev) (a : Nat) : List (Nat × Nat) :=
  let m := d.areaMasks a
  (a, 0xC100) :: (m.2.1.map fun t => (a + tileSlot t, 65536)) ++ (m.1.map fun n => (a + segSlot n, 0x40000))

/-- The check value, partition and version are looked at once the tile has ended, its outputs are committed and the area's
lines are here. Every segment and tile is replaced (R76, R160). -/
def rstrNeeds (k : Nat) (d : Dev) (i : Ins) : Needs :=
  let a := d.areaAt k i
  let c := d.core k
  let f := areaFaults d c.part a
  let rs := d.areaReads a
  let drained := c.tileOpen.isNone && c.committing.isEmpty && c.tlds.isEmpty && c.mmas.isEmpty
  let bad := drained && lowestCode f == 0 && !(rs.any fun r => d.poisoned r.1 r.2 || d.companionOwns r.1 r.2) && !d.areaOk c.part (d.modes k).isa a
  { used := [uA, uImm 63 0], sregs := [i.a], faults := f ++ [(bad, 0x08)], devReads := rs, drains := true,
    frees := List.range 64, tileW := List.range 64 }

/-- The live state that a save area holds, for core k. -/
def Dev.areaLive (d : Dev) (k a : Nat) (l : Live) : Live :=
  let m := d.areaMasks a
  let base := { Live.empty with genBase := l.genBase, segLive := m.1 }
  let x := ofControlBlock (d.load (a + 0x100) 49152) base
  let x := m.2.1.foldl (fun x t => (List.range 128).foldl (fun x r =>
    x.setAccRow t r ((List.range 128).map fun j => BitVec.ofNat 32 (d.loadNat (a + tileSlot t + 512 * r + 4 * j) 4))
      (m.2.2.contains t)) x) x
  let x := x.setS 7 (BitVec.ofNat 64 k)
  { x with scratch := m.1.foldl (fun s n => memStore s (n * 0x40000) (d.load (a + segSlot n) 0x40000)) [] }

/-- RSTR (R160): the whole live state is replaced, and execution continues at the resume address. The lines of the
instruction buffer stay: RSTR is not taken as a restore that resumes a task in the sense of R461 (DESIGN CHOICE, log
entry 34). -/
def execRstr (k : Fin 512) (w : BitVec 128) (s : State) : Host.Outcome State Fault Refusal :=
  s.run fun d => d.issue k 0x79 w (rstrNeeds k) fun i d => d.putLive k (d.areaLive k (d.areaAt k i) (d.lv k))

/-! ### Start of a task (R49, R71, R73, R461) -/

def Dev.coreHalt (d : Dev) (k : Nat) : Bool := d.bit (pCORE k) rCORE_CTL.off 0
def Dev.coreDrain (d : Dev) (k : Nat) : Bool := d.bit (pCORE k) rCORE_CTL.off 1
/-- State of a core that works on a task. -/
def Dev.workSt (d : Dev) (k : Nat) : CoreSt := if d.coreHalt k then .halted else .running

/-- The lowest-numbered idle core of a partition that takes tasks (R71, R82). -/
def Dev.idleCore (d : Dev) (p : Nat) : Option Nat :=
  (d.coreSet p).find? fun k => decide ((d.core k).st = .idle) && !d.coreHalt k && !d.coreDrain k

/-- Does a task returned to its queue still wait for a re-fetch (R180)? -/
def Dev.taskWaits (d : Dev) (t : Task) : Bool := d.mending t.waits

/-- The first task of the highest-priority queue of a context that has one ready to start. -/
def Dev.nextTask (d : Dev) (p c : Nat) : Option (Nat × Task) :=
  ((List.range 8).map (7 - ·)).findSome? fun q =>
    match d.tasks p c q with
    | t :: _ => if d.taskWaits t then none else some (q, t)
    | [] => none

/-- The live state with which a task starts (R49). -/
def freshLive (t : TaskDesc) (k : Nat) (g : Nat × Tab GenState) : Live :=
  let l := { Live.empty with pc := t.entry, genBase := g.1, gens := g.2 }
  (t.args.zipIdx.foldl (fun l x => l.setS (x.2 + 1) x.1) l).setS 7 (BitVec.ofNat 64 k)

/-- A task is put on a core. -/
def Dev.startTask (d : Dev) (p k q : Nat) (t : Task) : Dev :=
  let cx := t.desc.context
  let d := d.setTasks p cx q (d.tasks p cx q).tail
  let l := match t.saved with
    | some l => l
    | none => freshLive t.desc k (d.ctxGens p cx k)
  let d := d.putLive k l
  let live := { l with scratch := [], scratchPoison := [] }
  let c := { d.core k with st := .running, part := p, task := some { t with saved := none, waits := [] }, live := live,
                           tileStart := live, ibuf := [], ending := false, begun := false, carry := false, forced := false, tileOpen := none }
  let d := (d.setCore k c).phStart p t.desc.phase
  if t.desc.doneEn && !d.ownsEmber p t.desc.doneEmber then d.coreFault k 0x06 else d

/-- A queued task whose ranges are left poisoned is not run again: it leaves its queue, and its context is contained (R181,
R424). -/
def Dev.containQueued (d : Dev) (p c q : Nat) : Dev :=
  ((d.setTasks p c q (d.tasks p c q).tail).freeQueueSlot p c q).containContext p c

/-- TASK_START (R71): an idle core of the current context takes the first task. -/
def execTaskStart (p : Fin 64) (s : State) : Host.Outcome State Fault Refusal :=
  s.run fun d =>
    match (d.part p).current, (d.part p).switch, d.idleCore p with
    | some c, none, some k => d.when (d.partOn p && !(d.part p).contained.contains c) fun d =>
      match d.nextTask p c with
      | some (q, t) => if d.lost t.waits then d.containQueued p c q else d.startTask p k q t
      | none => d
    | _, _, _ => d

/-- Does issue miss the line of the instruction address: it is not in the buffer, or what it needs of it was poisoned and
is good again (R461)? -/
def Dev.missesLine (d : Dev) (k : Nat) : Bool :=
  let c := d.core k
  match c.ibuf.find? fun l => l.addr == lineAddr c.live.pc with
  | none => d.pcReadable k
  | some l => l.poison.contains (c.live.pc % 4096 / 64) && !d.mayMend (c.live.pc / granBytes)
      && !d.poisoned c.live.pc 16

/-- A line of the instruction buffer as memory holds it. -/
def Dev.fetchedLine (d : Dev) (a : Nat) : IBufLine :=
  { addr := a, bytes := Tab.slice d.mem a (a + 4096), poison := (List.range 64).filter fun i => d.poisoned (a + 64 * i) 64 }

/-- The missing line arrives and replaces the line filled longest ago (R461). -/
def execIbufLineArrival (k : Fin 512) (s : State) : Host.Outcome State Fault Refusal :=
  s.run fun d =>
    let c := d.core k
    d.when (c.task.isSome && c.live.pc % 16 == 0 && d.missesLine k) fun d =>
      let a := lineAddr c.live.pc
      if d.companionOwns a 4096 then d.snoop a 4096 else
      let kept := c.ibuf.filter fun l => l.addr != a
      let kept := if 16 ≤ kept.length then kept.tail else kept
      let d := d.setCore k { c with ibuf := kept ++ [d.fetchedLine a] }
      if d.poisoned a 4096 then d.refetchRange a 4096 else d

/-- The granules are stable again (R180): a suspended task resumes at the refused instruction, unless its lines are left
poisoned, which contains it (R181, R424). -/
def execTaskResumeAfterRefetch (k : Fin 512) (s : State) : Host.Outcome State Fault Refusal :=
  s.run fun d =>
    let c := d.core k
    d.when (decide (c.st = .suspended) && !d.mending c.suspendedOn) fun d =>
      if d.lost c.suspendedOn then (if c.committing.isEmpty then d.contain k else d)
      else d.setCore k { c with st := d.workSt k, suspendedOn := [] }

/-- A tile passes 16 µs under a pending pre-emption at tile boundaries (R75). -/
def execTileOverrun (k : Fin 512) (s : State) : Host.Outcome State Fault Refusal :=
  s.run fun d =>
    let c := d.core k
    let late := match c.tileOpen with | some t => decide (t + 16000 < d.now) | none => false
    d.when (((c.preempt && !(d.modes k).precise) || d.cclkRest k) && !c.forced && c.task.isSome && late) fun d =>
      ((d.setCore k { c with forced := true }).setBit (pCORE k) rCORE_STS.off 4 true).partEvt c.part evOverrun

/-! ### CORE page (R82) -/

/-- A write of CORE_CTL: the fields are stored, and a core that works stops or resumes issue. -/
def Dev.coreCtl (d : Dev) (a : Access) (k : Nat) (v : Word) : Dev :=
  d.regWrite a (pCORE k) rCORE_CTL.off false fun d =>
    let d := d.store8 a (pCORE k) rCORE_CTL.off rCORE_CTL v
    if (d.core k).st = .running ∨ (d.core k).st = .halted then d.setCore k { d.core k with st := d.workSt k } else d

def execCoreCtlHalt (a : Access) (k : Fin 512) (v : Word) (s : State) : Host.Outcome State Fault Refusal :=
  s.run fun d => d.coreCtl a k v
def execCoreCtlDrain (a : Access) (k : Fin 512) (v : Word) (s : State) : Host.Outcome State Fault Refusal :=
  s.run fun d => d.coreCtl a k v
def execCoreTileMaxRead (a : Access) (k : Fin 512) (s : State) : Host.Outcome State Fault Refusal :=
  s.run fun d => d.regRead a (pCORE k) rCORE_TILE_MAX.off rCORE_TILE_MAX id

end Sys2Proof.Machine
end

