-- ==== Sys2Proof/Machine/Partitions.lean ====
section
/-! DEFINITION. Partitions, contexts and the scheduler: enabling and save areas (R378 to R381), posting (R382, R464), the
choice of a context and its switch (R384 to R390, R396), and embers (R391 to R394). -/

namespace Sys2Proof.Machine

/-! ### Save areas (R379) -/

/-- Save-area frames of n contexts on a die: three areas to a frame, each context in frames of its own. -/
def Dev.saveFramesOn (d : Dev) (p n die : Nat) : Nat := n * ((((d.coreSet p).filter fun k => k / 64 == die).length + 2) / 3)

/-- Free HBM frames in service on a compute die. -/
def Dev.freeOnDie (d : Dev) (die : Nat) : Nat :=
  if d.tier.hbmDies.contains die then
    1536 - (((d.tier.hbmUsed ++ d.tier.hbmGone).filter fun f => f / 1536 == die).dedup).length
  else 0

/-- The lowest-numbered free frame of a die becomes a save-area frame of a partition, n times. -/
def Dev.takeSave (d : Dev) (p die : Nat) : Nat → Dev
  | 0 => d
  | n + 1 =>
    match d.freeHbmOn die with
    | some f =>
      let d := d.useFrame false f
      Dev.takeSave (d.setPart p { d.part p with saveFrames := (d.part p).saveFrames.add f }) p die n
    | none => d

/-! ### PART_CTL (R378, R380) -/

/-- Two ember ranges overlap. -/
def rangesMeet (b1 n1 b2 n2 : Nat) : Bool := b1 < b2 + n2 && b2 < b1 + n1 && n1 != 0 && n2 != 0

def Dev.embBase (d : Dev) (p : Nat) : Nat := d.fld (pPART p) rPART_EMB.off 13 0
def Dev.embCount (d : Dev) (p : Nat) : Nat := d.fld (pPART p) rPART_EMB.off 46 32

/-- The enabled partitions but p. -/
def Dev.otherParts (d : Dev) (p : Nat) : List Nat := (List.range 64).filter fun q => q != p && d.partOn q

/-- Reserved bits of PART_CTL. -/
def ctlReserved : Nat := 0x0F00FFF00000FFFF

/-- The bits of a value that a write of a width carries. -/
def carriedBits (w : Width) (v : Nat) : Nat :=
  match w with
  | .full => v
  | .low => v % 2 ^ 32
  | .high => v / 2 ^ 32 * 2 ^ 32

/-- The result of enabling a partition with n contexts by a written value: the first check that fails (R378). -/
def Dev.enableCode (d : Dev) (p n written : Nat) : Nat :=
  let cores := d.coreSet p
  let need := ((List.range 8).map (d.saveFramesOn p n)).sum
  if written &&& ctlReserved != 0 then 1
  else if cores.isEmpty || cores.any (fun k => (d.otherParts p).any fun q => d.ownsCore q k) then 2
  else if 16384 < d.embBase p + d.embCount p
      || (d.otherParts p).any (fun q => rangesMeet (d.embBase p) (d.embCount p) (d.embBase q) (d.embCount q)) then 3
  else if d.fld pTIER (rTIER_PQ.at p) 15 0 < d.hbmUse p + need then 4
  else if (List.range 8).any fun die => d.freeOnDie die < d.saveFramesOn p n die then 5
  else 0

/-- The partition is enabled: its save areas are reserved, and its cores take its world (R379, R452). -/
def Dev.enablePart (d : Dev) (p n : Nat) : Dev :=
  let d := d.each (List.range 8) fun die e => e.takeSave p die (d.saveFramesOn p n die)
  d.each (d.coreSet p) fun k e => (e.setBit (pCORE k) rWORLD.off 0 (d.partWorld p)).setCore k { e.core k with part := p }

/-- The partition is disabled: its save-area frames are free (R380), and no context is current. -/
def Dev.disablePart (d : Dev) (p : Nat) : Dev :=
  let x := d.part p
  let d := d.setPart p { x with saveFrames := [], current := none, last := none, switch := none, sliceOver := false }
  d.each x.saveFrames fun f e => e.giveBack false f

/-- A write of PART_CTL. -/
def Dev.partCtl (d : Dev) (a : Access) (p : Nat) (v : Word) : Dev :=
  d.regWrite a (pPART p) rPART_CTL.off false fun d =>
    let old := d.rd (pPART p) rPART_CTL.off
    let new := rPART_CTL.write old a.width v.toNat
    let new := if d.bit (pCACHE p) rCACHE_CTL.off 63 then putBits new 60 60 (bits old 60 60) else new
    let was := old.testBit 63
    let on := new.testBit 63
    if was && on then d.wr (pPART p) rPART_CTL.off (putBits new 35 32 (bits old 35 32))
    else if was then
      if (List.range 16).any (d.ctxOn p) then d
      else (d.wr (pPART p) rPART_CTL.off (putBits new 35 32 (bits old 35 32))).disablePart p
    else if on then
      let n := bits new 35 32 + 1
      let code := d.enableCode p n (carriedBits a.width v.toNat)
      if code != 0 then d.setFld (pPART p) rPART_CTL.off 55 48 code
      else (d.wr (pPART p) rPART_CTL.off (putBits new 55 48 0)).enablePart p n
    else d.wr (pPART p) rPART_CTL.off new

/-- Does a written value set or clear bit b of its register, in an access that reaches the bit? -/
def writesBit (a : Access) (v : Word) (b : Nat) (x : Bool) : Bool := a.reaches b b && v.toNat.testBit b == x

/-- PART_CTL_EN_WRITE (R378). -/
def execPartCtlEnWrite (a : Access) (p : Fin 64) (v : Word) (s : State) : Host.Outcome State Fault Refusal :=
  s.run fun d => if writesBit a v 63 true then d.partCtl a p v else d

/-- PART_CTL_DISABLE (R380). -/
def execPartCtlDisable (a : Access) (p : Fin 64) (v : Word) (s : State) : Host.Outcome State Fault Refusal :=
  s.run fun d => if writesBit a v 63 false then d.partCtl a p v else d

/-! ### PART_CTXc (R381) -/

/-- What a context held is discarded: its queues, its saved state, and what its cores hold of it. -/
def Dev.emptyContext (d : Dev) (p c : Nat) : Dev :=
  let d := d.each (d.coreSet p) fun k e =>
    match (e.core k).task with
    | some t => if (e.core k).part == p && t.desc.context == c then e.vacate k else e
    | none => e
  let x := d.part p
  (d.setPart p { x with queues := x.queues.filter (fun (y : Nat × List Task) => y.1 / 8 != c),
                        saved := x.saved.filter (fun (y : Nat × List SavedCore) => y.1 != c),
                        contained := x.contained.del c,
                        current := if x.current == some c then none else x.current,
                        gens := x.gens.filter (fun (y : Nat × Nat × Tab GenState) => y.1 / 512 != c) }).wr (pPART p)
    (rPART_TQOCC.at c) 0

/-- The context is created (R381): idle, with empty queues, and its generators filled from Fender's source (R112). -/
def Dev.createContext (d : Dev) (p c : Nat) : Dev :=
  let d := (d.emptyContext p c).setCtxState p c cxIdle
  let base := d.fen.draws
  let x := d.part p
  Dev.setPart { d with fen := { d.fen with draws := base + 512 * 768 } } p
    { x with genBase := Tab.set (fun _ => 0) x.genBase c base }

/-- The implemented version of the instruction set (R122). -/
def implVersion : Nat := 1

/-- A write of PART_CTXc. -/
def Dev.ctxWrite (d : Dev) (a : Access) (p c : Nat) (v : Word) : Dev :=
  d.regWrite a (pPART p) (ctxReg c) false fun d =>
    let old := d.rd (pPART p) (ctxReg c)
    let new := rPART_CTX.write old a.width v.toNat
    let st := d.ctxState p c
    if d.nctx p ≤ c then d
    else if old.testBit 63 then
      let new := putBits new 55 48 (bits old 55 48)
      if new.testBit 63 then d.wr (pPART p) (ctxReg c) new
      else if st == cxIdle || st == cxHeld then
        ((d.emptyContext p c).wr (pPART p) (ctxReg c) new).setCtxState p c cxOff
      else d
    else if !new.testBit 63 then d.wr (pPART p) (ctxReg c) new
    else if bits new 55 48 = 0 || implVersion < bits new 55 48 then d.wr (pPART p) (ctxReg c) (putBits new 63 63 0)
    else (d.wr (pPART p) (ctxReg c) new).createContext p c

/-- PART_CTX_EN_WRITE (R381). -/
def execPartCtxEnWrite (a : Access) (p : Fin 64) (c : Fin 16) (v : Word) (s : State) : Host.Outcome State Fault Refusal :=
  s.run fun d => (d.ctxWrite a p c v).noteModes p

/-- PART_CTX_PRIO_WRITE (R381, R385): the scheduler's next choice takes the new priority. -/
def execPartCtxPrioWrite (a : Access) (p : Fin 64) (c : Fin 16) (v : Word) (s : State) : Host.Outcome State Fault Refusal :=
  s.run fun d => (d.ctxWrite a p c v).noteModes p

/-! ### PART_TPOST (R382, R464) -/

/-- PART_TPOST_WRITE: the write completes, and the descriptor is read after it, behind the posts that wait. -/
def execPartTpostWrite (a : Access) (p : Fin 64) (v : Word) (s : State) : Host.Outcome State Fault Refusal :=
  s.run fun d => d.regWrite a (pPART p) rPART_TPOST.off true fun d =>
    d.setPart p { d.part p with tposts := (d.part p).tposts ++ [v.toNat] }

/-- A post is refused (R464). -/
def Dev.badPost (d : Dev) (p addr : Nat) : Dev :=
  (d.partEvt p evTbad).log (pPART p) { code := 0x80, addr := addr, part := p, world := d.partWorld p }

/-- A post enters its task queue (R382). -/
def Dev.post (d : Dev) (p q addr : Nat) : Dev :=
  let bs := d.load addr 64
  let c := (TaskDesc.ofBytes bs).context
  if !d.ctxOn p c then d.refuseTask p addr
  else if d.queueFull p c q then d.partEvt p evTfull
  else d.enterTask p q bs none

/-- The oldest post is taken up. -/
def Dev.takePost (d : Dev) (p v : Nat) : Dev :=
  let addr := bits v 47 0
  let q := bits v 58 56
  let done := fun (e : Dev) => e.setPart p { e.part p with tposts := (e.part p).tposts.tail }
  if addr % 64 != 0 || d.accessCode p (d.partWorld p) addr 64 != 0 then (done d).badPost p addr
  else if whereIs addr == .companion && !d.windowHere addr 64 then d.windowAsk addr 64 (d.partWorld p)
  else if d.companionOwns addr 64 then d.snoop addr 64
  else if d.poisoned addr 64 then
    let d := d.refetchRange addr 64
    if d.refetching addr 64 then d else (done d).badPost p addr
  else
    let d := (done d).post p q addr
    if whereIs addr == .companion then d.windowUsed addr 64 else d

/-- TPOST_DESCRIPTOR_READ (R464). -/
def execTpostDescriptorRead (p : Fin 64) (s : State) : Host.Outcome State Fault Refusal :=
  s.run fun d =>
    match (d.part p).tposts with
    | v :: _ => d.when true fun d => d.takePost p v
    | [] => d

/-! ### The scheduler's choice (R384, R385) -/

/-- The contexts of a partition in the order in which equal priorities take turns. -/
def Dev.turnOrder (d : Dev) (p : Nat) : List Nat :=
  let n := d.nctx p
  let x := d.part p
  let first := match x.current, x.last with
    | some c, _ => c + 1
    | none, some c => c + 1
    | none, none => 0
  (List.range n).map fun i => (first + i) % n

/-- The runnable context of highest priority, the first in turn among equals. -/
def Dev.choice (d : Dev) (p : Nat) : Option Nat :=
  let l := (d.turnOrder p).filter (d.runnable p)
  l.find? fun c => l.all fun e => d.ctxPrio p e ≤ d.ctxPrio p c

/-- Does the core hold a task or anything live? -/
def Core.holds (c : Core) : Bool := c.task.isSome || !c.live.segLive.isEmpty || !c.live.accLive.isEmpty

def Dev.holdsAny (d : Dev) (p : Nat) : Bool := (d.coreSet p).any fun k => (d.core k).holds

/-- Does the chosen context take the cores from the current one at once (R385)? -/
def Dev.overtakes (d : Dev) (p cur new : Nat) : Bool :=
  new != cur && (d.ctxPrio p cur < d.ctxPrio p new || !d.runnable p cur || (d.part p).sliceOver)

/-- The slice of the current context expires. -/
def execSliceExpiry (p : Fin 64) (s : State) : Host.Outcome State Fault Refusal :=
  s.run fun d =>
    let x := d.part p
    d.when (x.current.isSome && decide (x.sliceEnd ≤ d.now)) fun d => d.setPart p { d.part p with sliceOver := true }

/-! ### A switch (R386 to R390) -/

/-- The state that a context takes when it leaves the cores (R381, R385, R425). -/
def Dev.leavingState (d : Dev) (p c : Nat) (saved : Bool) : Nat :=
  let queued := (List.range 8).any fun q => !(d.tasks p c q).isEmpty
  if (d.part p).contained.contains c || (saved && !queued) then cxHeld else if queued then cxReady else cxIdle

/-- Is the exposed core retired (ERR_CMAP, R436)? -/
def Dev.coreRetired (d : Dev) (k : Nat) : Bool := d.bit pERR (0x400 + k / 8 * 8) (8 * (k % 8) + 7)

/-- Cores on which the saved state of a context stands. -/
def Dev.savedCores (d : Dev) (p c : Nat) : List Nat := (Tab.get (fun _ => []) (d.part p).saved c).map SavedCore.core

/-- The restore of a chosen context begins. -/
def Dev.beginRestore (d : Dev) (p c start : Nat) (out : Option Nat) : Dev :=
  let d := d.setCtxState p c cxRestoring
  let d := d.each (d.savedCores p c) fun k e =>
    if (e.core k).st = .idle then e.setCore k { e.core k with st := .restoring } else e
  d.setPart p { d.part p with switch := some { out := out, into := some c, phase := .restore, start := start } }

/-- The task of a core leaves its phase when the core comes to rest: what follows is the switch (R253, R254). -/
def Dev.leavePhase (d : Dev) (k : Nat) : Dev :=
  match (d.core k).task with
  | some t => d.phEnd (d.core k).part t.desc.phase
  | none => d

/-- A switch begins: the outgoing context's cores are asked to rest, and idle ones rest at once (R386). -/
def Dev.beginSwitch (d : Dev) (p out : Nat) (into : Option Nat) : Dev :=
  let d := (d.setCtxState p out cxSaving).phStart p phSwitch
  let d := d.setPart p { d.part p with switch := some { out := some out, into := into, phase := .rest, start := d.now } }
  d.each (d.coreSet p) fun k e =>
    let c := e.core k
    let rest := c.task.isNone || (decide (c.st = .suspended) && !c.struck)
    Dev.setCore (if rest then e.leavePhase k else e) k { c with preempt := true, atRest := rest, st := if rest && c.holds then .saving else c.st }

/-- A current context that is not runnable and holds no live state leaves the cores with no save (R385). -/
def Dev.dropCurrent (d : Dev) (p c : Nat) : Dev :=
  (d.setCtxState p c (if (d.part p).contained.contains c then cxHeld else cxIdle)).setPart p
    { d.part p with current := none, last := some c, sliceOver := false }

/-- A context becomes current while none is: a switch with nothing to save (R389). -/
def Dev.activate (d : Dev) (p : Nat) : Dev :=
  match d.choice p with
  | some c => (d.phStart p phSwitch).beginRestore p c d.now none
  | none => d

/-- CONTEXT_SWITCH_START (R385): the switch that the scheduler's choice calls for begins. -/
def execContextSwitchStart (p : Fin 64) (s : State) : Host.Outcome State Fault Refusal :=
  s.run fun d => d.when (d.partOn p && (d.part p).switch.isNone) fun d =>
    match (d.part p).current with
    | none => d.activate p
    | some c =>
      if !d.runnable p c && !d.holdsAny p then (d.dropCurrent p c).activate p
      else match d.choice p with
        | some e => if d.overtakes p c e then d.beginSwitch p c (some e) else d
        | none => if (d.part p).contained.contains c then d.beginSwitch p c none else d

/-- Has the core reached a point at which its task's mode lets it rest (R386, R387)? -/
def Core.mayRest (c : Core) (precise : Bool) : Bool :=
  c.task.isNone || precise || c.forced || c.tileOpen.isNone || decide (c.st = .suspended)

/-- CORE_AT_REST (R387, R396): the core stops issue; what it has in flight goes into its control block. -/
def execCoreAtRest (k : Fin 512) (s : State) : Host.Outcome State Fault Refusal :=
  s.run fun d =>
    let c := d.core k
    d.when (c.preempt && !c.atRest && !c.struck && !c.begun && c.mayRest (d.modes k).precise) fun d =>
      Dev.setCore (d.leavePhase k) k { c with atRest := true, st := if c.holds then .saving else c.st }

/-- What a switch saves of a core. -/
def Dev.saveCore (d : Dev) (k : Nat) : SavedCore :=
  let c := d.core k
  let s := d.copySegs k c.tileStart.segLive
  { core := k, live := d.takeLive k, task := c.task, carry := c.carry,
    tileStart := { c.tileStart with scratch := s.1, scratchPoison := s.2 }, tileOpen := c.tileOpen, ending := c.ending,
    outs := c.outs, mmas := c.mmas, tlds := c.tlds, wait := c.wait, suspendedOn := c.suspendedOn }

/-- The end of a switch is recorded (R389). -/
def Dev.endSwitch (d : Dev) (p start : Nat) : Dev :=
  let d := d.setPart p { d.part p with switch := none }
  let d := d.each (d.coreSet p) fun k e => e.setCore k { e.core k with preempt := false, atRest := false }
  ((d.count (pPART p) rPART_SW.off 63 32 1).setFld (pPART p) rPART_SW.off 31 0 (min 0xFFFFFFFF (d.now - start))).phEnd p phSwitch

/-- Have all cores come to rest, with the commits that they had started done (R386)? -/
def Dev.allRest (d : Dev) (p : Nat) : Bool :=
  (d.coreSet p).all fun k => (d.core k).atRest && (d.core k).committing.isEmpty

/-- The outgoing context's state is in its save areas; the choice is made afresh (R385, R388). -/
def Dev.saveDone (d : Dev) (p out start : Nat) : Dev :=
  let saved := ((d.coreSet p).filter fun k => (d.core k).holds).map d.saveCore
  let d := d.each (saved.map SavedCore.core) fun k e => e.vacate k
  let x := d.part p
  let d := d.setPart p { x with saved := Tab.set (fun _ => []) x.saved out saved, current := none, last := some out,
                                sliceOver := false }
  let d := d.setCtxState p out (d.leavingState p out (!saved.isEmpty))
  match d.choice p with
  | some c => d.beginRestore p c start (some out)
  | none => d.endSwitch p start

/-- SWITCH_SAVE_DONE (R388). -/
def execSwitchSaveDone (p : Fin 64) (s : State) : Host.Outcome State Fault Refusal :=
  s.run fun d =>
    match (d.part p).switch with
    | some { out := some c, into := _, phase := .rest, start := t } => d.when (d.allRest p) fun d => d.saveDone p c t
    | _ => d

/-- A core resumes at its saved point (R388). -/
def Dev.restoreCore (d : Dev) (p : Nat) (x : SavedCore) : Dev :=
  let k := x.core
  let d := d.putLive k x.live
  let live := { x.live with scratch := [], scratchPoison := [] }
  let st := if x.task.isNone then .idle else if !x.suspendedOn.isEmpty then .suspended else d.workSt k
  let d := d.setCore k { d.core k with
    st := st, part := p, task := x.task, carry := x.carry, live := live,
    tileStart := { x.tileStart with scratch := [], scratchPoison := [] }, tileOpen := x.tileOpen, ending := x.ending,
    outs := x.outs, committing := [], begun := false, preempt := false, atRest := false, ibuf := [], mmas := x.mmas, tlds := x.tlds, wait := x.wait,
    suspendedOn := x.suspendedOn, forced := false }
  match x.task with
  | some t => d.phStart p t.desc.phase
  | none => d

/-- The saved state of a context is back on its cores; a core whose check value failed faults its task (R390). -/
def Dev.restoreDone (d : Dev) (p c start : Nat) (badCores : List Nat) : Dev :=
  let saved := Tab.get (fun _ => []) (d.part p).saved c
  let bad := (saved.map SavedCore.core).filter badCores.contains
  let d := d.each saved fun x e => e.restoreCore p x
  let d := (d.each bad fun k e => (e.coreFault k 0x08).partEvt p evRestore).endSwitch p start
  let x := d.part p
  (d.setPart p { x with saved := Tab.set (fun _ => []) x.saved c [], current := some c, last := some c, sliceOver := false,
                        sliceEnd := d.now + d.fld (pPART p) rPART_CTL.off 31 16 * 1000 }).setCtxState p c
    (if bad.isEmpty then cxCurrent else cxHeld)

/-- A context whose saved state stands on a retired core is contained when it would be restored (R436): it is held, and
no context is current. -/
def Dev.containSaved (d : Dev) (p c start : Nat) : Dev :=
  let cores := (d.savedCores p c).filter fun k => decide ((d.core k).st = .restoring)
  let d := d.each cores fun k e => e.setCore k { e.core k with st := .idle }
  ((d.endSwitch p start).containContext p c).setCtxState p c cxHeld

/-- A restore whose cores are all in service is done. -/
def Dev.finishRestore (d : Dev) (p c start : Nat) (badCores : List Nat) : Dev :=
  if (d.savedCores p c).any d.coreRetired then d.containSaved p c start
  else if (d.savedCores p c).any fun k => d.inTest ukCore k then d
  else d.restoreDone p c start badCores

/-- SWITCH_RESTORE_DONE (R389, R390). -/
def execSwitchRestoreDone (p : Fin 64) (badCores : List Nat) (s : State) : Host.Outcome State Fault Refusal :=
  s.run fun d =>
    match (d.part p).switch with
    | some { out := _, into := some c, phase := .restore, start := t } => d.when true fun d => d.finishRestore p c t badCores
    | _ => d

/-- PART_SW_READ. -/
def execPartSwRead (a : Access) (p : Fin 64) (s : State) : Host.Outcome State Fault Refusal :=
  s.run fun d => d.regRead a (pPART p) rPART_SW.off rPART_SW id

/-- PART_STAT_READ (R397). -/
def execPartStatRead (a : Access) (p : Fin 64) (s : State) : Host.Outcome State Fault Refusal :=
  s.run fun d => d.regRead a (pPART p) rPART_STAT.off rPART_STAT id

/-! ### Embers (R391 to R394) -/

/-- EMBER_SIGNAL: a committed signal of a partition reaches an ember of its range. -/
def execEmberSignal (p : Fin 64) (e : Fin 16384) (op : EmberOp) (s : State) : Host.Outcome State Fault Refusal :=
  s.run fun d => d.when (d.partOn p && d.ownsEmber p e) fun d => d.signal p e op

/-- EMB_CFG_WRITE (R391): the value becomes 0. -/
def execEmbCfgWrite (a : Access) (e : Fin 16384) (v : Word) (s : State) : Host.Outcome State Fault Refusal :=
  s.run fun d => d.regWrite a (pEMB e) (cfgOff e) false fun d =>
    (d.store8 a (pEMB e) (cfgOff e) rEMB_CFG v).wr (pEMB e) (valOff e) 0

end Sys2Proof.Machine
end

