-- ==== Sys2Proof/Machine/Tiers.lean ====
section
/-! DEFINITION. The tier engine: mapping commands (R168 to R170), migrations (R171 to R173), re-fetch (R179 to R182),
quotas and the stage cache (R177), prefetch streams and staging (R183 to R187). -/

namespace Sys2Proof.Machine

/-! ### TIER_CMD (R168, R169) -/

def tierSts : Nat := rTIER_CMD_STS.off

/-- The fields of a command word. -/
structure TierCmd where
  op : Nat
  part : Nat
  gran : Nat
  shalf : Bool
  sgran : Nat
  shadow : Bool
  world : Bool
  run : Nat
  pin : Bool
  place : Nat
  kind : Nat
deriving DecidableEq, Repr

def TierCmd.ofWord (v : Nat) : TierCmd :=
  { op := bits v 63 60, part := bits v 59 54, gran := bits v 47 32, shalf := v.testBit 25, sgran := bits v 24 9,
    shadow := v.testBit 8, world := v.testBit 7, run := bits v 6 5, pin := v.testBit 4, place := bits v 3 2, kind := bits v 1 0 }

/-- A command ends with a result. -/
def Dev.tierEnd (d : Dev) (r : Nat) : Dev := (d.setFld pTIER tierSts 7 0 r).setBit pTIER tierSts 8 false

/-- A command written to TIER_CMD: lost while one is in progress (R168). -/
def Dev.tierCommand (d : Dev) (a : Access) (work : Dev → Dev) : Dev :=
  d.regWrite a pTIER rTIER_CMD.off true fun d => if d.bit pTIER tierSts 8 then d.setBit pTIER tierSts 9 true else work d

/-- Can a partition take a frame of a tier: 0, or the code of the refusal (R169)? -/
def Dev.roomCode (d : Dev) (p : Nat) (slow : Bool) : Nat :=
  if !d.tierIn slow then 9 else if !d.quotaLeft p slow then 5 else if (d.freeFrame slow).isNone then 6 else 0

/-- World 1 is asked for through the Non-secure TIER page. -/
def Dev.worldRefused (d : Dev) (w : Bool) : Bool := w && !d.bit pTIER rWORLD.off 0

/-- Is the granule mapped to the partition? -/
def Dev.ownedBy (d : Dev) (g p : Nat) : Bool := (d.gran g).valid && (d.gran g).part == p

/-- The tier in which a map command takes its frame. -/
def Dev.mapTier (d : Dev) (c : TierCmd) : Bool :=
  c.place == 2 || (c.place == 0 && !(d.quotaLeft c.part false && (d.freeFrame false).isSome))

def Dev.mapCode (d : Dev) (c : TierCmd) : Nat :=
  if 49151 < c.gran then (if c.place == 3 then 1 else 2)
  else
    let room := d.roomCode c.part (d.mapTier c)
    lowestCode [(c.place == 3, 1), ((d.gran c.gran).valid, 3), (room != 0, room), (d.worldRefused c.world, 7)]

/-- The bytes and the poison of a granule are gone: it reads as zeros. -/
def Dev.wipeGran (d : Dev) (g : Nat) : Dev :=
  let lo := g * granBytes
  { d with mem := Tab.clear d.mem lo (lo + granBytes),
           poison := NSet.clear d.poison (lo / 64) ((lo + granBytes) / 64),
           tier := { d.tier with tried := NSet.clear d.tier.tried (g * 1024) ((g + 1) * 1024),
                                 left := NSet.clear d.tier.left (g * 1024) ((g + 1) * 1024),
                                 staged := Tab.clear d.tier.staged (g * 1024) ((g + 1) * 1024) } }

/-- A granule is mapped: it takes the lowest free frame of the tier (R462) and its tiles read as zeros (R171). -/
def Dev.mapGran (d : Dev) (c : TierCmd) : Dev :=
  let slow := d.mapTier c
  match d.freeFrame slow with
  | none => d
  | some f =>
    ((d.useFrame slow f).wipeGran c.gran).setGran c.gran
      { valid := true, state := stZeroing, world := c.world, part := c.part, pin := c.pin, run := c.run, kind := c.kind,
        place := c.place, slow := slow, frame := f, shadow := c.shadow, sgran := c.sgran, shalf := c.shalf }

/-- MAP. -/
def execMap (a : Access) (v : Word) (s : State) : Host.Outcome State Fault Refusal :=
  s.run fun d =>
    let c := TierCmd.ofWord v.toNat
    if c.op != 1 then d
    else d.tierCommand a fun d => if d.mapCode c != 0 then d.tierEnd (d.mapCode c) else (d.mapGran c).tierEnd 0

/-- Is the granule in a state in which it may not be unmapped or moved? -/
def TierEntry.locked (e : TierEntry) : Bool := e.state == stRefetch || e.state == stRetiring

/-- The code with which UNMAP is refused; 0 for none. A granule whose retirement has reached state switching is refused with
0x0B as in state retiring, and so does MOVE (DESIGN CHOICE, log entry 35). -/
def Dev.unmapCode (d : Dev) (c : TierCmd) : Nat :=
  if 49151 < c.gran then 2
  else lowestCode [(!d.ownedBy c.gran c.part, 4), ((d.gran c.gran).locked || (d.mig c.gran).retire, 0x0B)]

/-- A migration is abandoned: its destination frame is given back (R172), and a granule that waits for one waits no more. -/
def Dev.abandonMove (d : Dev) (g : Nat) : Dev :=
  let e := d.gran g
  if d.tier.waiting.contains g then
    let rest := d.tier.waiting.filter (· != g)
    ((Dev.setGran { d with tier := { d.tier with waiting := rest } } g { e with state := stStable, dslow := false, dframe := 0 }).setMig
      g {}).setFld pERR rERR_FRET.off 31 16 rest.length
  else if e.moving then
    ((d.setGran g { e with state := stStable, dslow := false, dframe := 0 }).setMig g {}).giveBack e.dslow e.dframe
  else d

/-- Writes held for a granule go to its frame, in the order in which they were accepted. -/
def Dev.releaseHeld (d : Dev) (l : List (Nat × List Byte × Bool)) : Dev := d.each l fun x e => e.storeBad x.1 x.2.1 x.2.2

/-- UNMAP: the migration is abandoned, and the command stays in progress until every earlier access is done (R170). -/
def execUnmap (a : Access) (v : Word) (s : State) : Host.Outcome State Fault Refusal :=
  s.run fun d =>
    let c := TierCmd.ofWord v.toNat
    if c.op != 2 then d
    else d.tierCommand a fun d =>
      if d.unmapCode c != 0 then d.tierEnd (d.unmapCode c)
      else
        let held := (d.mig c.gran).held
        let d := (d.abandonMove c.gran).releaseHeld held
        Dev.setBit { d with tier := { d.tier with unmapping := some c.gran } } pTIER tierSts 8 true

/-- Granules that a request of the companion names. -/
def reqGrans : LinkReq → List Nat
  | .memory _ (.read a n) => granules a n
  | .memory _ (.write a bs _) => granules a bs.length
  | .memory _ (.share l) => granules (64 * l) 64
  | .memory _ (.own l) => granules (64 * l) 64
  | .memory _ (.writeBack l _ _) => granules (64 * l) 64
  | _ => []

/-- Is the granule still named by an access accepted before: a transfer into a core, from the source or its shadow, or a
request of the companion that waits (R170)? -/
def Dev.readsGran (d : Dev) (g : Nat) : Bool :=
  (d.cores.any fun (x : Nat × Core) => x.2.tlds.any fun t =>
      (granules t.src t.count).contains g || (t.mayShadow && (granules t.src t.count).any fun h => (d.gran h).sgran == g))
    || d.vex.heldReqs.any fun x => (reqGrans x).contains g

/-- UNMAP_DONE: every access accepted before the command has completed; valid is cleared and the frames are free. -/
def execUnmapDone (s : State) : Host.Outcome State Fault Refusal :=
  s.run fun d =>
    match d.tier.unmapping with
    | none => d
    | some g => d.when (!d.readsGran g) fun d =>
      let e := d.gran g
      let d := ((d.abandonMove g).invalidate (g * granBytes) granBytes).wipeGran g
      let d := Dev.setGran { d with tier := { d.tier with unmapping := none } } g {}
      (d.giveBack e.slow e.frame).tierEnd 0

def Dev.attrCode (d : Dev) (c : TierCmd) : Nat :=
  if 49151 < c.gran then (if c.place == 3 then 1 else 2)
  else
    let e := d.gran c.gran
    lowestCode [(c.place == 3, 1), (!d.ownedBy c.gran c.part, 4), (e.world != c.world || d.worldRefused c.world, 7),
                (e.run != c.run, 8)]

/-- SET_ATTRIBUTES. -/
def execSetAttributes (a : Access) (v : Word) (s : State) : Host.Outcome State Fault Refusal :=
  s.run fun d =>
    let c := TierCmd.ofWord v.toNat
    if c.op != 3 then d
    else d.tierCommand a fun d =>
      if d.attrCode c != 0 then d.tierEnd (d.attrCode c)
      else
        (d.setGran c.gran { d.gran c.gran with kind := c.kind, place := c.place, pin := c.pin, shadow := c.shadow,
                                               sgran := c.sgran, shalf := c.shalf }).tierEnd 0

/-! ### Migrations (R171 to R173) -/

/-- A migration to the other tier begins: it takes a destination frame and copies (R172). -/
def Dev.startMove (d : Dev) (g : Nat) : Dev :=
  let e := d.gran g
  match d.freeFrame (!e.slow) with
  | none => d
  | some f =>
    ((d.useFrame (!e.slow) f).setMig g {}).setGran g { e with state := stCopying, dslow := !e.slow, dframe := f }

def Dev.moveCode (d : Dev) (c : TierCmd) : Nat :=
  if 49151 < c.gran then 2
  else
    let e := d.gran c.gran
    let room := if e.moving then 0 else d.roomCode c.part (!e.slow)
    lowestCode [(!d.ownedBy c.gran c.part, 4), (room != 0, room), (e.locked || (d.mig c.gran).retire, 0x0B)]

/-- MOVE: the migration starts; a granule that already migrates goes on (log entry 18). A granule that zeroes starts to
copy at once, and its zeroing ends: every tile of it reads as zeros already (DESIGN CHOICE, log entry 35). -/
def execMove (a : Access) (v : Word) (s : State) : Host.Outcome State Fault Refusal :=
  s.run fun d =>
    let c := TierCmd.ofWord v.toNat
    if c.op != 4 then d
    else d.tierCommand a fun d =>
      if d.moveCode c != 0 then d.tierEnd (d.moveCode c)
      else if (d.gran c.gran).moving then d.tierEnd 0
      else (d.startMove c.gran).tierEnd 0

/-- ZEROING_DONE: every tile is zeroed (R171). -/
def execZeroingDone (g : Fin 49152) (s : State) : Host.Outcome State Fault Refusal :=
  s.run fun d =>
    let e := d.gran g
    d.when (e.valid && e.state == stZeroing) fun d => d.setGran g { e with state := stStable }

/-- MIGRATION_START: the tier engine moves a granule on its own (R173). -/
def execMigrationStart (g : Fin 49152) (s : State) : Host.Outcome State Fault Refusal :=
  s.run fun d =>
    let e := d.gran g
    d.when (e.valid && e.state == stStable && e.place == 0 && !e.pin && d.tier.unmapping != some g.val && d.roomCode e.part (!e.slow) == 0) fun d => d.startMove g

/-- The granule enters switching: from here on its writes are held (R172). -/
def Dev.enterSwitching (d : Dev) (g : Nat) : Dev := d.setGran g { d.gran g with state := stSwitching }

/-- MIGRATION_PASS_END (R172): a pass has copied its tiles; those written meanwhile are dirty. -/
def execMigrationPassEnd (g : Fin 49152) (s : State) : Host.Outcome State Fault Refusal :=
  s.run fun d =>
    let e := d.gran g
    let m := d.mig g
    d.when (e.valid && (e.state == stCopying || e.state == stRetiring) && !d.tier.waiting.contains g) fun d =>
      if m.dirty.length ≤ 16 then d.enterSwitching g
      else if m.pass + 1 < 8 then d.setMig g { m with pass := m.pass + 1, dirty := [] }
      else if m.retire then d.enterSwitching g
      else (d.abandonMove g).count pTIER rTIER_STAT.off 47 40 1

/-- The entry is rewritten with the destination, the granule is stable, and the held writes go to the new frame; the
source frame is what remains to deal with. -/
def Dev.switchOver (d : Dev) (g : Nat) : Dev :=
  let e := d.gran g
  let held := (d.mig g).held
  let d := (d.setGran g { e with state := stStable, slow := e.dslow, frame := e.dframe, dslow := false, dframe := 0 }).setMig g {}
  Dev.releaseHeld { d with tier := { d.tier with staged := Tab.clear d.tier.staged (g * 1024) ((g + 1) * 1024) } } held

/-- MIGRATION_SWITCH_DONE (R172): the source frame returns to the pool. -/
def execMigrationSwitchDone (g : Fin 49152) (s : State) : Host.Outcome State Fault Refusal :=
  s.run fun d =>
    let e := d.gran g
    d.when (e.valid && e.state == stSwitching && !(d.mig g).retire) fun d =>
      ((d.switchOver g).giveBack e.slow e.frame).count pTIER rTIER_STAT.off 63 48 1

/-- HEAT_HALVE (R166). -/
def execHeatHalve (s : State) : Host.Outcome State Fault Refusal :=
  s.run fun d => d.when true fun d =>
    d.each d.tier.map fun (x : Nat × TierEntry) e => e.setGran x.1 { x.2 with heat := x.2.heat / 2 }

/-! ### Re-fetch (R179 to R182, R299) -/

/-- The bytes of tile t of granule g in its replica, when the record names one that can be read and is whole. -/
def Dev.replicaTile (d : Dev) (g t : Nat) : Option (List Byte) :=
  let e := d.gran g
  match (d.sourceRec g).bind SourceRec.replica with
  | some r =>
    let a := r * granBytes + t * tileBytes
    if d.tierOk e.part e.world a tileBytes && !d.poisoned a tileBytes then some (d.load a tileBytes) else none
  | none => none

/-- The bytes of a tile in a chunk read from storage, when the digest of its record agrees (R299). -/
def Dev.chunkTile (d : Dev) (t : Nat) (data : List Byte) : Option (List Byte) :=
  match d.chunkOver t with
  | none => none
  | some (a, c) =>
    let x := d.chunk (d.manifest a) a c
    if data.length == x.len && Config.sha384 data == x.digest then some ((data.drop (t * tileBytes - x.dest)).take tileBytes)
    else none

/-- The lines of a tile that are still poisoned take the bytes of a good copy (R180). -/
def Dev.mendTile (d : Dev) (tile : Nat) (bs : List Byte) : Dev :=
  let lines := d.poison.filter fun l => l / 1024 == tile
  (d.each lines fun l e => e.storeRaw (64 * l) ((bs.drop (64 * (l % 1024))).take 64)).dropStaged (tile * tileBytes) 1

/-- REFETCH_TILE_DONE (R180, R181): a tile is read from its replica; without one its chunk is asked for from storage, and
each attempt on it ends with what came of it, until one gives the chunk or none is left and the tile stays poisoned. -/
def execRefetchTileDone (g : Fin 49152) (tile : Fin 1024) (chunk : Option ChunkResult) (s : State) :
    Host.Outcome State Fault Refusal :=
  s.run fun d =>
    let e := d.gran g
    let t := g.val * 1024 + tile.val
    let good := fun bs => (((d.mendTile t bs).dropRefetch t).count pTIER rTIER_STAT.off 39 24 1).settle g
    d.when (e.valid && e.state == stRefetch && (d.poisonTiles g).contains t && !d.tier.tried.contains t) fun d =>
      match chunk, d.refetchTry t with
      | none, _ =>
        match d.replicaTile g tile with
        | some bs => good bs
        | none => d.tryRefetch t 0
      | some (.arrived data), some x =>
        match d.chunkTile t data with
        | some bs => good bs
        | none => d.tryRefetch t (x.attempts + 1)
      | some (.error _), some x => d.tryRefetch t (x.attempts + 1)
      | some _, none => d

/-! ### Quotas and the stage cache (R176, R177) -/

/-- Does a new value of TIER_PQp meet the conditions of R177? -/
def Dev.quotaOk (d : Dev) (p new : Nat) : Bool :=
  let stage := bits new 47 32
  let hbm := bits new 15 0
  d.hbmUse p - d.stageQuota p + stage ≤ hbm && d.slowUse p ≤ bits new 31 16 && stage ≤ hbm

/-- TIER_PQ_WRITE. -/
def execTierPqWrite (a : Access) (p : Fin 64) (v : Word) (s : State) : Host.Outcome State Fault Refusal :=
  s.run fun d => d.regWrite a pTIER (rTIER_PQ.at p) false fun d =>
    let new := rTIER_PQ.write (d.rd pTIER (rTIER_PQ.at p)) a.width v.toNat
    if d.quotaOk p new then d.wr pTIER (rTIER_PQ.at p) new else d.setBit pTIER (rTIER_PU.at p) 63 true

/-- The stage cache gives frames back until it holds n, and the tiles in them are dropped (log entry 18). -/
def Dev.shrinkStage (d : Dev) (p n : Nat) : Dev :=
  let out := (d.stageOf p).drop n
  let d := d.setStage p ((d.stageOf p).take n)
  (d.unstage ((d.stagedOf p).drop (1024 * n))).each out fun f e => e.giveBack false f

/-- The stage cache takes up to n more free frames. -/
def Dev.growStage (d : Dev) (p : Nat) : Nat → Dev
  | 0 => d
  | n + 1 =>
    match d.freeFrame false with
    | some f => Dev.growStage ((d.useFrame false f).setStage p ((d.stageOf p).add f)) p n
    | none => d

/-- STAGE_CACHE_ADJUST (R177). -/
def execStageCacheAdjust (p : Fin 64) (s : State) : Host.Outcome State Fault Refusal :=
  s.run fun d => d.when true fun d =>
    let want := d.stageQuota p
    if want < (d.stageOf p).length then d.shrinkStage p want else d.growStage p (want - (d.stageOf p).length)

/-! ### Prefetch streams (R183 to R187) -/

/-- Does a setting of a stream let it be enabled? -/
def Dev.strmOk (d : Dev) (p new : Nat) : Bool :=
  let dinit := bits new 47 44
  let dmax := bits new 43 40
  let dmin := bits new 39 36
  dmin ≤ dmax && dmin ≤ dinit && dinit ≤ dmax && bits new 27 16 != 0 && d.ownsEmber p (bits new 13 0)

/-- STRM_CTL_WRITE (R187): a write of en = 1 that is allowed sets D to dinit and begins to stage. -/
def execStrmCtlWrite (a : Access) (p : Fin 64) (st : Fin 4) (v : Word) (s : State) : Host.Outcome State Fault Refusal :=
  s.run fun d => d.regWrite a pTIER (strmCtl p st) false fun d =>
    let new := rSTRM_CTL.write (d.rd pTIER (strmCtl p st)) a.width v.toNat
    if !new.testBit 63 then
      ((d.wr pTIER (strmCtl p st) new).setFld pTIER (strmSts p st) 3 0 0).setStream p st {}
    else if !a.reaches 63 63 then d.wr pTIER (strmCtl p st) new
    else if !d.strmOk p new then
      ((d.wr pTIER (strmCtl p st) (putBits new 63 63 0)).setFld pTIER (strmSts p st) 3 0 0).setStream p st {}
    else
      (((d.wr pTIER (strmCtl p st) new).setFld pTIER (strmSts p st) 3 0 (bits new 47 44)).setStream p st
        { c := d.emberValue (bits new 13 0) }).stageAhead p st

/-- Layers end with no direct read: after 8 running, D falls by 1, down to dmin (R187). -/
def Dev.cleanLayers (d : Dev) (p st : Nat) : Nat → Dev
  | 0 => d
  | n + 1 =>
    let x := d.stream p st
    let d := if x.late then d.setStream p st { x with late := false }
      else if x.clean + 1 < 8 then d.setStream p st { x with clean := x.clean + 1 }
      else
        let dmin := d.fld pTIER (strmCtl p st) 39 36
        (d.setStream p st { x with clean := 0 }).setFld pTIER (strmSts p st) 3 0 (max dmin (d.strmD p st - 1))
    Dev.cleanLayers d p st n

/-- The counter of a stream's ember reaches c: the layers before it have ended. -/
def Dev.reachLayer (d : Dev) (p st c : Nat) : Dev :=
  let old := (d.stream p st).c
  let d := d.cleanLayers p st (min (c - old) 4096)
  (d.setStream p st { d.stream p st with c := c }).stageAhead p st

/-- STREAM_ADVANCE (R184). -/
def execStreamAdvance (p : Fin 64) (st : Fin 4) (s : State) : Host.Outcome State Fault Refusal :=
  s.run fun d =>
    let c := d.emberValue (d.fld pTIER (strmCtl p st) 13 0)
    d.when (d.strmOn p st && c != (d.stream p st).c) fun d => d.reachLayer p st c

/-- STAGING_READ_DONE (R183). -/
def execStagingReadDone (p : Fin 64) (tile : Nat) (s : State) : Host.Outcome State Fault Refusal :=
  s.run fun d => d.when (d.tier.staged.any fun x => x.1 == tile && x.2.part == p.val && !x.2.done) fun d =>
    { d with tier := { d.tier with staged := d.tier.staged.map fun x => if x.1 == tile then (x.1, { x.2 with done := true }) else x } }

/-- STRM_STS_READ. -/
def execStrmStsRead (a : Access) (p : Fin 64) (st : Fin 4) (s : State) : Host.Outcome State Fault Refusal :=
  s.run fun d => d.regRead a pTIER (strmSts p st) rSTRM_STS id

/-- TIER_STAT_READ. -/
def execTierStatRead (a : Access) (s : State) : Host.Outcome State Fault Refusal :=
  s.run fun d => d.regRead a pTIER rTIER_STAT.off rTIER_STAT id

end Sys2Proof.Machine
end

