-- ==== Sys2Proof/Machine/Learning.lean ====
section
/-! DEFINITION. The LRN page: generator modes (R249), the step boundary and the phase trace (R254 to R256), and the ash
recorder (R257 to R261). -/

namespace Sys2Proof.Machine

/-! ### Generator modes (R249) -/

/-- Is context c of partition p in a collective group that spans more than one device? -/
def Dev.inWideGroup (d : Dev) (p c : Nat) : Bool :=
  d.fab.groups.any fun (x : Nat × Group) =>
    d.groupState x.1 != gFree && x.2.part == p && x.2.ctx == c && x.2.members.any fun m => m.1 != d.id

/-- LRN_GEN_WRITE: free = 1 is refused for a context in such a group or under recording. -/
def execLrnGenWrite (a : Access) (p : Fin 64) (c : Fin 16) (v : Word) (s : State) : Host.Outcome State Fault Refusal :=
  s.run fun d => d.regWrite a (pLRN p) (rLRN_GEN.at c) false fun d =>
    if writesBit a v 0 true && (d.inWideGroup p c || d.recording p c) then d.setBit (pLRN p) (rLRN_GEN.at c) 63 true
    else (d.store8 a (pLRN p) (rLRN_GEN.at c) rLRN_GEN v).noteModes p

/-! ### Step records (R255, R256) -/

/-- The 576 bytes of a step record window. -/
def Dev.stepRecord (d : Dev) (p : Nat) (r : Reg) : List Byte := (List.range 72).flatMap fun i => natLe 8 (d.rd (pLRN p) (r.at i))

/-- The closed record moves to LRN_PLAST and, with the trace enabled, into trace memory. -/
def Dev.closeStep (d : Dev) (p : Nat) : Dev :=
  let d := (d.phSync p).wr (pLRN p) (pcur 2) d.now
  let d := d.each (List.range 72) fun i e => e.wr (pLRN p) (rLRN_PLAST.at i) (e.rd (pLRN p) (pcur i))
  if d.bit (pLRN p) rLRN_PTRACE.off 63 then
    let x := d.part p
    d.setPart p { x with phases := { x.phases with trace := x.phases.trace ++ [d.stepRecord p rLRN_PLAST] } }
  else d

/-- The counters restart from 0 for step k. -/
def Dev.openStep (d : Dev) (p k : Nat) : Dev :=
  let d := d.each (List.range 72) fun i e => e.wr (pLRN p) (pcur i) 0
  ((d.wr (pLRN p) (pcur 0) k).wr (pLRN p) (pcur 1) d.now).wr (pLRN p) (pcur 3) p

/-- LRN_PSTEP_WRITE (R255). -/
def execLrnPstepWrite (a : Access) (p : Fin 64) (v : Word) (s : State) : Host.Outcome State Fault Refusal :=
  s.run fun d => d.regWrite a (pLRN p) rLRN_PSTEP.off true fun d => (d.closeStep p).openStep p v.toNat

/-! ### Trace memory (R256, R257, R456) -/

/-- A feature of a partition gives trace memory up once nothing of it waits there. -/
def Dev.traceIdle (d : Dev) (p : Nat) : Dev :=
  let x := d.part p
  let d := if x.phases.trace.isEmpty && !d.bit (pLRN p) rLRN_PTRACE.off 63 then d.unclaim pMOD rCLAIM.off traceHolder p else d
  if x.ash.queue.isEmpty && !d.bit (pLRN p) rLRN_ASH_CTL.off 63 then d.unclaim pMOD rCLAIM.off ashHolder p else d

/-- LRN_PTRACE_WRITE (R256): en = 1 claims trace memory; refused, the write changes only the claim status. -/
def execLrnPtraceWrite (a : Access) (p : Fin 64) (v : Word) (s : State) : Host.Outcome State Fault Refusal :=
  s.run fun d => d.regWrite a (pLRN p) rLRN_PTRACE.off false fun d =>
    let was := d.bit (pLRN p) rLRN_PTRACE.off 63
    if writesBit a v 63 true && !was then
      let r := d.claim pMOD rCLAIM.off traceHolder p
      if r.2 then (r.1.store8 a (pLRN p) rLRN_PTRACE.off rLRN_PTRACE v).wr (pLRN p) rLRN_PTIDX.off 0 else r.1
    else (d.store8 a (pLRN p) rLRN_PTRACE.off rLRN_PTRACE v).traceIdle p

/-- The oldest waiting record of the phase trace is written to its ring. -/
def Dev.writeTrace (d : Dev) (p : Nat) (r : List Byte) : Dev :=
  let x := d.part p
  let d := d.setPart p { x with phases := { x.phases with trace := x.phases.trace.tail } }
  let n := d.fld (pLRN p) rLRN_PTIDX.off 31 0
  let base := d.fld (pLRN p) rLRN_PTRACE.off 31 0 * 0x10000
  let d := d.engineStore p (base + n % max 1 (d.fld (pLRN p) rLRN_PTRACE.off 55 32) * 576) r
  d.setFld (pLRN p) rLRN_PTIDX.off 31 0 (n + 1)

/-- The oldest waiting record of the ash log is written to its area. -/
def Dev.writeAsh (d : Dev) (p : Nat) (r : List Byte) : Dev :=
  let a := (d.part p).ash
  let at_ := d.fld (pLRN p) rLRN_ASH_BASE.off 31 0 * 0x10000 + (a.pos - (a.queue.map List.length).sum)
  let d := (d.setAsh p { a with queue := a.queue.tail }).engineStore p at_ r
  (d.setFld (pLRN p) rLRN_ASH_STS.off 63 32 (d.fld (pLRN p) rLRN_ASH_STS.off 63 32 + 1)).setBit (pLRN p) rLRN_ASH_STS.off 0
    (!a.queue.tail.isEmpty)

/-- TRACE_RECORD_WRITTEN: a record leaves trace memory; after the last one the claim is released. -/
def execTraceRecordWritten (p : Fin 64) (s : State) : Host.Outcome State Fault Refusal :=
  s.run fun d => d.when true fun d =>
    match (d.part p).phases.trace, (d.part p).ash.queue with
    | r :: _, _ => (d.writeTrace p r).traceIdle p
    | [], r :: _ => (d.writeAsh p r).traceIdle p
    | [], [] => d

/-! ### The ash recorder (R257 to R261) -/

/-- The body of the begin record (R259). -/
def Dev.beginBody (d : Dev) (p c : Nat) : List Byte :=
  natLe 4 1 ++ natLe 2 d.id ++ natLe 1 p ++ natLe 1 c ++ natLe 8 (d.rd (pLRN p) (rLRN_SEED.at c)) ++ natLe 1 0
    ++ natLe 1 (b2n (d.bit (pPART p) (ctxReg c) 62)) ++ natLe 1 (d.fld (pPART p) (ctxReg c) 55 48) ++ natLe 1 0xB0
    ++ natLe 4 (d.epochNow p) ++ List.replicate 40 0

/-- Recording begins: an empty log, whose modes are those of the begin record. -/
def Dev.beginAsh (d : Dev) (p c : Nat) : Dev :=
  let d := d.setAsh p { seed := d.rd (pLRN p) (rLRN_SEED.at c), stochastic := d.bit (pPART p) (ctxReg c) 62 }
  (d.wr (pLRN p) rLRN_ASH_STS.off 0).ashAppend p 1 0 (d.beginBody p c)

/-- Recording ends: the end record goes into the reserve (R261); prepared records that still wait are left out. -/
def Dev.endAsh (d : Dev) (p : Nat) : Dev :=
  let d := d.setAsh p { (d.part p).ash with apps := [] }
  let a := (d.part p).ash
  let flags := b2n (d.bit (pLRN p) rLRN_ASH_STS.off 1) + 2 * b2n (d.bit (pLRN p) rLRN_ASH_STS.off 2)
  let r := ashRecord 0xFF 0 a.nrec (natLe 4 a.nrec ++ natLe 1 flags ++ natLe 3 0 ++ natLe 4 (crc32c.result a.crc))
  (d.setAsh p { a with pos := a.pos + r.length, nrec := a.nrec + 1, queue := a.queue ++ [r], ended := true }).setBit
    (pLRN p) rLRN_ASH_STS.off 0 true

/-- A write of LRN_ASH_CTL; a refused start changes nothing but the claim status (R25, R257). -/
def Dev.ashCtl (d : Dev) (a : Access) (p : Nat) (v : Word) : Dev :=
  d.regWrite a (pLRN p) rLRN_ASH_CTL.off false fun d =>
    let old := d.rd (pLRN p) rLRN_ASH_CTL.off
    let new := rLRN_ASH_CTL.write old a.width v.toNat
    let c := bits new 3 0
    if old.testBit 63 then
      if new.testBit 63 then d
      else (d.setBit (pLRN p) rLRN_ASH_CTL.off 63 false).endAsh p
    else if !new.testBit 63 then d.wr (pLRN p) rLRN_ASH_CTL.off new
    else if d.bit (pLRN p) (rLRN_GEN.at c) 0 then d
    else
      let r := d.claim pMOD rCLAIM.off ashHolder p
      if r.2 then (r.1.wr (pLRN p) rLRN_ASH_CTL.off new).beginAsh p c
      else r.1

/-- ASH_RECORD_START (R257). -/
def execAshRecordStart (a : Access) (p : Fin 64) (v : Word) (s : State) : Host.Outcome State Fault Refusal :=
  s.run fun d => if writesBit a v 63 true then d.ashCtl a p v else d

/-- ASH_RECORD_STOP (R259). -/
def execAshRecordStop (a : Access) (p : Fin 64) (v : Word) (s : State) : Host.Outcome State Fault Refusal :=
  s.run fun d => if writesBit a v 63 false then d.ashCtl a p v else d

/-- A prepared record of the runtime is appended, with index and crc filled in (R260). -/
def Dev.appendApp (d : Dev) (p addr len flags : Nat) : Dev :=
  if d.ashSize p < (d.part p).ash.pos + 16 + len + 64 then
    if d.bit (pLRN p) rLRN_ASH_STS.off 1 then d else (d.setBit (pLRN p) rLRN_ASH_STS.off 1 true).partEvt p evEngine
  else d.ashAppend p (d.loadNatNew addr 2) flags (d.loadNew (addr + 16) len)

/-- The oldest prepared record is looked at: it waits for lines that the companion holds and for poisoned lines in re-fetch
(R179, R346); one that cannot be read, or that has no runtime flag, is left out (log entry 29). -/
def Dev.takeApp (d : Dev) (p : Nat) : Dev :=
  match (d.part p).ash.apps with
  | [] => d
  | addr :: rest =>
    let done := fun (e : Dev) => e.setAsh p { (e.part p).ash with apps := rest }
    let w := d.partWorld p
    if addr % 64 != 0 || d.rangeCode p w addr 16 != 0 then done d
    else
      let len := d.loadNatNew (addr + 4) 4
      let flags := d.loadNatNew (addr + 2) 2
      match d.readGate [(addr, 16)] with
      | (d, .wait) => d
      | (d, .bad) => done d
      | (d, .clear) =>
        if d.rangeCode p w addr (16 + len) != 0 || flags % 2 != 1 then done d
        else match d.readGate [(addr, 16 + len)] with
        | (d, .wait) => d
        | (d, .bad) => done d
        | (d, .clear) => (done (d.engineRead p addr (16 + len))).appendApp p addr len flags

/-- LRN_ASH_APP_WRITE (R260): ignored while nothing is recorded; a record behind others waits its turn. -/
def execLrnAshAppWrite (a : Access) (p : Fin 64) (v : Word) (s : State) : Host.Outcome State Fault Refusal :=
  s.run fun d => d.regWrite a (pLRN p) rLRN_ASH_APP.off true fun d =>
    if d.bit (pLRN p) rLRN_ASH_CTL.off 63 then
      let x := (d.part p).ash
      let d := d.setAsh p { x with apps := x.apps ++ [bits v.toNat 47 0] }
      if x.apps.isEmpty then d.takeApp p else d
    else d

/-- Prepared records that wait are looked at again, one of each partition. -/
def Dev.takeApps (d : Dev) : Dev := d.each (List.range 64) fun p e => e.takeApp p

end Sys2Proof.Machine
end

