-- ==== Sys2Proof/Machine/Dma.lean ====
section
/-! DEFINITION. DMA channels: rings, descriptors and their bursts (R361 to R370), and the check-value units with their
software feed (R371 to R375). -/

namespace Sys2Proof.Machine

/-! ### Claims by software (R453 to R455) -/

def softHolder : Nat := 0xFF
def dmaHolder : Nat := 1

/-- What a write of a claim register asks for: its op and rid fields, after its other fields. -/
def Dev.softClaim (d : Dev) (page off : Nat) (v : Nat) : Dev :=
  let rid := bits v 31 16
  match bits v 61 60 with
  | 1 => (d.claim page off softHolder rid).1
  | 2 => if d.holds page off softHolder rid then d.unclaim page off softHolder rid else d.setBit page off 62 true
  | _ => d

/-! ### Registers of a channel -/

def chOff (c : Nat) (r : Reg) : Nat := r.at (dmaLocal c)
def Dev.chState (d : Dev) (c : Nat) : Nat := d.fld (pDMA c) (chOff c rDMA_STAT) 2 0
def Dev.setChState (d : Dev) (c st : Nat) : Dev := d.setFld (pDMA c) (chOff c rDMA_STAT) 2 0 st
def chDisabled : Nat := 0
def chIdle : Nat := 1
def chRunning : Nat := 2
def chStalled : Nat := 3
def chStopped : Nat := 4
def chError : Nat := 5

def Dev.chan (d : Dev) (c : Nat) : Channel := Tab.get (fun _ => {}) d.chans c
def Dev.setChan (d : Dev) (c : Nat) (x : Channel) : Dev := { d with chans := Tab.set (fun _ => {}) d.chans c x }
def Dev.setRun (d : Dev) (c : Nat) (r : Option DmaRun) : Dev := d.setChan c { d.chan c with run := r }

def Dev.chOn (d : Dev) (c : Nat) : Bool := d.bit (pDMA c) (chOff c rDMA_CTL) 63
def Dev.chPart (d : Dev) (c : Nat) : Nat := d.fld (pDMA c) (chOff c rDMA_CTL) 59 54
def Dev.chWorld (d : Dev) (c : Nat) : Bool := d.bit (pDMA c) (chOff c rDMA_CTL) 60
def Dev.chHead (d : Dev) (c : Nat) : Nat := d.fld (pDMA c) (chOff c rDMA_IDX) 47 32
def Dev.chTail (d : Dev) (c : Nat) : Nat := d.fld (pDMA c) (chOff c rDMA_IDX) 15 0
/-- Entries of the ring (R362). -/
def Dev.chSize (d : Dev) (c : Nat) : Nat :=
  let k := d.fld (pDMA c) (chOff c rDMA_RING) 55 52
  2 ^ (if k = 0 then 16 else k)
/-- Device address of ring entry i. -/
def Dev.chEntry (d : Dev) (c i : Nat) : Nat := d.fld (pDMA c) (chOff c rDMA_RING) 47 0 / 64 * 64 + 64 * (i % d.chSize c)

def Dev.crcVal (d : Dev) (c : Nat) : Nat := d.rd (pDMA c) (chOff c rDMA_CRC_VAL)
def Dev.setCrcVal (d : Dev) (c v : Nat) : Dev := d.wr (pDMA c) (chOff c rDMA_CRC_VAL) v
def chClaim (c : Nat) : Nat := chOff c rDMA_CRC_CLAIM

/-- A channel with work runs; one without is idle. -/
def Dev.chGo (d : Dev) (c : Nat) : Dev := d.setChState c (if d.chHead c = d.chTail c then chIdle else chRunning)

/-- A stop: the abort bit is clear again, and a channel that was switched off is disabled (R370, R377). -/
def Dev.chStop (d : Dev) (c st : Nat) : Dev :=
  (Dev.setChan (d.setBit (pDMA c) (chOff c rDMA_CTL) 62 false) c { d.chan c with run := none, abort := false }).setChState c
    (if d.chOn c then st else chDisabled)

/-! ### DMA_CHc_IDX and DMA_CHc_CTL (R363, R364, R370, R377) -/

/-- The channel accepts a tail in the range old tail + 1 to head + 2^k. -/
def Dev.tailWrite (d : Dev) (c new : Nat) : Dev :=
  let dist := (new + 65536 - d.chTail c) % 65536
  let used := (d.chTail c + 65536 - d.chHead c) % 65536
  if dist = 0 then d
  else if used + dist ≤ d.chSize c then
    let d := d.setFld (pDMA c) (chOff c rDMA_IDX) 15 0 new
    if d.chState c == chIdle then d.setChState c chRunning else d
  else d.setBit (pDMA c) (chOff c rDMA_STS) 1 true

/-- DMA_IDX_WRITE. -/
def execDmaIdxWrite (a : Access) (c : Fin 192) (v : Word) (s : State) : Host.Outcome State Fault Refusal :=
  s.run fun d => d.regWrite a (pDMA c) (chOff c rDMA_IDX) true fun d => d.tailWrite c (bits v.toNat 15 0)

/-- An abort (R370): a descriptor that runs ends after its burst; an idle or stalled channel stops at once. -/
def Dev.chAbort (d : Dev) (c : Nat) : Dev :=
  if (d.chan c).run.isSome then
    Dev.setChan (d.setBit (pDMA c) (chOff c rDMA_CTL) 62 true) c { d.chan c with abort := true }
  else if d.chState c == chIdle || d.chState c == chStalled || d.chState c == chRunning then
    (d.chStop c chStopped).raiseInt (pDMA c) (dmaLocal c + 1)
  else d.chStop c (d.chState c)

/-- Restart at head of a stalled or stopped channel (R364, R369). -/
def Dev.chResume (d : Dev) (c : Nat) : Dev :=
  if d.chState c == chStalled || d.chState c == chStopped || d.chState c == chError then d.chGo c else d

/-- A write of DMA_CHc_CTL. -/
def Dev.dmaCtl (d : Dev) (a : Access) (c : Nat) (v : Word) : Dev :=
  d.regWrite a (pDMA c) (chOff c rDMA_CTL) false fun d =>
    let old := d.rd (pDMA c) (chOff c rDMA_CTL)
    let new := rDMA_CTL.write old a.width v.toNat
    let was := old.testBit 63
    let on := new.testBit 63
    let keep := if was then putBits (putBits new 60 60 (bits old 60 60)) 59 54 (bits old 59 54)
      else if new.testBit 60 && !d.bit (pDMA c) rWORLD.off 0 then putBits new 60 60 (bits old 60 60) else new
    let d := d.wr (pDMA c) (chOff c rDMA_CTL) (putBits (putBits keep 62 62 (bits old 62 62)) 61 61 0)
    let d := if on && !was then (d.wr (pDMA c) (chOff c rDMA_IDX) 0).setChState c chIdle else d
    let d := if was && (!on || writesBit a v 62 true) then d.chAbort c else d
    if on && writesBit a v 61 true then d.chResume c else d

/-- DMA_CTL_EN_WRITE (R377). -/
def execDmaCtlEnWrite (a : Access) (c : Fin 192) (v : Word) (s : State) : Host.Outcome State Fault Refusal :=
  s.run fun d => d.dmaCtl a c v
/-- DMA_ABORT (R370). -/
def execDmaAbort (a : Access) (c : Fin 192) (v : Word) (s : State) : Host.Outcome State Fault Refusal :=
  s.run fun d => if writesBit a v 62 true then d.dmaCtl a c v else d
/-- DMA_RESUME (R364). -/
def execDmaResume (a : Access) (c : Fin 192) (v : Word) (s : State) : Host.Outcome State Fault Refusal :=
  s.run fun d => if writesBit a v 61 true then d.dmaCtl a c v else d

/-! ### Descriptors (R364, R365) -/

structure DmaDesc where
  src : Nat
  dst : Nat
  len : Nat
  nrows : Nat
  sstride : Nat
  dstride : Nat
  pattern : Nat
  op : Nat
  mode : Nat
  poly : Nat
  cont : Bool
  /-- It starts only once every write of earlier descriptors is visible (R366). -/
  fence : Bool
  irq : Bool
  emberEn : Bool
  ember : Nat
  /-- Every reserved field is 0. -/
  clean : Bool
  own : Bool
deriving DecidableEq, Repr

def DmaDesc.ofBytes (bs : List Byte) : DmaDesc :=
  let w := fun i => leNat ((bs.drop (8 * i)).take 8)
  { src := bits (w 0) 47 0, dst := bits (w 1) 47 0, len := bits (w 2) 31 0, nrows := bits (w 2) 47 32,
    sstride := bits (w 3) 31 0, dstride := bits (w 3) 63 32, pattern := w 4, op := bits (w 5) 3 0, mode := bits (w 5) 6 4,
    poly := bits (w 5) 8 7, cont := (w 5).testBit 9, fence := (w 5).testBit 10, irq := (w 5).testBit 11, emberEn := (w 5).testBit 12,
    ember := bits (w 5) 26 13,
    clean := bits (w 0) 63 48 == 0 && bits (w 1) 63 48 == 0 && bits (w 2) 63 48 == 0 && bits (w 5) 63 27 == 0
      && bits (w 7) 62 59 == 0,
    own := (w 7).testBit 63 }

def opCopy : Nat := 1
def opFill : Nat := 2
def opCheck : Nat := 3
def mdNone : Nat := 0
def mdCompute : Nat := 1
def mdAppend : Nat := 2
def mdCheck : Nat := 3
def mdStrip : Nat := 4

/-- Does the descriptor read a source, and write a destination? -/
def DmaDesc.reads (x : DmaDesc) : Bool := x.op != opFill
def DmaDesc.writes (x : DmaDesc) : Bool := x.op != opCheck
def DmaDesc.total (x : DmaDesc) : Nat := x.len * x.nrows
/-- Bytes of the trailer (R374). -/
def DmaDesc.trailer (x : DmaDesc) : Nat := (crcOf x.poly).width / 8
def DmaDesc.srcEnd (x : DmaDesc) : Nat := x.src + (x.nrows - 1) * x.sstride + x.len
def DmaDesc.dstEnd (x : DmaDesc) : Nat := x.dst + (x.nrows - 1) * x.dstride + x.len
def DmaDesc.readsTrailer (x : DmaDesc) : Bool := x.mode == mdCheck || x.mode == mdStrip
def DmaDesc.writesTrailer (x : DmaDesc) : Bool := x.mode == mdAppend || (x.op == opCopy && x.mode == mdCheck)

/-- The permitted operations and modes of R365, and the other conditions of status 0x01. -/
def DmaDesc.formOk (x : DmaDesc) : Bool :=
  let combo := (x.op == opCopy && x.mode ≤ 4) || (x.op == opFill && x.mode ≤ 2)
    || (x.op == opCheck && (x.mode == mdCompute || x.mode == mdCheck))
  combo && x.clean && x.len != 0 && x.nrows != 0
    && x.total + (if x.readsTrailer || x.writesTrailer then x.trailer else 0) ≤ 2 ^ 48 - 1

/-- May the channel access n bytes at an address (R361)? -/
def Dev.dmaMay (d : Dev) (c a n : Nat) : Bool :=
  let p := d.chPart c
  let w := d.chWorld c
  d.accessCode p w a n == 0 && (match whereIs a with
    | .scratch _ => (pieces scratchBytes a n).all fun r => d.bit (pCORE (windowCore r.1)) rWORLD.off 0 == w
    | _ => true)

/-- Every address that the descriptor names is permitted. -/
def Dev.dmaAddrsOk (d : Dev) (c : Nat) (x : DmaDesc) : Bool :=
  let rows := List.range x.nrows
  (!x.reads || rows.all fun r => d.dmaMay c (x.src + r * x.sstride) x.len)
    && (!x.writes || rows.all fun r => d.dmaMay c (x.dst + r * x.dstride) x.len)
    && (!x.readsTrailer || d.dmaMay c x.srcEnd x.trailer) && (!x.writesTrailer || d.dmaMay c x.dstEnd x.trailer)

/-- The status with which a descriptor is refused before it moves anything; 0 for none (R365, R361). -/
def Dev.dmaCheck (d : Dev) (c : Nat) (x : DmaDesc) : Nat :=
  if !x.formOk || (x.emberEn && !d.ownsEmber (d.chPart c) x.ember) then 1
  else if !d.dmaAddrsOk c x then 2
  else 0

/-- The descriptor's claim of the unit (R375): one that its forerunner passed on stands. -/
def Dev.dmaClaim (d : Dev) (c : Nat) (x : DmaDesc) : Dev × Bool :=
  if x.mode == mdNone then (d, true)
  else if d.holds (pDMA c) (chClaim c) dmaHolder c then (d, true)
  else d.claim (pDMA c) (chClaim c) dmaHolder c

/-- A descriptor taken from the ring, checked whole. -/
def Dev.dmaBegin (d : Dev) (c at_ : Nat) (bs : List Byte) : Dev :=
  let x := DmaDesc.ofBytes bs
  let run := fun st => { bytes := bs, addr := at_, pos := 0, total := x.total, retries := 0, burstRetries := 0,
                         poisoned := false, finished := st != 0, wrote := false, status := st : DmaRun }
  let code := d.dmaCheck c x
  if code != 0 then d.setRun c (some (run code))
  else
    let r := d.dmaClaim c x
    if !r.2 then r.1.setRun c (some (run 3))
    else
      let d := if x.mode != mdNone && !x.cont then r.1.setCrcVal c (crcOf x.poly).init else r.1
      d.setRun c (some (run 0))

/-- A descriptor that cannot be read ends with a status and nothing is written back. -/
def Dev.dmaUnread (d : Dev) (c st : Nat) : Dev :=
  let d := (d.setFld (pDMA c) (chOff c rDMA_IDX) 47 32 ((d.chHead c + 1) % 65536)).setFld (pDMA c) (chOff c rDMA_STS) 11 4 st
  (d.unclaim (pDMA c) (chClaim c) dmaHolder c).chStop c chError

/-- Is the channel in service at the present service level (R417)? -/
def Dev.chServes (d : Dev) (c : Nat) : Bool :=
  let sl := d.fld pMOD rMOD_SL.off 1 0
  if c < 128 then 2 ≤ sl || (sl == 1 && d.fld pMOD rMOD_SL.off 14 12 == c / 16) else if c < 160 then 2 ≤ sl else 3 ≤ sl

/-- Are the channel's writes visible to all agents? -/
def Dev.dmaVisible (d : Dev) (c : Nat) : Bool :=
  !(d.vex.writes.any fun w => w.owner == c + 1024) && !(d.tier.mig.any fun (x : Nat × Migration) => !x.2.held.isEmpty)

/-- What stands in the way of reading a range now: the device after asking for it, and whether the range is here. -/
def Dev.dmaHere (d : Dev) (c a n : Nat) : Dev × Bool :=
  if whereIs a == .companion then (d.windowAsk a n (d.chWorld c), d.windowHere a n)
  else if d.companionOwns a n then (d.snoop a n, false)
  else if d.scratchBusy a n false || !(d.stagingTiles a n).isEmpty then (d, false)
  else if d.poisoned a n then
    let d := d.refetchRange a n
    (d, !d.refetching a n)
  else (d, true)

/-- A read of the channel: the bytes, and whether a line of them is poisoned. -/
def Dev.dmaRead (d : Dev) (c a n : Nat) : Dev × List Byte × Bool :=
  let r := (d.loadNew a n, d.poisoned a n)
  let d := d.engineRead (d.chPart c) a n
  (if whereIs a == .companion then d.windowUsed a n else d, r.1, r.2)

/-- DMA_DESCRIPTOR_START (R364 to R366): a descriptor with fence waits until the channel's earlier writes are visible. -/
def execDmaDescriptorStart (c : Fin 192) (s : State) : Host.Outcome State Fault Refusal :=
  s.run fun d => d.when (d.chState c == chRunning && d.chServes c && !d.inTest ukDma c && (d.chan c).run.isNone && d.chHead c != d.chTail c) fun d =>
    let at_ := d.chEntry c (d.chHead c)
    let scratch := match whereIs at_ with | .scratch _ => true | _ => false
    if scratch || !d.dmaMay c at_ 64 then d.dmaUnread c 2
    else
      let h := d.dmaHere c at_ 64
      if !h.2 then h.1
      else if h.1.poisoned at_ 64 then h.1.dmaUnread c 1
      else
        let y := h.1.dmaRead c at_ 64
        let x := DmaDesc.ofBytes y.2.1
        if x.own && x.fence && !d.dmaVisible c then d
        else if x.own then y.1.dmaBegin c at_ y.2.1
        else ((y.1.setChState c chStalled).setBit (pDMA c) (chOff c rDMA_STS) 2 true).raiseInt (pDMA c) (dmaLocal c + 1)

/-! ### Bursts (R360, R368, R369) -/

/-- Source, destination and length of the burst at a position of the payload. -/
def DmaDesc.burst (x : DmaDesc) (pos : Nat) : Nat × Nat × Nat :=
  let r := pos / x.len
  let o := pos % x.len
  let src := x.src + r * x.sstride + o
  let room := if x.reads then 4096 - src % 4096 else 4096
  (src, x.dst + r * x.dstride + o, min room (x.len - o))

/-- The bytes of a fill burst: byte m of a row is byte m mod 8 of the pattern. -/
def DmaDesc.fillBytes (x : DmaDesc) (pos n : Nat) : List Byte :=
  (List.range n).map fun i => BitVec.ofNat 8 (x.pattern / 2 ^ (8 * ((pos % x.len + i) % 8)))

/-- A write of the channel; one to the window is its own (R347). -/
def Dev.dmaWrite (d : Dev) (c a : Nat) (bs : List Byte) (bad : Bool) : Dev :=
  if whereIs a == .companion then d.windowWrite (c + 1024) a bs bad (d.chWorld c) else d.put a bs bad

/-- Bytes of a source written line by line, so that each destination line takes the poison of what lands in it: the poisoned lines
as they were read. -/
def Dev.dmaMove (d : Dev) (c : Nat) (bad : NSet) (src dst : Nat) : List Byte → Nat → Dev
  | _, 0 => d
  | bs, k + 1 =>
    if bs.isEmpty then d
    else
      let n := min (64 - src % 64) bs.length
      (Dev.dmaMove (d.dmaWrite c dst (bs.take n) (bad.meets (src / 64) ((src + n + 63) / 64))) c bad (src + n) (dst + n)
        (bs.drop n) k)

/-- The unit is fed when the mode has one. -/
def Dev.dmaFeed (d : Dev) (c : Nat) (x : DmaDesc) (bs : List Byte) : Dev :=
  if x.mode == mdNone then d else d.setCrcVal c ((crcOf x.poly).feed (d.crcVal c) bs)

/-- The trailer after the last byte of the payload (R374): appended, or read and compared. -/
def Dev.dmaTrailer (d : Dev) (c : Nat) (x : DmaDesc) (r : DmaRun) : Dev × DmaRun :=
  let result := natLe x.trailer ((crcOf x.poly).result (d.crcVal c))
  let fin := { r with finished := true, status := if r.poisoned then 4 else 0 }
  if x.mode == mdAppend then (d.dmaWrite c x.dstEnd result false, fin)
  else if x.readsTrailer then
    let y := d.dmaRead c x.srcEnd x.trailer
    let d := if x.writesTrailer then y.1.dmaWrite c x.dstEnd y.2.1 y.2.2 else y.1
    (d, { fin with status := if r.poisoned || y.2.2 then 4 else if y.2.1 != result then 5 else 0 })
  else (d, fin)

/-- Can the ranges of the next burst be used now, the trailer's with those of the last one? -/
def Dev.burstReady (d : Dev) (c : Nat) (x : DmaDesc) (b : Nat × Nat × Nat) (last : Bool) : Dev × Bool :=
  let one := fun (y : Dev × Bool) (use : Bool) a n => if use then ((y.1.dmaHere c a n).1, y.2 && (y.1.dmaHere c a n).2) else y
  let y := one (d, true) x.reads b.1 b.2.2
  let y := one y (last && x.readsTrailer) x.srcEnd x.trailer
  (y.1, y.2 && !(x.writes && y.1.scratchBusy b.2.1 b.2.2 true)
    && !(last && x.writesTrailer && y.1.scratchBusy x.dstEnd x.trailer true))

/-- May the channel still access what a burst names, the trailer's bytes with those of the last one (R170, R361)? -/
def Dev.burstMay (d : Dev) (c : Nat) (x : DmaDesc) (b : Nat × Nat × Nat) (last : Bool) : Bool :=
  (!x.reads || d.dmaMay c b.1 b.2.2) && (!x.writes || d.dmaMay c b.2.1 b.2.2)
    && (!last || ((!x.readsTrailer || d.dmaMay c x.srcEnd x.trailer) && (!x.writesTrailer || d.dmaMay c x.dstEnd x.trailer)))

/-- A burst that completes. -/
def Dev.dmaBurst (d : Dev) (c : Nat) (x : DmaDesc) (r : DmaRun) : Dev :=
  let b := x.burst r.pos
  let last := r.pos + b.2.2 == r.total
  let y := d.burstReady c x b last
  if !d.burstMay c x b last then d.setRun c (some { r with finished := true, status := 2 })
  else if !y.2 then y.1
  else
    let z := if x.reads then y.1.dmaRead c b.1 b.2.2 else (y.1, x.fillBytes r.pos b.2.2, false)
    let d := z.1.dmaFeed c x z.2.1
    let d := if !x.writes then d
      else if z.2.2 then d.dmaMove c y.1.poison b.1 b.2.1 z.2.1 4096
      else d.dmaWrite c b.2.1 z.2.1 false
    let r := { r with pos := r.pos + b.2.2, burstRetries := 0, poisoned := r.poisoned || z.2.2 }
    if last then
      let t := d.dmaTrailer c x r
      t.1.setRun c (some t.2)
    else d.setRun c (some r)

/-- A burst that meets a transfer error is issued again, up to 3 times (R368). -/
def Dev.dmaRetry (d : Dev) (c : Nat) (r : DmaRun) : Dev :=
  if 3 ≤ r.burstRetries then d.setRun c (some { r with finished := true, status := 7 })
  else d.setRun c (some { r with burstRetries := r.burstRetries + 1, retries := satAdd 7 r.retries 1 })

/-- An abort takes effect after the burst in progress, unless that was the last one (R370). -/
def Dev.dmaAborted (d : Dev) (c : Nat) : Dev :=
  match (d.chan c).run with
  | some r => if (d.chan c).abort && !r.finished then d.setRun c (some { r with finished := true, status := 6 }) else d
  | none => d

/-- DMA_BURST_DONE. -/
def execDmaBurstDone (c : Fin 192) (error : Bool) (s : State) : Host.Outcome State Fault Refusal :=
  s.run fun d =>
    match (d.chan c).run with
    | none => d
    | some r => d.when (!r.finished) fun d =>
      (if error then d.dmaRetry c r else d.dmaBurst c (DmaDesc.ofBytes r.bytes) r).dmaAborted c

/-! ### Completion (R367, R375) -/

/-- The check field written back: the result, the running value on an abort, a free value where the descriptor has
none (log entry 5). -/
def Dev.checkField (d : Dev) (c : Nat) (x : DmaDesc) (st : Nat) : Dev × Nat :=
  if st == 6 then (d, d.crcVal c)
  else if (st == 0 || st == 5) && x.mode != mdNone then (d, (crcOf x.poly).result (d.crcVal c))
  else (d.free.1, d.free.2.toNat)

/-- Bytes 48 to 62 are written back. -/
def Dev.writeBack (d : Dev) (c : Nat) (r : DmaRun) : Dev :=
  let f := d.checkField c (DmaDesc.ofBytes r.bytes) r.status
  (f.1.dmaWrite c (r.addr + 48) (natLe 8 f.2 ++ natLe 6 (r.total - r.pos) ++ natLe 1 r.status) false).setRun c
    (some { r with wrote := true })

/-- Does the next descriptor of the ring go on with the unit? -/
def Dev.nextCont (d : Dev) (c : Nat) : Bool :=
  let i := (d.chHead c + 1) % 65536
  i != d.chTail c && (DmaDesc.ofBytes (d.loadNew (d.chEntry c i) 64)).cont

/-- The state in which the channel goes on after a descriptor (R369, R370). -/
def Dev.dmaAfter (d : Dev) (c st : Nat) : Dev :=
  if st == 6 || ((d.chan c).abort && (st == 0 || st == 4 || st == 5)) then (d.chStop c chStopped).raiseInt (pDMA c) (dmaLocal c + 1)
  else if st == 0 || st == 4 || st == 5 then (d.setRun c none).chGo c
  else d.chStop c chError

/-- Byte 63 with own at 0, and what follows it. -/
def Dev.dmaEnd (d : Dev) (c : Nat) (r : DmaRun) : Dev :=
  let x := DmaDesc.ofBytes r.bytes
  let d := d.dmaWrite c (r.addr + 63) (natLe 1 r.retries) false
  let keeps := (r.status == 0 || r.status == 4 || r.status == 5) && d.nextCont c
  let d := if keeps then d else d.unclaim (pDMA c) (chClaim c) dmaHolder c
  let d := (d.setFld (pDMA c) (chOff c rDMA_IDX) 47 32 ((d.chHead c + 1) % 65536)).setFld (pDMA c) (chOff c rDMA_STS) 11 4
    r.status
  let d := if x.emberEn && d.ownsEmber (d.chPart c) x.ember then d.signal1 (d.chPart c) x.ember else d
  let d := if x.irq then d.raiseInt (pDMA c) (dmaLocal c + 1) else d
  d.dmaAfter c r.status

/-- DMA_DESCRIPTOR_COMPLETE (R367): bytes 48 to 62, then, once they are visible, byte 63 and the rest. -/
def execDmaDescriptorComplete (c : Fin 192) (s : State) : Host.Outcome State Fault Refusal :=
  s.run fun d =>
    match (d.chan c).run with
    | none => d
    | some r => d.when (r.finished && d.dmaVisible c) fun d =>
      let d := if r.wrote then d else d.writeBack c r
      if d.dmaVisible c then d.dmaEnd c r else d

/-! ### Software feed (R372, R373) -/

/-- Does software hold the channel's unit? -/
def Dev.softHolds (d : Dev) (c : Nat) : Bool := d.held (pDMA c) (chClaim c) && d.fld (pDMA c) (chClaim c) 55 48 == softHolder

/-- DMA_CRC_FEED_WRITE: n bytes, lowest first. -/
def execDmaCrcFeedWrite (a : Access) (c : Fin 192) (nbytes : Nat) (v : Word) (s : State) : Host.Outcome State Fault Refusal :=
  s.run fun d => d.regWrite a (pDMA c) (chOff c rDMA_CRC_FEED) false fun d =>
    if (nbytes == 1 || nbytes == 2 || nbytes == 4) && d.softHolds c then
      d.setCrcVal c ((crcOf (d.fld (pDMA c) (chClaim c) 1 0)).feed (d.crcVal c) (natLe nbytes v.toNat))
    else d.setBit (pDMA c) (chOff c rDMA_STS) 3 true

/-- DMA_CRC_VAL_WRITE. -/
def execDmaCrcValWrite (a : Access) (c : Fin 192) (v : Word) (s : State) : Host.Outcome State Fault Refusal :=
  s.run fun d => d.regWrite a (pDMA c) (chOff c rDMA_CRC_VAL) false fun d =>
    d.store8 a (pDMA c) (chOff c rDMA_CRC_VAL) rDMA_CRC_VAL v

/-- A write of DMA_CRCc_CLAIM: the polynomial, the initial value and the claim. -/
def Dev.crcClaimWrite (d : Dev) (a : Access) (c : Nat) (v : Word) : Dev :=
  d.regWrite a (pDMA c) (chClaim c) true fun d =>
    let d := d.store8 a (pDMA c) (chClaim c) rDMA_CRC_CLAIM v
    let d := if v.toNat.testBit 2 then d.setCrcVal c (crcOf (bits v.toNat 1 0)).init else d
    d.softClaim (pDMA c) (chClaim c) v.toNat

/-- DMA_CRC_INIT (R372): a write of 1 to init loads the initial value of the polynomial. -/
def execDmaCrcInit (a : Access) (c : Fin 192) (v : Word) (s : State) : Host.Outcome State Fault Refusal :=
  s.run fun d => if v.toNat.testBit 2 then d.crcClaimWrite a c v else d

end Sys2Proof.Machine
end

