-- ==== Sys2Proof/Machine/Stove.lean ====
section
/-! DEFINITION. The Stove dies: accumulate windows, the update recurrence, schedules, statistics, mirrors and the
commands of the STV page (chapter 10). -/

namespace Sys2Proof.Machine

/-! ### Placement (R264, R165) -/

/-- Elements of a slab. -/
def slabElems : Nat := 8192

/-- The run field of granules whose run length is 4 × w (R165, R166). -/
def runCode (w : Nat) : Nat := if w = 1 then 1 else if w = 2 then 2 else 3

/-- Does a tensor of n bytes with w bytes per element lie as R264 asks, from its base? -/
def Dev.placed (d : Dev) (a n w : Nat) : Bool :=
  a % granBytes % (32768 * w) == 0
    && (granules a n).all fun g => (d.gran g).slow && (d.gran g).place == 2 && (d.gran g).run == runCode w

/-! ### Coefficient rows (R274) and shard entries (R277) -/

structure CoefRow where
  a1 : FVal
  a2 : FVal
  b1 : FVal
  b2 : FVal
  lrMult : FVal
  wd : FVal
  eps : FVal
  gscale : FVal
  size : Nat
  sgn : Bool
  rms : Bool
  nom : Bool
  sched : Nat
  rspan : Nat
  ok : Bool
deriving DecidableEq, Repr

/-- A coefficient row from its 64 bytes; `ok` says that an entry may name it. -/
def CoefRow.ofBytes (bs : List Byte) : CoefRow :=
  let w := fun i => leNat ((bs.drop (4 * i)).take 4)
  let f := fun i => f32c (w i)
  let c := w 10
  { a1 := f 0, a2 := f 1, b1 := f 2, b2 := f 3, lrMult := f 4, wd := f 5, eps := f 6, gscale := f 7,
    size := w 8 + bits (w 9) 7 0 * 2 ^ 32, sgn := c.testBit 1, rms := c.testBit 2, nom := c.testBit 3,
    sched := bits c 7 4, rspan := bits c 11 8,
    ok := c.testBit 0 && bits (w 9) 31 8 == 0 && bits c 31 12 == 0 && leNat (bs.drop 44) == 0 && bits c 11 8 ≤ 11 }

/-- Elements of a span (R270). -/
def CoefRow.span (r : CoefRow) : Nat := if r.rms then slabElems * 2 ^ r.rspan else slabElems

structure ShardEntry where
  group : Nat
  kind : Nat
  g32 : Bool
  solo : Bool
  bdev : Nat
  bent : Nat
  bpart : Nat
  first : Nat
  count : Nat
  g : Nat
  b : Nat
  r : Nat
  m : Nat
  held : Nat
  complete : Bool
  reserved0 : Bool
deriving DecidableEq, Repr

def ShardEntry.ofBytes (bs : List Byte) : ShardEntry :=
  let w := fun i => leNat ((bs.drop (8 * i)).take 8)
  let h := w 0
  { group := bits h 11 0, kind := bits h 13 12, g32 := h.testBit 14, solo := h.testBit 15, bdev := bits h 29 16,
    bent := bits h 47 32, bpart := bits h 53 48, first := bits (w 1) 39 0, count := bits (w 2) 39 0, g := bits (w 3) 47 0,
    b := bits (w 4) 47 0, r := bits (w 5) 47 0, m := bits (w 6) 47 0, held := bits (w 7) 31 0, complete := (w 7).testBit 32,
    reserved0 := bits h 31 30 == 0 && bits h 63 54 == 0 && bits (w 1) 63 40 == 0 && bits (w 2) 63 40 == 0
      && bits (w 3) 63 48 == 0 && bits (w 4) 63 48 == 0 && bits (w 5) 63 48 == 0 && bits (w 6) 63 48 == 0
      && bits (w 7) 63 33 == 0 }

def kindOwned : Nat := 1
def kindMirror : Nat := 2

/-- Bytes of one gradient element. -/
def ShardEntry.gw (e : ShardEntry) : Nat := if e.g32 then 4 else 2

/-- Address of entry i of a partition's shard table. -/
def Dev.shardAt (d : Dev) (p i : Nat) : Nat := d.fld (pSTV p) rSTV_SHARD.off 31 0 * 0x10000 + 64 * i

/-! ### Schedules (R275) -/

/-- convert(gamma ^ cyc, fp32) of R275: the pown of IEEE 754-2019, correctly rounded; a finite power beyond FP32 saturates
as every conversion does (R94). -/
def gammaPow (gamma : FVal) (cyc : Nat) : FVal × NFlags := satFn (fun g => pownVal g cyc) gamma

/-- Does a schedule read a NaN from its registers at learning step t (R97)? -/
def schedNan (ws : List Nat) (n t : Nat) : Bool :=
  let w := fun i => (ws[4 * n + i]?).getD 0
  let nan := fun v => (f32c v).isNan
  let warm := bits (w 1) 63 32
  let t0 := bits (w 2) 63 32
  t0 ≤ t && (nan (bits (w 0) 31 0) || (t0 + warm ≤ t && (nan (bits (w 2) 31 0)
    || ((bits (w 3) 1 0 == 1 || bits (w 3) 1 0 == 2) && nan (bits (w 0) 63 32)))))

/-- The rate of schedule n at learning step t, from the latched schedule words. -/
def schedRate (ws : List Nat) (n t : Nat) : FVal × NFlags :=
  let w := fun i => (ws[4 * n + i]?).getD 0
  let peak := f32c (bits (w 0) 31 0)
  let lo := f32c (bits (w 0) 63 32)
  let warm := bits (w 1) 63 32
  let c := bits (w 1) 31 0
  let t0 := bits (w 2) 63 32
  let gamma := f32c (bits (w 2) 31 0)
  let restart := (w 3).testBit 2
  let one := FVal.ofNat 1
  if t < t0 then (.zero false, {})
  else
    let tp := t - t0
    if tp < warm then thenF (satDivF (.ofNat (tp + 1)) (.ofNat warm)) (satMulF peak)
    else
      let s := tp - warm
      let cyc := if restart then s / c else 0
      let num := if restart then s % c else min s c
      let x := satDivF (.ofNat num) (.ofNat c)
      let pk := thenF (gammaPow gamma cyc) (satMulF peak)
      match bits (w 3) 1 0 with
      | 0 => pk
      | 1 => thenF pk fun k => thenF (thenF x (satSubF one)) fun f => thenF (satSubF k lo) fun e => satFmaF e f lo
      | 2 => thenF pk fun k => thenF (thenF x (satFn hcVal)) fun f => thenF (satSubF k lo) fun e => satFmaF e f lo
      | _ => thenF pk fun k => thenF (thenF (thenF (satDivF (.ofNat s) (.ofNat c)) (satAddF one)) (satFn rsqrtVal)) (satMulF k)

/-! ### The update recurrence (R269, R270, R272) -/

/-- Rate and decay factor of a row (R269). -/
def CoefRow.rates (r : CoefRow) (ws : List Nat) (step : Nat) : (FVal × FVal) × NFlags :=
  thenF (thenF (schedRate ws r.sched step) fun x => satMulF x r.lrMult) fun lr =>
    thenF (satMulF lr r.wd) fun k => mapF (satSubF (.ofNat 1) k) fun kd => (lr, kd)

/-- `dir(i)` of R270: direction and scaled gradient. -/
def CoefRow.dir (r : CoefRow) (gs g m : FVal) : (FVal × FVal) × NFlags :=
  thenF (thenF (satMulF g gs) fun x => satMulF x r.gscale) fun gg =>
    thenF (satMulF r.a1 (if r.nom then .zero false else m)) fun am =>
      mapF (satFmaF r.a2 gg am) fun u =>
        (if r.sgn then (if u.isNan then .nan else if u.isZero then .zero false else .num u.isNeg 1 1 0) else u, gg)

/-- Groups of at most n consecutive elements of a list. -/
def chunksOf {α : Type} (n : Nat) (l : List α) : List (List α) :=
  (List.range ((l.length + n - 1) / n)).map fun i => (l.drop (i * n)).take n

/-- The factor rho of a span under rms (R270). -/
def CoefRow.rho (r : CoefRow) (dirs : List FVal) : FVal × NFlags :=
  if !r.rms then (.ofNat 1, {})
  else
    let q := eachF (chunksOf slabElems dirs) fun l => thenF (eachF l fun x => satMulF x x) csum
    thenF (thenF (thenF q csum) fun sq => satDivF sq (.ofNat dirs.length)) fun mean =>
      thenF (thenF (satFn sqrtVal mean) fun rt => satAddF rt r.eps) fun den =>
        if den.isZero then (.zero false, {}) else satDivF (.ofNat 1) den

/-- One element's operands as stored, with its index within the group. -/
structure Elem where
  i : Nat
  g : Nat
  b : Nat
  r : Nat
  m : Nat
deriving DecidableEq, Repr

/-- One element after its update: encodings of b, r and m, and the squares for the statistics. -/
structure NewElem where
  b : Nat
  r : Int
  m : Nat
  du2 : FVal
  w2 : FVal
deriving DecidableEq, Repr

/-- Rounding of a running average into BF16 (R272). -/
def roundM (stochastic : Bool) (seed step group i : Nat) (x : FVal) : Nat × NFlags :=
  let mode : RMode :=
    if stochastic then .sr (bits (draw128 seed 4 1 0 step group (i / 8)) (16 * (i % 8) + 15) (16 * (i % 8))) else .rne
  match x with
  | .nan => (layBf16.canonNan, {})
  | .inf s => (layBf16.encode (.inf s), {})
  | x => if x.isZero then (layBf16.encode x, {})
         else let y := layBf16.roundTo mode x
              (layBf16.encode y.1, .ofOvf y.2)

/-- The second pass of R270 over one element. -/
def CoefRow.updateElem (r : CoefRow) (c : StoveCmd) (group : Nat) (lr kd rho : FVal) (x : Elem) (dg : FVal × FVal) :
    NewElem × NFlags :=
  let d := if r.rms then satMulF dg.1 rho else (dg.1, {})
  let w := joinMaster (layBf16.value x.b) (signed 8 x.r)
  let y := thenF d fun d => thenF (satMulF w kd) fun wk => satFmaF lr.neg d wk
  let s := splitMaster y.1
  let m := if r.nom then (x.m, {})
    else thenF (thenF (satMulF r.b1 (layBf16.value x.m)) fun bm => satFmaF r.b2 dg.2 bm) (roundM c.stochastic c.seed c.step group x.i)
  let du := satSubF (joinMaster (layBf16.value s.1) s.2.1) w
  ({ b := s.1, r := s.2.1, m := m.1, du2 := (satMulF du.1 du.1).1, w2 := (satMulF w w).1 },
   ((y.2.or s.2.2).or m.2).or du.2)

/-- Sums of one entry gathered span by span. -/
structure SpanResult where
  elems : List NewElem
  du2 : List FVal
  w2 : List FVal
  flags : NFlags
deriving DecidableEq, Repr

/-- A span updated: its elements, the sums of its slabs and its flags, nan standing for a NaN read from memory or
registers (R97, R273). -/
def CoefRow.updateSpan (r : CoefRow) (c : StoveCmd) (e : ShardEntry) (xs : List Elem) : SpanResult :=
  let gv := fun x : Elem => if e.g32 then f32c x.g else layBf16.value x.g
  let rates := r.rates c.sched c.step
  let dirs := eachF xs fun x => r.dir (f32 c.gs) (gv x) (layBf16.value x.m)
  let rho := r.rho (dirs.1.map Prod.fst)
  let new := eachF (xs.zip dirs.1) fun x => r.updateElem c e.group rates.1.1 rates.1.2 rho.1 x.1 x.2
  let readNan := xs.any fun x => (gv x).isNan || (layBf16.value x.b).isNan || (!r.nom && (layBf16.value x.m).isNan)
  let used := [r.a1, r.a2, r.lrMult, r.wd, r.gscale, f32 c.gs] ++ (if r.nom then [] else [r.b1, r.b2]) ++ (if r.rms then [r.eps] else [])
  let rowNan := used.any FVal.isNan || schedNan c.sched r.sched c.step
  { elems := new.1,
    du2 := (chunksOf slabElems (new.1.map NewElem.du2)).map fun l => (csum l).1,
    w2 := (chunksOf slabElems (new.1.map NewElem.w2)).map fun l => (csum l).1,
    flags := { (((rates.2.or dirs.2).or rho.2).or new.2).inner with nan := readNan || rowNan } }

/-! ### Progress of a command -/

def Dev.stove (d : Dev) (p : Nat) : Option StoveCmd := (d.part p).stove
def Dev.setStove (d : Dev) (p : Nat) (c : Option StoveCmd) : Dev := d.setPart p { d.part p with stove := c }

def StoveCmd.entry (c : StoveCmd) (i : Nat) : ShardEntry := .ofBytes ((c.entries[i]?).getD [])
/-- Number of the i-th named entry in the shard table, and its address. -/
def StoveCmd.index (c : StoveCmd) (i : Nat) : Nat := bits c.word.toNat 31 16 + i
def StoveCmd.entryAt (c : StoveCmd) (i : Nat) : Nat := c.shard + 64 * c.index i
/-- Addresses of the coefficient row and of the statistics record of a group. -/
def StoveCmd.rowAt (c : StoveCmd) (g : Nat) : Nat := c.coef + 64 * g
def StoveCmd.statAt (c : StoveCmd) (g : Nat) : Nat := c.stat + 32 * g
def StoveCmd.row (c : StoveCmd) (g : Nat) : CoefRow :=
  .ofBytes (((c.rows.find? fun x => x.1 == g).map Prod.snd).getD [])

/-- Tensors of an entry that a command reads or writes, as base and width (R270, R279, R281). -/
def ShardEntry.tensors (e : ShardEntry) (op : Nat) (nom : Bool) : List (Nat × Nat) :=
  (if op = 1 || op = 2 then [(e.g, e.gw)] else [])
    ++ (if op = 2 then [] else [(e.b, 2), (e.r, 1)] ++ (if nom then [] else [(e.m, 2)]))

/-- Every tensor that an entry names, each of whose bases must meet R264 (R277). -/
def ShardEntry.allTensors (e : ShardEntry) (nom : Bool) : List (Nat × Nat) :=
  (if e.kind == kindOwned then [(e.g, e.gw)] else []) ++ [(e.b, 2), (e.r, 1)] ++ (if nom then [] else [(e.m, 2)])

/-- The numbers of n elements of w bytes from element k of a tensor. -/
def Dev.tensor (d : Dev) (base w k n : Nat) : List Nat := (List.range n).map fun i => d.loadNatNew (base + w * (k + i)) w

/-- The command ends with a result; its row STOVE_COMMAND_DONE follows. -/
def Dev.stoveEnd (d : Dev) (p : Nat) (c : StoveCmd) (result : Nat) : Dev :=
  d.setStove p (some { c with result := result, finished := true, mirrors := [] })

/-- What stands in the way of a range of elements of an entry: its address range is no longer the partition's, the die
waits for lines that it cannot read yet, or the line of a slab is left poisoned (R282, R346). -/
inductive Blocked where
  | clear | lost | wait | bad (slab : Nat)
deriving DecidableEq, Repr

/-- Checks of elements k to k + n - 1 of an entry, with the poisoned granules entering re-fetch. -/
def Dev.stoveCheck (d : Dev) (p : Nat) (ts : List (Nat × Nat)) (k n : Nat) : Dev × Blocked :=
  let rs := ts.map fun t => (t.1 + t.2 * k, t.2 * n)
  if !rs.all (fun r => d.tierOk p (d.partWorld p) r.1 r.2) then (d, .lost)
  else match d.readGate rs with
  | (d, .wait) => (d, .wait)
  | (d, .clear) => (d.engineReads p rs, .clear)
  | (d, .bad) =>
    let slabs := (List.range ((n + slabElems - 1) / slabElems)).map (k / slabElems + ·)
    let hit := fun s => ts.any fun t => d.poisoned (t.1 + t.2 * (slabElems * s)) (t.2 * min slabElems (k + n - slabElems * s))
    (d, .bad ((slabs.find? hit).getD (k / slabElems)))

/-- Bytes of a list of numbers, w bytes each. -/
def packed (w : Nat) (l : List Nat) : List Byte := l.flatMap (natLe w)

/-- The elements of a span written back (R270). -/
def Dev.writeSpan (d : Dev) (e : ShardEntry) (nom : Bool) (k : Nat) (xs : List NewElem) : Dev :=
  let d := d.store (e.b + 2 * k) (packed 2 (xs.map NewElem.b))
  let d := d.store (e.r + k) (packed 1 (xs.map fun x => unsigned 8 x.r))
  if nom then d else d.store (e.m + 2 * k) (packed 2 (xs.map NewElem.m))

/-- The sums of a list added to a sum, one after another (R276). -/
def addSums (s : Lane) (l : List FVal) : Lane := toF32 (l.foldl (fun a x => (satAddF a x).1) (f32 s))

/-- ratio of R276. -/
def statRatio (du2 w2 : FVal) : Lane :=
  if du2.isNan || w2.isNan then toF32 .nan
  else if w2.isZero then (if du2.isZero then toF32 (.zero false) else toF32 (.inf false))
  else (satFn (fun x => sqrtVal (x.div w2)) du2).1 |> toF32

/-- The statistics record of a group after an update (R276): bytes 20 to 27 belong to the last scan. -/
def Dev.writeStats (d : Dev) (c : StoveCmd) (g : Nat) (s : GroupSum) : Dev :=
  let a := c.statAt g
  let same := d.loadNatNew a 8 == c.step
  let du2 := if same then (satAddF (f32c (d.loadNatNew (a + 8) 4)) (f32 s.du2)).1 else f32 s.du2
  let w2 := if same then (satAddF (f32c (d.loadNatNew (a + 12) 4)) (f32 s.w2)).1 else f32 s.w2
  let fl := bits s.flags.toNat 2 0 ||| (if same then d.loadNatNew (a + 28) 1 else 0)
  let d := d.store a (natLe 8 c.step ++ natLe 4 (toF32 du2).toNat ++ natLe 4 (toF32 w2).toNat ++ natLe 4 (statRatio du2 w2).toNat)
  d.storeNat (a + 28) 4 fl

/-- The record of a group after a scan (R276). -/
def Dev.writeScan (d : Dev) (c : StoveCmd) (g : Nat) (s : GroupSum) : Dev :=
  d.store (c.statAt g + 20) (natLe 4 s.g2.toNat ++ natLe 4 (satAdd 0xFFFFFFFF 0 s.nonfin))

def StoveCmd.sum (c : StoveCmd) (g : Nat) : GroupSum := Tab.get (fun _ => {}) c.sums g

/-- The sums of the entry in progress join those of its group. -/
def StoveCmd.closeEntry (c : StoveCmd) (g : Nat) : StoveCmd :=
  let s := c.sum g
  let t : GroupSum := { du2 := (vecSat s.du2 c.part.du2), w2 := (vecSat s.w2 c.part.w2), g2 := (vecSat s.g2 c.part.g2),
                        nonfin := s.nonfin + c.part.nonfin, flags := s.flags.or c.part.flags }
  { c with sums := Tab.set (fun _ => {}) c.sums g t, part := {} }
where vecSat (a b : Lane) : Lane := toF32 (satAddF (f32 a) (f32 b)).1

/-- Is the i-th named entry the last owned one of its group? -/
def StoveCmd.lastOf (c : StoveCmd) (i : Nat) : Bool :=
  !((List.range c.entries.length).any fun j => i < j && (c.entry j).kind == kindOwned && (c.entry j).group == (c.entry i).group)

/-- One slab of a mirror on the fabric (R279; log entry 11). -/
def mirrorPayload (entry group first count step slab : Nat) (b r m : List Byte) : List Byte :=
  natLe 2 entry ++ natLe 2 group ++ natLe 5 first ++ natLe 5 count ++ natLe 4 step ++ natLe 4 slab ++ b ++ r ++ m

/-- The entry is sent to its buddy, slab by slab, and the acknowledgement is awaited (R279). -/
def Dev.sendMirror (d : Dev) (p : Nat) (c : StoveCmd) (e : ShardEntry) (step : Nat) : Dev :=
  let nom := (c.row e.group).nom
  let d := d.each (List.range ((e.count + slabElems - 1) / slabElems)) fun s x =>
    let k := slabElems * s
    let n := min slabElems (e.count - k)
    let body := mirrorPayload e.bent e.group e.first e.count step s (x.loadNew (e.b + 2 * k) (2 * n)) (x.loadNew (e.r + k) n)
      (if nom then [] else x.loadNew (e.m + 2 * k) (2 * n))
    x.sendLong e.bdev 2 { type := tyMirror, part := e.bpart, payload := body } fun i last m =>
      { m with arg := i * 2 + b2n last + 2 ^ 16 }
  d.setStove p (some { c with mirrors := [e.bent], deadline := d.now + c.mto })

/-- One span of an update: it is read, checked, updated and written back. -/
def Dev.updateStep (d : Dev) (c : StoveCmd) (e : ShardEntry) (k n : Nat) : Dev × StoveCmd :=
  let r := c.row e.group
  let a := c.entryAt c.next
  let d := if k = 0 then d.storeNat (a + 60) 1 0 else d
  let xs := (List.range n).map fun i =>
    { i := e.first + k + i, g := d.loadNatNew (e.g + e.gw * (k + i)) e.gw, b := d.loadNatNew (e.b + 2 * (k + i)) 2,
      r := d.loadNatNew (e.r + k + i) 1, m := if r.nom then 0 else d.loadNatNew (e.m + 2 * (k + i)) 2 }
  let s := r.updateSpan c e xs
  (d.writeSpan e r.nom k s.elems,
   { c with slab := (k + n + slabElems - 1) / slabElems,
            part := { c.part with du2 := addSums c.part.du2 s.du2, w2 := addSums c.part.w2 s.w2, flags := c.part.flags.or s.flags } })

/-- One slab of a scan (R276, R281). -/
def Dev.scanStep (d : Dev) (c : StoveCmd) (e : ShardEntry) (k n : Nat) : StoveCmd :=
  let r := c.row e.group
  let gs := (d.tensor e.g e.gw k n).map fun x => if e.g32 then f32c x else layBf16.value x
  let q := gs.map fun g => (thenF (thenF (satMulF g (f32 c.gs)) fun x => satMulF x r.gscale) fun gg => satMulF gg gg).1
  { c with slab := (k + n + slabElems - 1) / slabElems,
           part := { c.part with g2 := addSums c.part.g2 [(csum q).1],
                                 nonfin := c.part.nonfin + (gs.filter fun g => g.isNan || g.isInf).length } }

/-- The slabs that a buddy returned for an entry, in order, when they are all there and its mirror is complete (R280). -/
def pulledSlabs (e : ShardEntry) (nom : Bool) (l : List MirrorEntry) : Option (List MirrorEntry) :=
  (List.range ((e.count + slabElems - 1) / slabElems)).mapM fun s =>
    l.find? fun m =>
      let n := min slabElems (e.count - slabElems * s)
      m.entry == e.bent && m.group == e.group && m.first == e.first && m.count == e.count && m.complete && m.slab == s
        && m.b.length == 2 * n && m.r.length == n && (nom || m.m.length == 2 * n)

/-- One slab of a mirrored or pulled entry written to its b, r and m. -/
def Dev.landSlab (d : Dev) (e : ShardEntry) (m : MirrorEntry) : Dev :=
  let k := slabElems * m.slab
  let d := (d.store (e.b + 2 * k) m.b).store (e.r + k) m.r
  if m.m.isEmpty then d else d.store (e.m + 2 * k) m.m

/-- The pull of the named owned entries in ascending order (R280): it ends with 0x06 at the first whose buddy cannot be
reached or whose mirror is not complete. -/
def Dev.pullEntries (d : Dev) (p : Nat) (c : StoveCmd) : Nat → Dev
  | 0 => d.stoveEnd p c 0
  | k + 1 =>
    let i := c.entries.length - (k + 1)
    let e := c.entry i
    let nom := (c.row e.group).nom
    if e.kind != kindOwned then d.pullEntries p c k
    else match (if e.solo || (d.portTo e.bdev).isNone then none else pulledSlabs e nom c.pulled) with
    | none => d.stoveEnd p c 6
    | some l =>
      let d := d.each l fun m x => x.landSlab e (if nom then { m with m := [] } else m)
      let step := ((l.head?).map MirrorEntry.step).getD 0
      Dev.pullEntries (d.store (c.entryAt i + 56) (natLe 4 step ++ natLe 1 1)) p c k

/-- A command stops at a slab of its entry in progress (R282). -/
def Dev.stoveStop (d : Dev) (p : Nat) (c : StoveCmd) (slab : Nat) : Dev :=
  (d.wr (pSTV p) rSTV_PROG.off (c.index c.next * 2 ^ 32 + slab)).stoveEnd p c 5

/-- Work goes on at the next entry. -/
def Dev.stoveNext (d : Dev) (p : Nat) (c : StoveCmd) : Dev :=
  d.setStove p (some { c with next := c.next + 1, slab := 0, closed := false })

/-- The entry in progress is sent to its buddy, once its tensors can be read (R279, R282); without a buddy work goes on. -/
def Dev.mirrorStep (d : Dev) (p : Nat) (c : StoveCmd) (e : ShardEntry) (step : Nat) : Dev :=
  if e.solo then d.stoveNext p c
  else match d.stoveCheck p (e.tensors 4 (c.row e.group).nom) 0 e.count with
  | (d, .clear) => d.sendMirror p c e step
  | (d, .lost) => d.stoveEnd p c 4
  | (d, .wait) => d
  | (d, .bad s) => d.stoveStop p c s

/-- An entry is done but for its mirror: an update marks it complete, and the last entry of a group writes its record
(R276, R279). -/
def Dev.closeEntry (d : Dev) (p : Nat) (c : StoveCmd) (e : ShardEntry) : Dev :=
  let c := { c.closeEntry e.group with closed := true }
  if c.op = 1 then
    let d := d.store (c.entryAt c.next + 56) (natLe 4 c.step ++ natLe 1 1)
    (if c.lastOf c.next then d.writeStats c e.group (c.sum e.group) else d).setStove p (some c)
  else (if c.lastOf c.next then d.writeScan c e.group (c.sum e.group) else d).stoveNext p c

/-- The zero command: +0 to every element of the window's buffer (R268); adds accepted before it count no longer (R267). -/
def Dev.zeroWindow (d : Dev) (p w : Nat) : Dev :=
  let d := d.setPart p { d.part p with heldAdds := (d.part p).heldAdds.filter fun x => x.win != w }
  d.store (d.winBuf p w) (List.replicate (d.winN p w * d.winWidth p w) 0)

/-- One piece of work of a command, when it can go on: the zero or pull command whole, the next entry begun, one span or
slab done, an entry completed, or its mirror sent (R268, R270, R276, R279, R280, R282). -/
def Dev.stoveStep (d : Dev) (p : Nat) (c : StoveCmd) : Dev :=
  if c.op = 3 then (d.zeroWindow p (bits c.word.toNat 55 52)).stoveEnd p c 0
  else if c.op = 5 then d.pullEntries p c c.entries.length
  else if c.entries.length ≤ c.next then d.stoveEnd p c 0
  else
    let e := c.entry c.next
    let r := c.row e.group
    let k := slabElems * c.slab
    if e.kind != kindOwned then d.stoveNext p c
    else if c.op = 4 then d.mirrorStep p c e e.held
    else if c.closed then d.mirrorStep p c e c.step
    else if e.count ≤ k then d.closeEntry p c e
    else
      let n := min (if c.op = 1 then r.span else slabElems) (e.count - k)
      match d.stoveCheck p (e.tensors c.op r.nom) k n with
      | (d, .clear) =>
        if c.op = 1 then let y := d.updateStep c e k n; y.1.setStove p (some y.2)
        else d.setStove p (some (d.scanStep c e k n))
      | (d, .lost) => d.stoveEnd p c 4
      | (d, .wait) => d
      | (d, .bad s) => (if c.op = 1 then d.storeNat (c.entryAt c.next + 60) 1 0 else d).stoveStop p c s

/-- Pieces of work that a command can have. -/
def StoveCmd.fuel (c : StoveCmd) : Nat :=
  1 + ((List.range c.entries.length).map fun i => 2 + ((c.entry i).count + slabElems - 1) / slabElems).sum

/-- A command goes on until it waits or has finished. -/
def Dev.stoveRun (d : Dev) (p : Nat) : Nat → Dev
  | 0 => d
  | k + 1 =>
    match d.stove p with
    | some c =>
      if c.finished || !c.mirrors.isEmpty || d.inTest ukEngine (pSTV p) then d
      else
        let e := d.stoveStep p c
        if e.stove p == some c then e else e.stoveRun p k
    | none => d

/-! ### Acceptance of a command (R269, R281) -/

/-- Codes of one named entry (R264, R274, R275, R277, R281). A mirror entry, which the command skips, is checked likewise
but for the gradient that it does not have. -/
def Dev.entryCodes (d : Dev) (p : Nat) (c : StoveCmd) (e : ShardEntry) : List Nat :=
  (if e.reserved0 then [] else [0x01]) ++ (if e.kind = 3 then [0x03] else [])
    ++ if e.kind != kindOwned && e.kind != kindMirror then []
       else
         let r := c.row e.group
         let w := d.partWorld p
         let last := e.first + e.count
         let owned := e.kind == kindOwned
         let ts := e.allTensors r.nom
         (if d.tierOk p w (c.rowAt e.group) 64 then [] else [0x04])
           ++ (if r.ok && bits ((c.sched[4 * r.sched + 1]?).getD 0) 31 0 != 0 then [] else [0x03])
           ++ (if 1 ≤ e.count && (!owned || (last ≤ r.size && e.first % r.span == 0 && (last % r.span == 0 || last == r.size)))
                 && (owned || e.g == 0) then [] else [0x03])
           ++ (if ts.all (fun t => d.placed t.1 (t.2 * e.count) t.2) then [] else [0x03])
           ++ (if ts.all (fun t => d.tierOk p w t.1 (t.2 * e.count)) then [] else [0x04])
           ++ (if (c.op != 1 && c.op != 2) || d.tierOk p w (c.statAt e.group) 32 then [] else [0x04])

/-- The least of a list of codes; 0 for none. -/
def leastCode (l : List Nat) : Nat := match l with
  | [] => 0
  | x :: xs => xs.foldl min x

/-- What a command latches from registers at its acceptance (R269, R283). -/
def Dev.latchStove (d : Dev) (p op : Nat) (v : Word) (slabs : List MirrorEntry) : StoveCmd :=
  let ctx := bits v.toNat 59 56
  let arg := d.rd (pSTV p) rSTV_ARG.off
  let base := fun off => d.fld (pSTV p) off 31 0 * 0x10000
  { op := op, word := v, gs := BitVec.ofNat 32 (bits arg 63 32), step := bits arg 31 0, seed := d.rd (pLRN p) (rLRN_SEED.at ctx),
    stochastic := d.bit (pPART p) (rPART_CTX.at ctx) 62,
    sched := (List.range 64).map fun i => d.rd (pSTV p) (0x200 + 8 * i),
    shard := base rSTV_SHARD.off, nent := d.fld (pSTV p) rSTV_SHARD.off 47 32, coef := base rSTV_COEF.off,
    stat := base rSTV_STAT.off, mto := d.fld (pSTV p) rSTV_CTL.off 15 0 * 1000, pulled := slabs }

/-- Entries that the command word names. -/
def StoveCmd.count (c : StoveCmd) : Nat := bits c.word.toNat 47 32

/-- The result of the checks of the command word and of the range of the shard table (R281); 0 for a sound one. -/
def Dev.stoveForm (d : Dev) (p : Nat) (c : StoveCmd) : Nat :=
  let n := c.word.toNat
  if bits n 51 48 != 0 || n.testBit 14 || (n.testBit 15 && !d.ownsEmber p (bits n 13 0)) || c.op < 1 || 5 < c.op then 0x01
  else if c.op = 3 then (if d.winOn p (bits n 55 52) then 0 else 0x07)
  else if c.count = 0 then 0x01
  else if c.nent < c.index 0 + c.count then 0x02
  else if !d.tierOk p (d.partWorld p) (c.entryAt 0) (64 * c.count) then 0x04
  else 0

/-- The command with the shard entries that it names, and the rows of their groups (R269). -/
def Dev.stoveEntries (d : Dev) (c : StoveCmd) : StoveCmd :=
  { c with entries := (List.range c.count).map fun i => d.loadNew (c.entryAt i) 64 }
def StoveCmd.groups (c : StoveCmd) : List Nat := ((c.entries.map ShardEntry.ofBytes).map ShardEntry.group).dedup
def Dev.stoveRows (d : Dev) (c : StoveCmd) : StoveCmd :=
  { c with rows := c.groups.map fun g => (g, d.loadNew (c.rowAt g) 64), ready := true }

/-- The result of the checks of the named entries, made before anything is written (R281). -/
def Dev.stoveCode (d : Dev) (p : Nat) (c : StoveCmd) : Nat :=
  leastCode ((List.range c.count).flatMap fun i => d.entryCodes p c (c.entry i))

/-- A command whose tables are read: it ends with the code of its checks, or is ready to work. -/
def Dev.stoveReady (d : Dev) (p : Nat) (c : StoveCmd) : Dev :=
  if d.stoveCode p c != 0 then d.stoveEnd p c (d.stoveCode p c) else d.setStove p (some c)

/-- The checks of a command and the reading of its tables, whose lines it waits for as for its operands (R282). -/
def Dev.stoveAccept (d : Dev) (p : Nat) (c : StoveCmd) : Dev :=
  if d.stoveForm p c != 0 then d.stoveEnd p c (d.stoveForm p c)
  else if c.op = 3 then d.setStove p (some { c with ready := true })
  else match d.readGate [(c.entryAt 0, 64 * c.count)] with
  | (d, .wait) => d
  | (d, .bad) => d.stoveStop p c 0
  | (d, .clear) =>
    let c := d.stoveEntries c
    match d.readGate ((c.groups.map fun g => (c.rowAt g, 64)).filter fun r => d.tierOk p (d.partWorld p) r.1 r.2) with
    | (d, .wait) => d
    | (d, .bad) => d.stoveStop p c 0
    | (d, .clear) => d.stoveReady p (d.stoveRows c)

/-- Work goes on: adds that wait come first, then the acceptance of the command, then its work as far as it can go. -/
def Dev.stoveGo (d : Dev) (p : Nat) : Dev :=
  let d := d.flushAdds p
  match d.stove p with
  | none => d
  | some c =>
    let d := if c.ready || c.finished || d.inTest ukEngine (pSTV p) then d else d.stoveAccept p c
    match d.stove p with
    | some c => if c.ready then d.stoveRun p c.fuel else d
    | none => d

def phReduce : Nat := 5
def stovePhase (op : Nat) : Nat := if op = 2 || op = 3 then phReduce else phUpdate

/-- A write of STV_CMD (R281): a busy unit loses it; else the command is in progress and is worked as far as it can go.
Flags that STV_CMD_STS keeps of the last update, or since the last command, start again. -/
def Dev.stoveCommand (d : Dev) (a : Access) (p : Nat) (v : Word) (op : Nat) (slabs : List MirrorEntry) : Dev :=
  d.regWrite a (pSTV p) rSTV_CMD.off true fun d =>
    if d.bit (pSTV p) stvSts 8 then d.setBit (pSTV p) stvSts 9 true
    else
      let d := (d.setBit (pSTV p) stvSts 8 true).phStart p (stovePhase op)
      let d := d.setBit (pSTV p) stvSts 16 (op != 1 && (d.part p).updOvf)
      (d.setStove p (some (d.latchStove p op v slabs))).stoveGo p

/-- The command word's own operation. -/
def stoveOp (v : Word) : Nat := bits v.toNat 63 60

def execUpdate (a : Access) (p : Fin 64) (v : Word) (s : State) : Host.Outcome State Fault Refusal :=
  s.run fun d => if stoveOp v != 1 then d else d.stoveCommand a p v 1 []

def execScan (a : Access) (p : Fin 64) (v : Word) (s : State) : Host.Outcome State Fault Refusal :=
  s.run fun d => if stoveOp v != 2 then d else d.stoveCommand a p v 2 []

def execZero (a : Access) (p : Fin 64) (v : Word) (s : State) : Host.Outcome State Fault Refusal :=
  s.run fun d => if stoveOp v != 3 then d else d.stoveCommand a p v 3 []

def execMirror (a : Access) (p : Fin 64) (v : Word) (s : State) : Host.Outcome State Fault Refusal :=
  s.run fun d => if stoveOp v != 4 then d else d.stoveCommand a p v 4 []

def execPull (a : Access) (p : Fin 64) (v : Word) (slabs : List MirrorEntry) (s : State) : Host.Outcome State Fault Refusal :=
  s.run fun d => if stoveOp v != 5 then d else d.stoveCommand a p v 5 slabs

/-- The ember of a command word, when it is enabled and in the partition's range (R281). -/
def Dev.stoveSignal (d : Dev) (p : Nat) (v : Word) : Dev :=
  let n := v.toNat
  if n.testBit 15 && d.ownsEmber p (bits n 13 0) then d.signal1 p (bits n 13 0) else d

/-- Every result of the command is visible (R281): the result is written, busy clears, the flags of an update show, and
the ember is signalled. -/
def execStoveCommandDone (p : Fin 64) (s : State) : Host.Outcome State Fault Refusal :=
  s.run fun d =>
    match d.stove p with
    | none => d
    | some c => d.when (c.finished && d.engineVisible) fun d =>
      let d := (d.setFld (pSTV p) stvSts 7 0 c.result).setBit (pSTV p) stvSts 8 false
      let fl := c.part.flags.or (c.sums.foldl (fun g x => g.or x.2.flags) {})
      let d := if c.op != 1 then d else
        let d := d.setPart p { d.part p with updOvf := fl.ovf }
        ((d.setBit (pSTV p) stvSts 16 (fl.ovf || d.bit (pSTV p) stvSts 16)).setBit (pSTV p) stvSts 17 fl.inv).setBit (pSTV p) stvSts 18 fl.nan
      let d := (d.phEnd p (stovePhase c.op)).setStove p none
      d.stoveSignal p c.word

/-- The owner hears from the buddy (R279): the work goes on, or the command ends with 0x06. -/
def execMirrorAckReceive (p : Fin 64) (entry : Nat) (accepted : Bool) (s : State) : Host.Outcome State Fault Refusal :=
  s.run fun d =>
    match d.stove p with
    | none => d
    | some c => d.when (d.hears && !c.finished && c.mirrors == [entry]) fun d =>
      if accepted then (d.stoveNext p { c with mirrors := [] }).stoveGo p
      else d.stoveEnd p c 6

/-- No acknowledgement within STV_CTL.mto (R279). -/
def execMirrorTimeout (p : Fin 64) (s : State) : Host.Outcome State Fault Refusal :=
  s.run fun d =>
    match d.stove p with
    | none => d
    | some c => d.when (!c.finished && !c.mirrors.isEmpty && c.deadline ≤ d.now) fun d => d.stoveEnd p c 6

/-- A die that waits on a poisoned slab looks at it again (R282). -/
def execStovePoisonResume (p : Fin 64) (s : State) : Host.Outcome State Fault Refusal :=
  s.run fun d => d.when ((d.stove p).all fun c => !c.finished && c.mirrors.isEmpty) fun d => d.stoveGo p

/-- Does a mirror slab fit the mirror entry it names (R278, R279)? -/
def mirrorFits (e : ShardEntry) (m : MirrorEntry) : Bool :=
  let n := min slabElems (e.count - slabElems * m.slab)
  e.kind == kindMirror && e.group == m.group && e.first == m.first && e.count == m.count && slabElems * m.slab < e.count
    && m.b.length == 2 * n && m.r.length == n && (m.m.isEmpty || m.m.length == 2 * n)

/-- Tensors of a mirror entry that a slab is written to: base and width. -/
def mirrorTensors (m : MirrorEntry) (e : ShardEntry) : List (Nat × Nat) :=
  [(e.b, 2), (e.r, 1)] ++ (if m.m.isEmpty then [] else [(e.m, 2)])

/-- Can a slab be taken into its entry: the entry lies within the table, matches, and has its bases where R264 asks? -/
def Dev.mirrorOk (d : Dev) (p : Nat) (m : MirrorEntry) : Bool :=
  let a := d.shardAt p m.entry
  let e : ShardEntry := .ofBytes (d.loadNew a 64)
  m.entry < d.fld (pSTV p) rSTV_SHARD.off 47 32 && d.tierOk p (d.partWorld p) a 64 && !d.poisoned a 64 && mirrorFits e m
    && (mirrorTensors m e).all fun t => d.placed t.1 (t.2 * e.count) t.2 && d.tierOk p (d.partWorld p) t.1 (t.2 * e.count)

/-- The answer to a mirror goes to its sender (R279; log entry 11). -/
def Dev.answerMirror (d : Dev) (dev part entry : Nat) (ok : Bool) : Dev :=
  d.send dev 2 { type := tyMirror, part := part, arg := b2n ok, payload := natLe 2 entry }

/-- The oldest mirror that has arrived whole sets held and complete, and is acknowledged, once it is visible (R279). -/
def Dev.endMirrors (d : Dev) (p : Nat) : Dev :=
  match (d.part p).mirrorsDone with
  | [] => d
  | x :: rest =>
    if !x.spans.all fun r => d.rangeVisible r.1 r.2 then d
    else ((d.setPart p { d.part p with mirrorsDone := rest }).store (x.addr + 56) (natLe 4 x.step ++ natLe 1 1)).answerMirror
      x.dev x.part x.entry true

/-- A slab of a mirror arrives (R279): the first clears complete, and with the last one the mirror is whole; one that cannot
be taken is refused. -/
def execMirrorReceive (p : Fin 64) (m : MirrorEntry) (s : State) : Host.Outcome State Fault Refusal :=
  s.run fun d => d.when d.hears fun d =>
    let a := d.shardAt p m.entry
    let e : ShardEntry := .ofBytes (d.loadNew a 64)
    if !d.mirrorOk p m then d.answerMirror m.srcDev m.srcPart m.entry false
    else
      let d := (if m.isFirst then d.storeNat (a + 60) 1 0 else d).landSlab e m
      if m.isLast then
        let x : MirrorDone := ⟨m.srcDev, m.srcPart, m.entry, a, m.step, (a, 64) :: (mirrorTensors m e).map fun t => (t.1, t.2 * e.count)⟩
        (d.setPart p { d.part p with mirrorsDone := (d.part p).mirrorsDone ++ [x] }).endMirrors p
      else d

/-- With time, window adds that wait are tried again, and mirrors that have become visible are acknowledged. -/
def Dev.tickStoves (d : Dev) : Dev := d.each (List.range 64) fun p e => (e.flushAdds p).endMirrors p

/-! ### Accumulate windows -/

/-- A write by an agent into a window (R265): its whole words inside are added, and what it has beyond the end of the window
is a write like any other. -/
def execStoveWindowWrite (p : Fin 64) (win : Fin 16) (offset : Nat) (data : List Byte) (poisoned : Bool) (s : State) :
    Host.Outcome State Fault Refusal :=
  s.run fun d => d.when (d.winOn p win && offset < 4 * d.winN p win) fun d =>
    let n := 4 * d.winN p win - offset
    let d := d.windowPut p win offset (data.take n) poisoned
    if data.length ≤ n then d else d.put (d.winBase p win + offset + n) (data.drop n) poisoned

/-- May the window be enabled (R268)? -/
def Dev.winSound (d : Dev) (p w : Nat) : Bool :=
  let lo := d.winBase p w
  let hi := lo + 4 * d.winN p w
  let len := d.winN p w * d.winWidth p w
  lo % 256 == 0 && d.winN p w != 0 && d.winN p w % 64 == 0 && d.placed (d.winBuf p w) len (d.winWidth p w)
    && d.tierOk p (d.partWorld p) (d.winBuf p w) len && d.tierOk p (d.partWorld p) lo (4 * d.winN p w)
    && !((List.range 16).any fun o => o != w && d.winOn p o && d.winBase p o < hi && lo < d.winBase p o + 4 * d.winN p o)

/-- A write of a word of STV_WINw (R266, R268). -/
def execStvWinWrite (a : Access) (p : Fin 64) (win : Fin 16) (word : Fin 4) (v : Word) (s : State) :
    Host.Outcome State Fault Refusal :=
  s.run fun d =>
    let off := 0x400 + 0x20 * win.val + 8 * word.val
    d.regWrite a (pSTV p) off false fun d =>
      match word with
      | 0 =>
        if d.winOn p win then
          if a.reaches 63 63 && !v.toNat.testBit 63 then d.setBit (pSTV p) (rSTV_WIN.at win) 63 false else d
        else
          let e := d.store8 a (pSTV p) off rSTV_WIN v
          if e.winOn p win && !e.winSound p win then e.setBit (pSTV p) (rSTV_WIN.at win) 63 false else e
      | 1 => if d.winOn p win then d else d.store8 a (pSTV p) off rSTV_WIN_N v
      | 2 => if d.winOn p win then d else d.store8 a (pSTV p) off rSTV_WIN_BUF v
      | 3 =>
        let e := d.store8 a (pSTV p) off rSTV_WIN_KEY v
        let ctx := e.fld (pSTV p) (rSTV_WIN.at win) 55 52
        let key : WinKey := { stochastic := e.bit (pPART p) (rPART_CTX.at ctx) 62, seed := e.rd (pLRN p) (rLRN_SEED.at ctx) }
        e.setPart p { e.part p with wins := Tab.set (fun _ => {}) (e.part p).wins win key }

end Sys2Proof.Machine
end

