-- ==== Sys2Proof/Machine/Errors.lean ====
section
/-! DEFINITION. Hardware errors: their classes (R421 to R426), the error ring (R438, R439), self-tests (R427 to R429),
spares, retirement and what is done once spares are gone (R430 to R436). -/

namespace Sys2Proof.Machine

/-! ### Error records (R438) -/

/-- 8-bit unit kinds. -/
def unitCode : UnitKind → Nat
  | .core => 0x01 | .segment => 0x02 | .hbmRow => 0x03 | .slowRow => 0x04 | .frame => 0x05 | .serdesLane => 0x06
  | .hbmLane => 0x07 | .dmaChannel => 0x08 | .engine => 0x09 | .fabricLink => 0x0A | .clock => 0x0B

def clCorrected : Nat := 0
def clDeferred : Nat := 1
def clContained : Nat := 2
def clFatal : Nat := 3

def vdPending : Nat := 0
def vdTransient : Nat := 1
def vdSpare : Nat := 2
def vdPool : Nat := 3
def vdOwner : Nat := 4

/-- Errors in a record, 1 to 65,535. -/
def errorCount (e : HwError) : Nat := min 65535 (max 1 e.count)

/-- The 32 bytes of a record. -/
def errorRecord (ltc : Word) (e : HwError) (cls verdict : Nat) : List Byte :=
  natLe 8 ltc.toNat ++ natLe 2 e.page ++ natLe 1 cls ++ natLe 1 (unitCode e.unit) ++ natLe 4 e.place
    ++ natLe 8 (e.addr % 2 ^ 48) ++ natLe 2 (errorCount e) ++ natLe 1 verdict ++ natLe 1 e.part.val ++ natLe 4 0

/-- Records of the ring: 2^(n + 4), n from 0 to 12. -/
def Dev.ringSize (d : Dev) : Nat := 2 ^ (min 12 (d.fld pERR rERR_RING.off 35 32) + 4)
def Dev.ringAt (d : Dev) (i : Nat) : Nat := d.fld pERR rERR_RING.off 31 0 * 0x10000 + 32 * i
def Dev.ringPi (d : Dev) : Nat := d.fld pERR rERR_IDX.off 47 32
/-- Slot of the next record: those behind pi wait for a verdict. -/
def Dev.ringHead (d : Dev) : Nat := (d.ringPi + d.errs.waiting.length) % d.ringSize
def Dev.ringFull (d : Dev) : Bool := (d.ringHead + 1) % d.ringSize == d.fld pERR rERR_IDX.off 15 0 % d.ringSize
/-- The ring lies in an HBM granule of the page's world (R439). -/
def Dev.ringOk (d : Dev) (i : Nat) : Bool :=
  let e := d.gran (d.ringAt i / granBytes)
  whereIs (d.ringAt i) == .tier && e.valid && !e.slow && e.world == d.pageWorld pERR

def Dev.setWaiting (d : Dev) (l : List Bool) : Dev := { d with errs := { d.errs with waiting := l } }

/-- pi advances past the records whose verdict stands. -/
def Dev.ringSettle (d : Dev) : Dev :=
  let n := (d.errs.waiting.takeWhile fun b => b).length
  (d.setFld pERR rERR_IDX.off 47 32 ((d.ringPi + n) % d.ringSize)).setWaiting (d.errs.waiting.drop n)

/-- A record is written (R438): its slot, or none when records are off, the ring is full or lies elsewhere. -/
def Dev.record (d : Dev) (e : HwError) (cls verdict : Nat) (pending : Bool) : Dev × Option Nat :=
  let i := d.ringHead
  if !d.bit pERR rERR_CTL.off 63 then (d, none)
  else if d.ringFull then (d.count pERR rERR_STAT.off 7 0 1, none)
  else if !d.ringOk i then (d, none)
  else
    let d := d.store (d.ringAt i) (errorRecord d.ltc e cls verdict)
    ((d.setWaiting (d.errs.waiting ++ [!pending])).ringSettle, some i)

/-- A record with no verdict to come: what its field holds the spec does not say (log entry 5). -/
def Dev.recordOnly (d : Dev) (e : HwError) (cls : Nat) : Dev := ((d.free.1).record e cls (d.free.2.toNat % 8) false).1

/-- The verdict of a record is known: it is rewritten in place, before pi passes it. -/
def Dev.recordVerdict (d : Dev) (slot v : Nat) : Dev :=
  let i := (slot + d.ringSize - d.ringPi % d.ringSize) % d.ringSize
  ((d.store (d.ringAt slot + 26) (natLe 1 v)).setWaiting (d.errs.waiting.set i true)).ringSettle

/-- A retirement or repair enters the repair log (R435). -/
def Dev.repairNote (d : Dev) (code place : Nat) : Dev :=
  { d with errs := { d.errs with repairLog := d.errs.repairLog ++ [(code, place)] } }

/-! ### Where a unit lies (log entry 19) -/

/-- Tier and frame of a row or frame: slow frames are numbered from 65,536 as frames. -/
def frameOf (u : UnitKind) (place : Nat) : Bool × Nat :=
  match u with
  | .slowRow => (true, place % 65536)
  | .frame => (65536 ≤ place, place % 65536)
  | _ => (false, place)

/-- Is there a self-test for the kind (R427)? -/
def hasTest : UnitKind → Bool
  | .fabricLink | .clock => false
  | _ => true

/-- The granule that a frame holds. -/
def Dev.frameGran (d : Dev) (slow : Bool) (f : Nat) : Option Nat :=
  (d.tier.map.find? fun (x : Nat × TierEntry) => x.2.valid && x.2.slow == slow && x.2.frame == f).map Prod.fst

/-- The granule that migrates into a frame. -/
def Dev.frameDest (d : Dev) (slow : Bool) (f : Nat) : Option Nat :=
  (d.tier.map.find? fun (x : Nat × TierEntry) =>
    x.2.moving && x.2.dslow == slow && x.2.dframe == f && !d.tier.waiting.contains x.1).map Prod.fst

/-- The partition whose stage cache or save areas hold a frame. -/
def Dev.stageHolder (d : Dev) (f : Nat) : Option Nat := (List.range 64).find? fun p => (d.stageOf p).contains f
def Dev.saveHolder (d : Dev) (f : Nat) : Option Nat := (List.range 64).find? fun p => (d.part p).saveFrames.contains f

/-- Does anything hold the frame? -/
def Dev.frameHeld (d : Dev) (slow : Bool) (f : Nat) : Bool :=
  (d.frameGran slow f).isSome || (d.frameDest slow f).isSome || (!slow && ((d.stageHolder f).isSome || (d.saveHolder f).isSome))

/-! ### Retirement of frames (R434, R436) -/

/-- The frame leaves service for good. -/
def Dev.frameOut (d : Dev) (slow : Bool) (f : Nat) : Dev :=
  let d := if slow then { d with tier := { d.tier with slowGone := d.tier.slowGone.add f } }
    else { d with tier := { d.tier with hbmGone := d.tier.hbmGone.add f } }
  ((d.unuseFrame slow f).count pERR rERR_FRET.off (if slow then 63 else 47) (if slow then 48 else 32) 1).repairNote 5
    (if slow then 65536 + f else f)

/-- The granule leaves for a destination frame in state retiring. -/
def Dev.retireInto (d : Dev) (g : Nat) (slow : Bool) (f : Nat) : Dev :=
  let e := d.gran g
  let d := if e.state == stRefetch then d.phEnd e.part phRecovery else d
  (d.setGran g { e with state := stRetiring, dslow := slow, dframe := f }).setMig g { retire := true }

/-- No frame is to be had (R436): the granule waits, and the owner's quota in its tier falls by 1, to no less than its
usage. -/
def Dev.retireWaiting (d : Dev) (g : Nat) : Dev :=
  let e := d.gran g
  let p := e.part
  let d := d.retireInto g false 0
  let d := { d with tier := { d.tier with waiting := d.tier.waiting ++ [g] } }
  let d := d.setFld pERR rERR_FRET.off 31 16 d.tier.waiting.length
  let hi := if e.slow then 31 else 15
  let lo := if e.slow then 16 else 0
  let use := if e.slow then d.slowUse p else d.hbmUse p
  let q := d.fld pTIER (rTIER_PQ.at p) hi lo
  (d.setFld pTIER (rTIER_PQ.at p) hi lo (min q (max use (q - 1)))).partEvt p evQuota

/-- The stage cache of a partition gives up its last frame. -/
def Dev.stageLoses (d : Dev) (p : Nat) (f : Nat) : Dev :=
  let d := d.setStage p ((d.stageOf p).del f)
  d.unstage ((d.stagedOf p).drop (d.stageRoom p))

/-- A granule must leave its frame (R434): to a free frame of its tier, of the other, a stage-cache frame of its owner,
or, with none, it waits. The verdict that the destination means comes with it. One that is being unmapped takes its
frame out of service with it. -/
def Dev.evacuate (d : Dev) (g : Nat) : Dev × Nat :=
  let e := d.gran g
  if d.tier.unmapping == some g then (d.frameOut e.slow e.frame, vdPool)
  else if e.state == stSwitching || e.state == stRetiring then (d.setMig g { d.mig g with retire := true }, vdPool)
  else if e.state == stCopying then
    ((d.setGran g { e with state := stRetiring }).setMig g { d.mig g with retire := true }, vdPool)
  else match d.freeFrame e.slow, d.freeFrame (!e.slow), (d.stageOf e.part).getLast? with
  | some f, _, _ => ((d.useFrame e.slow f).retireInto g e.slow f, vdPool)
  | none, some f, _ => ((d.useFrame (!e.slow) f).retireInto g (!e.slow) f, vdPool)
  | none, none, some f =>
    if d.stageQuota e.part = 0 then (d.retireWaiting g, vdOwner)
    else
      let d := (d.stageLoses e.part f).setFld pTIER (rTIER_PQ.at e.part) 47 32 (d.stageQuota e.part - 1)
      (d.retireInto g false f, vdOwner)
  | none, none, none => (d.retireWaiting g, vdOwner)

/-- A frame that holds no granule is lost to whatever it serves: a migration into it, a stage cache, save areas. -/
def Dev.dropFrame (d : Dev) (slow : Bool) (f : Nat) : Dev :=
  match d.frameDest slow f with
  | some g =>
    if (d.gran g).state == stCopying then d.abandonMove g
    else ((d.setGran g { d.gran g with state := stStable, dslow := false, dframe := 0 }).evacuate g).1
  | none =>
    if slow then d
    else match d.stageHolder f, d.saveHolder f with
    | some p, _ => d.stageLoses p f
    | none, some p =>
      Dev.takeSave (d.setPart p { d.part p with saveFrames := (d.part p).saveFrames.del f }) p (f / 1536) 1
    | none, none => d

/-- A frame is retired (R434): its granule migrates first, and the frame leaves service once that is done. -/
def Dev.retireFrame (d : Dev) (slow : Bool) (f : Nat) : Dev × Nat :=
  if (if slow then d.tier.slowGone else d.tier.hbmGone).contains f then (d, vdPool)
  else match d.frameGran slow f with
  | some g => d.evacuate g
  | none => ((d.frameOut slow f).dropFrame slow f, vdPool)

/-- FRAME_RETIRE_DONE (R434): the granule is on its new frame; the old one leaves service, or, while the whole frame is
still to be tested, the pool only (R427). -/
def execFrameRetireDone (g : Fin 49152) (s : State) : Host.Outcome State Fault Refusal :=
  s.run fun d =>
    let e := d.gran g
    d.when (e.valid && e.state == stSwitching && (d.mig g).retire) fun d =>
      let d := (d.switchOver g).count pTIER rTIER_STAT.off 63 48 1
      if (d.unit 5 (if e.slow then 65536 + e.frame else e.frame)).testing then d else d.frameOut e.slow e.frame

/-! ### Lanes (R310, R433) -/

/-- The port of a lane that fails its peer's: a fabric port retrains without it, an Ethernet port goes down and its
chunks go to the other; the Vexio port goes on with fewer lanes. -/
def Dev.laneOut (d : Dev) (place : Nat) : Dev :=
  if place < 96 then (if d.fab.trained.contains (place / 4) then d.fabPortDown (place / 4) else d)
  else if place < 128 then d
  else
    let n := (place - 128) / 4 % 2
    if d.fld (pETH n) rETH_PORT.off 51 48 == 2 then (d.setFld (pETH n) rETH_PORT.off 51 48 1).failPort n none else d

/-! ### Self-tests (R427, R428) -/

/-- A unit leaves service for its test. -/
def Dev.testStarts (d : Dev) (u : UnitKind) (place : Nat) : Dev :=
  match u with
  | .core => if (d.core place).task.isNone && decide ((d.core place).st = .idle) then d.setCore place { d.core place with st := .selfTest } else d
  | .frame =>
    let f := frameOf .frame place
    match d.frameGran f.1 f.2 with
    | some g => (d.evacuate g).1
    | none => if d.frameHeld f.1 f.2 then d else d.useFrame f.1 f.2
  | .serdesLane => d.laneOut place
  | _ => d

/-- A self-test starts, charged to the partition whose work the unit holds (R253). -/
def Dev.startTest (d : Dev) (e : HwError) (slot : Option Nat) : Dev :=
  let c := unitCode e.unit
  let on := d.partOn e.part
  let d := d.setUnit c e.place { d.unit c e.place with testing := true, verdict := vdPending, corrected := 0, records := slot.toList,
                                                       charged := if on then e.part + 1 else 0 }
  (if on then d.phStart e.part phRecovery else d).testStarts e.unit e.place

/-- The verdict on a unit: its records are rewritten, and it is under test no longer. -/
def Dev.closeUnit (d : Dev) (c place v : Nat) (transientAt : Option Nat) (retired : Bool) : Dev :=
  let u := d.unit c place
  let d := d.setUnit c place { transientAt := transientAt, retired := retired }
  let d := d.each u.records fun slot e => e.recordVerdict slot v
  if u.charged = 0 then d else d.phEnd (u.charged - 1) phRecovery

/-- A verdict that the record's codes do not name (log entry 5). -/
def Dev.closeOpen (d : Dev) (c place : Nat) (retired : Bool) : Dev :=
  d.free.1.closeUnit c place (d.free.2.toNat % 8) none retired

/-! ### Spare cores (R430, R431, R436) -/

def cmapOff (k : Nat) : Nat := 0x400 + k / 8 * 8
/-- Physical core of exposed core k on its die (ERR_CMAP). -/
def Dev.physical (d : Dev) (k : Nat) : Nat := d.fld pERR (cmapOff k) (8 * (k % 8) + 6) (8 * (k % 8))
def Dev.setPhysical (d : Dev) (k n : Nat) : Dev := d.setFld pERR (cmapOff k) (8 * (k % 8) + 6) (8 * (k % 8)) n
def Dev.spareCores (d : Dev) (die : Nat) : List Nat := Tab.get (fun _ => []) d.errs.spares die
def Dev.setSpareCores (d : Dev) (die : Nat) (l : List Nat) : Dev :=
  Dev.setFld { d with errs := { d.errs with spares := Tab.set (fun _ => []) d.errs.spares die l } } pERR (rERR_SPARE.at die) 3 0
    l.length

/-- The exposed number k is retired: no task is placed on it again. -/
def Dev.retireNumber (d : Dev) (k : Nat) : Dev :=
  let d := (d.setBit pERR (cmapOff k) (8 * (k % 8) + 7) true).count pERR (rERR_SPARE.at (k / 64)) 15 8 1
  let d := d.setUnit ukCore k { d.unit ukCore k with retired := true }
  if (d.core k).task.isNone then d.setCore k { d.core k with st := .retired } else d

/-- The enabled partition that owns a core. -/
def Dev.coreOwner (d : Dev) (k : Nat) : Option Nat := (List.range 64).find? fun p => d.partOn p && d.ownsCore p k

/-- The highest-numbered other exposed core of the die that no enabled partition owns and that is in service. -/
def Dev.donorCore (d : Dev) (k : Nat) : Option Nat :=
  ((List.range 64).map fun i => k / 64 * 64 + (63 - i)).find? fun j =>
    j != k && (d.coreOwner j).isNone && !d.inTest ukCore j && (d.core j).task.isNone

/-- The failing number is given up: its owner loses the core (R436). -/
def Dev.loseNumber (d : Dev) (k : Nat) : Dev :=
  let d := d.retireNumber k
  match d.coreOwner k with
  | some p => (d.setBit (pPART p) (rPART_CORE.at (k / 64)) (k % 64) false).partEvt p evQuota
  | none => d

/-- A core judged lasting: its number moves to a spare of the die, else to the physical core of a number that nobody
owns, and the new core runs its own self-test first; else the number is retired. -/
def Dev.loseCore (d : Dev) (k : Nat) : Dev :=
  let die := k / 64
  let u := d.unit ukCore k
  let d := d.repairNote ukCore (72 * die + d.physical k)
  match d.spareCores die, d.donorCore k with
  | s :: rest, _ =>
    ((d.setSpareCores die rest).setPhysical k s).setUnit ukCore k { u with testing := true, verdict := vdSpare, transientAt := none }
  | [], some j =>
    ((d.setPhysical k (d.physical j)).retireNumber j).setUnit ukCore k { u with testing := true, verdict := vdPool, transientAt := none }
  | [], none => (d.loseNumber k).closeUnit ukCore k vdOwner none true

/-! ### Verdicts -/

/-- A row repaired on a spare row (R432). -/
def Dev.repairRow (d : Dev) (c place : Nat) : Dev := (d.count pERR rERR_FRET.off 15 0 1).repairNote c place

/-- Has the segment one of its 16 spare rows left (R432)? -/
def Dev.rowsLeft (d : Dev) (place : Nat) : Bool :=
  decide (((d.errs.repairLog.filter fun x => x == (unitCode .segment, place))).length < 16)

/-- A unit judged lasting is replaced or retired (R428, R431 to R436). -/
def Dev.lasting (d : Dev) (unit : UnitKind) (place : Nat) (r : TestResult) : Dev :=
  let c := unitCode unit
  let f := frameOf unit place
  match unit with
  | .core => d.loseCore place
  | .segment =>
    if d.rowsLeft place then (d.repairRow c place).closeUnit c place vdSpare none false
    else (d.loseNumber (place / 64)).closeUnit c place vdOwner none true
  | .hbmRow | .slowRow =>
    let x := if r.spareRow then (d.repairRow c place, vdSpare) else (d, vdPool)
    if r.spareRow && !r.retire then x.1.closeUnit c place x.2 none false
    else let y := x.1.retireFrame f.1 f.2; y.1.closeUnit c place y.2 none false
  | .frame => let y := d.retireFrame f.1 f.2; y.1.closeUnit c place y.2 none false
  | .hbmLane => (d.repairNote c place).closeUnit c place vdSpare none false
  | .serdesLane => (d.repairNote c place).closeOpen c place true
  | .dmaChannel | .engine => d.closeOpen c place true
  | .fabricLink | .clock => d

/-- A unit that has passed returns to service. -/
def Dev.returns (d : Dev) (unit : UnitKind) (place : Nat) : Dev :=
  match unit with
  | .core => d.setCore place { d.core place with st := .idle }
  | .frame =>
    let f := frameOf .frame place
    if d.frameHeld f.1 f.2 then d else d.giveBack f.1 f.2
  | .engine => if pSTV 0 ≤ place && place < pSTV 64 then d.stoveGo (place - pSTV 0) else d
  | _ => d

/-- Can the test of a unit have ended: a core is out of service, and a frame's granule has left it? -/
def Dev.tested (d : Dev) (unit : UnitKind) (place : Nat) : Bool :=
  (d.unit (unitCode unit) place).testing &&
    (match unit with
     | .core => (d.core place).task.isNone && decide ((d.core place).st = .selfTest)
     | .frame => let f := frameOf .frame place; (d.frameGran f.1 f.2).isNone
     | _ => true)

/-- SELF_TEST_DONE (R428): a unit that passes returns to service, one that fails is replaced. -/
def execSelfTestDone (unit : UnitKind) (place : Nat) (r : TestResult) (s : State) : Host.Outcome State Fault Refusal :=
  s.run fun d => d.when (d.tested unit place) fun d =>
    let c := unitCode unit
    let v := (d.unit c place).verdict
    if r.pass then
      (d.closeUnit c place (if v = vdPending then vdTransient else v) (if v = vdPending then some d.now else none) false).returns
        unit place
    else d.lasting unit place r

/-- A unit with an error: recorded only while it is tested (R429), judged lasting at once within 600 s of a transient
verdict (R428), else tested. -/
def Dev.judge (d : Dev) (e : HwError) (cls : Nat) : Dev :=
  let c := unitCode e.unit
  let u := d.unit c e.place
  if !hasTest e.unit || u.retired then d.recordOnly e cls
  else
    let x := d.record e cls vdPending true
    if u.testing then x.1.setUnit c e.place { u with records := u.records ++ x.2.toList }
    else match u.transientAt with
    | some t =>
      if cls != clCorrected && d.now ≤ t + 600000000000 then
        let f := (x.1.setUnit c e.place { u with records := x.2.toList }).free
        f.1.lasting e.unit e.place ⟨false, f.2.getLsbD 0, f.2.getLsbD 1⟩
      else x.1.startTest e x.2
    | none => x.1.startTest e x.2

/-! ### Classes (R421) -/

/-- Corrected errors of a unit within the window, with this one (R423). -/
def Dev.correctedNow (d : Dev) (e : HwError) : UnitRec :=
  let u := d.unit (unitCode e.unit) e.place
  let win := d.fld pERR rERR_CTL.off 31 16 * 1000000
  if u.corrected = 0 || u.winStart + win < d.now then { u with corrected := errorCount e, winStart := d.now }
  else { u with corrected := u.corrected + errorCount e }

/-- CORRECTED_ERROR (R423): counted, and at the threshold the unit is tested. -/
def execCorrectedError (e : HwError) (s : State) : Host.Outcome State Fault Refusal :=
  s.run fun d => d.when true fun d =>
    let c := unitCode e.unit
    let d := d.count pERR rERR_STAT.off 63 40 (errorCount e)
    let u := d.correctedNow e
    if d.inTest c e.place then d.judge e clCorrected
    else if hasTest e.unit && max 1 (d.fld pERR rERR_CTL.off 15 0) ≤ u.corrected then
      (d.setUnit c e.place { u with corrected := 0 }).judge e clCorrected
    else (d.setUnit c e.place u).recordOnly e clCorrected

/-- DEFERRED_ERROR (R421): the line is poisoned, and its region is tested (R180). -/
def execDeferredError (e : HwError) (s : State) : Host.Outcome State Fault Refusal :=
  s.run fun d => d.when (whereIs e.addr == .tier) fun d =>
    ((d.addPoison (e.addr / 64 * 64) 64).count pERR rERR_STAT.off 39 24 1).judge e clDeferred

/-- A contained error in an engine ends its descriptor or command in progress (R425). -/
def Dev.containEngine (d : Dev) (page : Nat) : Dev :=
  if pGEY 0 ≤ page && page < pGEY 8 then
    let die := page - pGEY 0
    let x := d.geyser die
    match x.active with
    | some y =>
      if x.finished then d
      else
        let g := GDesc.ofBytes (d.descBytes y)
        let r := d.rowEntry g x.row
        d.endRow die y.part g x r { status := 0x07, keep := r.base }
    | none => d
  else if pFLUE 0 ≤ page && page < pFLUE 8 then
    let n := page - pFLUE 0
    if (d.flue n).active.isSome then d.setFlue n { d.flue n with status := 0x04, held := false } else d
  else if pBLW 0 ≤ page && page < pBLW 4 then
    d.each ((d.fab.groups.map Prod.fst).filter fun g => d.fld pFAB (gsts g) 49 48 == page - pBLW 0) fun g x =>
      x.each (x.group g).active fun c y =>
        let z := y.endAll g 0x04 fun k => k == c
        if c.desc.op == opPut then z.snapAll else z.snapAll.abortAll g c.cseq 0x04
  else if pSTV 0 ≤ page && page < pSTV 64 then
    match d.stove (page - pSTV 0) with
    | some c => if c.finished then d else d.stoveEnd (page - pSTV 0) c 5
    | none => d
  else d

/-- What a contained error destroys (R424, R425). -/
def Dev.containWork (d : Dev) (e : HwError) : Dev :=
  match e.unit with
  | .core => if (d.core e.place).task.isSome then d.strike e.place else d.vacate e.place
  | .segment =>
    let k := e.place / 64
    if (d.core k).task.isSome then d.strike k
    else if (d.lv k).segLive.contains (e.place % 64) && whereIs e.addr == .scratch k then d.addPoison (e.addr / 64 * 64) 64
    else d
  | .engine => d.containEngine e.place
  | .dmaChannel =>
    match (d.chan e.place).run with
    | some r => if r.finished then d else d.setRun e.place (some { r with finished := true, status := 4 })
    | none => d
  | _ => d

/-- CONTAINED_ERROR (R424, R425, R427): the work concerned is contained and the unit leaves service for its test; one
that reaches a unit under test is recorded only (R429). -/
def execContainedError (e : HwError) (s : State) : Host.Outcome State Fault Refusal :=
  s.run fun d => d.when true fun d =>
    let d := d.count pERR rERR_STAT.off 23 8 (errorCount e)
    if d.inTest (unitCode e.unit) e.place then d.judge e clContained else (d.judge e clContained).containWork e

/-- The links of the fabric and of Ethernet are down. -/
def Dev.linksDown (d : Dev) : Dev :=
  let d := d.each (List.range 24) fun n x => (x.clearPeer n).setFld pFAB (rFAB_PORT.at n) 51 48 portDown
  let d := d.each (List.range 2) fun n x => x.setFld (pETH n) rETH_PORT.off 51 48 0
  { d with fab := { d.fab with trained := [], halfIdle := [], peerSleep := [], askSleep := [] } }

/-- A fatal error (R426): every core, engine and link stops, ALERT_N goes low, and the record is written. -/
def Dev.fatal (d : Dev) (e : HwError) : Dev :=
  let d := d.linksDown
  let d := { d with pow := { d.pow with stopped := true, alertN := false } }
  d.recordOnly e clFatal

/-- FATAL_ERROR. -/
def execFatalError (e : HwError) (s : State) : Host.Outcome State Fault Refusal :=
  s.run fun d => d.when true fun d => d.fatal e

/-- ERR_STAT_READ. -/
def execErrStatRead (a : Access) (s : State) : Host.Outcome State Fault Refusal :=
  s.run fun d => d.regRead a pERR rERR_STAT.off rERR_STAT id

end Sys2Proof.Machine
end

