-- ==== Sys2Proof/Machine/Power.lean ====
section
/-! DEFINITION. Power sequencing, resets, the power cap, temperature and reference clocks of the module (chapter 02). -/

namespace Sys2Proof.Machine

/-! ### What a reset reinitialises (R37) -/

/-- Fuses, the flash with its monotonic counter and the random source outlive every reset. -/
def Fender.kept (f : Fender) : Fender :=
  { Fender.reset with fused := f.fused, debugFuse := f.debugFuse, monotonic := f.monotonic, draws := f.draws, flash := f.flash }

/-- Every block, link and core is as at reset, the LTC holds 0, and both tiers are empty. What was sent stays sent. -/
def Dev.reinit (d : Dev) : Dev :=
  { Dev.reset with pow := { d.pow with cclkMHz := 470, stopped := !d.pow.thermTripN }, ltc := 0, ltcOn := false, regs := [],
                   fen := d.fen.kept, errs := { Errors.reset with repairLog := d.errs.repairLog }, out := d.out, fresh := d.fresh }

/-- A claim register holds no claim (R455). -/
def Dev.dropClaim (d : Dev) (page off : Nat) : Dev :=
  ((d.setBit page off 63 false).setFld page off 55 48 0).setFld page off 47 32 0

/-- A warm reset (R37, R417, R455): the MOD page and the LTC are kept, every claim is released, and the device is at SL0.
What a core has read of the LTC bounds its later reads (R46; log entry 14). An unlock of debug takes effect (R410). -/
def Dev.reinitWarm (d : Dev) : Dev :=
  let seen := fun (t : Tab Core) (x : Nat × Core) => Tab.set (fun _ => Core.reset) t x.1 { Core.reset with ltcSeen := (d.core x.1).ltcSeen }
  let e := { d.reinit with ltc := d.ltc, ltcOn := d.ltcOn, cores := d.cores.foldl seen [], regs := d.regs.filter fun (x : Nat × Word) => x.1 < 0x10000,
                           fen := { d.fen.kept with debug := d.fen.unlockPending } }
  let e := e.dropClaim pMOD rCLAIM.off
  (e.each (List.range 4) fun n x => x.dropClaim pMOD (rMOD_TCLM.at n)).setFld pMOD rMOD_SL.off 1 0 0

/-- Causes of a reset that has ended (MOD_RST_CAUSE). -/
def Dev.noteCause (d : Dev) (c : Nat) : Dev := d.wr pMOD rMOD_RST_CAUSE.off (d.rd pMOD rMOD_RST_CAUSE.off ||| c)

def causePowerOn : Nat := 1
def causeCold : Nat := 2

/-- A loss of REFCLK_A is a fatal error of the device (R42, R426); one that came during a reset takes effect at its end. -/
def Dev.clockFault (d : Dev) : Dev := if d.live && !d.pow.refclkA then d.fatal ⟨.clock, 0, pMOD, 0, 0, 1⟩ else d

/-- A power-on or cold reset ends: SLOT_ID is sampled (R30), the LTC counts (R45), and the causes are recorded, those of
warm triggers absorbed among them (R39). -/
def Dev.release (d : Dev) (slot cause : Nat) : Dev :=
  Dev.clockFault (Dev.noteCause { d with ltcOn := true, pow := { d.pow with reset := none, modRstN := true, slotId := slot, warmCauses := 0 } }
    (cause ||| d.pow.warmCauses))

/-- The I3C static address of the module (R30). -/
def Dev.i3cAddr (d : Dev) : Nat := 0x30 + d.pow.slotId

/-! ### Power-up and power-down (R34 to R36, R460) -/

/-- PWR_EN_RISE: a module that R36 keeps down needs PWR_EN to have been low for 100 ms. -/
def execPwrEnRise (lowMs : Nat) (s : State) : Host.Outcome State Fault Refusal :=
  s.run fun d =>
    if d.pow.pwrEn then d
    else
      let stays := d.pow.lockout && lowMs < 100
      { d with pow := { d.pow with pwrEn := true, lockout := stays,
                                   phase := if d.pow.phase = .off ∧ stays = false then .waiting else d.pow.phase } }

/-- RAIL_RAMP_START (R460). -/
def execRailRampStart (inRangeMs : Nat) (s : State) : Host.Outcome State Fault Refusal :=
  s.run fun d =>
    if d.pow.phase = .waiting ∧ d.pow.pwrEn = true ∧ 5 ≤ inRangeMs then { d with pow := { d.pow with phase := .ramping } } else d

/-- PWR_GOOD_RISE (R34): 20 to 60 ms after the start of the ramp; the power-on reset holds the device. -/
def execPwrGoodRise (afterMs : Nat) (s : State) : Host.Outcome State Fault Refusal :=
  s.run fun d =>
    if d.pow.phase = .ramping ∧ 20 ≤ afterMs ∧ afterMs ≤ 60 then
      Dev.reinit { d with pow := { d.pow with
        phase := .good, pwrGood := true, reset := some .powerOn, modRstN := false, thermTripN := true, alertN := true,
        warmCauses := 0, thermGate := false, capGate := false, capWatts := if d.pow.pwrbrkN then 3400 else 2000,
        refclkA := true } }
    else d

/-- The pin that holds the cap at 2,000 W shows in MOD_PWR, with whether issue is gated (R32, R41). -/
def Dev.powerSync (d : Dev) : Dev :=
  (d.setBit pMOD rMOD_PWR.off 9 (!d.pow.pwrbrkN)).setBit pMOD rMOD_PWR.off 8 (d.pow.thermGate || d.pow.capGate)

/-- The cap that applies (R33): 2,000 W while PWRBRK_N is low, else MOD_PWR.cap. Issue is withheld while the input power
exceeds it (R32). -/
def Dev.applyCap (d : Dev) : Dev :=
  let cap := if !d.pow.pwrbrkN then 2000
    else match d.fld pMOD rMOD_PWR.off 1 0 with
      | 0 => 3400
      | 1 => 2600
      | _ => 2000
  Dev.powerSync { d with pow := { d.pow with capWatts := cap, capGate := cap < d.pow.watts } }

/-- POWER_ON_RESET_END (R460): the later of the release of MOD_RST_N and 1 ms after PWR_GOOD. -/
def execPowerOnResetEnd (slot : Fin 16) (s : State) : Host.Outcome State Fault Refusal :=
  s.run fun d =>
    if d.pow.pwrGood ∧ d.pow.reset = some .powerOn then (d.release slot causePowerOn).applyCap else d

/-- The module powers down: PWR_GOOD is low and the rails discharge. -/
def Dev.powerDown (d : Dev) (lockout : Bool) : Dev :=
  { d.reinit with pow := { d.reinit.pow with pwrGood := false, phase := .discharging, reset := none, lockout := d.pow.lockout || lockout } }

/-- PWR_EN_FALL (R35, R36): before PWR_GOOD the ramp is abandoned; after it the device powers down, from a cold reset, which
ends THERM_TRIP_N low (R41). -/
def execPwrEnFall (s : State) : Host.Outcome State Fault Refusal :=
  s.run fun d =>
    let e := { d with pow := { d.pow with pwrEn := false } }
    match d.pow.phase with
    | .good => Dev.powerDown { e with pow := { e.pow with thermTripN := true, alertN := true } } false
    | .ramping => e.powerDown true
    | .waiting => { e with pow := { e.pow with phase := .off } }
    | _ => e

/-- RAILS_DISCHARGED (R35): the board may remove the input. -/
def execRailsDischarged (s : State) : Host.Outcome State Fault Refusal :=
  s.run fun d =>
    if d.pow.phase = .discharging then
      { d with pow := { d.pow with phase := if d.pow.pwrEn ∧ !d.pow.lockout then .waiting else .off } }
    else d

/-- BROWN_OUT (R36): below 46.0 V for more than 10 µs; THERM_TRIP_N keeps its level. -/
def execBrownOut (deciVolts us : Nat) (s : State) : Host.Outcome State Fault Refusal :=
  s.run fun d =>
    if deciVolts < 460 ∧ 10 < us ∧ (d.pow.phase = .good ∨ d.pow.phase = .ramping) then d.powerDown true else d

/-! ### Resets (R37 to R39, R45) -/

/-- COLD_RESET: MOD_RST_N has been low for 1 µs; a shorter pulse is ignored (R38). -/
def execColdReset (lowNs : Nat) (s : State) : Host.Outcome State Fault Refusal :=
  s.run fun d =>
    if d.pow.pwrGood ∧ d.pow.modRstN ∧ 1000 ≤ lowNs then
      Dev.reinit { d with pow := { d.pow with
        reset := some .cold, modRstN := false, thermTripN := true, alertN := true, refclkA := true } }
    else d

/-- COLD_RESET_RELEASE (R45). -/
def execColdResetRelease (slot : Fin 16) (s : State) : Host.Outcome State Fault Refusal :=
  s.run fun d =>
    if d.pow.pwrGood ∧ d.pow.reset = some .cold then (d.release slot causeCold).applyCap else d

/-- WARM_RST_N_ASSERT (R38): low for 1 µs. -/
def execWarmRstNAssert (lowNs : Nat) (s : State) : Host.Outcome State Fault Refusal :=
  s.run fun d =>
    if d.pow.pwrGood ∧ d.pow.warmRstN ∧ 1000 ≤ lowNs then
      Dev.warmTrigger { d with pow := { d.pow with warmRstN := false } } causePin
    else d

/-- WARM_RST_N_RISE: the trigger of the pin ends. -/
def execWarmRstNRise (s : State) : Host.Outcome State Fault Refusal :=
  s.run fun d => { d with pow := { d.pow with warmRstN := true } }

/-- MOD_RST_CTL_WARM (R38). -/
def execModRstCtlWarm (a : Access) (v : Word) (s : State) : Host.Outcome State Fault Refusal :=
  s.run fun d => d.regWrite a pMOD rMOD_RST_CTL.off true fun d => if v.toNat.testBit 0 then d.warmTrigger causeReg else d

/-- WARM_RESET_DONE (R38, R39): every trigger has ended; the causes are recorded and the device is at SL0. -/
def execWarmResetDone (s : State) : Host.Outcome State Fault Refusal :=
  s.run fun d =>
    if d.pow.pwrGood ∧ d.pow.reset = some .warm ∧ d.pow.warmRstN then
      let e := d.reinitWarm
      Dev.clockFault (Dev.noteCause { e with pow := { e.pow with reset := none, warmCauses := 0 } } d.pow.warmCauses)
    else d

/-! ### Power cap and temperature (R32, R33, R41) -/

/-- PWRBRK_N_FALL. -/
def execPwrbrkNFall (s : State) : Host.Outcome State Fault Refusal :=
  s.run fun d =>
    let d := { d with pow := { d.pow with pwrbrkN := false } }
    if d.pow.pwrGood then d.applyCap else d

/-- PWRBRK_N_RISE. -/
def execPwrbrkNRise (s : State) : Host.Outcome State Fault Refusal :=
  s.run fun d =>
    let d := { d with pow := { d.pow with pwrbrkN := true } }
    if d.pow.pwrGood then d.applyCap else d

/-- MOD_PWR_CAP_WRITE (R33): 11b is ignored. -/
def execModPwrCapWrite (a : Access) (v : Word) (s : State) : Host.Outcome State Fault Refusal :=
  s.run fun d => d.regWrite a pMOD rMOD_PWR.off false fun d =>
    if bits v.toNat 1 0 = 3 then d else (d.store8 a pMOD rMOD_PWR.off rMOD_PWR v).applyCap

/-- The gate of temperature (R41): on from 95 °C, off once every die is at or below 92 °C. -/
def thermalGate (was : Bool) (hottest : Nat) : Bool := 95 ≤ hottest || (was && 92 < hottest)

/-- A die at 110 °C (R41): THERM_TRIP_N goes low, and the cores and links stop. -/
def Dev.thermTrip (d : Dev) : Dev :=
  let d := d.linksDown
  let d := d.each (List.range 2) fun n x => (x.setFld pVEX (rVEX_PORT.at n) 51 48 vxDown)
  { d with pow := { d.pow with thermTripN := false, stopped := true } }

/-- TEMPERATURE_READ (R41): the 40 sensors every 100 µs, and the input power over the last millisecond (R32). -/
def execTemperatureRead (temps : List Nat) (watts : Nat) (s : State) : Host.Outcome State Fault Refusal :=
  s.run fun d =>
    if d.pow.pwrGood then
      let hottest := temps.foldl max 0
      let d := d.setFld pMOD rMOD_PWR.off 23 16 (min 255 hottest)
      let d := Dev.applyCap { d with pow := { d.pow with watts := watts, thermGate := thermalGate d.pow.thermGate hottest } }
      if 110 ≤ hottest then d.thermTrip else d
    else d

/-! ### Reference clocks (R42) -/

/-- REFCLK_B_LOSS: every SerDes link goes down. -/
def execRefclkBLoss (s : State) : Host.Outcome State Fault Refusal :=
  s.run fun d =>
    if d.pow.refclkB then
      let d := { d with pow := { d.pow with refclkB := false } }
      if d.live then
        let d := d.each ((List.range 24).filter fun n => d.portState n != portDown) fun n x => x.fabPortDown n
        let d := d.each ((List.range 2).filter fun n => d.vexState n != vxDown) fun n x => x.vexPortDown n
        d.each (List.range 2) fun n x => (x.setFld (pETH n) rETH_PORT.off 51 48 0).failPort n none
      else d
    else d

/-- Is an Ethernet port enabled and its check-value unit the port's own (R458)? -/
def ethHolder : Nat := 2
def Dev.ethOn (d : Dev) (n : Nat) : Bool := d.bit (pETH n) rETH_PORT.off 63 && d.holds (pETH n) rCLAIM.off ethHolder n

/-- Links that are enabled and in service at the present level train; without REFCLK_B none does (R42). -/
def Dev.retrain (d : Dev) : Dev :=
  let sl := d.fld pMOD rMOD_SL.off 1 0
  if !d.pow.refclkB then d else
  let d := d.each (List.range 2) fun n x =>
    if x.bit pVEX (rVEX_PORT.at n) 63 && x.vexState n == vxDown then x.setFld pVEX (rVEX_PORT.at n) 51 48 vxTraining else x
  if sl < 2 then d
  else
    let d := d.each (List.range 24) fun n x =>
      if x.bit pFAB (rFAB_PORT.at n) 63 && x.portState n == portDown then x.setFld pFAB (rFAB_PORT.at n) 51 48 portTraining else x
    d.each (List.range 2) fun n x =>
      if x.ethOn n && x.fld (pETH n) rETH_PORT.off 51 48 == 0 then x.setFld (pETH n) rETH_PORT.off 51 48 1 else x

/-- REFCLK_B_RETURN: the links are discovered again, with no reset. -/
def execRefclkBReturn (s : State) : Host.Outcome State Fault Refusal :=
  s.run fun d =>
    if d.pow.refclkB then d
    else
      let d := { d with pow := { d.pow with refclkB := true } }
      if d.live then d.retrain else d

/-- REFCLK_A_LOSS: a fatal error of the device (R42, R426). -/
def execRefclkALoss (s : State) : Host.Outcome State Fault Refusal :=
  s.run fun d => if d.pow.refclkA then Dev.clockFault { d with pow := { d.pow with refclkA := false } } else d

/-! ### The local time counter (R47) -/

/-- MOD_LTC_READ: a 32-bit read of the low half latches the high half into MOD_LTC_HI. -/
def execModLtcRead (a : Access) (s : State) : Host.Outcome State Fault Refusal :=
  s.run fun d => d.regReadOf a pMOD rMOD_LTC.off rMOD_LTC d.ltc.toNat fun e =>
    if a.width = .low then e.setFld pMOD rMOD_LTC_HI.off 31 0 (d.ltc.toNat / 2 ^ 32) else e

end Sys2Proof.Machine
end

