-- ==== Sys2Proof/Machine/Security.lean ====
section
/-! DEFINITION. Boot, keys, anti-rollback, debug unlock, attestation and service levels (chapter 16). -/

namespace Sys2Proof.Machine

/-! ### The boot chain (R407, R408, R412, R413) -/

/-- Does Fender accept an image (R407)? -/
def imageOk (fused : Nat) (c : ImageCheck) : Bool :=
  c.present && c.formOk && fused ≤ c.svn && c.rootOk && c.ecdsaOk && c.lmsOk && c.digestOk

/-- The first image that is accepted, and whether it was the second one. -/
def pickImage (fused : Nat) (first second : ImageCheck) : Option (ImageCheck × Bool) :=
  if imageOk fused first then some (first, false) else if imageOk fused second then some (second, true) else none

/-- Recovery is entered (R408). -/
def Dev.inRecovery (d : Dev) : Bool := d.bit pFEN rFEN_BOOT.off 32
def Dev.enterRecovery (d : Dev) : Dev := d.setBit pFEN rFEN_BOOT.off 32 true

/-- A key slot is written, locked and valid (R403). -/
def Dev.fillKey (d : Dev) (slot : Nat) (key : List Byte) : Dev :=
  let d := d.each (List.range 12) fun w e => e.wr pFEN ((rFEN_KEY_WORD w).at slot) (leNat ((key.drop (8 * w)).take 8))
  (d.setBit pFEN (rFEN_KEY.at slot) 63 true).setBit pFEN (rFEN_KEY.at slot) 62 true

def dbgByte (b : Bool) : List Byte := natLe 1 (b2n b)

/-- The Alias certificate takes a leaf of the DeviceID LMS key: the counter advances and the leaf is its value before
(R413); with 32,768 leaves used there is none. -/
def Dev.useLeaf (d : Dev) : Dev :=
  if d.fen.monotonic < 32768 then { d with fen := { d.fen with monotonic := d.fen.monotonic + 1 } }
  else d.setBit pFEN rFEN_BOOT.off 34 true

/-- The accepted FEN runs (R408, R412): the root keys are locked, and CDI_1 is derived. -/
def Dev.runFen (d : Dev) (im : ImageCheck) (b : Bool) : Dev :=
  let d := (d.fillKey 0 im.ekey).fillKey 16 im.lkey
  let d := { d with fen := { d.fen with
    fenOk := true, bootFromB := b, fenDigest := im.digest,
    cdi := Config.hmac384 Config.uds (im.digest ++ natLe 1 im.svn ++ dbgByte d.fen.debug) } }
  ((d.setFld pFEN rFEN_BOOT.off 55 48 im.svn).setBit pFEN rFEN_BOOT.off 3 b).useLeaf

/-- BOOT_ROM_START (R408): FEN of copy A, else of copy B, else recovery. -/
def execBootRomStart (fenA fenB : ImageCheck) (s : State) : Host.Outcome State Fault Refusal :=
  s.run fun d => d.when (!d.fen.fenOk && !d.inRecovery) fun d =>
    let d := (d.setFld pFEN rFEN_BOOT.off 47 40 d.fen.fused).setBit pFEN rFEN_BOOT.off 33 d.fen.debug
    match pickImage d.fen.fused fenA fenB with
    | some x => d.runFen x.1 x.2
    | none => d.enterRecovery

/-- The lowest svn of the images that run. -/
def Dev.noteSvn (d : Dev) (svn : Nat) : Dev :=
  d.setFld pFEN rFEN_BOOT.off 55 48 (min svn (d.fld pFEN rFEN_BOOT.off 55 48))

/-- MGT runs. -/
def Dev.runMgt (d : Dev) (im : ImageCheck) (other : Bool) : Dev :=
  Dev.noteSvn (Dev.setBit { d with fen := { d.fen with mgtOk := true, mgtDigest := im.digest } } pFEN rFEN_BOOT.off 4
    (d.fen.bootFromB != other)) im.svn

/-- DEV runs, and CDI_2 takes the place of CDI_1 (R412). -/
def Dev.runDev (d : Dev) (im : ImageCheck) (other : Bool) : Dev :=
  let f := d.fen
  Dev.noteSvn (Dev.setBit { d with fen := { f with
    devOk := true, devDigest := im.digest,
    cdi := Config.hmac384 f.cdi (f.mgtDigest ++ im.digest ++ natLe 1 f.fused ++ dbgByte f.debug) } } pFEN rFEN_BOOT.off 5
    (f.bootFromB != other)) im.svn

/-- A failure on the way up: its class in MOD_SL.fail, and the event of the MOD page (R417). -/
def Dev.bringUpFails (d : Dev) (code : Nat) : Dev := (d.setFld pMOD rMOD_SL.off 11 8 code).event pMOD

/-- IMAGE_VERIFY (R407, R408): MGT, then DEV, from the copy whose FEN ran, else from the other. -/
def execImageVerify (which : ImageKind) (first second : ImageCheck) (s : State) : Host.Outcome State Fault Refusal :=
  s.run fun d =>
    let f := d.fen
    match which with
    | .mgt => d.when (f.fenOk && !f.mgtOk && !d.inRecovery) fun d =>
      match pickImage f.fused first second with
      | some x => d.runMgt x.1 x.2
      | none => d.enterRecovery
    | .dev => d.when (f.mgtOk && !f.devOk) fun d =>
      match pickImage f.fused first second with
      | some x => d.runDev x.1 x.2
      | none => d.bringUpFails 1

/-- RECOVERY_FIRMWARE_UPDATE (R405, R408): copy B only. -/
def execRecoveryFirmwareUpdate (flashOffset : Nat) (data : List Byte) (s : State) : Host.Outcome State Fault Refusal :=
  s.run fun d => d.when (d.inRecovery && 0x02000000 ≤ flashOffset && flashOffset + data.length ≤ 0x03E00000) fun d =>
    { d with fen := { d.fen with flash := memStore d.fen.flash flashOffset data } }

/-! ### Keys, anti-rollback and debug (R403, R410, R411) -/

/-- Does a key pass its check: a point on P-384, or the two type codes of RFC 8554 (log entry 20)? -/
def Dev.keyPasses (d : Dev) (slot : Nat) : Bool :=
  if slot < 16 then Config.onP384 (d.keyBytes slot 96)
  else d.keyBytes slot 8 == [0, 0, 0, 7, 0, 0, 0, 3]

/-- FEN_KEY_LOCK (R403). -/
def execFenKeyLock (a : Access) (slot : Fin 32) (v : Word) (s : State) : Host.Outcome State Fault Refusal :=
  s.run fun d => d.regWrite a pFEN (rFEN_KEY.at slot) false fun d =>
    if writesBit a v 63 true && !d.bit pFEN (rFEN_KEY.at slot) 63 && d.keyPasses slot then
      (d.setBit pFEN (rFEN_KEY.at slot) 63 true).setBit pFEN (rFEN_KEY.at slot) 62 true
    else d

/-- FEN_ARB_WRITE (R411): a target above the fused count and at most svn_run. -/
def execFenArbWrite (a : Access) (v : Word) (s : State) : Host.Outcome State Fault Refusal :=
  s.run fun d => d.regWrite a pFEN rFEN_ARB.off true fun d =>
    let t := bits v.toNat 6 0
    if d.fen.fused < t && t ≤ d.fld pFEN rFEN_BOOT.off 55 48 then
      Dev.setBit { d with fen := { d.fen with burnTarget := max t d.fen.burnTarget } } pFEN rFEN_ARB.off 7 true
    else d

/-- ARB_BIT_BURNED (R411). -/
def execArbBitBurned (s : State) : Host.Outcome State Fault Refusal :=
  s.run fun d => d.when (d.bit pFEN rFEN_ARB.off 7 && d.fen.fused < d.fen.burnTarget) fun d =>
    let n := d.fen.fused + 1
    let d := Dev.setFld { d with fen := { d.fen with fused := n } } pFEN rFEN_BOOT.off 47 40 n
    d.setBit pFEN rFEN_ARB.off 7 (n < d.fen.burnTarget)

/-- DEBUG_UNLOCK_TOKEN (R410): honoured while the debug lock fuse is 1; it takes effect at the next warm reset. -/
def execDebugUnlockToken (tok : UnlockToken) (s : State) : Host.Outcome State Fault Refusal :=
  s.run fun d => d.when (d.fen.fenOk && d.fen.debugFuse && tok.ecdsaOk && tok.lmsOk && tok.namesDevice) fun d =>
    { d with fen := { d.fen with unlockPending := true } }

/-! ### Attestation (R413 to R416, R459) -/

/-- The five measurements of R414, in the order of their indices. -/
def Dev.measurements (d : Dev) : List Byte :=
  let slots := (List.range 32).flatMap fun n => (List.range 16).flatMap fun i => natLe 8 (d.rd pFEN (0x1000 + 128 * n + 8 * i))
  d.fen.fenDigest ++ d.fen.mgtDigest ++ d.fen.devDigest
    ++ (natLe 1 d.fen.fused ++ natLe 1 (d.fld pFEN rFEN_BOOT.off 55 48) ++ dbgByte d.fen.debug) ++ Config.sha384 slots

/-- Does a request ask for a signature: CHALLENGE, or GET_MEASUREMENTS with its signature bit (log entry 20)? -/
def spdmSigns (msg : List Byte) : Bool :=
  match msg with
  | _ :: code :: p1 :: _ => code == 0x83 || (code == 0xE0 && p1.toNat.testBit 0)
  | _ => false

/-- GET_VERSION begins a connection anew (log entry 20). -/
def spdmStarts (msg : List Byte) : Bool :=
  match msg with
  | _ :: code :: _ => code == 0x84
  | _ => false

/-- Fender's answer to a request, with a nonce of its random source; a signed one takes a leaf of the Attestation LMS
key, which is made anew after 32,768 (R413). -/
def Dev.spdm (d : Dev) (i3c : Bool) (msg : List Byte) : Dev :=
  let n := d.fen.draws
  let nonce := (List.range 4).flatMap fun i => natLe 8 (Config.random (n + i)).toNat
  let old := if spdmStarts msg then [] else if i3c then d.fen.transcriptI3c else d.fen.transcriptVex
  let answer := Config.spdmAnswer old d.measurements nonce msg
  let f := { d.fen with draws := n + 4,
                        attLeaves := if spdmSigns msg then (d.fen.attLeaves + 1) % 32768 else d.fen.attLeaves }
  let new := old ++ msg ++ answer
  if i3c then Dev.emit { d with fen := { f with transcriptI3c := new } } (.spdm d.i3cAddr answer)
  else Dev.setBit { d with fen := { f with transcriptVex := new, attAnswer := answer } } pATT rATT_REQ.off 63 false

/-- SPDM_REQUEST (R414, R459): over I3C at any time from SL0, in recovery too; from the ATT mailbox when a packet waits,
which Fender takes. -/
def execSpdmRequest (i3c : Bool) (msg : List Byte) (s : State) : Host.Outcome State Fault Refusal :=
  s.run fun d =>
    d.when (if i3c then d.fen.mgtOk || d.inRecovery else d.fen.mgtOk && d.bit pATT rATT_REQ.off 63) fun d => d.spdm i3c msg

/-! ### Service levels (R417 to R420, R430) -/

def Dev.level (d : Dev) : Nat := d.fld pMOD rMOD_SL.off 1 0

/-- Is the retirement of a part in the repair log (R435)? -/
def Dev.logged (d : Dev) (code place : Nat) : Bool := d.errs.repairLog.contains (code, place)

/-- Physical cores of a die that pass their self-test and are not retired, ascending (R430). -/
def Dev.goodCores (d : Dev) (r : BringUp) (die : Nat) : List Nat :=
  (List.range 72).filter fun n => ((r.corePass[die]?).getD 0).getLsbD n && !d.logged ukCore (72 * die + n)

/-- Exposed number i of a die takes its physical core, or is retired for want of one. -/
def Dev.mapCore (d : Dev) (die i : Nat) (good : List Nat) : Dev :=
  let k := 64 * die + i
  match good[i]? with
  | some n => (d.setPhysical k n).setCore k { d.core k with st := .idle }
  | none => d.retireNumber k

/-- A compute die comes into service (R430). -/
def Dev.mapDie (d : Dev) (r : BringUp) (die : Nat) : Dev :=
  let good := d.goodCores r die
  (d.each (List.range 64) fun i e => e.mapCore die i good).setSpareCores die (good.drop 64)

/-- HBM of the dies is in service; frames in the repair log are not (R188). -/
def Dev.hbmServes (d : Dev) (dies : List Nat) : Dev :=
  let gone := (List.range 12288).filter fun f => dies.contains (f / 1536) && d.logged 5 f
  Dev.setFld { d with tier := { d.tier with hbmDies := dies, hbmGone := gone } } pERR rERR_FRET.off 47 32 gone.length

def hbmTrained (r : BringUp) (die : Nat) : Bool := (r.hbmOk[die]?).getD false

/-- The level rises, with the event of the MOD page; messages that waited for SL1 go out (R345). -/
def Dev.setLevel (d : Dev) (n : Nat) : Dev := ((d.setFld pMOD rMOD_SL.off 1 0 n).event pMOD).vexFlush

/-- The rise to SL1: the lowest die whose HBM trained and that has 64 cores; the cores of the others are in self-test. -/
def Dev.riseTo1 (d : Dev) (r : BringUp) : Dev :=
  let trained := (List.range 8).filter (hbmTrained r)
  match trained.find? fun die => 64 ≤ (d.goodCores r die).length with
  | some die =>
    let d := (d.mapDie r die).hbmServes [die]
    let others := (List.range 512).filter fun k => k / 64 != die
    let d := d.each others fun k e => e.setCore k { e.core k with st := .selfTest }
    (d.setFld pMOD rMOD_SL.off 14 12 die).setLevel 1
  | none => d.bringUpFails (if trained.isEmpty then 2 else 3)

/-- An enabled Ethernet port claims its check-value unit (R456, R458); refused, its en is 0. -/
def Dev.ethClaim (d : Dev) (n : Nat) : Dev :=
  if !d.bit (pETH n) rETH_PORT.off 63 || d.ethOn n then d
  else
    let x := d.claim (pETH n) rCLAIM.off ethHolder n
    if x.2 then x.1 else x.1.setBit (pETH n) rETH_PORT.off 63 false

/-- The rise to SL2: every die, its HBM where it trained, the fabric and Ethernet. -/
def Dev.riseTo2 (d : Dev) (r : BringUp) : Dev :=
  if !r.serdesOk then d.bringUpFails 4
  else
    let first := d.fld pMOD rMOD_SL.off 14 12
    let d := d.each ((List.range 8).filter (· != first)) fun die e => e.mapDie r die
    let d := d.hbmServes ((List.range 8).filter fun die => die == first || hbmTrained r die)
    ((d.each (List.range 2) fun n e => e.ethClaim n).setLevel 2).retrain

/-- A fabric port that runs at another rate than FAB_PORTn.rate gives trains again (R420). -/
def Dev.changeRate (d : Dev) (n : Nat) : Dev :=
  if d.fld pFAB (rFAB_PORT.at n) 62 61 == 1 || d.portState n == portDown || d.portState n == portTraining then d
  else
    let fab := { d.fab with trained := d.fab.trained.del n, rateTrain := d.fab.rateTrain.add n }
    Dev.setFld { d with fab := fab } pFAB (rFAB_PORT.at n) 51 48 portTraining

/-- The rise to SL3: the slow tier and the Stove dies, and the ports' own rate. -/
def Dev.riseTo3 (d : Dev) (r : BringUp) : Dev :=
  if !r.lpddrOk then d.bringUpFails 5
  else
    let gone := (List.range 32768).filter fun f => d.logged 5 (65536 + f)
    let d := Dev.setFld { d with tier := { d.tier with slowIn := true, slowGone := gone } } pERR rERR_FRET.off 63 48 gone.length
    (d.each (List.range 24) fun n e => e.changeRate n).setLevel 3

/-- Step bounds of R419, in ms. -/
def stepBound (level : Nat) : Nat :=
  match level with
  | 0 => 1300
  | 1 => 2500
  | _ => 8000

/-- SERVICE_LEVEL_RISE (R417, R419): one level, up to MOD_SL.target. -/
def execServiceLevelRise (r : BringUp) (s : State) : Host.Outcome State Fault Refusal :=
  s.run fun d => d.when (d.fen.devOk && d.level < d.fld pMOD rMOD_SL.off 5 4 && r.afterMs ≤ stepBound d.level) fun d =>
    match d.level with
    | 0 => d.riseTo1 r
    | 1 => d.riseTo2 r
    | _ => d.riseTo3 r

/-- MOD_SL_TARGET_WRITE (R419). -/
def execModSlTargetWrite (a : Access) (v : Word) (s : State) : Host.Outcome State Fault Refusal :=
  s.run fun d => d.regWrite a pMOD rMOD_SL.off false fun d => d.store8 a pMOD rMOD_SL.off rMOD_SL v

/-- Is a core of the SL1 die at rest (R420)? -/
def Core.restsForClock (c : Core) : Bool :=
  (c.task.isNone || c.tileOpen.isNone || c.forced || decide (c.st = .suspended)) && c.mmas.isEmpty && c.tlds.isEmpty
    && c.committing.isEmpty

/-- CCLK_CHANGE (R420): every core of the die is at rest; between rows and groups its Geyser and its Flue are. -/
def execCclkChange (s : State) : Host.Outcome State Fault Refusal :=
  s.run fun d =>
    let die := d.fld pMOD rMOD_SL.off 14 12
    d.when (2 ≤ d.level && d.pow.cclkMHz == 470 && (List.range 64).all fun i => (d.core (64 * die + i)).restsForClock) fun d =>
      { d with pow := { d.pow with cclkMHz := 940 } }

end Sys2Proof.Machine
end

