-- ==== Sys2Proof/Machine/Registers.lean ====
section
/-! DEFINITION. The register space itself (chapter 18): the common header, block resets, interrupts, claims, worlds, the
comparators, the Ethernet pages, the attestation mailbox, and writes of registers that have no behaviour of their own. -/

namespace Sys2Proof.Machine

/-! ### Accesses that no register takes (R443 to R445) -/

/-- Pages of the tier map window (R444). -/
def windowPage (page : Nat) : Bool := 0x800 ≤ page && page ≤ 0x80B

/-- Is the offset of an existing page reserved? -/
def reservedAt (page off : Nat) : Bool := (regAt page off).isNone && (fixedWord page off).isNone

/-- An access that is refused for itself, in a page or beyond them: the world of the page is checked first. -/
def Dev.refuseAccess (d : Dev) (a : Access) (page off code : Nat) : Dev :=
  if !d.reachable page || !d.arrives a then d
  else if (pageOf page).isNone then d.badAccess a pMOD page off code
  else if !d.worldOk a page then d.badAccess a page page off 0x01
  else d.badAccess a page page off code

/-- RESERVED_REGISTER_ACCESS (R443). -/
def execReservedRegisterAccess (a : Access) (page off : Nat) (s : State) : Host.Outcome State Fault Refusal :=
  s.run fun d =>
    if windowPage page || !((pageOf page).isNone || reservedAt page (off / 8 * 8)) then d
    else if (pageOf page).isSome && d.reachable page && d.arrives a && d.worldOk a page && d.blockInReset page off then
      d.emit (.readback 0 false)
    else d.refuseAccess a page off 0x02

/-- Is an access of n bytes at an offset permitted (R445, and R373 for the feed of a check-value unit)? -/
def widthOk (page off n : Nat) (write : Bool) : Bool :=
  ((n == 4 || n == 8) && off % n == 0)
    || (windowPage page && n == 16 && off % 16 == 0 && !write)
    || (write && (n == 1 || n == 2) && (match pageOf page with
        | some (.dma, _) => rDMA_CRC_FEED.covers (off / 8 * 8) && off % 8 == 0
        | _ => false))

/-- BAD_WIDTH_ACCESS (R445). -/
def execBadWidthAccess (a : Access) (page off : Nat) (nbytes : Nat) (isWrite : Bool) (s : State) :
    Host.Outcome State Fault Refusal :=
  s.run fun d => if widthOk page off nbytes isWrite then d else d.refuseAccess a page off 0x03

/-! ### Block reset (R448) -/

/-- The DMA channel whose registers stand at an offset of a page. -/
def channelAt (page off : Nat) : Nat :=
  let j := (off - 0x100) / 64
  if page < 0x48 then (page - 0x40) * 16 + j else 128 + (page - 0x48) * 8 + j

/-- The channels of a DMA page. -/
def channelsOf (page : Nat) : List Nat := (List.range (if page < 0x48 then 16 else 8)).map fun j => channelAt page (0x100 + 64 * j)

/-- Is the block of a page at rest, so that a block reset is carried out? -/
def Dev.blockAtRest (d : Dev) (page : Nat) : Bool :=
  match pageOf page with
  | some (.core, k) => decide ((d.core k).st = .idle)
  | some (.dma, _) => (channelsOf page).all fun c => d.chState c == chDisabled
  | some (.gey, n) => (d.geyser n).queue.isEmpty && (d.geyser n).active.isNone
  | some (.flue, n) => (d.flue n).queue.isEmpty && (d.flue n).active.isNone
  | some (.blw, e) => d.fld pFAB (rFAB_BLW_STS.at e) 7 0 == 0 && d.fld pFAB (rFAB_BLW_STS.at e) 15 8 == 0
  | some (.part, p) | some (.cache, p) | some (.gen, p) | some (.lrn, p) | some (.stv, p) | some (.wgt, p) | some (.vwq, p) =>
    !d.partOn p
  | some (.eth, n) => !d.bit (pETH n) rETH_PORT.off 63
  | some (.att, _) => !d.bit pATT rATT_REQ.off 63 && !d.bit pATT rATT_RSP.off 63
  | _ => false

/-- The claims that the features of a block hold are released. -/
def Dev.dropClaims (d : Dev) (page : Nat) : Dev :=
  match pageOf page with
  | some (.lrn, p) => (d.unclaim pMOD rCLAIM.off traceHolder p).unclaim pMOD rCLAIM.off ashHolder p
  | some (.dma, _) => d.each (channelsOf page) fun c e => e.unclaim page (chClaim c) dmaHolder c
  | _ => d

/-- The registers of a page from an offset on take their reset values. -/
def Dev.resetRegs (d : Dev) (page lo hi : Nat) : Dev := { d with regs := Tab.clear d.regs (regKey page lo) (regKey page hi) }

/-- A write of BLK_CTL.reset: carried out at rest, else refused. -/
def Dev.blockReset (d : Dev) (page : Nat) : Dev :=
  if d.bit page rBLK_STS.off 1 then d
  else if (match pageOf page with | some (k, _) => k.breset | none => false) && d.blockAtRest page then
    ((d.dropClaims page).resetRegs page 0 0x100).setBit page rBLK_STS.off 1 true
  else d.setBit page rBLK_STS.off 2 true

/-- BLK_CTL_RESET. -/
def execBlkCtlReset (a : Access) (page : Nat) (v : Word) (s : State) : Host.Outcome State Fault Refusal :=
  s.run fun d =>
    if (pageOf page).isNone then d
    else d.regWrite a page rBLK_CTL.off true fun d => if v.toNat.testBit 0 then d.blockReset page else d

/-- An Ethernet port whose enable is 1 claims its unit and trains at SL2; refused, its enable is 0 (R458). -/
def Dev.ethStart (d : Dev) (n : Nat) : Dev :=
  let d := d.ethClaim n
  if d.ethOn n && 2 ≤ d.level && d.pow.refclkB then d.setFld (pETH n) rETH_PORT.off 51 48 1 else d

/-- What stands behind the registers of a page starts anew. -/
def Dev.freshBlock (d : Dev) (page : Nat) : Dev :=
  match pageOf page with
  | some (.core, k) => d.setCore k { Core.reset with ltcSeen := (d.core k).ltcSeen }
  | some (.dma, _) => d.each (channelsOf page) fun c e => e.setChan c {}
  | some (.gey, n) => { d with geysers := Tab.set (fun _ => {}) d.geysers n {} }
  | some (.flue, n) => { d with flues := Tab.set (fun _ => {}) d.flues n {} }
  | some (.part, p) =>
    let x := d.part p
    d.setPart p { x with queues := [], current := none, last := none, sliceEnd := 0, sliceOver := false, switch := none,
                         saved := [], contained := [], tposts := [], genBase := [], gens := [] }
  | some (.cache, p) =>
    let x := d.part p
    d.setPart p { x with pool := [], bankUsed := [], awaiting := [], copying := [], quant := [], quantBase := [],
                         cqTimes := [], boundary := false, heldSteps := [], drainTo := none, ships := [],
                         seqPins := [] }
  | some (.gen, p) => d.setPart p { d.part p with keeps := [], frees := [], damp := [], budgets := [], running := 0 }
  | some (.lrn, p) => d.setPart p { d.part p with ash := {}, phases := { since := d.now } }
  | some (.stv, p) => d.setPart p { d.part p with stove := none, updOvf := false, wins := [], heldAdds := [], mirrorsDone := [] }
  | some (.wgt, p) => d.setPart p { d.part p with weights := {} }
  | some (.vwq, p) => d.setPart p { d.part p with notices := {} }
  | some (.eth, n) => d.ethStart n
  | _ => d

/-- BLOCK_RESET_DONE. -/
def execBlockResetDone (page : Nat) (s : State) : Host.Outcome State Fault Refusal :=
  s.run fun d => d.when (d.bit page rBLK_STS.off 1) fun d =>
    ((d.resetRegs page 0x100 0x10000).setBit page rBLK_STS.off 1 false).freshBlock page

/-! ### Interrupts (R449) -/

/-- Causes in use of a page. -/
def causesOf (page : Nat) : Nat :=
  match pageOf page with
  | some (k, _) => k.nint page
  | none => 0

/-- INT_SET_WRITE: each bit written as 1 sets its cause. -/
def execIntSetWrite (a : Access) (page : Nat) (v : Word) (s : State) : Host.Outcome State Fault Refusal :=
  s.run fun d =>
    if (pageOf page).isNone then d
    else d.regWrite a page rINT_SET.off true fun d =>
      d.each ((List.range (causesOf page)).filter fun n => v.toNat.testBit n) fun n e => e.raiseInt page n

/-- INT_EN_WRITE: one interrupt for each cause that has occurred and becomes enabled. -/
def execIntEnWrite (a : Access) (page : Nat) (v : Word) (s : State) : Host.Outcome State Fault Refusal :=
  s.run fun d =>
    if (pageOf page).isNone then d
    else d.regWrite a page rINT_EN.off false fun d =>
      let old := d.rd page rINT_EN.off
      let new := rINT_EN.write old a.width v.toNat % 2 ^ causesOf page
      (d.wr page rINT_EN.off new).each ((List.range (causesOf page)).filter fun n =>
        new.testBit n && !old.testBit n && d.bit page rINT_STS.off n) fun _ e => e.route page

/-! ### Claims by software (R453 to R456) -/

/-- A write of MOD_TCLMn: its fields, then its claim. -/
def Dev.tclmWrite (d : Dev) (a : Access) (n : Nat) (v : Word) : Dev :=
  d.regWrite a pMOD (rMOD_TCLM.at n) true fun d =>
    (d.store8 a pMOD (rMOD_TCLM.at n) rMOD_TCLM v).softClaim pMOD (rMOD_TCLM.at n) v.toNat

/-- A write of CLAIM of a page's header. On a page whose BLK_CAP.claim is 0 it arbitrates nothing; software does not get
the unit of an Ethernet port that is enabled (R376). -/
def Dev.pageClaim (d : Dev) (a : Access) (page : Nat) (v : Word) : Dev :=
  match pageOf page with
  | none => d
  | some (k, _) =>
    d.regWrite a page rCLAIM.off true fun d =>
      if !k.claims then d
      else
        let d := d.store8 a page rCLAIM.off rCLAIM v
        if k = .eth ∧ bits v.toNat 61 60 = 1 ∧ d.bit page rETH_PORT.off 63 then d.setBit page rCLAIM.off 62 true
        else d.softClaim page rCLAIM.off v.toNat

/-- A write of a claim register, wherever one stands. -/
def Dev.claimWrite (d : Dev) (a : Access) (page off : Nat) (v : Word) : Dev :=
  if off = rCLAIM.off then d.pageClaim a page v
  else match pageOf page with
  | some (.mod, _) => if rMOD_TCLM.covers off then d.tclmWrite a ((off - rMOD_TCLM.off) / 16) v else d
  | some (.dma, _) =>
    if rDMA_CRC_CLAIM.covers off && (regAt page off).isSome then d.crcClaimWrite a (channelAt page off) v else d
  | _ => d

def claimOp (v : Word) : Nat := bits v.toNat 61 60

/-- SOFTWARE_CLAIM (R454). -/
def execSoftwareClaim (a : Access) (page off : Nat) (v : Word) (s : State) : Host.Outcome State Fault Refusal :=
  s.run fun d => if claimOp v != 1 then d else d.claimWrite a page off v

/-- SOFTWARE_RELEASE (R455). -/
def execSoftwareRelease (a : Access) (page off : Nat) (v : Word) (s : State) : Host.Outcome State Fault Refusal :=
  s.run fun d => if claimOp v != 2 then d else d.claimWrite a page off v

/-! ### Worlds (R400, R452) -/

/-- WORLD_WRITE: by Secure requests and by Fender. -/
def execWorldWrite (a : Access) (page : Nat) (v : Word) (s : State) : Host.Outcome State Fault Refusal :=
  s.run fun d =>
    if (pageOf page).isNone then d
    else d.regWrite a page rWORLD.off false fun d =>
      if a.world == some false || !a.reaches 0 0 then d
      else
        let w := v.toNat.testBit 0
        match pageOf page with
        | some (.part, p) =>
          if d.partOn p then d
          else d.each [pPART p, pCACHE p, pGEN p, pLRN p, pSTV p, pWGT p, pVWQ p] fun q e => e.setBit q rWORLD.off 0 w
        | some (.core, k) => if (List.range 64).any fun p => d.partOn p && d.ownsCore p k then d else d.setBit page rWORLD.off 0 w
        | some (.fen, _) | some (.cache, _) | some (.gen, _) | some (.lrn, _) | some (.stv, _) | some (.wgt, _)
        | some (.vwq, _) | none => d
        | some _ => d.setBit page rWORLD.off 0 w

/-! ### LTC comparators (R457) -/

/-- MOD_TCLM_ARM_WRITE. An LTC already at or above the value fires it in the next LTC cycle, by COMPARATOR_FIRE. -/
def execModTclmArmWrite (a : Access) (n : Fin 4) (v : Word) (s : State) : Host.Outcome State Fault Refusal :=
  s.run fun d => if v.toNat.testBit 0 then d.tclmWrite a n v else d

/-- COMPARATOR_FIRE. -/
def execComparatorFire (n : Fin 4) (s : State) : Host.Outcome State Fault Refusal :=
  s.run fun d =>
    if d.pow.pwrGood && d.ltcOn && d.bit pMOD (rMOD_TCLM.at n) 0 && d.rd pMOD (rMOD_TCMP.at n) ≤ d.now then
      ((d.setBit pMOD (rMOD_TCLM.at n) 0 false).setBit pMOD (rMOD_TCLM.at n) 1 true).raiseInt pMOD (n + 1)
    else d

/-! ### Ethernet ports (R291, R376, R458) -/

/-- ETH_PORT_EN_WRITE: en = 0 fails the attempts in flight and releases the unit; en = 1 claims it. -/
def execEthPortEnWrite (a : Access) (n : Fin 2) (v : Word) (s : State) : Host.Outcome State Fault Refusal :=
  s.run fun d => d.regWrite a (pETH n) rETH_PORT.off false fun d =>
    if !a.reaches 63 63 then d
    else if v.toNat.testBit 63 then
      if d.ethOn n then d else Dev.ethStart (d.setBit (pETH n) rETH_PORT.off 63 true) n
    else
      ((((d.setFld (pETH n) rETH_PORT.off 51 48 0).failPort n none).unclaim (pETH n) rCLAIM.off ethHolder n).setBit (pETH n)
        rETH_PORT.off 63 false)

/-- ETH_PORT_READ. -/
def execEthPortRead (a : Access) (n : Fin 2) (s : State) : Host.Outcome State Fault Refusal :=
  s.run fun d => d.regRead a (pETH n) rETH_PORT.off rETH_PORT fun e => e

/-- ETHERNET_PORT_TRAINED. -/
def execEthernetPortTrained (n : Fin 2) (s : State) : Host.Outcome State Fault Refusal :=
  s.run fun d => d.when (d.ethState n == 1 && d.ethOn n && d.pow.refclkB) fun d => d.setFld (pETH n) rETH_PORT.off 51 48 ethUp

/-- ETHERNET_LINK_DOWN: the link of the port, or one connection of a partition through it. -/
def execEthernetLinkDown (n : Fin 2) (conn : Option (Fin 64 × Fin 512)) (s : State) : Host.Outcome State Fault Refusal :=
  s.run fun d => d.when (d.ethState n == ethUp) fun d =>
    match conn with
    | none => (d.setFld (pETH n) rETH_PORT.off 51 48 (if d.ethOn n && d.pow.refclkB then 1 else 0)).failPort n none
    | some x =>
      if x.2 < d.nconn x.1 && d.connPort x.1 x.2 == n then
        Dev.failPort { d with eth := { d.eth with lost := d.eth.lost.add (d.connAt x.1 x.2) } } n (some (x.1.val, x.2.val))
      else d

/-- ETHERNET_PACKET_RECEIVE: the unit of the port runs over the frame up to its ICRC, the last four bytes, and compares; a
frame whose ICRC fails is dropped and counted, and one longer than the port supports is dropped (R290, R376). -/
def execEthernetPacketReceive (n : Fin 2) (frame : List Byte) (s : State) : Host.Outcome State Fault Refusal :=
  s.run fun d => d.when (d.ethState n == ethUp && 4 ≤ frame.length && frame.length ≤ 9216) fun d =>
    let body := frame.take (frame.length - 4)
    let reg := crc32.feed crc32.init body
    let d := d.setFld (pETH n) rETH_CRCVAL.off 31 0 reg
    if crc32.result reg = leNat (frame.drop (frame.length - 4)) then d else d.count (pETH n) rETH_PORT.off 31 0 1

/-! ### The attestation mailbox (R459) -/

/-- ATT_REQ_GO: a write of ATT_REQ. -/
def execAttReqGo (a : Access) (v : Word) (s : State) : Host.Outcome State Fault Refusal :=
  s.run fun d => d.regWrite a pATT rATT_REQ.off false fun d =>
    let old := d.rd pATT rATT_REQ.off
    let new := rATT_REQ.write old a.width v.toNat
    if old.testBit 63 then
      d.wr pATT rATT_REQ.off (putBits (putBits new 12 0 (bits old 12 0)) 62 62
        (if a.reaches 63 63 && v.toNat.testBit 63 then 1 else bits new 62 62))
    else d.wr pATT rATT_REQ.off new

/-- ATT_RESPONSE_READY: Fender answers only after a request and while ready is 0. -/
def execAttResponseReady (packet : List Byte) (s : State) : Host.Outcome State Fault Refusal :=
  s.run fun d => d.when (d.fen.mgtOk && !d.fen.attAnswer.isEmpty && !d.bit pATT rATT_RSP.off 63 && !d.bit pATT rBLK_STS.off 1
      && 1 ≤ packet.length && packet.length ≤ 4096) fun d =>
    let d := d.each (List.range ((packet.length + 7) / 8)) fun i e =>
      e.wr pATT (rATT_RSP_BUF.at i) (leNat ((packet.drop (8 * i)).take 8))
    (d.wr pATT rATT_RSP.off (2 ^ 63 + packet.length % 4096)).raiseInt pATT 1

/-- ATT_RSP_READY_CLEAR. -/
def execAttRspReadyClear (a : Access) (v : Word) (s : State) : Host.Outcome State Fault Refusal :=
  s.run fun d => d.regWrite a pATT rATT_RSP.off false fun d => d.store8 a pATT rATT_RSP.off rATT_RSP v

/-! ### Writes of the other registers (R8) -/

/-- A command register whose write names a reserved operation: result 0x01, or lost while a command is in progress. -/
def Dev.reservedOp (d : Dev) (page sts : Nat) : Dev :=
  if d.bit page sts 8 then d.setBit page sts 9 true else d.setFld page sts 7 0 0x01

/-- FAB_PORTn: a port that is switched off goes down, one that is switched on trains. A change of the power state takes effect
(R340): the port asks for sleep no longer, wakes, and its lanes carry traffic until the new state idles them. -/
def Dev.fabPortWrite (d : Dev) (a : Access) (n : Nat) (v : Word) : Dev :=
  let was := d.bit pFAB (rFAB_PORT.at n) 63
  let power := d.fld pFAB (rFAB_PORT.at n) 60 59
  let d := d.store8 a pFAB (rFAB_PORT.at n) rFAB_PORT v
  let d := if d.fld pFAB (rFAB_PORT.at n) 60 59 == power then d
    else
      let d := { d with fab := { d.fab with askSleep := d.fab.askSleep.del n, halfIdle := d.fab.halfIdle.del n } }
      if d.portState n == portAsleep then d.wakePort n else d
  let on := d.bit pFAB (rFAB_PORT.at n) 63
  if was && !on && d.portState n != portDown then d.fabPortDown n
  else if on && !was && 2 ≤ d.level && d.pow.refclkB then d.setFld pFAB (rFAB_PORT.at n) 51 48 portTraining
  else d

/-- VEX_PORTn, likewise. -/
def Dev.vexPortWrite (d : Dev) (a : Access) (n : Nat) (v : Word) : Dev :=
  let was := d.bit pVEX (rVEX_PORT.at n) 63
  let d := d.store8 a pVEX (rVEX_PORT.at n) rVEX_PORT v
  let on := d.bit pVEX (rVEX_PORT.at n) 63
  if was && !on && d.vexState n != vxDown then d.vexPortDown n
  else if on && !was && d.pow.refclkB then d.setFld pVEX (rVEX_PORT.at n) 51 48 vxTraining
  else d

/-- VEX_IRDATA: the routing entry of the page that VEX_IRIDX names, which then advances by 1. -/
def Dev.routeWrite (d : Dev) (a : Access) (v : Word) : Dev :=
  let i := d.fld pVEX rVEX_IRIDX.off 15 0
  let old := (Tab.get (fun _ => 0) d.vex.routes i).toNat
  Dev.setFld { d with vex := { d.vex with routes := Tab.set (fun _ => 0) d.vex.routes i
                                            (BitVec.ofNat 64 (rVEX_IRDATA.write old a.width v.toNat)) } }
    pVEX rVEX_IRIDX.off 15 0 ((i + 1) % 2 ^ 16)

/-- Is an offset of the key slots reserved: bytes 64 to 103 of a slot for an LMS key (R6, R403)? -/
def keyReserved (off : Nat) : Bool := 16 ≤ (off - 0x1000) / 128 && 64 ≤ (off - 0x1000) % 128

/-- The bits that EMB_VAL holds for a kind of ember (R6): a barrier has no bits [31:16], an event bit 0 alone. -/
def emberBits (kind v : Nat) : Nat :=
  if kind = ebBarrier then putBits v 31 16 0 else if kind = ebEvent then v % 2 else v

/-- What a write does to a register of a page beyond its header, when the register is not one whose writes are commands
of their own. -/
def Dev.plainEffect (d : Dev) (a : Access) (page off : Nat) (r : Reg) (v : Word) : Dev :=
  let put := d.store8 a page off r v
  match pageOf page with
  | some (.fen, _) =>
    if 0x1000 ≤ off && (d.bit pFEN (rFEN_KEY.at ((off - 0x1000) / 128)) 63 || keyReserved off) then d else put
  | some (.tier, _) => if off = rTIER_CMD.off then d.reservedOp page rTIER_CMD_STS.off else put
  | some (.fab, _) =>
    if off = rFAB_GCMD.off then d.reservedOp page rFAB_GCMD_STS.off
    else if rFAB_PORT.covers off then d.fabPortWrite a ((off - rFAB_PORT.off) / 8) v
    else if off = rFAB_STACK.off then put.stackSync.joinStack
    else put
  | some (.vex, _) =>
    if rVEX_PORT.covers off then d.vexPortWrite a ((off - rVEX_PORT.off) / 8) v
    else if off = rVEX_IRDATA.off then d.routeWrite a v
    else put
  | some (.emb, n) =>
    let e := n * 2048 + (off - rEMB_VAL.off) / 16
    if rEMB_VAL.covers off then put.wr page off (emberBits (d.emberKind e) (put.rd page off)) else put
  | some (.att, _) => if rATT_REQ_BUF.covers off && d.bit pATT rATT_REQ.off 63 then d else put
  | some (.dma, _) => if rDMA_RING.covers off && d.chOn (channelAt page off) then d else put
  | some (.part, p) => if rPART_CORE.covers off && d.partOn p then d else put
  | some (.cache, p) => if d.bit (pCACHE p) rCACHE_CTL.off 63 then d else put
  | some (.gen, p) =>
    if off = rGEN_CMD.off then d.setFld page rGEN_CMD_STS.off 7 0 0x01
    else if (off = rGEN_REQ.off ∨ off = rGEN_BIAS.off) ∧ (d.part p).running ≠ 0 then d
    else put
  | some (.lrn, p) => put.noteModes p
  | some (.stv, p) =>
    if off = rSTV_CMD.off then
      if d.bit page stvSts 8 then d.reservedOp page stvSts else (d.reservedOp page stvSts).stoveSignal p v
    else put
  | some (.wgt, p) =>
    if off = rWGT_CMD.off then d.reservedOp page rWGT_STS.off
    else if rWGT_SLOT_NREG.covers off && d.slotState p ((off - rWGT_SLOT_NREG.off) / 32) != slFree then d
    else put
  | some (.vwq, p) =>
    if (rVWQ_WQ_START.covers off || rVWQ_WQ_CRED.covers off) && d.bit (pVWQ p) (rVWQ_WQ.at ((off - 0x100) / 32)) 63 then d
    else put
  | _ => put

/-- Is a write of this value to this register a command of its own in the table of operations? -/
def ownCommand (a : Access) (page off : Nat) (v : Word) : Bool :=
  let op := bits v.toNat 63 60
  if off < 0x70 then off == rBLK_CTL.off || off == rINT_EN.off || off == rINT_SET.off || off == rWORLD.off
    || (off == rCLAIM.off && (claimOp v == 1 || claimOp v == 2))
  else match pageOf page with
  | some (.mod, _) => off == rMOD_PWR.off || off == rMOD_RST_CTL.off || off == rMOD_SL.off
      || (rMOD_TCLM.covers off && (claimOp v == 1 || claimOp v == 2 || v.toNat.testBit 0))
  | some (.fen, _) => rFEN_KEY.covers off || off == rFEN_ARB.off
  | some (.tier, _) => (off == rTIER_CMD.off && 1 ≤ op && op ≤ 4) || rTIER_PQ.covers off || rSTRM_CTL.covers off
  | some (.fab, _) => off == rFAB_ID.off || off == rFAB_FLOOD.off || off == rFAB_RT_DATA.off || rFAB_BLW_SUB.covers off
      || (off == rFAB_GCMD.off && (op == 1 || op == 2))
  | some (.vex, _) => rVEX_VEC.covers off
  | some (.att, _) => off == rATT_REQ.off || off == rATT_RSP.off
  | some (.emb, _) => rEMB_CFG.covers off
  | some (.eth, _) => off == rETH_PORT.off
  | some (.dma, _) => rDMA_IDX.covers off || rDMA_CTL.covers off || rDMA_CRC_VAL.covers off || rDMA_CRC_FEED.covers off
      || (rDMA_CRC_CLAIM.covers off && (claimOp v == 1 || claimOp v == 2 || v.toNat.testBit 2))
  | some (.part, _) => (off == rPART_CTL.off && a.reaches 63 63) || rPART_CTX.covers off || off == rPART_TPOST.off
  | some (.cache, _) => off == rCACHE_CTL.off || off == rCACHE_CQ_IDX.off
  | some (.gen, _) => (off == rGEN_CMD.off && 1 ≤ op && op ≤ 4) || off == rDAMP_STEP.off || off == rDAMP_CTL.off
  | some (.lrn, _) => rLRN_GEN.covers off || off == rLRN_PSTEP.off || off == rLRN_PTRACE.off || off == rLRN_ASH_APP.off
      || (off == rLRN_ASH_CTL.off && a.reaches 63 63)
  | some (.stv, _) => 0x400 ≤ off || (off == rSTV_CMD.off && 1 ≤ op && op ≤ 5)
  | some (.wgt, _) => off == rWGT_CMD.off && 1 ≤ op && op ≤ 11
  | some (.vwq, _) => rVWQ_DB.covers off || rVWQ_WQ.covers off
  | some (.core, _) => off == rCORE_CTL.off
  | _ => false

/-- REGISTER_WRITE: the registers whose writes have no command of their own. The identity words of a header and the tier
map window take no write; a claim register written with no operation stores its other fields; PART_CTL and LRN_ASH_CTL
reach here when the access leaves their bit 63 alone. -/
def execRegisterWrite (a : Access) (page off : Nat) (v : Word) (s : State) : Host.Outcome State Fault Refusal :=
  s.run fun d =>
    if off % 8 ≠ 0 ∨ 0x10000 ≤ off then d
    else if windowPage page then if d.reachable page && d.arrives a then d.emit (.readback 0 false) else d
    else if ownCommand a page off v then d
    else if off = rCLAIM.off then d.pageClaim a page v
    else match pageOf page, regAt page off with
    | some (.mod, _), some r =>
      if rMOD_TCLM.covers off then d.tclmWrite a ((off - rMOD_TCLM.off) / 16) v
      else d.regWrite a page off false fun d => d.store8 a page off r v
    | some (k, i), some r =>
      if off < 0x70 then d.regWrite a page off false fun d => d.store8 a page off r v
      else if k = .part ∧ off = rPART_CTL.off then d.partCtl a i v
      else if k = .lrn ∧ off = rLRN_ASH_CTL.off then d.ashCtl a i v
      else if k = .dma ∧ rDMA_CRC_CLAIM.covers off then d.crcClaimWrite a (channelAt page off) v
      else d.regWrite a page off (actionAt page off) fun d => d.plainEffect a page off r v
    | some _, none => if (fixedWord page off).isSome then d.regWrite a page off false fun d => d else d
    | none, _ => d

end Sys2Proof.Machine
end

