-- ==== Sys2Proof/Machine/View.lean ====
section
/-! DEFINITION. What software reads where a register is a view of other state: CORE_STS, CORE_NFLAG, TIER_PUp, LRN_PCUR, TIER_FREE,
BLK_STS.in_service, MOD_LTC and the tier map window. The table of operations has a row only for the reads that change
state; every other read returns the values given here and changes nothing. -/

namespace Sys2Proof.Machine

/-- The code of CORE_STS.state. -/
def CoreSt.code : CoreSt → Nat
  | .idle => 0 | .running => 1 | .halted => 2 | .suspended => 3 | .saving => 4 | .restoring => 5 | .selfTest => 6 | .retired => 7

/-- CORE_STS (chapter 03). -/
def Dev.coreSts (d : Dev) (k : Nat) : Nat :=
  let c := d.core k
  c.live.accLive.length * 2 ^ 32 + c.live.segLive.length * 2 ^ 24
    + (match c.task with | some t => t.desc.context | none => 0) * 2 ^ 20 + c.part * 2 ^ 14
    + b2n (d.bit (pCORE k) rCORE_STS.off 4) * 16 + b2n c.carry * 8 + c.st.code

/-- TIER_PUp (R176, R177). -/
def Dev.tierPu (d : Dev) (p : Nat) : Nat :=
  b2n (d.bit pTIER (rTIER_PU.at p) 63) * 2 ^ 63 + d.slowUse p * 2 ^ 16 + d.hbmUse p

/-- Free HBM frames in service. -/
def Dev.hbmFree (d : Dev) : Nat :=
  d.hbmSvc - (d.tier.hbmUsed.filter fun f => d.tier.hbmDies.contains (f / 1536) && !d.tier.hbmGone.contains f).length
/-- Free slow frames in service. -/
def Dev.slowFree (d : Dev) : Nat :=
  if d.tier.slowIn then d.slowSvc - (d.tier.slowUsed.filter fun f => !d.tier.slowGone.contains f).length else 0

/-- TIER_FREE (R188). -/
def Dev.tierFree (d : Dev) : Nat := d.slowFree * 2 ^ 48 + d.slowSvc * 2 ^ 32 + d.hbmFree * 2 ^ 16 + d.hbmSvc

/-- Is a compute die in service at the present level (R417)? -/
def Dev.dieServes (d : Dev) (die : Nat) : Bool :=
  2 ≤ d.level || (d.level == 1 && d.fld pMOD rMOD_SL.off 14 12 == die)

/-- BLK_STS.in_service: in service at the present level and not retired (R417, R447). At SL0 Fender serves once its image
runs, and what the management controller serves once its own does; before that the field is at its reset value (R7; log
entry 37). -/
def Dev.inService (d : Dev) (page : Nat) : Bool :=
  match pageOf page with
  | some (.hbm, n) => d.tier.hbmDies.contains (n / 2)
  | some (.sdie, _) => 3 ≤ d.level
  | some (.eth, _) | some (.fab, _) => 2 ≤ d.level
  | some (.blw, _) => 2 ≤ d.level && !(d.unit ukEngine page).retired
  | some (.gey, n) | some (.flue, n) => d.dieServes n && !(d.unit ukEngine page).retired
  | some (.dma, n) => if page < 0x48 then d.dieServes n else if page < 0x4C then 2 ≤ d.level else 3 ≤ d.level
  | some (.core, k) => d.dieServes (k / 64) && !(d.unit ukCore k).retired
  | some (.fen, _) | some (.att, _) => d.fen.fenOk
  | some (.mod, _) | some (.err, _) | some (.vex, _) => d.fen.mgtOk
  | some _ => 1 ≤ d.level
  | none => false

/-- Words 0 and 1 of a tier map entry (R166). -/
def Dev.mapWord0 (d : Dev) (g : Nat) : Nat :=
  let e := d.gran g
  b2n e.valid * 2 ^ 63 + e.state * 2 ^ 60 + b2n e.world * 2 ^ 59 + e.part * 2 ^ 53 + b2n e.pin * 2 ^ 52 + e.run * 2 ^ 50
    + e.kind * 2 ^ 48 + e.place * 2 ^ 46 + b2n e.slow * 2 ^ 45 + e.frame * 2 ^ 30
def Dev.mapWord1 (d : Dev) (g : Nat) : Nat :=
  let e := d.gran g
  b2n e.shadow * 2 ^ 63 + e.sgran * 2 ^ 47 + b2n e.shalf * 2 ^ 46 + b2n e.dslow * 2 ^ 45 + e.dframe * 2 ^ 30
    + d.ptiles g * 2 ^ 19 + e.heat

/-- The word of the map window at byte offset `off` of page `page`, as a requester of a world reads it (R444). -/
def Dev.windowWord (d : Dev) (world : Option Bool) (page off : Nat) : Nat :=
  let at_ := (page - 0x800) * 0x10000 + off
  let g := at_ / 16
  if world == some false && (d.gran g).world then 0 else if at_ / 8 % 2 = 0 then d.mapWord0 g else d.mapWord1 g

/-- The value of a register-space word. -/
def Dev.value (d : Dev) (world : Option Bool) (page off : Nat) : Nat :=
  if windowPage page then d.windowWord world page off
  else match pageOf page with
  | some (.core, k) =>
    if off = rCORE_STS.off then d.coreSts k
    else if off = rCORE_NFLAG.off then (d.core k).live.flags.toNat
    else if off = rBLK_STS.off then putBits (d.rd page off) 0 0 (b2n (d.inService page))
    else d.rd page off
  | some (.part, p) =>
    if rPART_CTX.covers off && d.nctx p ≤ (off - rPART_CTX.off) / 8 then 0
    else if off = rBLK_STS.off then putBits (d.rd page off) 0 0 (b2n (d.inService page))
    else d.rd page off
  | some (.tier, _) =>
    if off = rTIER_FREE.off then d.tierFree
    else if rTIER_PU.covers off then d.tierPu ((off - rTIER_PU.off) / 16)
    else if off = rBLK_STS.off then putBits (d.rd page off) 0 0 (b2n (d.inService page))
    else d.rd page off
  | some (.mod, _) =>
    if off = rMOD_LTC.off then d.ltc.toNat
    else if off = rBLK_STS.off then putBits (d.rd page off) 0 0 (b2n (d.inService page))
    else d.rd page off
  | some (.lrn, p) =>
    if rLRN_PCUR.covers off then (d.phSync p).rd page off
    else if off = rBLK_STS.off then putBits (d.rd page off) 0 0 (b2n (d.inService page))
    else d.rd page off
  | some (.vex, _) =>
    if off = rVEX_IRDATA.off then (Tab.get (fun _ => 0) d.vex.routes (d.fld pVEX rVEX_IRIDX.off 15 0)).toNat
    else if off = rBLK_STS.off then putBits (d.rd page off) 0 0 (b2n (d.inService page))
    else d.rd page off
  | some _ => if off = rBLK_STS.off then putBits (d.rd page off) 0 0 (b2n (d.inService page)) else d.rd page off
  | none => 0

end Sys2Proof.Machine
end

