-- ==== Sys2Proof/Machine/Bus.lean ====
section
/-! DEFINITION. Requests of the companion by device address (R342): those to the tiers and the scratchpads are of class M, those
to register space complete uncached as register accesses (R341, R346). -/

namespace Sys2Proof.Machine

/-- The element of a register array at an offset. -/
def Reg.index (r : Reg) (off : Nat) : Nat := (off - r.off) / r.stride

/-! ### Writes -/

/-- The meaning of a command register's write, by the operation it names. -/
def busOps (ops : List (Nat × (State → Host.Outcome State Fault Refusal))) (v : Word) (other : State → Host.Outcome State Fault Refusal) :
    State → Host.Outcome State Fault Refusal :=
  match ops.find? fun x => x.1 == bits v.toNat 63 60 with
  | some x => x.2
  | none => other

/-- A write to the header of a page whose registers have commands of their own. -/
def busHeader (a : Access) (page off : Nat) (v : Word) : State → Host.Outcome State Fault Refusal :=
  if off == rBLK_CTL.off then execBlkCtlReset a page v
  else if off == rINT_EN.off then execIntEnWrite a page v
  else if off == rINT_SET.off then execIntSetWrite a page v
  else if off == rWORLD.off then execWorldWrite a page v
  else if claimOp v == 1 then execSoftwareClaim a page off v
  else execSoftwareRelease a page off v

/-- A write to a page of the module: MOD, FEN, TIER, FAB, VEX, ATT, EMB, ETH or DMA. -/
def busModule (a : Access) (page off n : Nat) (v : Word) : State → Host.Outcome State Fault Refusal :=
  let chan := Fin.ofNat 192 (channelAt page off)
  match pageOf page with
  | some (.mod, _) =>
    if off == rMOD_PWR.off then execModPwrCapWrite a v
    else if off == rMOD_RST_CTL.off then execModRstCtlWarm a v
    else if off == rMOD_SL.off then execModSlTargetWrite a v
    else if claimOp v == 1 then execSoftwareClaim a page off v
    else if claimOp v == 2 then execSoftwareRelease a page off v
    else execModTclmArmWrite a (Fin.ofNat 4 (rMOD_TCLM.index off)) v
  | some (.fen, _) => if off == rFEN_ARB.off then execFenArbWrite a v else execFenKeyLock a (Fin.ofNat 32 (rFEN_KEY.index off)) v
  | some (.tier, _) =>
    if off == rTIER_CMD.off then
      busOps [(1, execMap a v), (2, execUnmap a v), (3, execSetAttributes a v), (4, execMove a v)] v (execRegisterWrite a page off v)
    else if rTIER_PQ.covers off then execTierPqWrite a (Fin.ofNat 64 (rTIER_PQ.index off)) v
    else execStrmCtlWrite a (Fin.ofNat 64 (rSTRM_CTL.index off / 4)) (Fin.ofNat 4 (rSTRM_CTL.index off)) v
  | some (.fab, _) =>
    if off == rFAB_ID.off then execFabIdWrite a v
    else if off == rFAB_FLOOD.off then execFabFloodWrite a v
    else if off == rFAB_RT_DATA.off then execFabRtDataAccess a (some v)
    else if off == rFAB_GCMD.off then busOps [(1, execCreate a v), (2, execDestroy a v)] v (execRegisterWrite a page off v)
    else execFabBlwSubWrite a (Fin.ofNat 4 (rFAB_BLW_SUB.index off)) v
  | some (.vex, _) => execVexVecWrite a (Fin.ofNat 512 (rVEX_VEC.index off)) v
  | some (.att, _) => if off == rATT_REQ.off then execAttReqGo a v else execAttRspReadyClear a v
  | some (.emb, i) => execEmbCfgWrite a (Fin.ofNat 16384 (2048 * i + rEMB_CFG.index off)) v
  | some (.eth, i) => execEthPortEnWrite a (Fin.ofNat 2 i) v
  | _ =>
    if rDMA_IDX.covers off then execDmaIdxWrite a chan v
    else if rDMA_CTL.covers off then execDmaCtlEnWrite a chan v
    else if rDMA_CRC_VAL.covers off then execDmaCrcValWrite a chan v
    else if rDMA_CRC_FEED.covers off then execDmaCrcFeedWrite a chan n v
    else if claimOp v == 1 then execSoftwareClaim a page off v
    else if claimOp v == 2 then execSoftwareRelease a page off v
    else execDmaCrcInit a chan v

/-- A write to a page of partition p. -/
def busPartition (a : Access) (page off : Nat) (p : Fin 64) (v : Word) : State → Host.Outcome State Fault Refusal :=
  let other := execRegisterWrite a page off v
  match pageOf page with
  | some (.part, _) =>
    if off == rPART_CTL.off then (if v.toNat.testBit 63 then execPartCtlEnWrite a p v else execPartCtlDisable a p v)
    else if off == rPART_TPOST.off then execPartTpostWrite a p v
    else execPartCtxEnWrite a p (Fin.ofNat 16 (rPART_CTX.index off)) v
  | some (.cache, _) => if off == rCACHE_CTL.off then execCacheCtlWrite a p v else execCacheCqPiWrite a p v
  | some (.gen, _) =>
    if off == rGEN_CMD.off then
      busOps [(1, execAdmitReq a p v), (2, execCancel a p v), (3, execRelease a p v), (4, execDraftOn a p v)] v other
    else if off == rDAMP_STEP.off then execDampStepWrite a p v
    else execDampCtlWrite a p v
  | some (.lrn, _) =>
    if rLRN_GEN.covers off then execLrnGenWrite a p (Fin.ofNat 16 (rLRN_GEN.index off)) v
    else if off == rLRN_PSTEP.off then execLrnPstepWrite a p v
    else if off == rLRN_PTRACE.off then execLrnPtraceWrite a p v
    else if off == rLRN_ASH_APP.off then execLrnAshAppWrite a p v
    else if v.toNat.testBit 63 then execAshRecordStart a p v
    else execAshRecordStop a p v
  | some (.stv, _) =>
    if off == rSTV_CMD.off then
      busOps [(1, execUpdate a p v), (2, execScan a p v), (3, execZero a p v), (4, execMirror a p v), (5, execPull a p v [])] v other
    else execStvWinWrite a p (Fin.ofNat 16 ((off - 0x400) / 32)) (Fin.ofNat 4 (off / 8)) v
  | some (.wgt, _) =>
    busOps [(1, execOpenSlot a p v), (2, execVerify a p v), (3, execFetch a p v), (4, execAbort a p v), (5, execCommitOpen a p v),
      (6, execReady a p v), (7, execFail a p v), (8, execFreeze a p v), (9, execForceCommit a p v), (10, execAbandon a p v),
      (11, execReleaseSlot a p v)] v other
  | _ =>
    if rVWQ_DB.covers off then execVwqDbWrite a p (Fin.ofNat 16 (rVWQ_DB.index off)) v
    else execVwqWqEnWrite a p (Fin.ofNat 16 (rVWQ_WQ.index off)) v

/-- A write of n bytes to a register: the command of the table that it is. -/
def busWrite (a : Access) (page off n : Nat) (v : Word) : State → Host.Outcome State Fault Refusal :=
  if (pageOf page).isNone && !windowPage page || !windowPage page && reservedAt page off then execReservedRegisterAccess a page off
  else if !ownCommand a page off v then execRegisterWrite a page off v
  else if off < 0x70 then busHeader a page off v
  else match pageOf page with
  | some (.part, p) | some (.cache, p) | some (.gen, p) | some (.lrn, p) | some (.stv, p) | some (.wgt, p) | some (.vwq, p) =>
    busPartition a page off (Fin.ofNat 64 p) v
  | some (.core, k) =>
    if bits v.toNat 1 1 = 1 then execCoreCtlDrain a (Fin.ofNat 512 k) v else execCoreCtlHalt a (Fin.ofNat 512 k) v
  | _ => busModule a page off n v

/-! ### Reads -/

/-- A read of a register that no read command of the table covers: the value given in View.lean; an access to VEX_IRDATA
advances VEX_IRIDX (R357). -/
def Dev.plainRead (d : Dev) (a : Access) (page off : Nat) : Dev :=
  let next := fun (d : Dev) =>
    if page == pVEX && off == rVEX_IRDATA.off then
      d.setFld pVEX rVEX_IRIDX.off 15 0 ((d.fld pVEX rVEX_IRIDX.off 15 0 + 1) % 2 ^ 16)
    else d
  match regAt page off with
  | some r => d.regReadOf a page off r (d.value a.world page off) next
  | none =>
    if !d.reachable page || !d.arrives a then d
    else if !windowPage page && !d.worldOk a page then d.badAccess a page page off 0x01
    else d.emit (.readback (BitVec.ofNat 64 (a.width.view (d.value a.world page off))) false)

/-- A read of a register: the command of the table that it is, or a plain read. -/
def busRead (a : Access) (page off : Nat) : State → Host.Outcome State Fault Refusal :=
  if !windowPage page && ((pageOf page).isNone || reservedAt page off) then execReservedRegisterAccess a page off
  else match pageOf page with
  | some (.mod, _) => if off == rMOD_LTC.off then execModLtcRead a else fun s => s.run fun d => d.plainRead a page off
  | some (.err, _) => if off == rERR_STAT.off then execErrStatRead a else fun s => s.run fun d => d.plainRead a page off
  | some (.tier, _) =>
    if off == rTIER_STAT.off then execTierStatRead a
    else if rSTRM_STS.covers off then
      execStrmStsRead a (Fin.ofNat 64 (rSTRM_STS.index off / 4)) (Fin.ofNat 4 (rSTRM_STS.index off))
    else fun s => s.run fun d => d.plainRead a page off
  | some (.fab, _) =>
    if off == rFAB_STAT.off then execFabStatRead a none
    else if rFAB_PERR.covers off then execFabStatRead a (some (Fin.ofNat 24 (rFAB_PERR.index off)))
    else if off == rFAB_RT_DATA.off then execFabRtDataAccess a none
    else fun s => s.run fun d => d.plainRead a page off
  | some (.vex, _) => if off == rVEX_STS.off then execVexStsRead a else fun s => s.run fun d => d.plainRead a page off
  | some (.eth, n) => if off == rETH_PORT.off then execEthPortRead a (Fin.ofNat 2 n) else fun s => s.run fun d => d.plainRead a page off
  | some (.part, p) =>
    if off == rPART_SW.off then execPartSwRead a (Fin.ofNat 64 p)
    else if off == rPART_STAT.off then execPartStatRead a (Fin.ofNat 64 p)
    else fun s => s.run fun d => d.plainRead a page off
  | some (.cache, p) =>
    if off == rCACHE_STAT.off then execCacheStatRead a (Fin.ofNat 64 p) else fun s => s.run fun d => d.plainRead a page off
  | some (.gen, p) =>
    if off == rDAMP_STAT.off then execDampStatRead a (Fin.ofNat 64 p) else fun s => s.run fun d => d.plainRead a page off
  | some (.vwq, p) =>
    if off == rVWQ_NPOP.off then execVwqNpopRead a (Fin.ofNat 64 p) else fun s => s.run fun d => d.plainRead a page off
  | some (.core, k) =>
    if off == rCORE_TILE_MAX.off then execCoreTileMaxRead a (Fin.ofNat 512 k) else fun s => s.run fun d => d.plainRead a page off
  | _ => fun s => s.run fun d => d.plainRead a page off

/-- A 128-bit read of an entry of the tier map window (R444). -/
def Dev.wideRead (d : Dev) (a : Access) (page off : Nat) : Dev :=
  if !d.reachable page || !d.arrives a then d
  else d.emit (.memData (d.companionAddr (0x0C0000000000 + page * 0x10000 + off))
    (natLe 16 (d.windowWord a.world page off + 2 ^ 64 * d.windowWord a.world page (off + 8))) false)

/-! ### Requests -/

/-- The address in register space that a request of the companion reaches, as an offset from its start (R440, R442). -/
def registerOffset (a : Nat) : Option Nat :=
  if whereIs a == .regs then some (a - 0x0C0000000000) else none

/-- The register access that a read of n bytes at an offset of register space is (R445): one of another width is refused. -/
def registerRead (secure : Bool) (x n : Nat) (s : State) : Host.Outcome State Fault Refusal :=
  let page := x / 0x10000
  let off := x % 0x10000
  let at_ := fun w => (⟨.companion, secure, w⟩ : Access)
  if n = 8 ∧ off % 8 = 0 then busRead (at_ .full) page off s
  else if n = 4 ∧ off % 8 = 0 then busRead (at_ .low) page off s
  else if n = 4 ∧ off % 8 = 4 then busRead (at_ .high) page (off - 4) s
  else if n = 16 ∧ off % 16 = 0 ∧ windowPage page = true then s.run fun d => d.wideRead (at_ .full) page off
  else execBadWidthAccess (at_ .full) page off n false s

/-- The register access that a write of some bytes at an offset of register space is. -/
def registerWriteOf (secure : Bool) (x : Nat) (bs : List Byte) (s : State) : Host.Outcome State Fault Refusal :=
  let page := x / 0x10000
  let off := x % 0x10000
  let n := bs.length
  let v := leNat bs
  let at_ := fun w => (⟨.companion, secure, w⟩ : Access)
  if n = 8 ∧ off % 8 = 0 then busWrite (at_ .full) page off n (BitVec.ofNat 64 v) s
  else if (n = 1 ∨ n = 2 ∨ n = 4) ∧ off % 8 = 0 ∧ widthOk page off n true = true then busWrite (at_ .low) page off n (BitVec.ofNat 64 v) s
  else if n = 4 ∧ off % 8 = 4 then busWrite (at_ .high) page (off - 4) n (BitVec.ofNat 64 (v * 2 ^ 32)) s
  else execBadWidthAccess (at_ .full) page off n true s

/-- A poisoned write to register space: no register keeps poison, and poisoned data is never taken as good (R178), so it
completes with error status and changes nothing (log entry 12). -/
def Dev.poisonedWrite (d : Dev) (secure : Bool) (x : Nat) : Dev :=
  if d.reachable (x / 0x10000) && d.arrives ⟨.companion, secure, .full⟩ then d.emit (.readback 0 true) else d

/-- COMPANION_REQUEST (R342, R346): a request to register space is a register access; share and own of a line there complete
uncached as reads of its 64 bytes, which no register takes. -/
def execCompanionRequest (secure : Bool) (r : CompanionReq) (s : State) : Host.Outcome State Fault Refusal :=
  let place := fun x => (s.dev.fromCompanion x).bind registerOffset
  let other := s.run fun d => d.when true fun d => d.companionRequest secure r
  match r with
  | .read a n =>
    match place a with
    | some x => registerRead secure x n s
    | none => other
  | .write a bs bad =>
    match place a with
    | some x => if bad then s.run (Dev.poisonedWrite · secure x) else registerWriteOf secure x bs s
    | none => other
  | .share line =>
    match place (64 * line) with
    | some x => registerRead secure x 64 s
    | none => other
  | .own line =>
    match place (64 * line) with
    | some x => registerRead secure x 64 s
    | none => other
  | .writeBack _ _ _ => other
  | .recall _ => other

end Sys2Proof.Machine
end

