-- ==== Sys2Proof/Machine/CoreVector.lean ====
section
/-! DEFINITION. Vector instructions (R136 to R144). -/

namespace Sys2Proof.Machine

/-- One operation on every lane number, with the flags it sets. -/
def Live.lanes (l : Live) (r : Nat) (f : Nat → Lane × NFlags) : Live :=
  let x := eachF (List.range 128) f
  (l.setV r x.1).flag x.2

/-- The low word of a scalar register, as every lane sees it. -/
def Live.sLane (l : Live) (r : Nat) : Lane := (l.s r).setWidth 32

def pureLane (x : Lane) : Lane × NFlags := (x, {})

/-- VOP by sub-operation (R136). -/
def vectorOp (sub : Nat) (x y : Lane) : Lane × NFlags :=
  let sh := y.toNat % 32
  match sub with
  | 0 => vAdd x y
  | 1 => vSub x y
  | 2 => vMul x y
  | 3 => vMinMax false x y
  | 4 => vMinMax true x y
  | 5 => pureLane (x + y)
  | 6 => pureLane (x - y)
  | 7 => pureLane (x &&& y)
  | 8 => pureLane (x ||| y)
  | 9 => pureLane (x ^^^ y)
  | 10 => pureLane (x <<< sh)
  | 11 => pureLane (x.sshiftRight sh)
  | _ => pureLane (x >>> sh)

def vopNeeds (_ : Dev) (i : Ins) : Needs :=
  { used := [uD, uA, uB, uSub, uMod 0 0], sregs := if i.mod 0 then [i.b] else [],
    faults := [(13 ≤ i.sub, 0x02), (badVec i.d || badVec i.a || (!i.mod 0 && badVec i.b), 0x03)] }
def execVop (k : Fin 512) (w : BitVec 128) (s : State) : Host.Outcome State Fault Refusal :=
  s.run fun d => d.issue k 0x20 w vopNeeds fun i d => d.onLv k fun l =>
    l.lanes i.d fun j => vectorOp i.sub (l.lane i.a j) (if i.mod 0 then l.sLane i.b else l.lane i.b j)

def vfmaNeeds (_ : Dev) (i : Ins) : Needs :=
  { used := [uD, uA, uB, uC, uMod 1 0], sregs := if i.mod 1 then [i.b] else [],
    faults := [(badVec i.d || badVec i.a || badVec i.c || (!i.mod 1 && badVec i.b), 0x03)] }
def execVfma (k : Fin 512) (w : BitVec 128) (s : State) : Host.Outcome State Fault Refusal :=
  s.run fun d => d.issue k 0x21 w vfmaNeeds fun i d => d.onLv k fun l =>
    l.lanes i.d fun j => vFma (i.mod 0) (l.lane i.a j) (if i.mod 1 then l.sLane i.b else l.lane i.b j) (l.lane i.c j)

/-- The condition of VCMP (R138): a NaN makes every float condition false but not equal. -/
def vectorCond (sub : Nat) (x y : Lane) : Bool :=
  let a := f32 x
  let b := f32 y
  match sub with
  | 0 => a.eq b
  | 1 => !a.eq b
  | 2 => a.lt b
  | 3 => a.le b
  | 4 => b.lt a
  | 5 => b.le a
  | 6 => x.slt y
  | _ => x == y

/-- One lane of VCMP: the mask, and flag nan for a NaN read as a number. -/
def compareLane (sub : Nat) (x y : Lane) : Lane × NFlags :=
  (if vectorCond sub x y then 0xFFFFFFFF else 0, if sub < 6 then nanFlag [f32 x, f32 y] else {})

def vcmpNeeds (_ : Dev) (i : Ins) : Needs :=
  { used := [uD, uA, uB, uSub, uMod 1 1], sregs := if i.mod 1 then [i.b] else [],
    faults := [(8 ≤ i.sub, 0x02), (badVec i.d || badVec i.a || (!i.mod 1 && badVec i.b), 0x03)] }
def execVcmp (k : Fin 512) (w : BitVec 128) (s : State) : Host.Outcome State Fault Refusal :=
  s.run fun d => d.issue k 0x22 w vcmpNeeds fun i d => d.onLv k fun l =>
    l.lanes i.d fun j => compareLane i.sub (l.lane i.a j) (if i.mod 1 then l.sLane i.b else l.lane i.b j)

def vselNeeds (_ : Dev) (i : Ins) : Needs :=
  { used := [uD, uA, uB, uC], faults := [(badVec i.d || badVec i.a || badVec i.b || badVec i.c, 0x03)] }
def execVsel (k : Fin 512) (w : BitVec 128) (s : State) : Host.Outcome State Fault Refusal :=
  s.run fun d => d.issue k 0x23 w vselNeeds fun i d => d.onLv k fun l =>
    l.lanes i.d fun j => pureLane (if l.lane i.c j != 0 then l.lane i.a j else l.lane i.b j)

/-- The function of VFN (R139). -/
def vectorFn (sub : Nat) : FVal → FVal :=
  match sub with
  | 0 => expVal
  | 1 => logVal
  | 2 => recipVal
  | _ => rsqrtVal

def vfnNeeds (_ : Dev) (i : Ins) : Needs :=
  { used := [uD, uA, uSub], faults := [(4 ≤ i.sub, 0x02), (badVec i.d || badVec i.a, 0x03)] }
def execVfn (k : Fin 512) (w : BitVec 128) (s : State) : Host.Outcome State Fault Refusal :=
  s.run fun d => d.issue k 0x24 w vfnNeeds fun i d => d.onLv k fun l =>
    l.lanes i.d fun j => vFn (vectorFn i.sub) (l.lane i.a j)

/-- The formats of VCVT: the float formats, INT8 and INT32 (R140). -/
def cvtFmt (n : Nat) : Option Fmt := (Fmt.ofCode n).filter fun f => f.isFloat || f == .int8 || f == .int32

/-- The value in the low bits of a lane. -/
def laneValue (f : Fmt) (x : Lane) : FVal := elemValue f (x.toNat % 2 ^ f.elemBits) 127

/-- One lane of VCVT. -/
def convertLane (fa fb : Fmt) (x : Lane) : Lane × NFlags :=
  let v := laneValue fa x
  let r := encodeElem fb v
  (BitVec.ofNat 32 r.1, r.2.or (nanFlag [v]))

def vcvtNeeds (_ : Dev) (i : Ins) : Needs :=
  { used := [uD, uA, uFa, uFb], faults := [(badVec i.d || badVec i.a, 0x03)],
    formats := (cvtFmt i.fa).isSome && (cvtFmt i.fb).isSome }
def execVcvt (k : Fin 512) (w : BitVec 128) (s : State) : Host.Outcome State Fault Refusal :=
  s.run fun d => d.issue k 0x25 w vcvtNeeds fun i d => d.onLv k fun l =>
    l.lanes i.d fun j => convertLane ((cvtFmt i.fa).getD .fp32) ((cvtFmt i.fb).getD .fp32) (l.lane i.a j)

/-- The tree of VRED over 128 lanes (R69, R141). NaNs that arise within it set inv only. -/
def laneTree (f : Lane → Lane → Lane × NFlags) (row : List Lane) : Lane × NFlags :=
  let r := treeReduce f 7 row
  (r.1, r.2.inner.or (nanFlag (row.map f32)))

def vredNeeds (_ : Dev) (i : Ins) : Needs :=
  { used := [uD, uA, uSub], faults := [(2 ≤ i.sub, 0x02), (badVec i.d || badVec i.a, 0x03)] }
def execVred (k : Fin 512) (w : BitVec 128) (s : State) : Host.Outcome State Fault Refusal :=
  s.run fun d => d.issue k 0x26 w vredNeeds fun i d => d.onLv k fun l =>
    let r := laneTree (if i.sub = 0 then vAdd else vMinMax true) (l.vrow i.a)
    (l.setV i.d (List.replicate 128 r.1)).flag r.2

def vmvsNeeds (_ : Dev) (i : Ins) : Needs :=
  { used := [uD, uA, uSub] ++ (if i.sub = 1 then [] else [uImm 6 0]), sregs := [if i.sub = 0 then i.d else i.a],
    faults := [(3 ≤ i.sub, 0x02), (badVec (if i.sub = 0 then i.a else i.d), 0x03)] }
def execVmvs (k : Fin 512) (w : BitVec 128) (s : State) : Host.Outcome State Fault Refusal :=
  s.run fun d => d.issue k 0x27 w vmvsNeeds fun i d => d.onLv k fun l =>
    match i.sub with
    | 0 => l.setS i.d ((l.lane i.a i.imm).setWidth 64)
    | 1 => l.setV i.d (List.replicate 128 (l.sLane i.a))
    | _ => l.setLane i.d i.imm (l.sLane i.a)

/-- The formats of a row record (R118): all but the cache formats. -/
def recFmt (n : Nat) : Option Fmt := (Fmt.ofCode n).filter fun f => !f.isKv

/-- An element of a record as VLD puts it in a lane (R142). -/
def Dev.loadLane (d : Dev) (k a : Nat) (f : Fmt) (j : Nat) : Lane × NFlags :=
  match f with
  | .int32 => pureLane (BitVec.ofNat 32 (d.recElem k a f j))
  | .int8 => pureLane (BitVec.ofInt 32 (signed 8 (d.recElem k a f j)))
  | _ =>
    let v := d.recValue k a f 128 j
    let r := layFp32.convert v
    (toF32 r.1, r.2.or (nanFlag [v]))

def vldNeeds (k : Nat) (d : Dev) (i : Ins) : Needs :=
  let a := d.spAddr k i.a i.imm
  let n := ((recFmt i.fa).map Fmt.rec128).getD 0
  { used := [uD, uA, uFa, uImm 23 0], sregs := [i.a], faults := [(badVec i.d, 0x03)], formats := (recFmt i.fa).isSome,
    fmtFaults := [(spBad a n 4, 0x03)], reads := [(a, n)] }
def execVld (k : Fin 512) (w : BitVec 128) (s : State) : Host.Outcome State Fault Refusal :=
  s.run fun d => d.issue k 0x28 w (vldNeeds k) fun i d => d.onLv k fun l =>
    l.lanes i.d fun j => d.loadLane k (d.spAddr k i.a i.imm) ((recFmt i.fa).getD .fp32) j

/-- A register as VST writes it (R142): mod[44] stores INT32 lanes unchanged and clamps INT8 lanes as integers. -/
def storeRow (f : Fmt) (ints : Bool) (row : List Lane) : List Byte × NFlags :=
  if ints && f == .int32 then (packRecord f (row.map BitVec.toNat) [], {})
  else if ints then
    mapF (eachF row fun x =>
      let c := clampInt (-128) 127 x.toInt
      (unsigned 8 c, .ofIsat (c != x.toInt))) fun es => packRecord f es []
  else
    let r := encodeRow f (row.map f32)
    (r.1, r.2.or (nanFlag (row.map f32)))

/-- VST names its recipe in sub: 0 for an unscaled format, 2 for a block-scaled one (R142; log entry 15). -/
def vstRecipe (f : Fmt) : Nat := if f.scaled then 2 else 0

def vstNeeds (k : Nat) (d : Dev) (i : Ins) : Needs :=
  let a := d.spAddr k i.b i.imm
  let f := (recFmt i.fb).getD .fp32
  { used := [uA, uB, uFb, uSub, uMod 0 0, uImm 23 0], sregs := [i.b], faults := [(badVec i.a, 0x03)],
    formats := (recFmt i.fb).isSome && i.sub == vstRecipe f,
    fmtFaults := [(i.mod 0 && f != .int8 && f != .int32, 0x02), (spBad a f.rec128 4, 0x03)], writes := [(a, f.rec128)] }
def execVst (k : Fin 512) (w : BitVec 128) (s : State) : Host.Outcome State Fault Refusal :=
  s.run fun d => d.issue k 0x29 w (vstNeeds k) fun i d =>
    let r := storeRow ((recFmt i.fb).getD .fp32) (i.mod 0) ((d.lv k).vrow i.a)
    (d.spStore k (d.spAddr k i.b i.imm) r.1).onLv k fun l => l.flag r.2

/-- The accumulator row that VACR and VACW name (R143): the sum wraps modulo 2^64 before it is held against 127 (DESIGN
CHOICE, log entry 34). -/
def Dev.accRowOf (d : Dev) (k : Nat) (i : Ins) : Nat := d.spAddr k i.b i.imm

def vacrNeeds (k : Nat) (d : Dev) (i : Ins) : Needs :=
  { used := [uD, uA, uB, uImm 6 0], sregs := [i.b], tileR := [i.a],
    faults := [(badVec i.d || 128 ≤ d.accRowOf k i, 0x03)] }
def execVacr (k : Fin 512) (w : BitVec 128) (s : State) : Host.Outcome State Fault Refusal :=
  s.run fun d => d.issue k 0x2A w (vacrNeeds k) fun i d => d.onLv k fun l => l.setV i.d (l.accRow i.a (d.accRowOf k i))

def vacwNeeds (k : Nat) (d : Dev) (i : Ins) : Needs :=
  { used := [uD, uA, uB, uMod 1 1, uImm 6 0], sregs := [i.b], tileW := [i.d],
    faults := [(badVec i.a || 128 ≤ d.accRowOf k i, 0x03),
      ((d.lv k).tileLive i.d && (d.lv k).tileInt i.d != i.mod 1, 0x09)] }
def execVacw (k : Fin 512) (w : BitVec 128) (s : State) : Host.Outcome State Fault Refusal :=
  s.run fun d => d.issue k 0x2B w (vacwNeeds k) fun i d => d.onLv k fun l =>
    l.setAccRow i.d (d.accRowOf k i) (l.vrow i.a) (i.mod 1)

/-- A keyed word of VRND (R110, R144). -/
def keyedWord (l : Live) (seed : Nat) (i : Ins) (j : Nat) : Lane :=
  let x := draw128 seed i.sub i.imm l.gkLayer l.gkStep l.gkTile (((l.s i.a).toNat + j) % 2 ^ 32)
  BitVec.ofNat 32 (x >>> (32 * (i.md % 4)))

/-- In free-running mode field a and imm[5:0] are not read and may hold any number (DESIGN CHOICE, log entry 34). -/
def vrndNeeds (k : Nat) (d : Dev) (i : Ins) : Needs :=
  { used := [uD, uA, uSub, uMod 1 0, uImm 5 0], sregs := [i.a],
    faults := [(i.sub != 1 && i.sub != 2, 0x02), ((d.modes k).freeRunning && i.md % 4 != 0, 0x02), (badVec i.d, 0x03)] }
def execVrnd (k : Fin 512) (w : BitVec 128) (s : State) : Host.Outcome State Fault Refusal :=
  s.run fun d => d.issue k 0x2C w (vrndNeeds k) fun i d => d.onLv k fun l =>
    let m := d.modes k
    if m.freeRunning then
      (List.range 128).foldl (fun l j =>
        let r := (l.gen j).draw 32
        (l.setGen j r.2).setLane i.d j (BitVec.ofNat 32 r.1)) l
    else l.setV i.d ((List.range 128).map (keyedWord l m.seed i))

end Sys2Proof.Machine
end

