-- ==== Sys2Proof/Machine/CoreAttention.lean ====
section
/-! DEFINITION. Attention-block instructions (R145 to R148). -/

namespace Sys2Proof.Machine

/-! ### ASTEP -/

def asL (i : Ins) : Nat := bits i.imm 28 24
def asQ (i : Ins) : Nat := bits i.imm 34 29
def asRows (i : Ins) : Nat := bits i.imm 41 35 + 1

/-- Output formats and recipes of ASTEP (R145). -/
def asFits (f : Fmt) (recipe : Nat) : Bool :=
  if f.scaled then recipe == 2 else (f == .bf16 || f == .fp16 || f == .e4m3) && recipe == 0

/-- The larger of two values; a NaN propagates (R145). -/
def maxF (a b : FVal) : FVal := if a.isNan || b.isNan then .nan else if a.lt b then b else a

/-- One FP32 operation within an instruction: only a NaN read from outside it sets flag nan (R97). -/
def innerF (x : Lane × NFlags) : FVal × NFlags := (f32 x.1, x.2.inner)

/-- `exp(a - b)` of R145: the difference is exact (R10), and the exponential rounds once to FP32; flag inv is set where the
difference of two values that are not NaN is none (R97). -/
def expDiff (a b : FVal) : FVal × NFlags :=
  let x := a.sub b
  ((layFp32.roundIeee (expVal x)).1, .ofInv (x.isNan && !a.isNan && !b.isNan))

/-- What one row of ASTEP makes: the probabilities, the new maximum and denominator where they are written, and the output
row when it was rescaled. -/
structure AStepRow where
  p : List FVal
  mx : Option FVal
  den : Option FVal
  out : Option (List FVal)
deriving DecidableEq, Repr

/-- A row of ASTEP (R145): scores, visibility of each position, scale, running maximum, denominator and output. -/
def astepRow (scores : List FVal) (vis : List Bool) (sc mx den : FVal) (out : List FVal) : AStepRow × NFlags :=
  let seen := (scores.zip vis).filter Prod.snd
  let read := nanFlag ((seen.map Prod.fst) ++ [mx] ++ (if seen.isEmpty then [] else [sc]))
  let xs := eachF (scores.zip vis) fun x =>
    if x.2 then let y := satMulF x.1 sc; (y.1, y.2.inner) else (.inf true, {})
  let bm := xs.1.foldl maxF (.inf true)
  let mnew := maxF mx bm
  if mnew == .inf true then
    (⟨List.replicate 128 (.zero false), none, none, none⟩, read.or xs.2)
  else
    let read := read.or (nanFlag [den])
    let cf := expDiff mx mnew
    let scaled := !cf.1.eq (.ofNat 1)
    let row := eachF out fun y => let z := satMulF y cf.1; (z.1, z.2.inner)
    let den1 : FVal × NFlags := if scaled then (let z := satMulF den cf.1; (z.1, z.2.inner)) else (den, {})
    let ps := eachF (xs.1.zip vis) fun x => if x.2 then expDiff x.1 mnew else (.zero false, {})
    let sum := innerF (treeReduce vAdd 7 (ps.1.map toF32))
    let den2 := satAddF den1.1 sum.1
    let g := ((((read.or xs.2).or cf.2).or den1.2).or ps.2).or (sum.2.or den2.2.inner)
    (⟨ps.1, some mnew, some den2.1, if scaled then some row.1 else none⟩,
      if scaled then (g.or row.2).or (nanFlag out) else g)

def Dev.asOut (d : Dev) (k : Nat) (i : Ins) : Nat := d.spAddr k 0 (bits i.imm 23 0)

def astepNeeds (k : Nat) (d : Dev) (i : Ins) : Needs :=
  let f := (recFmt i.fb).getD .bf16
  let l := d.lv k
  { used := [uD, uA, uB, uC, uFb, uSub, uImm 41 0], sregs := [asQ i], faults := [(badVec i.b || badVec i.c, 0x03)],
    formats := (recFmt i.fb).isSome && asFits f i.sub,
    fmtFaults := [((l.tileLive i.a && l.tileInt i.a) || (l.tileLive i.d && l.tileInt i.d), 0x09),
      (spBad (d.asOut k i) (asRows i * f.rec128) 4, 0x03)],
    writes := [(d.asOut k i, asRows i * f.rec128)], tileR := [i.a], tileW := [i.d] }

/-- A lane written where a value is given. -/
def Live.putLane (l : Live) (r j : Nat) (v : Option FVal) : Live :=
  match v with
  | some x => l.setLane r j (toF32 x)
  | none => l

/-- Row n of ASTEP on core k: its record is written, its lanes and its output row are updated. The live bit of ACC[d] is
set only by a row that is rescaled (DESIGN CHOICE, log entry 34). -/
def Dev.astepAt (d : Dev) (k : Nat) (i : Ins) (f : Fmt) (n : Nat) : Dev :=
  let l := d.lv k
  let q := (l.s (asQ i)).toNat
  let lim := (l.lane (asL i) n).toInt
  let vis := (List.range 128).map fun j => decide (signed 32 (bits q 31 0) + (j : Int) ≤ lim)
  let r := astepRow ((l.accRow i.a n).map f32) vis (f32c (bits q 63 32)) (f32 (l.lane i.b n)) (f32 (l.lane i.c n))
    ((l.accRow i.d n).map f32)
  let e := encodeRow f r.1.p
  let d := d.spStore k (d.asOut k i + n * f.rec128) e.1
  d.onLv k fun l =>
    let l := match r.1.out with
      | some row => l.setAccRow i.d n (row.map toF32) false
      | none => l
    (((l.putLane i.c n r.1.den).putLane i.b n r.1.mx).flag r.2).flag e.2

/-- ASTEP (R145). -/
def execAstep (k : Fin 512) (w : BitVec 128) (s : State) : Host.Outcome State Fault Refusal :=
  s.run fun d => d.issue k 0x48 w (astepNeeds k) fun i d =>
    d.each (List.range (asRows i)) fun n e => e.astepAt k i ((recFmt i.fb).getD .bf16) n

/-! ### ANORM -/

/-- A row over its denominator (R146): a denominator of +0 gives zeros. -/
def anormRow (row : List Lane) (den : Lane) : List Lane × NFlags :=
  if den = 0 then (row.map fun _ => 0, {})
  else eachF row fun x => vecRound [f32 x, f32 den] ((f32 x).div (f32 den))

def anormNeeds (k : Nat) (d : Dev) (i : Ins) : Needs :=
  { used := [uD, uC, uImm 6 0],
    faults := [(badVec i.c, 0x03), ((d.lv k).tileLive i.d && (d.lv k).tileInt i.d, 0x09)], tileW := [i.d] }
def execAnorm (k : Fin 512) (w : BitVec 128) (s : State) : Host.Outcome State Fault Refusal :=
  s.run fun d => d.issue k 0x49 w (anormNeeds k) fun i d => d.onLv k fun l =>
    (List.range (i.imm + 1)).foldl (fun l n =>
      let r := anormRow (l.accRow i.d n) (l.lane i.c n)
      (l.setAccRow i.d n r.1 false).flag r.2) l

/-! ### KVQ and KVD -/

def kvFmt (n : Nat) : Option Bool := if n = 10 then some false else if n = 11 then some true else none

/-- Bytes of a cache block in memory. -/
def kvBytes (kv4 : Bool) : Nat := blockBytes kv4

def Dev.kvqSrc (d : Dev) (k : Nat) (i : Ins) : Nat := d.spAddr k i.a (bits i.imm 23 0)
def Dev.kvqDst (d : Dev) (k : Nat) (i : Ins) : Nat := d.spAddr k i.d (bits i.imm 47 24)

def kvqNeeds (k : Nat) (d : Dev) (i : Ins) : Needs :=
  let shadow := i.mod 0
  let kv4 := i.fb == 11
  let par := d.spAddr k i.b 0
  let rd := if shadow then [(d.kvqSrc k i, 2048), (d.spAddr k i.c 0, 4)] else [(d.kvqSrc k i, 4096)]
  { used := [uD, uA, uB, uC, uFb, uSub, uMod 0 0, uImm 47 0], sregs := [i.d, i.a, i.b, i.c],
    faults := [(!shadow && (d.sr k i.c < 1 || 64 < d.sr k i.c), 0x03), (spBad par 4 4, 0x03),
      (rd.any fun r => spBad r.1 r.2 4, 0x03)],
    formats := (kvFmt i.fb).isSome && (i.sub == 5 || i.sub == 6) && !(shadow && !kv4),
    fmtFaults := [(spBad (d.kvqDst k i) (kvBytes kv4) 4, 0x03)],
    reads := rd, writes := [(d.kvqDst k i, kvBytes kv4), (par, 4)] }

/-- The values that KVQ quantises (R147): BF16 positions below the count, or the decoded KV8 block. -/
def Dev.kvqValues (d : Dev) (k : Nat) (i : Ins) : List (Option FVal) :=
  if i.mod 0 then blockValues false (d.spNat k (d.spAddr k i.c 0) 4) (d.spLoad k (d.kvqSrc k i) 2048) 64
  else chunkValues (d.spLoad k (d.kvqSrc k i) 4096) (d.sr k i.c)

/-- Flag inv of KV8 elements whose exact value is 0 × ∞ (R97). -/
def zeroInf (param : Nat) (l : List FVal) : NFlags := .ofInv (!(layFp16.value (bits param 15 0)).isNan && l.any FVal.isNan)

/-- KVQ (R107, R147). -/
def execKvq (k : Fin 512) (w : BitVec 128) (s : State) : Host.Outcome State Fault Refusal :=
  s.run fun d => d.issue k 0x4A w (kvqNeeds k) fun i d =>
    let kv4 := i.fb == 11
    let v := d.kvqValues k i
    let q := quantiseBlock kv4 v
    let made := if i.mod 0 then zeroInf (d.spNat k (d.spAddr k i.c 0) 4) (v.filterMap fun x => x) else {}
    let par := d.spAddr k i.b 0
    let d := (d.spStore k (d.kvqDst k i) (q.1.bytes kv4)).spStore k par (natLe 4 q.1.param)
    d.onLv k fun l => (l.flag q.2).flag made

/-- Output formats of KVD (R148). -/
def kvdFmt (n : Nat) : Option Fmt := (Fmt.ofCode n).filter fun f => f == .bf16 || f == .fp16 || f == .e4m3

def kvdStride (i : Ins) : Nat := bits i.imm 39 24
def Dev.kvdDst (d : Dev) (k : Nat) (i : Ins) (p : Nat) : Nat := d.spAddr k i.d (bits i.imm 23 0) + p * kvdStride i

def kvdNeeds (k : Nat) (d : Dev) (i : Ins) : Needs :=
  let n := 32 * ((kvdFmt i.fb).map Fmt.elemBits).getD 0 / 8
  let kv4 := i.fa == 11
  let rd := [(d.spAddr k i.a 0, kvBytes kv4), (d.spAddr k i.b 0, 4)]
  let out := (List.range 64).map fun p => (d.kvdDst k i p, n)
  { used := [uD, uA, uB, uFa, uFb, uImm 39 0], sregs := [i.d, i.a, i.b],
    faults := [(spBad (d.spAddr k i.b 0) 4 4 || kvdStride i % 4 != 0, 0x03)],
    formats := (kvFmt i.fa).isSome && (kvdFmt i.fb).isSome,
    fmtFaults := [((rd ++ out).any fun r => spBad r.1 r.2 4, 0x03)], reads := rd, writes := out }

/-- One decoded position of a block: 32 elements in a format. A NaN scale sets flag nan, 0 × ∞ sets inv (R97). -/
def kvdRun (f : Fmt) (kv4 : Bool) (param : Nat) (bs : List Byte) (p : Nat) : List Byte × NFlags :=
  mapF (eachF (List.range 32) fun c =>
    let v := cacheValue kv4 param bs (32 * p + c)
    let r := encodeElem f v
    (r.1, (r.2.or (zeroInf param [v])).or (nanFlag [layFp16.value (bits param 15 0)]))) fun es => packRecord f es []

/-- KVD (R148). -/
def execKvd (k : Fin 512) (w : BitVec 128) (s : State) : Host.Outcome State Fault Refusal :=
  s.run fun d => d.issue k 0x4B w (kvdNeeds k) fun i d =>
    let kv4 := i.fa == 11
    let bs := d.spLoad k (d.spAddr k i.a 0) (kvBytes kv4)
    let param := d.spNat k (d.spAddr k i.b 0) 4
    d.each (List.range 64) fun p e =>
      let r := kvdRun ((kvdFmt i.fb).getD .bf16) kv4 param bs p
      (e.spStore k (e.kvdDst k i p) r.1).onLv k fun l => l.flag r.2

end Sys2Proof.Machine
end

