-- ==== Sys2Proof/Machine/CoreMatrix.lean ====
section
/-! DEFINITION. The matrix instruction and the drain (R57 to R64, R99 to R106, R111, R129 to R135). -/

namespace Sys2Proof.Machine

/-! ### MMA -/

/-- Formats of matrix operands (R57). -/
def mmaFmt (n : Nat) : Option Fmt :=
  (Fmt.ofCode n).filter fun f => f.scaled || f == .bf16 || f == .fp16 || f == .e4m3 || f == .e5m2 || f == .int8

def fp8 (f : Fmt) : Bool := f == .e4m3 || f == .e5m2

/-- Pairs that R58 permits: one format, E4M3 with E5M2, BS8 with BS6. -/
def mmaPair (fa fb : Nat) : Bool :=
  match mmaFmt fa, mmaFmt fb with
  | some x, some y => x == y || (fp8 x && fp8 y) || (x == .bs8 && y == .bs6) || (x == .bs6 && y == .bs8)
  | _, _ => false

/-- A matrix operand in the scratchpad: its base, format, half offset, whether it is transposed, the elements along k and
across. -/
structure Operand where
  base : Nat
  f : Fmt
  half : Nat
  tr : Bool
  kk : Nat
  across : Nat
deriving DecidableEq, Repr

/-- Runs of records of an operand: offset and bytes (R129). -/
def Operand.runs (o : Operand) : List (Nat × Nat) :=
  if o.tr then
    if o.half = 0 then [(o.base, o.kk * o.f.recordBytes o.across)]
    else [(o.base, 128 * o.f.recordBytes o.across), (o.base + o.half, 128 * o.f.recordBytes o.across)]
  else if o.half = 0 then [(o.base, o.across * o.f.recordBytes o.kk)]
  else [(o.base, o.across * o.f.rec128), (o.base + o.half, o.across * o.f.rec128)]

/-- Where record κ of a transposed operand lies. -/
def Operand.trRecord (o : Operand) (κ : Nat) : Nat :=
  if o.half = 0 then o.base + κ * o.f.recordBytes o.across
  else o.base + κ / 128 * o.half + κ % 128 * o.f.recordBytes o.across

/-- Address, elements and index of element (i, κ), i across and κ along k. -/
def Operand.place (o : Operand) (i κ : Nat) : Nat × Nat × Nat :=
  if o.tr then (o.trRecord κ, o.across, i)
  else if o.half = 0 then (o.base + i * o.f.recordBytes o.kk, o.kk, κ)
  else (o.base + κ / 128 * o.half + i * o.f.rec128, 128, κ % 128)

/-- Element (i, κ) without its scale. -/
def Operand.elem (o : Operand) (d : Dev) (k i κ : Nat) : FVal :=
  let x := o.place i κ
  elemValue' o.f (d.recElem k x.1 o.f x.2.2)
where
  elemValue' (f : Fmt) (w : Nat) : FVal := elemValue f w 127

/-- Scale of block blk of line i: of a transposed operand that of its square's first row (R64, R129). -/
def Operand.scale (o : Operand) (d : Dev) (k i blk : Nat) : Nat :=
  if o.tr then d.recScale k (o.trRecord (32 * blk)) o.f o.across (i / 32)
  else
    let x := o.place i (32 * blk)
    d.recScale k x.1 o.f x.2.1 (x.2.2 / 32)

/-- One matrix instruction as issued: its operands, tile, rows and modes. -/
structure Mma where
  tile : Nat
  m : Nat
  ovw : Bool
  isInt : Bool
  a : Operand
  b : Operand
deriving DecidableEq, Repr

def mmaRows (i : Ins) : Nat := bits i.imm 54 48 + 1
def mmaK (f : Fmt) : Nat := if f == .bs4 then 256 else 128

def Dev.mmaOf (d : Dev) (k : Nat) (i : Ins) : Mma :=
  let fa := (mmaFmt i.fa).getD .bf16
  let fb := (mmaFmt i.fb).getD .bf16
  let h := if fa == .bs4 then d.sr k i.c else 0
  { tile := i.d, m := mmaRows i, ovw := i.mod 0, isInt := fa == .int8,
    a := ⟨d.spAddr k i.a (bits i.imm 23 0), fa, bits h 23 0, i.mod 1, mmaK fa, mmaRows i⟩,
    b := ⟨d.spAddr k i.b (bits i.imm 47 24), fb, bits h 47 24, i.mod 2, mmaK fa, 128⟩ }

/-- Blocks of 32 along k. -/
def Mma.kb (x : Mma) : Nat := x.a.kk / 32

/-- Block sum blk of element (i, j) (R99). -/
def Mma.blockSumAt (x : Mma) (d : Dev) (k i j blk : Nat) : FVal × NFlags :=
  let ab := (List.range 32).map fun t => (x.a.elem d k i (32 * blk + t), x.b.elem d k j (32 * blk + t))
  blockSum (x.a.scale d k i blk) (x.b.scale d k j blk) (x.a.f.scaled || x.b.f.scaled) ab

/-- A value of the running sum that is an exact integer. -/
def intOf (v : FVal) : Int := roundInt v

/-- The rounding mode of the add of block blk into element (i, j), and the generator after it (R101, R111, R112). -/
def Mma.mode (x : Mma) (m : Admit) (l : Live) (n : Nat) (i j blk : Nat) (g : GenState) : RMode × GenState :=
  if !m.stochastic || x.isInt then (.rne, g)
  else if m.freeRunning then
    let r := g.draw 16
    (.sr r.1, r.2)
  else (.sr (srDraw m.seed l.gkStep l.gkLayer l.gkTile x.tile (n + blk) i j), g)

/-- One element after its running sum over the blocks of k (R62, R100, R102, R130), the flags and the generator after. -/
def Mma.element (x : Mma) (d : Dev) (k : Nat) (m : Admit) (l : Live) (n i j : Nat) (g : GenState) :
    Lane × NFlags × GenState :=
  let old := if x.ovw then 0 else l.accAt x.tile i j
  if x.isInt then
    let r := foldF (List.range x.kb) old.toInt fun acc blk =>
      let s := x.blockSumAt d k i j blk
      thenF s fun v => accAddInt acc (intOf v)
    (BitVec.ofInt 32 r.1, r.2, g)
  else
    let z : FVal × NFlags × GenState := (f32 old, nanFlag [f32 old], g)
    let r := (List.range x.kb).foldl (fun (y : FVal × NFlags × GenState) blk =>
      let s := x.blockSumAt d k i j blk
      let mo := x.mode m l n i j blk y.2.2
      let t := accAdd mo.1 y.1 s.1
      (t.1, (y.2.1.or s.2).or t.2, mo.2)) z
    (toF32 r.1, r.2.1, r.2.2)

/-- Column j: its elements in row order, for the generator of its adder serves them in that order (R112). -/
def Mma.column (x : Mma) (d : Dev) (k : Nat) (m : Admit) (l : Live) (n j : Nat) : List Lane × NFlags × GenState :=
  (List.range x.m).foldl (fun (y : List Lane × NFlags × GenState) i =>
    let r := x.element d k m l n i j y.2.2
    (y.1 ++ [r.1], y.2.1.or r.2.1, r.2.2)) ([], {}, l.gen (128 + j))

/-- The live state after a matrix instruction: rows 0 to m − 1 of its tile, the add counter, flags and generators
(R111, R130, R131). -/
def Mma.run (x : Mma) (d : Dev) (k : Nat) (m : Admit) (l : Live) : Live :=
  let n := if x.ovw then 0 else l.adds x.tile
  let cols := (List.range 128).map fun j => x.column d k m l n j
  let rows := (List.range x.m).map fun i => cols.map fun c => c.1.getD i 0
  let l1 := rows.zipIdx.foldl (fun l r => l.setAccRow x.tile r.2 r.1 x.isInt) l
  let l2 := cols.zipIdx.foldl (fun (l : Live) c =>
    let l := l.flag c.1.2.1
    if m.stochastic && m.freeRunning && !x.isInt then l.setGen (128 + c.2) c.1.2.2 else l) l1
  l2.setAdds x.tile (n + x.kb)

def mmaNeeds (k : Nat) (d : Dev) (i : Ins) : Needs :=
  let x := d.mmaOf k i
  let runs := x.a.runs ++ x.b.runs
  { used := [uD, uA, uB, uFa, uFb, uMod 2 0, uImm 54 0] ++ (if i.fa = 7 then [uC] else []),
    sregs := [i.a, i.b] ++ (if i.fa = 7 then [i.c] else []),
    faults := [(i.mod 1 && x.m % 32 != 0, 0x0A)],
    formats := mmaPair i.fa i.fb,
    fmtFaults := [((d.lv k).tileLive i.d && (d.lv k).tileInt i.d != x.isInt, 0x09),
      (runs.any fun r => spBad r.1 r.2 4, 0x03), (x.a.half % 4 != 0 || x.b.half % 4 != 0, 0x03)],
    reads := runs, tileW := [i.d], chains := !i.mod 0 }

/-- MMA (R129 to R131): the result stands in the tile from issue on, and other instructions wait for done(i) (R60; log
entry 13). -/
def execMma (k : Fin 512) (w : BitVec 128) (s : State) : Host.Outcome State Fault Refusal :=
  s.run fun d => d.issue k 0x40 w (mmaNeeds k) fun i d =>
    let x := d.mmaOf k i
    let d := d.onLv k (x.run d k (d.modes k))
    let c := d.core k
    d.setCore k { c with mmas := c.mmas ++ [⟨i.d, (x.a.runs ++ x.b.runs).flatMap fun r => spSegs r.1 r.2⟩] }

/-- The last result row of the oldest matrix instruction is written (R52, R60). -/
def execMmaDone (k : Fin 512) (s : State) : Host.Outcome State Fault Refusal :=
  s.run fun d => d.when (!(d.core k).mmas.isEmpty) fun d => d.setCore k { d.core k with mmas := (d.core k).mmas.tail }

/-! ### DRN -/

/-- Does the recipe fit the output format (R105)? -/
def recipeFits (f : Fmt) (recipe : Nat) : Bool := if f.scaled then 1 ≤ recipe && recipe ≤ 4 else recipe == 0

def drnRows (i : Ins) : Nat := bits i.imm 54 48 + 1
def drnShift (i : Ins) : Nat := bits i.imm 59 55
/-- Fused operation: 0 none, 1 add, 2 multiply (R132). -/
def drnFused (i : Ins) : Nat := i.md % 4

/-- Does the drain treat its tile as an integer tile (R66)? -/
def Dev.drnInt (d : Dev) (k : Nat) (i : Ins) (f : Fmt) : Bool :=
  if (d.lv k).tileLive i.a then (d.lv k).tileInt i.a else f == .int32 || (f == .int8 && drnShift i != 0)

/-- The formats, the recipe and the fused operation of a drain are permitted together (R103 to R105, R133). -/
def Dev.drnFits (d : Dev) (k : Nat) (i : Ins) : Bool :=
  match recFmt i.fb with
  | none => false
  | some f =>
    let isInt := d.drnInt k i f
    recipeFits f i.sub && (drnFused i == 0 || (recFmt i.fa).isSome) && !(f == .int32 && (!isInt || drnFused i != 0))
      && !(isInt && f == .int8 && drnFused i != 0)

def Dev.drnOut (d : Dev) (k : Nat) (i : Ins) : Nat := d.spAddr k i.d (bits i.imm 23 0)
def Dev.drnSecond (d : Dev) (k : Nat) (i : Ins) : Nat := d.spAddr k i.b (bits i.imm 47 24)

def drnNeeds (k : Nat) (d : Dev) (i : Ins) : Needs :=
  let f := (recFmt i.fb).getD .fp32
  let g := (recFmt i.fa).getD .fp32
  let r := drnRows i
  let fused := drnFused i != 0
  let rel := i.mod 2
  { used := [uD, uA, uFb, uSub, uMod 2 0, uImm 23 0, uImm 59 48] ++ (if fused then [uFa, uB, uImm 47 24] else []),
    faults := [(drnFused i == 3, 0x02)], sregs := [i.d] ++ (if fused then [i.b] else []),
    formats := d.drnFits k i,
    fmtFaults := [(drnShift i != 0 && !(d.drnInt k i f && f == .int8), 0x02),
      (spBad (d.drnOut k i) (r * f.rec128) 4, 0x03), (fused && spBad (d.drnSecond k i) (r * g.rec128) 4, 0x03)],
    reads := if fused then [(d.drnSecond k i, r * g.rec128)] else [], writes := [(d.drnOut k i, r * f.rec128)],
    tileR := [i.a], tileW := if rel then [i.a] else [] }

/-- An element of the tile after the fused operation (R103, R104). -/
def Dev.drnValue (d : Dev) (k : Nat) (i : Ins) (isInt : Bool) (row col : Nat) : FVal × NFlags :=
  let x := (d.lv k).accAt i.a row col
  let y : FVal × NFlags := if isInt then layFp32.convert (.ofInt x.toInt) else (f32 x, nanFlag [f32 x])
  if drnFused i = 0 then y
  else
    let g := (recFmt i.fa).getD .fp32
    let t := d.recValue k (d.drnSecond k i + row * g.rec128) g 128 col
    let z := if drnFused i = 1 then satAddF y.1 t else satMulF y.1 t
    (z.1, (y.2.or (nanFlag [t])).or z.2)

/-- Integer drain of one element (R104): the shifted value, rounded and clamped. -/
def drnInt8 (x : Lane) (h : Nat) : Nat × NFlags :=
  let r := roundInt (.num (x.toInt < 0) x.toInt.natAbs (2 ^ h) 0)
  let c := clampInt (-128) 127 r
  (unsigned 8 c, .ofIsat (c != r))

/-- Squares of recipes 1, 3 and 4 over the rows drained (R105, R134): for 32 columns from 32 × sq, element fields row by
row and one scale, for rows from `lo` on. -/
def squareOf (f : Fmt) (noClip : Bool) (rows : List (List FVal)) (sq : Nat) : (List (List Nat) × Nat) × NFlags :=
  let part := rows.map fun r => (r.drop (32 * sq)).take 32
  let q := quantiseGroup (f.layout.getD layE4m3) noClip part.flatten
  ((((List.range rows.length).map fun i => (q.2.1.drop (32 * i)).take 32), q.1), q.2.2)

/-- Up to 32 rows drained under a square recipe: the bytes of their records. -/
def squareRows (f : Fmt) (noClip : Bool) (rows : List (List FVal)) : List Byte × NFlags :=
  let sqs := eachF (List.range 4) (squareOf f noClip rows)
  (((List.range rows.length).flatMap fun i =>
    packRecord f (sqs.1.flatMap fun s => s.1.getD i []) (sqs.1.map Prod.snd)), sqs.2)

/-- The bytes that a drain writes, and the flags it sets (R103 to R106, R132 to R134). -/
def Dev.drain (d : Dev) (k : Nat) (i : Ins) : List Byte × NFlags :=
  let f := (recFmt i.fb).getD .fp32
  let isInt := d.drnInt k i f
  let r := drnRows i
  let lane := fun row col => (d.lv k).accAt i.a row col
  let cols := List.range 128
  if isInt && f == .int32 || (!isInt && f == .fp32 && drnFused i = 0) then
    let all := (List.range r).flatMap fun row => cols.map (lane row)
    (all.flatMap fun x => natLe 4 x.toNat, if isInt then {} else nanFlag (all.map f32))
  else if isInt && f == .int8 then
    mapF (eachF ((List.range r).flatMap fun row => cols.map (lane row)) fun x => drnInt8 x (drnShift i))
      fun es => es.map (BitVec.ofNat 8)
  else
    let rows := eachF (List.range r) fun row => eachF cols (d.drnValue k i isInt row)
    if f.scaled && i.sub != 2 then
      thenF rows fun rs => mapF (eachF (List.range ((r + 31) / 32)) fun b =>
        squareRows f (i.sub == 4) ((rs.drop (32 * b)).take 32)) List.flatten
    else thenF rows fun rs => mapF (eachF rs (encodeRow f)) List.flatten

/-- DRN (R132 to R135). -/
def execDrn (k : Fin 512) (w : BitVec 128) (s : State) : Host.Outcome State Fault Refusal :=
  s.run fun d => d.issue k 0x50 w (drnNeeds k) fun i d =>
    let r := d.drain k i
    (d.spStore k (d.drnOut k i) r.1).onLv k fun l =>
      let l := l.flag r.2
      if i.mod 2 then l.releaseTile i.a else l

end Sys2Proof.Machine
end

