-- ==== Sys2Proof/Machine/CoreScalar.lean ====
section
/-! DEFINITION. Scalar instructions (R124 to R128) and NOP. -/

namespace Sys2Proof.Machine

def boolWord (b : Bool) : Word := if b then 1 else 0

/-- SOP and SOPI by sub-operation (R124); a reserved one faults before it computes. -/
def scalarOp (sub : Nat) (x y : Word) : Word :=
  let sh := y.toNat % 64
  match sub with
  | 0 => x + y
  | 1 => x - y
  | 2 => x &&& y
  | 3 => x ||| y
  | 4 => x ^^^ y
  | 5 => x <<< sh
  | 6 => x.sshiftRight sh
  | 7 => x >>> sh
  | 8 => boolWord (x.slt y)
  | 9 => boolWord (x.ult y)
  | 10 => boolWord (x == y)
  | 11 => if x.slt y then x else y
  | _ => if x.slt y then y else x

def sopNeeds (_ : Dev) (i : Ins) : Needs :=
  { used := [uD, uA, uB, uSub], faults := [(13 ≤ i.sub, 0x02)], sregs := [i.d, i.a, i.b] }
def execSop (k : Fin 512) (w : BitVec 128) (s : State) : Host.Outcome State Fault Refusal :=
  s.run fun d => d.issue k 0x01 w sopNeeds fun i d => d.onLv k fun l => l.setS i.d (scalarOp i.sub (l.s i.a) (l.s i.b))

def sopiNeeds (_ : Dev) (i : Ins) : Needs :=
  { used := [uD, uA, uSub, uImm 63 0], faults := [(13 ≤ i.sub, 0x02)], sregs := [i.d, i.a] }
def execSopi (k : Fin 512) (w : BitVec 128) (s : State) : Host.Outcome State Fault Refusal :=
  s.run fun d => d.issue k 0x02 w sopiNeeds fun i d =>
    d.onLv k fun l => l.setS i.d (scalarOp i.sub (l.s i.a) (BitVec.ofNat 64 i.imm))

/-- SMUL (R125): the low half of the product, or its signed or unsigned high half. -/
def mulOp (high uns : Bool) (x y : Word) : Word :=
  if !high then x * y
  else if uns then BitVec.ofNat 64 (x.toNat * y.toNat / 2 ^ 64)
  else BitVec.ofInt 64 (x.toInt * y.toInt / (2 ^ 64 : Nat))

/-- SDIV (R125): quotient truncated toward zero, or the remainder; every corner has a result. -/
def divOp (rem uns : Bool) (x y : Word) : Word :=
  if y = 0 then (if rem then x else BitVec.allOnes 64)
  else if uns then BitVec.ofNat 64 (if rem then x.toNat % y.toNat else x.toNat / y.toNat)
  else BitVec.ofInt 64 (if rem then x.toInt.tmod y.toInt else x.toInt.tdiv y.toInt)

def mulNeeds (_ : Dev) (i : Ins) : Needs := { used := [uD, uA, uB, uMod 1 0], sregs := [i.d, i.a, i.b] }
def execSmul (k : Fin 512) (w : BitVec 128) (s : State) : Host.Outcome State Fault Refusal :=
  s.run fun d => d.issue k 0x03 w mulNeeds fun i d =>
    d.onLv k fun l => l.setS i.d (mulOp (i.mod 0) (i.mod 1) (l.s i.a) (l.s i.b))

def divNeeds (_ : Dev) (i : Ins) : Needs := { used := [uD, uA, uB, uMod 1 0], sregs := [i.d, i.a, i.b] }
def execSdiv (k : Fin 512) (w : BitVec 128) (s : State) : Host.Outcome State Fault Refusal :=
  s.run fun d => d.issue k 0x04 w divNeeds fun i d =>
    d.onLv k fun l => l.setS i.d (divOp (i.mod 0) (i.mod 1) (l.s i.a) (l.s i.b))

def sliNeeds (_ : Dev) (i : Ins) : Needs := { used := [uD, uImm 63 0], sregs := [i.d] }
def execSli (k : Fin 512) (w : BitVec 128) (s : State) : Host.Outcome State Fault Refusal :=
  s.run fun d => d.issue k 0x05 w sliNeeds fun i d => d.onLv k fun l => l.setS i.d (BitVec.ofNat 64 i.imm)

def sldNeeds (k : Nat) (d : Dev) (i : Ins) : Needs :=
  let a := d.spAddr k i.a i.imm
  { used := [uD, uA, uImm 23 0], faults := [(spBad a 8 8, 0x03)], sregs := [i.d, i.a], reads := [(a, 8)] }
def execSld (k : Fin 512) (w : BitVec 128) (s : State) : Host.Outcome State Fault Refusal :=
  s.run fun d => d.issue k 0x06 w (sldNeeds k) fun i d =>
    d.onLv k fun l => l.setS i.d (BitVec.ofNat 64 (d.spNat k (d.spAddr k i.a i.imm) 8))

def sstNeeds (k : Nat) (d : Dev) (i : Ins) : Needs :=
  let a := d.spAddr k i.a i.imm
  { used := [uA, uB, uImm 23 0], faults := [(spBad a 8 8, 0x03)], sregs := [i.a, i.b], writes := [(a, 8)] }
def execSst (k : Fin 512) (w : BitVec 128) (s : State) : Host.Outcome State Fault Refusal :=
  s.run fun d => d.issue k 0x07 w (sstNeeds k) fun i d => d.spStore k (d.spAddr k i.a i.imm) (natLe 8 (d.sr k i.b))

/-- The condition of BR (R127). -/
def branchCond (sub : Nat) (x y : Word) : Bool :=
  match sub with
  | 0 => true
  | 1 => x == y
  | 2 => x != y
  | 3 => x.slt y
  | 4 => !x.slt y
  | 5 => x.ult y
  | _ => !x.ult y

/-- Where BR goes when its condition holds (R127). -/
def branchTarget (pc imm : Nat) : Nat := (pc + imm) % 2 ^ 48

/-- May core k not take its next instruction from an address: it is not a multiple of 16, or the core cannot read it
(R121, R127)? -/
def Dev.badTarget (d : Dev) (k a : Nat) : Bool :=
  a % 16 != 0 || !d.tierOk (d.core k).part (d.partWorld (d.core k).part) a 16

def brNeeds (k : Nat) (d : Dev) (i : Ins) : Needs :=
  let l := d.lv k
  { used := [uA, uB, uSub, uImm 63 0], sregs := [i.a, i.b],
    faults := [(7 ≤ i.sub, 0x02),
      (i.sub < 7 && branchCond i.sub (l.s i.a) (l.s i.b) && d.badTarget k (branchTarget l.pc i.imm), 0x07)] }
/-- The effect runs after the instruction address has moved on, so the branch counts from 16 bytes before it. -/
def execBr (k : Fin 512) (w : BitVec 128) (s : State) : Host.Outcome State Fault Refusal :=
  s.run fun d => d.issue k 0x08 w (brNeeds k) fun i d => d.onLv k fun l =>
    if branchCond i.sub (l.s i.a) (l.s i.b) then { l with pc := branchTarget (l.pc + 2 ^ 48 - 16) i.imm } else l

def jmpNeeds (k : Nat) (d : Dev) (i : Ins) : Needs :=
  { used := [uD, uA, uImm 63 0], sregs := [i.d, i.a], faults := [(d.badTarget k (d.devAddr k i.a i.imm), 0x07)] }
def execJmp (k : Fin 512) (w : BitVec 128) (s : State) : Host.Outcome State Fault Refusal :=
  s.run fun d => d.issue k 0x09 w (jmpNeeds k) fun i d => d.onLv k fun l =>
    { l.setS i.d (BitVec.ofNat 64 l.pc) with pc := ((l.s i.a).toNat + i.imm) % 2 ^ 48 }

def rdltcNeeds (_ : Dev) (i : Ins) : Needs := { used := [uD], sregs := [i.d] }

/-- A read of the die's copy of the LTC: it lags by a free number of nanoseconds within the bounds of R46, at most 12 and
never back behind the core's last read (log entry 14). -/
def Dev.readLtc (d : Dev) (k : Nat) : Dev × Word :=
  let x := d.free
  let v := d.ltc - BitVec.ofNat 64 (x.2.toNat % (min 12 (d.ltc - (d.core k).ltcSeen).toNat + 1))
  (x.1.setCore k { d.core k with ltcSeen := v }, v)

/-- RDLTC (R128). -/
def execRdltc (k : Fin 512) (w : BitVec 128) (s : State) : Host.Outcome State Fault Refusal :=
  s.run fun d => d.issue k 0x0A w rdltcNeeds fun i d =>
    let x := d.readLtc k
    x.1.onLv k fun l => l.setS i.d x.2

def nopNeeds (_ : Dev) (_ : Ins) : Needs := { used := [] }
def execNop (k : Fin 512) (w : BitVec 128) (s : State) : Host.Outcome State Fault Refusal :=
  s.run fun d => d.issue k 0x0F w nopNeeds fun _ d => d

end Sys2Proof.Machine
end

