-- ==== Sys2Proof/Machine/Dispatch.lean ====
section
/-! DEFINITION. The meaning of each command, one arm per constructor of Instr. -/

namespace Sys2Proof.Machine

def exec (i : Instr) (s : State) : Host.Outcome State Fault Refusal :=
  match i with
  | .pwrEnRise lowMs => Sys2Proof.Machine.execPwrEnRise lowMs s
  | .railRampStart inRangeMs => Sys2Proof.Machine.execRailRampStart inRangeMs s
  | .pwrGoodRise afterMs => Sys2Proof.Machine.execPwrGoodRise afterMs s
  | .powerOnResetEnd slot => Sys2Proof.Machine.execPowerOnResetEnd slot s
  | .pwrEnFall => Sys2Proof.Machine.execPwrEnFall s
  | .railsDischarged => Sys2Proof.Machine.execRailsDischarged s
  | .brownOut deciVolts us => Sys2Proof.Machine.execBrownOut deciVolts us s
  | .coldReset lowNs => Sys2Proof.Machine.execColdReset lowNs s
  | .coldResetRelease slot => Sys2Proof.Machine.execColdResetRelease slot s
  | .warmRstNAssert lowNs => Sys2Proof.Machine.execWarmRstNAssert lowNs s
  | .warmRstNRise => Sys2Proof.Machine.execWarmRstNRise s
  | .modRstCtlWarm a v => Sys2Proof.Machine.execModRstCtlWarm a v s
  | .warmResetDone => Sys2Proof.Machine.execWarmResetDone s
  | .pwrbrkNFall => Sys2Proof.Machine.execPwrbrkNFall s
  | .pwrbrkNRise => Sys2Proof.Machine.execPwrbrkNRise s
  | .modPwrCapWrite a v => Sys2Proof.Machine.execModPwrCapWrite a v s
  | .temperatureRead temps watts => Sys2Proof.Machine.execTemperatureRead temps watts s
  | .refclkBLoss => Sys2Proof.Machine.execRefclkBLoss s
  | .refclkBReturn => Sys2Proof.Machine.execRefclkBReturn s
  | .refclkALoss => Sys2Proof.Machine.execRefclkALoss s
  | .modLtcRead a => Sys2Proof.Machine.execModLtcRead a s
  | .taskStart p => Sys2Proof.Machine.execTaskStart p s
  | .ibufLineArrival k => Sys2Proof.Machine.execIbufLineArrival k s
  | .sop k w => Sys2Proof.Machine.execSop k w s
  | .sopi k w => Sys2Proof.Machine.execSopi k w s
  | .smul k w => Sys2Proof.Machine.execSmul k w s
  | .sdiv k w => Sys2Proof.Machine.execSdiv k w s
  | .sli k w => Sys2Proof.Machine.execSli k w s
  | .sld k w => Sys2Proof.Machine.execSld k w s
  | .sst k w => Sys2Proof.Machine.execSst k w s
  | .br k w => Sys2Proof.Machine.execBr k w s
  | .jmp k w => Sys2Proof.Machine.execJmp k w s
  | .rdltc k w => Sys2Proof.Machine.execRdltc k w s
  | .nop k w => Sys2Proof.Machine.execNop k w s
  | .vop k w => Sys2Proof.Machine.execVop k w s
  | .vfma k w => Sys2Proof.Machine.execVfma k w s
  | .vcmp k w => Sys2Proof.Machine.execVcmp k w s
  | .vsel k w => Sys2Proof.Machine.execVsel k w s
  | .vfn k w => Sys2Proof.Machine.execVfn k w s
  | .vcvt k w => Sys2Proof.Machine.execVcvt k w s
  | .vred k w => Sys2Proof.Machine.execVred k w s
  | .vmvs k w => Sys2Proof.Machine.execVmvs k w s
  | .vld k w => Sys2Proof.Machine.execVld k w s
  | .vst k w => Sys2Proof.Machine.execVst k w s
  | .vacr k w => Sys2Proof.Machine.execVacr k w s
  | .vacw k w => Sys2Proof.Machine.execVacw k w s
  | .vrnd k w => Sys2Proof.Machine.execVrnd k w s
  | .mma k w => Sys2Proof.Machine.execMma k w s
  | .mmaDone k => Sys2Proof.Machine.execMmaDone k s
  | .astep k w => Sys2Proof.Machine.execAstep k w s
  | .anorm k w => Sys2Proof.Machine.execAnorm k w s
  | .kvq k w => Sys2Proof.Machine.execKvq k w s
  | .kvd k w => Sys2Proof.Machine.execKvd k w s
  | .drn k w => Sys2Proof.Machine.execDrn k w s
  | .tld k w => Sys2Proof.Machine.execTld k w s
  | .tldComplete k => Sys2Proof.Machine.execTldComplete k s
  | .tst k w => Sys2Proof.Machine.execTst k w s
  | .srel k w => Sys2Proof.Machine.execSrel k w s
  | .arel k w => Sys2Proof.Machine.execArel k w s
  | .submit k w => Sys2Proof.Machine.execSubmit k w s
  | .tend k w => Sys2Proof.Machine.execTend k w s
  | .tileCommitDone k => Sys2Proof.Machine.execTileCommitDone k s
  | .endTask k w => Sys2Proof.Machine.execEndTask k w s
  | .taskEnd k => Sys2Proof.Machine.execTaskEnd k s
  | .ewait k w => Sys2Proof.Machine.execEwait k w s
  | .ewaitSatisfied k => Sys2Proof.Machine.execEwaitSatisfied k s
  | .ewaitTimeout k => Sys2Proof.Machine.execEwaitTimeout k s
  | .esig k w => Sys2Proof.Machine.execEsig k w s
  | .gkey k w => Sys2Proof.Machine.execGkey k w s
  | .save k w => Sys2Proof.Machine.execSave k w s
  | .rstr k w => Sys2Proof.Machine.execRstr k w s
  | .taskResumeAfterRefetch k => Sys2Proof.Machine.execTaskResumeAfterRefetch k s
  | .tileOverrun k => Sys2Proof.Machine.execTileOverrun k s
  | .coreCtlHalt a k v => Sys2Proof.Machine.execCoreCtlHalt a k v s
  | .coreCtlDrain a k v => Sys2Proof.Machine.execCoreCtlDrain a k v s
  | .coreTileMaxRead a k => Sys2Proof.Machine.execCoreTileMaxRead a k s
  | .map a v => Sys2Proof.Machine.execMap a v s
  | .unmap a v => Sys2Proof.Machine.execUnmap a v s
  | .setAttributes a v => Sys2Proof.Machine.execSetAttributes a v s
  | .move a v => Sys2Proof.Machine.execMove a v s
  | .unmapDone => Sys2Proof.Machine.execUnmapDone s
  | .zeroingDone g => Sys2Proof.Machine.execZeroingDone g s
  | .migrationStart g => Sys2Proof.Machine.execMigrationStart g s
  | .migrationPassEnd g => Sys2Proof.Machine.execMigrationPassEnd g s
  | .migrationSwitchDone g => Sys2Proof.Machine.execMigrationSwitchDone g s
  | .heatHalve => Sys2Proof.Machine.execHeatHalve s
  | .refetchTileDone g tile chunk => Sys2Proof.Machine.execRefetchTileDone g tile chunk s
  | .tierPqWrite a p v => Sys2Proof.Machine.execTierPqWrite a p v s
  | .stageCacheAdjust p => Sys2Proof.Machine.execStageCacheAdjust p s
  | .strmCtlWrite a p st v => Sys2Proof.Machine.execStrmCtlWrite a p st v s
  | .streamAdvance p st => Sys2Proof.Machine.execStreamAdvance p st s
  | .stagingReadDone p tile => Sys2Proof.Machine.execStagingReadDone p tile s
  | .strmStsRead a p st => Sys2Proof.Machine.execStrmStsRead a p st s
  | .tierStatRead a => Sys2Proof.Machine.execTierStatRead a s
  | .cacheCqPiWrite a p v => Sys2Proof.Machine.execCacheCqPiWrite a p v s
  | .cacheStepBoundary p => Sys2Proof.Machine.execCacheStepBoundary p s
  | .cacheOpen p => Sys2Proof.Machine.execCacheOpen p s
  | .cachePause p => Sys2Proof.Machine.execCachePause p s
  | .cacheResume p => Sys2Proof.Machine.execCacheResume p s
  | .cacheFree p => Sys2Proof.Machine.execCacheFree p s
  | .cacheReceive p => Sys2Proof.Machine.execCacheReceive p s
  | .cacheShip p => Sys2Proof.Machine.execCacheShip p s
  | .bankingCopyDone p q => Sys2Proof.Machine.execBankingCopyDone p q s
  | .restoringCopyDone p q => Sys2Proof.Machine.execRestoringCopyDone p q s
  | .sequenceExpiry p q => Sys2Proof.Machine.execSequenceExpiry p q s
  | .shipTileArrival p q item crcOk => Sys2Proof.Machine.execShipTileArrival p q item crcOk s
  | .arrivalComplete p q => Sys2Proof.Machine.execArrivalComplete p q s
  | .shipAcknowledgement p q => Sys2Proof.Machine.execShipAcknowledgement p q s
  | .shipAbortReceive p q => Sys2Proof.Machine.execShipAbortReceive p q s
  | .arrivalTimeout p q => Sys2Proof.Machine.execArrivalTimeout p q s
  | .shipAckTimeout p q => Sys2Proof.Machine.execShipAckTimeout p q s
  | .cacheCtlWrite a p v => Sys2Proof.Machine.execCacheCtlWrite a p v s
  | .cacheStatRead a p => Sys2Proof.Machine.execCacheStatRead a p s
  | .admitReq a p v => Sys2Proof.Machine.execAdmitReq a p v s
  | .cancel a p v => Sys2Proof.Machine.execCancel a p v s
  | .release a p v => Sys2Proof.Machine.execRelease a p v s
  | .draftOn a p v => Sys2Proof.Machine.execDraftOn a p v s
  | .geyserDescriptorStart die => Sys2Proof.Machine.execGeyserDescriptorStart die s
  | .geyserRowCommit die => Sys2Proof.Machine.execGeyserRowCommit die s
  | .geyserDescriptorDone die => Sys2Proof.Machine.execGeyserDescriptorDone die s
  | .geyserPoisonResume die => Sys2Proof.Machine.execGeyserPoisonResume die s
  | .dampStepWrite a p v => Sys2Proof.Machine.execDampStepWrite a p v s
  | .damperStepEnd p k => Sys2Proof.Machine.execDamperStepEnd p k s
  | .dampCtlWrite a p v => Sys2Proof.Machine.execDampCtlWrite a p v s
  | .dampStatRead a p => Sys2Proof.Machine.execDampStatRead a p s
  | .lrnGenWrite a p c v => Sys2Proof.Machine.execLrnGenWrite a p c v s
  | .lrnPstepWrite a p v => Sys2Proof.Machine.execLrnPstepWrite a p v s
  | .lrnPtraceWrite a p v => Sys2Proof.Machine.execLrnPtraceWrite a p v s
  | .ashRecordStart a p v => Sys2Proof.Machine.execAshRecordStart a p v s
  | .ashRecordStop a p v => Sys2Proof.Machine.execAshRecordStop a p v s
  | .lrnAshAppWrite a p v => Sys2Proof.Machine.execLrnAshAppWrite a p v s
  | .stoveWindowWrite p win offset data poisoned => Sys2Proof.Machine.execStoveWindowWrite p win offset data poisoned s
  | .stvWinWrite a p win word v => Sys2Proof.Machine.execStvWinWrite a p win word v s
  | .update a p v => Sys2Proof.Machine.execUpdate a p v s
  | .scan a p v => Sys2Proof.Machine.execScan a p v s
  | .zero a p v => Sys2Proof.Machine.execZero a p v s
  | .mirror a p v => Sys2Proof.Machine.execMirror a p v s
  | .pull a p v slabs => Sys2Proof.Machine.execPull a p v slabs s
  | .stoveCommandDone p => Sys2Proof.Machine.execStoveCommandDone p s
  | .mirrorReceive p m => Sys2Proof.Machine.execMirrorReceive p m s
  | .mirrorAckReceive p entry accepted => Sys2Proof.Machine.execMirrorAckReceive p entry accepted s
  | .mirrorTimeout p => Sys2Proof.Machine.execMirrorTimeout p s
  | .stovePoisonResume p => Sys2Proof.Machine.execStovePoisonResume p s
  | .openSlot a p v => Sys2Proof.Machine.execOpenSlot a p v s
  | .verify a p v => Sys2Proof.Machine.execVerify a p v s
  | .fetch a p v => Sys2Proof.Machine.execFetch a p v s
  | .abort a p v => Sys2Proof.Machine.execAbort a p v s
  | .commitOpen a p v => Sys2Proof.Machine.execCommitOpen a p v s
  | .ready a p v => Sys2Proof.Machine.execReady a p v s
  | .fail a p v => Sys2Proof.Machine.execFail a p v s
  | .freeze a p v => Sys2Proof.Machine.execFreeze a p v s
  | .forceCommit a p v => Sys2Proof.Machine.execForceCommit a p v s
  | .abandon a p v => Sys2Proof.Machine.execAbandon a p v s
  | .releaseSlot a p v => Sys2Proof.Machine.execReleaseSlot a p v s
  | .chunkAttemptEnd p chunk r => Sys2Proof.Machine.execChunkAttemptEnd p chunk r s
  | .chunkAttemptTimeout p chunk => Sys2Proof.Machine.execChunkAttemptTimeout p chunk s
  | .loadFailed p => Sys2Proof.Machine.execLoadFailed p s
  | .commitOpenReceive p slot group epoch => Sys2Proof.Machine.execCommitOpenReceive p slot group epoch s
  | .commitTimeout p => Sys2Proof.Machine.execCommitTimeout p s
  | .commitBarrierComplete p allYes => Sys2Proof.Machine.execCommitBarrierComplete p allYes s
  | .flueDescriptorStart die => Sys2Proof.Machine.execFlueDescriptorStart die s
  | .flueDescriptorDone die => Sys2Proof.Machine.execFlueDescriptorDone die s
  | .fluePoisonResume die => Sys2Proof.Machine.execFluePoisonResume die s
  | .fabricPortTrained n lanes => Sys2Proof.Machine.execFabricPortTrained n lanes s
  | .helloSend n => Sys2Proof.Machine.execHelloSend n s
  | .helloReceive n h => Sys2Proof.Machine.execHelloReceive n h s
  | .fabricPortLoss n => Sys2Proof.Machine.execFabricPortLoss n s
  | .portSleepRequest n => Sys2Proof.Machine.execPortSleepRequest n s
  | .portWake n => Sys2Proof.Machine.execPortWake n s
  | .portHalfIdle n idle => Sys2Proof.Machine.execPortHalfIdle n idle s
  | .fabIdWrite a v => Sys2Proof.Machine.execFabIdWrite a v s
  | .stackJoinReceive src index => Sys2Proof.Machine.execStackJoinReceive src index s
  | .fabFloodWrite a v => Sys2Proof.Machine.execFabFloodWrite a v s
  | .floodReceive src system => Sys2Proof.Machine.execFloodReceive src system s
  | .fabRtDataAccess a write => Sys2Proof.Machine.execFabRtDataAccess a write s
  | .packetReceive n pkt crc => Sys2Proof.Machine.execPacketReceive n pkt crc s
  | .ackReceive src vc fseq => Sys2Proof.Machine.execAckReceive src vc fseq s
  | .flowResendTimeout dst vc => Sys2Proof.Machine.execFlowResendTimeout dst vc s
  | .create a v => Sys2Proof.Machine.execCreate a v s
  | .destroy a v => Sys2Proof.Machine.execDestroy a v s
  | .groupJoinDone g crcsEqual anyV1 => Sys2Proof.Machine.execGroupJoinDone g crcsEqual anyV1 s
  | .groupJoinTimeout g => Sys2Proof.Machine.execGroupJoinTimeout g s
  | .fabBlwSubWrite a e v => Sys2Proof.Machine.execFabBlwSubWrite a e v s
  | .bellowsDescriptorStart e => Sys2Proof.Machine.execBellowsDescriptorStart e s
  | .segmentArrival seg => Sys2Proof.Machine.execSegmentArrival seg s
  | .collectiveComplete g => Sys2Proof.Machine.execCollectiveComplete g s
  | .collectiveAbortReceive g status => Sys2Proof.Machine.execCollectiveAbortReceive g status s
  | .bellowsPoisonResume g => Sys2Proof.Machine.execBellowsPoisonResume g s
  | .emberOperationReceive p e op => Sys2Proof.Machine.execEmberOperationReceive p e op s
  | .fabStatRead a port => Sys2Proof.Machine.execFabStatRead a port s
  | .vexioCapabilityExchange n lowest highest feat => Sys2Proof.Machine.execVexioCapabilityExchange n lowest highest feat s
  | .idleFlitSend n => Sys2Proof.Machine.execIdleFlitSend n s
  | .vexioPortLoss n => Sys2Proof.Machine.execVexioPortLoss n s
  | .vexioSleep n agreed => Sys2Proof.Machine.execVexioSleep n agreed s
  | .linkLost => Sys2Proof.Machine.execLinkLost s
  | .companionRequest secure r => Sys2Proof.Machine.execCompanionRequest secure r s
  | .vwqDbWrite a p q v => Sys2Proof.Machine.execVwqDbWrite a p q v s
  | .vwqWqEnWrite a p q v => Sys2Proof.Machine.execVwqWqEnWrite a p q v s
  | .workEntryPass p q => Sys2Proof.Machine.execWorkEntryPass p q s
  | .vwqNpopRead a p => Sys2Proof.Machine.execVwqNpopRead a p s
  | .noticePopHoldExpiry p => Sys2Proof.Machine.execNoticePopHoldExpiry p s
  | .vexVecWrite a ix v => Sys2Proof.Machine.execVexVecWrite a ix v s
  | .vexStsRead a => Sys2Proof.Machine.execVexStsRead a s
  | .dmaIdxWrite a c v => Sys2Proof.Machine.execDmaIdxWrite a c v s
  | .dmaCtlEnWrite a c v => Sys2Proof.Machine.execDmaCtlEnWrite a c v s
  | .dmaAbort a c v => Sys2Proof.Machine.execDmaAbort a c v s
  | .dmaResume a c v => Sys2Proof.Machine.execDmaResume a c v s
  | .dmaDescriptorStart c => Sys2Proof.Machine.execDmaDescriptorStart c s
  | .dmaBurstDone c error => Sys2Proof.Machine.execDmaBurstDone c error s
  | .dmaDescriptorComplete c => Sys2Proof.Machine.execDmaDescriptorComplete c s
  | .dmaCrcFeedWrite a c nbytes v => Sys2Proof.Machine.execDmaCrcFeedWrite a c nbytes v s
  | .dmaCrcValWrite a c v => Sys2Proof.Machine.execDmaCrcValWrite a c v s
  | .dmaCrcInit a c v => Sys2Proof.Machine.execDmaCrcInit a c v s
  | .partCtlEnWrite a p v => Sys2Proof.Machine.execPartCtlEnWrite a p v s
  | .partCtlDisable a p v => Sys2Proof.Machine.execPartCtlDisable a p v s
  | .partCtxEnWrite a p c v => Sys2Proof.Machine.execPartCtxEnWrite a p c v s
  | .partCtxPrioWrite a p c v => Sys2Proof.Machine.execPartCtxPrioWrite a p c v s
  | .partTpostWrite a p v => Sys2Proof.Machine.execPartTpostWrite a p v s
  | .tpostDescriptorRead p => Sys2Proof.Machine.execTpostDescriptorRead p s
  | .sliceExpiry p => Sys2Proof.Machine.execSliceExpiry p s
  | .contextSwitchStart p => Sys2Proof.Machine.execContextSwitchStart p s
  | .coreAtRest k => Sys2Proof.Machine.execCoreAtRest k s
  | .switchSaveDone p => Sys2Proof.Machine.execSwitchSaveDone p s
  | .switchRestoreDone p badCores => Sys2Proof.Machine.execSwitchRestoreDone p badCores s
  | .partSwRead a p => Sys2Proof.Machine.execPartSwRead a p s
  | .partStatRead a p => Sys2Proof.Machine.execPartStatRead a p s
  | .emberSignal p e op => Sys2Proof.Machine.execEmberSignal p e op s
  | .embCfgWrite a e v => Sys2Proof.Machine.execEmbCfgWrite a e v s
  | .bootRomStart fenA fenB => Sys2Proof.Machine.execBootRomStart fenA fenB s
  | .imageVerify which first second => Sys2Proof.Machine.execImageVerify which first second s
  | .fenKeyLock a slot v => Sys2Proof.Machine.execFenKeyLock a slot v s
  | .fenArbWrite a v => Sys2Proof.Machine.execFenArbWrite a v s
  | .arbBitBurned => Sys2Proof.Machine.execArbBitBurned s
  | .debugUnlockToken tok => Sys2Proof.Machine.execDebugUnlockToken tok s
  | .spdmRequest i3c msg => Sys2Proof.Machine.execSpdmRequest i3c msg s
  | .recoveryFirmwareUpdate flashOffset data => Sys2Proof.Machine.execRecoveryFirmwareUpdate flashOffset data s
  | .serviceLevelRise r => Sys2Proof.Machine.execServiceLevelRise r s
  | .modSlTargetWrite a v => Sys2Proof.Machine.execModSlTargetWrite a v s
  | .cclkChange => Sys2Proof.Machine.execCclkChange s
  | .correctedError e => Sys2Proof.Machine.execCorrectedError e s
  | .deferredError e => Sys2Proof.Machine.execDeferredError e s
  | .containedError e => Sys2Proof.Machine.execContainedError e s
  | .fatalError e => Sys2Proof.Machine.execFatalError e s
  | .selfTestDone unit place r => Sys2Proof.Machine.execSelfTestDone unit place r s
  | .frameRetireDone g => Sys2Proof.Machine.execFrameRetireDone g s
  | .errStatRead a => Sys2Proof.Machine.execErrStatRead a s
  | .blkCtlReset a page v => Sys2Proof.Machine.execBlkCtlReset a page v s
  | .blockResetDone page => Sys2Proof.Machine.execBlockResetDone page s
  | .intSetWrite a page v => Sys2Proof.Machine.execIntSetWrite a page v s
  | .intEnWrite a page v => Sys2Proof.Machine.execIntEnWrite a page v s
  | .softwareClaim a page off v => Sys2Proof.Machine.execSoftwareClaim a page off v s
  | .softwareRelease a page off v => Sys2Proof.Machine.execSoftwareRelease a page off v s
  | .worldWrite a page v => Sys2Proof.Machine.execWorldWrite a page v s
  | .reservedRegisterAccess a page off => Sys2Proof.Machine.execReservedRegisterAccess a page off s
  | .badWidthAccess a page off nbytes isWrite => Sys2Proof.Machine.execBadWidthAccess a page off nbytes isWrite s
  | .modTclmArmWrite a n v => Sys2Proof.Machine.execModTclmArmWrite a n v s
  | .comparatorFire n => Sys2Proof.Machine.execComparatorFire n s
  | .ethPortEnWrite a n v => Sys2Proof.Machine.execEthPortEnWrite a n v s
  | .ethPortRead a n => Sys2Proof.Machine.execEthPortRead a n s
  | .attReqGo a v => Sys2Proof.Machine.execAttReqGo a v s
  | .attResponseReady packet => Sys2Proof.Machine.execAttResponseReady packet s
  | .attRspReadyClear a v => Sys2Proof.Machine.execAttRspReadyClear a v s
  | .registerWrite a page off v => Sys2Proof.Machine.execRegisterWrite a page off v s
  | .traceRecordWritten p => Sys2Proof.Machine.execTraceRecordWritten p s
  | .companionResponse r => Sys2Proof.Machine.execCompanionResponse r s
  | .vexioPortWake n => Sys2Proof.Machine.execVexioPortWake n s
  | .ethernetPortTrained n => Sys2Proof.Machine.execEthernetPortTrained n s
  | .ethernetLinkDown n conn => Sys2Proof.Machine.execEthernetLinkDown n conn s
  | .ethernetPacketReceive n frame => Sys2Proof.Machine.execEthernetPacketReceive n frame s

end Sys2Proof.Machine
end

