-- ==== Sys2Proof/Machine/Step.lean ====
section
/-! DEFINITION. One step of the block: the command at the front of the queue, or a tick of the local time counter. -/

namespace Sys2Proof.Machine

/-- One nanosecond of the Local Time Counter (R46), with nothing commanded (log entry 3): the tier engine keeps what the
prefetch streams want staged (R184), the ash recorder takes up prepared records (R260), the Stove dies take up window adds and mirrors
that wait (R267, R279); commands that wait for what they read look again (R180, R346). -/
def Dev.tick (d : Dev) : Dev :=
  let d := if d.live then d.keepStaged.takeApps.tickStoves.tickLoads.ackPuts.retryCreate else d
  if d.ltcOn then { d with ltc := d.ltc + 1 } else d

/-- The command at the front of the queue runs on the state with the queue's rest; with none waiting, time passes. -/
def step (s : State) : Host.Outcome State Fault Refusal :=
  match s.pending with
  | [] => .next { s with dev := s.dev.tick }
  | c :: rest => exec c { s with pending := rest }

/-- The state with the command that a word spells put at the front of the queue; unchanged where it spells none. -/
def State.withFetchWord (s : State) (nbits w : Nat) : State :=
  match decodeTableWord nbits w with
  | some c => { s with pending := c :: s.pending }
  | none => s

end Sys2Proof.Machine
end

