-- ==== Sys2Proof/Safety.lean ====
section
/-! DEFINITION. What counts as a safe state of the block: the canonical forms of its tables, and limits the spec sets. -/

namespace Sys2Proof.Safety

open Sys2Proof.Machine

/-- The memory of the block is in its canonical form: addresses strictly rising, no listed byte 0. -/
abbrev MemoryWf (s : State) : Prop := Tab.wf (fun _ => (0 : Byte)) s.dev.mem = true

/-- The register file is in its canonical form: no register listed that holds its reset value. -/
abbrev RegsWf (s : State) : Prop := Tab.wf regReset s.dev.regs = true

/-- The state with its device changed; the commands that wait stay. -/
def on (s : State) (f : Dev → Dev) : State := { s with dev := f s.dev }

/-- The command completes: exec answers a next state with the same commands waiting, of whose device P holds. -/
def Runs (c : Instr) (s : State) (P : Dev → Prop) : Prop := ∃ e : Dev, exec c s = .next { s with dev := e } ∧ P e

/-- The word w is the next instruction of core k, its opcode is op, and nothing keeps it from taking effect now: no fault,
no dependence on an earlier instruction, no tile that must end first, no poisoned operand. -/
def Ready (s : State) (k op : Nat) (w : BitVec 128) (needs : Dev → Ins → Needs) : Prop :=
  s.dev.issues k op w = true ∧ s.dev.clear k w (needs s.dev (Ins.of w)) = true

/-- Core k with its instruction address 16 bytes on, the open tile holding the instruction, and its registers, flags and
tiles changed by f; everything else in the device is as before. -/
def retire (s : State) (k : Nat) (n : Needs) (f : Live → Live) : State :=
  let c := s.dev.core k
  on s fun d => d.setCore k
    { c with begun := false, tileOpen := some (c.tileOpen.getD d.now), carry := c.carry || c.carries n,
             live := f { c.live with pc := (c.live.pc + 16) % 2 ^ 48 } }

/-- Nothing but one core differs. -/
def OnlyCore (k : Nat) (d e : Dev) : Prop := e = d.setCore k (e.core k)

/-- Nothing but one core, its scratchpad's bytes and their poison differs. -/
def OnlyCoreAndScratch (k : Nat) (d e : Dev) : Prop :=
  e = { d with cores := e.cores, mem := e.mem, poison := e.poison } ∧ (∀ j, j ≠ k → e.core j = d.core j) ∧
    ∀ x, x < scratchAddr k 0 ∨ scratchAddr (k + 1) 0 ≤ x → e.load x 1 = d.load x 1

/-- What an instruction on lanes leaves: lane j of vector register r is f j, the sticky flags gain those of all lanes, the
instruction address moves on, and every other vector register, the scalar registers, the tiles, the segments, the
generators and everything outside core k are as before. -/
def WritesLanes (s : State) (k r : Nat) (f : Nat → Lane × NFlags) (e : Dev) : Prop :=
  let l := s.dev.lv k
  OnlyCore k s.dev e ∧
  e.core k = { s.dev.core k with begun := false, tileOpen := (e.core k).tileOpen, carry := (e.core k).carry, live := e.lv k } ∧
  (∀ j, j < 128 → (e.lv k).lane r j = (f j).1) ∧
  (∀ q j, q ≠ r → j < 128 → (e.lv k).lane q j = l.lane q j) ∧
  e.lv k = { l with pc := (l.pc + 16) % 2 ^ 48, vregs := (e.lv k).vregs, flags := l.flags.or (eachF (List.range 128) f).2 }

/-- Nothing but registers of register space and messages sent outside differs. -/
def OnlyRegs (d e : Dev) : Prop := e = { d with regs := e.regs, out := e.out }

/-- Nothing but the state of the module's pins, rails, clocks and resets differs. -/
def OnlyPower (d e : Dev) : Prop := e = { d with pow := e.pow }

/-- Nothing but one partition's own state, registers and messages sent outside differs. -/
def OnlyPart (p : Nat) (d e : Dev) : Prop := e = { d with regs := e.regs, out := e.out, parts := e.parts } ∧ ∀ q, q ≠ p → e.part q = d.part q

/-- Every byte of memory, and its poison, is as before. -/
def SameMemory (d e : Dev) : Prop := e.mem = d.mem ∧ e.poison = d.poison

/-- A write of n bytes at a goes straight to memory: the range lies in the tier range, no granule of it holds writes while
it switches, and no accumulate window of the partition that owns it meets it. -/
def Direct (d : Dev) (a n : Nat) : Prop :=
  a + n ≤ 0x030000000000 ∧ (∀ g ∈ granules a n, (d.gran g).state ≠ stSwitching) ∧
    d.windowAt (d.gran (a / granBytes)).part a n = none

/-- Two ranges of memory have no byte in common. -/
def Apart (a n b m : Nat) : Prop := a + n ≤ b ∨ b + m ≤ a

/-- Ranges of memory that can each be written, no two of which overlap. -/
def Separate (d : Dev) (rs : List (Nat × Nat)) : Prop :=
  (∀ r ∈ rs, Direct d r.1 r.2) ∧ rs.Pairwise fun q r => Apart q.1 q.2 r.1 r.2

/-- Every byte of memory outside the ranges is as before. -/
def OutsideSame (rs : List (Nat × Nat)) (d e : Dev) : Prop := ∀ x, (∀ r ∈ rs, Apart r.1 r.2 x 1) → e.load x 1 = d.load x 1

/-- A range that lies apart from another and meets no accumulate window of the partition that owns its first granule: a write
of it leaves the other as it is. -/
def Clear (d : Dev) (a n b m : Nat) : Prop := Apart a n b m ∧ d.windowAt (d.gran (a / granBytes)).part a n = none

/-- The record of a sequence can be written, and neither a write of its page list nor of its tails reaches it: what the tables of
an enabled cache manager are for. -/
def RecordSound (d : Dev) (p q : Nat) : Prop :=
  Direct d (d.seqAt p q) 64 ∧ (∀ i, i < 8192 → Clear d (d.pageEntry p q i) 4 (d.seqAt p q) 64) ∧
    ∀ t c, t < d.cTpp p → c < 2 * d.cCb p → Clear d (d.tailAddr p q t c) 4096 (d.seqAt p q) 64

end Sys2Proof.Safety
end

