-- ==== Sys2Proof/Certificates/Slice0/Obligations.lean ====
section
/-! DEFINITION. The statements about the block that the provers are asked for. -/

open Sys2Proof Sys2Proof.Machine Sys2Proof.Safety

/-- A step with a command c at the front of the queue answers what exec answers for c on the state with the rest of the queue. The queue is the model's form of what reaches the block from outside. A step with no command waiting is one nanosecond of the device, with nothing commanded: the Local Time Counter advances by 1 while it counts, and a device that is not live, or in which no prefetch stream is enabled and no partition or fabric engine holds anything that waits, does nothing else; that such a step is a tick of the counter is the model's choice (log entry 3). (00_scope, 02_module.) -/
def Obligations.StepRunsFrontCommand : Prop :=
  (∀ (c : Instr) (rest : List Instr) (d : Dev), Machine.step { pending := c :: rest, dev := d } = exec c { pending := rest, dev := d }) ∧
  ∀ s : State, s.pending = [] → let d := s.dev
    Machine.step s = .next { pending := [], dev := d.tick } ∧
    (d.live = false ∨ (d.parts = [] ∧ d.fab.puts = [] ∧ d.fab.creating = none ∧ ∀ p t, d.strmOn p t = false) →
      d.tick = if d.ltcOn = true then { d with ltc := d.ltc + 1 } else d)

/-- For every command and state, if exec answers a next state, the commands that wait in it are those that waited before. Every step that runs a command therefore shortens the queue by exactly one. (00_scope.) -/
def Obligations.ExecKeepsQueue : Prop :=
  (∀ (c : Instr) (s t : State), exec c s = .next t → t.pending = s.pending) ∧
  ∀ (c : Instr) (rest : List Instr) (d : Dev) (t : State),
    Machine.step { pending := c :: rest, dev := d } = .next t → t.pending = rest

/-- exec refuses no command. It faults on none but PACKET_RECEIVE, and on that one exactly when an undamaged packet for this device, of one of the type codes 1110b and 1111b that R322 reserves, arrives at a port that is up on a live device with an identity. (12_fabric.) -/
def Obligations.OnlyReservedPacketsStop : Prop :=
  (∀ (c : Instr) (s : State) (r : Refusal), exec c s ≠ .refused r) ∧
  (∀ (c : Instr) (s : State) (f : Fault), exec c s = .fault f → ∃ n pkt crc, c = .packetReceive n pkt crc) ∧
  ∀ (n : Fin 24) (pkt : Packet) (crc : BitVec 32) (s : State),
    exec (.packetReceive n pkt crc) s = .fault .reservedPacketType ↔
      s.dev.live = true ∧ s.dev.portState n = portUp ∧ crc.toNat = packetCrc pkt ∧ s.dev.bit pFAB rFAB_ID.off 63 = true
        ∧ pkt.dst = s.dev.id ∧ 14 ≤ pkt.type

/-- For every pair of 64-bit operands: the thirteen operations of SOP and SOPI as R124's table gives them, said of the operands' unsigned and two's-complement values, and SMUL's halves, SDIV's quotients and remainders and both of its corners as R125 gives them. (R124, R125.) -/
def Obligations.ScalarTables : Prop :=
  ∀ x y : Word,
    (scalarOp 0 x y).toNat = (x.toNat + y.toNat) % 2 ^ 64 ∧
    (scalarOp 1 x y).toNat = (x.toNat + (2 ^ 64 - y.toNat)) % 2 ^ 64 ∧
    (∀ j, (scalarOp 2 x y).getLsbD j = (x.getLsbD j && y.getLsbD j)) ∧
    (∀ j, (scalarOp 3 x y).getLsbD j = (x.getLsbD j || y.getLsbD j)) ∧
    (∀ j, (scalarOp 4 x y).getLsbD j = (x.getLsbD j ^^ y.getLsbD j)) ∧
    (scalarOp 5 x y).toNat = x.toNat * 2 ^ (y.toNat % 64) % 2 ^ 64 ∧
    (scalarOp 6 x y).toInt = x.toInt / 2 ^ (y.toNat % 64) ∧
    (scalarOp 7 x y).toNat = x.toNat / 2 ^ (y.toNat % 64) ∧
    (scalarOp 8 x y = if x.toInt < y.toInt then 1 else 0) ∧
    (scalarOp 9 x y = if x.toNat < y.toNat then 1 else 0) ∧
    (scalarOp 10 x y = if x = y then 1 else 0) ∧
    (scalarOp 11 x y).toInt = min x.toInt y.toInt ∧
    (scalarOp 12 x y).toInt = max x.toInt y.toInt ∧
    (∀ u, (mulOp false u x y).toNat = x.toNat * y.toNat % 2 ^ 64) ∧
    (mulOp true false x y).toInt = x.toInt * y.toInt / 2 ^ 64 ∧
    (mulOp true true x y).toNat = x.toNat * y.toNat / 2 ^ 64 ∧
    (y ≠ 0 → (divOp false true x y).toNat = x.toNat / y.toNat ∧ (divOp true true x y).toNat = x.toNat % y.toNat) ∧
    (y ≠ 0 → ¬(x.toInt = -2 ^ 63 ∧ y.toInt = -1) →
      (divOp false false x y).toInt = x.toInt.tdiv y.toInt ∧ (divOp true false x y).toInt = x.toInt.tmod y.toInt) ∧
    (x.toInt = -2 ^ 63 ∧ y.toInt = -1 → (divOp false false x y).toInt = -2 ^ 63 ∧ divOp true false x y = 0) ∧
    (∀ u, y = 0 → divOp false u x y = BitVec.allOnes 64 ∧ divOp true u x y = x)

/-- When such an instruction is ready, the core's register s[d] takes the result of its table (a write of s0 is discarded), SLI's is its immediate; NOP writes nothing. RDLTC's is a value at most 12 ns behind the Local Time Counter and not behind the value the core read last, which value the core remembers; how far it lags is one free value of the model, the copy's lag. The instruction address moves on by 16 bytes, the instruction belongs to the open tile, and every other register, tile, segment and flag of the core, every other core, all of memory and every register of register space is as before. (R46, R49, R124, R125, R126, R128.) -/
def Obligations.ScalarCompletes : Prop :=
  ∀ (k : Fin 512) (w : BitVec 128) (s : State), let i := Ins.of w; let l := s.dev.lv k
    (Ready s k 0x01 w sopNeeds → exec (.sop k w) s = .next (retire s k (sopNeeds s.dev i) fun m =>
      m.setS i.d (scalarOp i.sub (l.s i.a) (l.s i.b)))) ∧
    (Ready s k 0x02 w sopiNeeds → exec (.sopi k w) s = .next (retire s k (sopiNeeds s.dev i) fun m =>
      m.setS i.d (scalarOp i.sub (l.s i.a) (BitVec.ofNat 64 i.imm)))) ∧
    (Ready s k 0x03 w mulNeeds → exec (.smul k w) s = .next (retire s k (mulNeeds s.dev i) fun m =>
      m.setS i.d (mulOp (i.mod 0) (i.mod 1) (l.s i.a) (l.s i.b)))) ∧
    (Ready s k 0x04 w divNeeds → exec (.sdiv k w) s = .next (retire s k (divNeeds s.dev i) fun m =>
      m.setS i.d (divOp (i.mod 0) (i.mod 1) (l.s i.a) (l.s i.b)))) ∧
    (Ready s k 0x05 w sliNeeds → exec (.sli k w) s = .next (retire s k (sliNeeds s.dev i) fun m =>
      m.setS i.d (BitVec.ofNat 64 i.imm))) ∧
    (Ready s k 0x0A w rdltcNeeds → ∃ v : Word, (s.dev.ltc - v).toNat ≤ 12 ∧
      (v - (s.dev.core k).ltcSeen).toNat ≤ (s.dev.ltc - (s.dev.core k).ltcSeen).toNat ∧
      exec (.rdltc k w) s = .next (retire (on s fun d => ({ d with fresh := d.fresh + 1 }).setCore k { d.core k with ltcSeen := v })
        k (rdltcNeeds s.dev i) fun m => m.setS i.d v)) ∧
    (Ready s k 0x0F w nopNeeds → exec (.nop k w) s = .next (retire s k (nopNeeds s.dev i) fun m => m))

/-- When it is ready, SLD puts into s[d] the little-endian number at scratchpad address s[a] + imm[23:0] and changes no byte of memory. SST makes the 8 bytes at that address the bytes of s[b], lowest first, leaves every byte outside them as before, changes no register, and makes the segment that holds them live. (R5, R56, R119, R126.) -/
def Obligations.ScalarMemoryCompletes : Prop :=
  ∀ (k : Fin 512) (w : BitVec 128) (s : State), let i := Ins.of w; let l := s.dev.lv k
    let a := ((l.s i.a).toNat + i.imm) % 2 ^ 64
    (Ready s k 0x06 w (sldNeeds k) → exec (.sld k w) s = .next (retire s k (sldNeeds k s.dev i) fun m =>
      m.setS i.d (BitVec.ofNat 64 (leNat (s.dev.load (scratchAddr k a) 8))))) ∧
    (Ready s k 0x07 w (sstNeeds k) → Runs (.sst k w) s fun e =>
      e.load (scratchAddr k a) 8 = natLe 8 (l.s i.b).toNat ∧
      (∀ x, x < scratchAddr k a ∨ scratchAddr k a + 8 ≤ x → e.load x 1 = s.dev.load x 1) ∧
      (e.lv k).sregs = l.sregs ∧ (e.lv k).vregs = l.vregs ∧ (e.lv k).acc = l.acc ∧ (e.lv k).pc = (l.pc + 16) % 2 ^ 48 ∧
      (a / 0x40000) ∈ (e.lv k).segLive ∧ (∀ j, j ≠ k.val → e.core j = s.dev.core j) ∧ e.regs = s.dev.regs)

/-- When it is ready, BR continues at its own address plus imm modulo 2^48 if its condition holds, else with the next instruction, and changes no register; the conditions are those of R127's list, and the reserved ones have fault code 0x02. JMP writes the address of the next instruction to s[d] and continues at s[a] + imm modulo 2^48. A taken BR, and every JMP, whose target is not a multiple of 16, or is not one that the core may read in the tier range, has fault code 0x07; a BR whose condition does not hold has none, whatever its target, when no field is wrong. (R127.) -/
def Obligations.BranchesComplete : Prop :=
  (∀ x y : Word, branchCond 0 x y = true ∧ (branchCond 1 x y = true ↔ x = y) ∧ (branchCond 2 x y = true ↔ x ≠ y) ∧
    (branchCond 3 x y = true ↔ x.toInt < y.toInt) ∧ (branchCond 4 x y = true ↔ y.toInt ≤ x.toInt) ∧
    (branchCond 5 x y = true ↔ x.toNat < y.toNat) ∧ (branchCond 6 x y = true ↔ y.toNat ≤ x.toNat)) ∧
  ∀ (k : Fin 512) (w : BitVec 128) (s : State), let i := Ins.of w; let l := s.dev.lv k; let p := (s.dev.core k).part
    let bad := fun a => a % 16 ≠ 0 ∨ s.dev.tierOk p (s.dev.partWorld p) a 16 = false
    (Ready s k 0x08 w (brNeeds k) → exec (.br k w) s = .next (retire s k (brNeeds k s.dev i) fun m =>
      if branchCond i.sub (l.s i.a) (l.s i.b) then { m with pc := (l.pc + i.imm) % 2 ^ 48 } else m)) ∧
    (Ready s k 0x09 w (jmpNeeds k) → exec (.jmp k w) s = .next (retire s k (jmpNeeds k s.dev i) fun m =>
      { m.setS i.d (BitVec.ofNat 64 ((l.pc + 16) % 2 ^ 48)) with pc := ((l.s i.a).toNat + i.imm) % 2 ^ 48 })) ∧
    (7 ≤ i.sub → unusedSet w (brNeeds k s.dev i).used = false → (brNeeds k s.dev i).code w = 0x02) ∧
    (i.sub < 7 → unusedSet w (brNeeds k s.dev i).used = false → ((brNeeds k s.dev i).code w = 0x07 ↔
      branchCond i.sub (l.s i.a) (l.s i.b) = true ∧ bad ((l.pc + i.imm) % 2 ^ 48))) ∧
    (unusedSet w (jmpNeeds k s.dev i).used = false → ((jmpNeeds k s.dev i).code w = 0x07 ↔
      bad (((l.s i.a).toNat + i.imm) % 2 ^ 48)))

/-- When it is ready, each of VOP, VFMA, VCMP, VSEL, VFN, VCVT, VLD and, in the keyed mode, VRND writes lane j of v[d] from lane j of its operands (an s operand gives every lane the low word of the register; VLD takes element j of the record), ORs the lanes' flags into the sticky flags, and changes no other lane of any vector register, no scalar register, no tile, no segment, no byte of memory, nothing outside its core. (R136, R137, R138, R139, R140, R142, R144, R68.) -/
def Obligations.VectorLanesComplete : Prop :=
  ∀ (k : Fin 512) (w : BitVec 128) (s : State), let i := Ins.of w; let l := s.dev.lv k
    (Ready s k 0x20 w vopNeeds → Runs (.vop k w) s (WritesLanes s k i.d fun j =>
      vectorOp i.sub (l.lane i.a j) (if i.mod 0 then (l.s i.b).setWidth 32 else l.lane i.b j))) ∧
    (Ready s k 0x21 w vfmaNeeds → Runs (.vfma k w) s (WritesLanes s k i.d fun j =>
      vFma (i.mod 0) (l.lane i.a j) (if i.mod 1 then (l.s i.b).setWidth 32 else l.lane i.b j) (l.lane i.c j))) ∧
    (Ready s k 0x22 w vcmpNeeds → Runs (.vcmp k w) s (WritesLanes s k i.d fun j =>
      compareLane i.sub (l.lane i.a j) (if i.mod 1 then (l.s i.b).setWidth 32 else l.lane i.b j))) ∧
    (Ready s k 0x23 w vselNeeds → Runs (.vsel k w) s (WritesLanes s k i.d fun j =>
      (if l.lane i.c j = 0 then l.lane i.b j else l.lane i.a j, {}))) ∧
    (Ready s k 0x24 w vfnNeeds → Runs (.vfn k w) s (WritesLanes s k i.d fun j =>
      vFn (vectorFn i.sub) (l.lane i.a j))) ∧
    (Ready s k 0x25 w vcvtNeeds → ∀ fa fb, cvtFmt i.fa = some fa → cvtFmt i.fb = some fb →
      Runs (.vcvt k w) s (WritesLanes s k i.d fun j => convertLane fa fb (l.lane i.a j))) ∧
    (Ready s k 0x28 w (vldNeeds k) → ∀ f, recFmt i.fa = some f →
      Runs (.vld k w) s (WritesLanes s k i.d fun j => s.dev.loadLane k (s.dev.spAddr k i.a i.imm) f j)) ∧
    (Ready s k 0x2C w (vrndNeeds k) → (s.dev.modes k).freeRunning = false →
      Runs (.vrnd k w) s (WritesLanes s k i.d fun j => (keyedWord l (s.dev.modes k).seed i j, {})))

/-- When it is ready: VRED writes the sum or maximum of the 128 lanes of v[a], by the tree of R69, to every lane of v[d]; VMVS moves one lane to s[d] zero-extended, a low word to every lane, or a low word to one lane; VST stores the 128 lanes as one record at s[b] + imm and leaves every byte outside the record as before; VACR copies a row of a tile to v[d]; VACW makes a tile live with the row v[a] and the kind mod[45] gives; VRND in the free-running mode writes lane j with the next 32 bits of generator j. Nothing outside the core and its scratchpad changes. (R141, R142, R143, R144, R112, R66.) -/
def Obligations.VectorMovesComplete : Prop :=
  ∀ (k : Fin 512) (w : BitVec 128) (s : State), let i := Ins.of w; let l := s.dev.lv k
    (Ready s k 0x26 w vredNeeds → Runs (.vred k w) s fun e => OnlyCore k s.dev e ∧ ∀ j, j < 128 →
      (e.lv k).lane i.d j = (laneTree (if i.sub = 0 then vAdd else vMinMax true) (l.vrow i.a)).1) ∧
    (Ready s k 0x27 w vmvsNeeds → Runs (.vmvs k w) s fun e => OnlyCore k s.dev e ∧
      (i.sub = 0 → i.d ≠ 0 → ((e.lv k).s i.d).toNat = (l.lane i.a i.imm).toNat) ∧
      (i.sub = 0 → i.d = 0 → (e.lv k).sregs = l.sregs) ∧
      (i.sub = 1 → ∀ j, j < 128 → (e.lv k).lane i.d j = (l.s i.a).setWidth 32) ∧
      (i.sub = 2 → (e.lv k).lane i.d i.imm = (l.s i.a).setWidth 32 ∧
        ∀ j, j ≠ i.imm → (e.lv k).lane i.d j = l.lane i.d j)) ∧
    (Ready s k 0x29 w (vstNeeds k) → ∀ f, recFmt i.fb = some f → Runs (.vst k w) s fun e =>
      let r := storeRow f (i.mod 0) (l.vrow i.a)
      let a := scratchAddr k (s.dev.spAddr k i.b i.imm)
      e.load a r.1.length = r.1 ∧ (∀ x, x < a ∨ a + r.1.length ≤ x → e.load x 1 = s.dev.load x 1) ∧
      (e.lv k).flags = l.flags.or r.2 ∧ e.regs = s.dev.regs ∧ ∀ j, j ≠ k.val → e.core j = s.dev.core j) ∧
    (Ready s k 0x2A w (vacrNeeds k) → Runs (.vacr k w) s fun e => OnlyCore k s.dev e ∧ ∀ j, j < 128 →
      (e.lv k).lane i.d j = l.accAt i.a (s.dev.accRowOf k i) j) ∧
    (Ready s k 0x2B w (vacwNeeds k) → Runs (.vacw k w) s fun e => OnlyCore k s.dev e ∧
      (e.lv k).tileLive i.d = true ∧ (e.lv k).tileInt i.d = i.mod 1 ∧
      ∀ j, j < 128 → (e.lv k).accAt i.d (s.dev.accRowOf k i) j = l.lane i.a j) ∧
    (Ready s k 0x2C w (vrndNeeds k) → (s.dev.modes k).freeRunning = true → Runs (.vrnd k w) s fun e => OnlyCore k s.dev e ∧
      ∀ j, j < 128 → (e.lv k).lane i.d j = BitVec.ofNat 32 ((l.gen j).draw 32).1 ∧ (e.lv k).gen j = ((l.gen j).draw 32).2)

/-- When it is ready, MMA leaves the live state that its operands, modes and generators give (rows 0 to m-1 of its tile, the flags, the add counter, the generators), and is in flight with its tile and its operands' segments until its last row is written; MMA_DONE ends the oldest one and changes nothing else. DRN writes the records of rows 0 to r-1 at s[d] + imm[23:0], leaves every byte outside them as before, and with mod[46] releases the tile, which then reads zeros with add counter 0. (R60, R111, R129, R130, R132, R152.) -/
def Obligations.MatrixComplete : Prop :=
  ∀ (k : Fin 512) (w : BitVec 128) (s : State), let i := Ins.of w; let l := s.dev.lv k
    (Ready s k 0x40 w (mmaNeeds k) → Runs (.mma k w) s fun e =>
      let x := s.dev.mmaOf k i
      OnlyCore k s.dev e ∧ e.lv k = x.run s.dev k (s.dev.modes k) { l with pc := (l.pc + 16) % 2 ^ 48 } ∧
      (e.core k).mmas = (s.dev.core k).mmas ++ [⟨i.d, (x.a.runs ++ x.b.runs).flatMap fun r => spSegs r.1 r.2⟩] ∧
      (e.lv k).adds i.d = (if i.mod 0 then 0 else l.adds i.d) + mmaK ((mmaFmt i.fa).getD .bf16) / 32) ∧
    (s.dev.live = true → ∀ m rest, (s.dev.core k).mmas = m :: rest →
      exec (.mmaDone k) s = .next (on s fun d => d.setCore k { d.core k with mmas := rest })) ∧
    (Ready s k 0x50 w (drnNeeds k) → Runs (.drn k w) s fun e =>
      let r := s.dev.drain k i
      let a := scratchAddr k (s.dev.drnOut k i)
      e.load a r.1.length = r.1 ∧ (∀ x, x < a ∨ a + r.1.length ≤ x → e.load x 1 = s.dev.load x 1) ∧
      (e.lv k).flags = l.flags.or r.2 ∧ e.regs = s.dev.regs ∧ (∀ j, j ≠ k.val → e.core j = s.dev.core j) ∧
      (i.mod 2 = true → (e.lv k).adds i.a = 0 ∧ ∀ m n, (e.lv k).accAt i.a m n = 0) ∧
      (i.mod 2 = false → (e.lv k).acc = l.acc ∧ (e.lv k).accLive = l.accLive))

/-- When it is ready: ASTEP makes of each of its rows what the row operation of R145 gives for the row's scores, visibility, scale, running maximum, denominator and output as they stand before it: its record, the lane of v[b] and of v[c] and the row of ACC[d] that the operation writes, and nothing else of those; rows past m and everything outside its records and its core are as before. ANORM divides rows 0 to imm[6:0] of ACC[d] by the denominators of v[c], a denominator of +0 giving zeros; KVQ writes the quantised block at s[d] + imm[47:24], its parameter word at s[b], and no other byte; KVD writes run p of each position at s[d] + imm[23:0] + p times the stride, so that with runs that do not overlap every run reads back as the decoded position. (R107, R145, R146, R147, R148.) -/
def Obligations.AttentionComplete : Prop :=
  ∀ (k : Fin 512) (w : BitVec 128) (s : State), let i := Ins.of w; let l := s.dev.lv k
    (Ready s k 0x48 w (astepNeeds k) → ∀ f, recFmt i.fb = some f → Runs (.astep k w) s fun e =>
      let q := (l.s (asQ i)).toNat
      let seen := fun n j => decide (signed 32 (bits q 31 0) + ((j : Nat) : Int) ≤ (l.lane (asL i) n).toInt)
      let row := fun n => (astepRow ((l.accRow i.a n).map f32) ((List.range 128).map (seen n)) (f32c (bits q 63 32))
        (f32 (l.lane i.b n)) (f32 (l.lane i.c n)) ((l.accRow i.d n).map f32)).1
      let a := fun n => scratchAddr k (s.dev.asOut k i + n * f.rec128)
      (∀ n, n < asRows i →
        (let r := (encodeRow f (row n).p).1; e.load (a n) r.length = r) ∧
        (∀ x, (row n).mx = some x → (e.lv k).lane i.b n = toF32 x) ∧
        (∀ x, (row n).den = some x → i.b ≠ i.c → (e.lv k).lane i.c n = toF32 x) ∧
        ((row n).mx = none → (e.lv k).lane i.b n = l.lane i.b n ∧ (e.lv k).lane i.c n = l.lane i.c n) ∧
        (∀ o, (row n).out = some o → (e.lv k).accRow i.d n = o.map toF32) ∧
        ((row n).out = none → (e.lv k).accRow i.d n = l.accRow i.d n)) ∧
      (∀ n, asRows i ≤ n → n < 128 → (e.lv k).accRow i.d n = l.accRow i.d n ∧
        (e.lv k).lane i.b n = l.lane i.b n ∧ (e.lv k).lane i.c n = l.lane i.c n) ∧
      (∀ x, x < a 0 ∨ a (asRows i) ≤ x → e.load x 1 = s.dev.load x 1) ∧
      (e.lv k).sregs = l.sregs ∧ e.regs = s.dev.regs ∧ ∀ j, j ≠ k.val → e.core j = s.dev.core j) ∧
    (Ready s k 0x49 w (anormNeeds k) → Runs (.anorm k w) s fun e => OnlyCore k s.dev e ∧
      (∀ n, n ≤ i.imm → (e.lv k).accRow i.d n = (anormRow (l.accRow i.d n) (l.lane i.c n)).1) ∧
      ∀ n, i.imm < n → n < 128 → (e.lv k).accRow i.d n = l.accRow i.d n) ∧
    (Ready s k 0x4A w (kvqNeeds k) → Runs (.kvq k w) s fun e =>
      let q := quantiseBlock (i.fb == 11) (s.dev.kvqValues k i)
      e.mem = memStore (memStore s.dev.mem (scratchAddr k (s.dev.kvqDst k i)) (q.1.bytes (i.fb == 11)))
        (scratchAddr k (s.dev.spAddr k i.b 0)) (natLe 4 q.1.param) ∧
      (i.mod 0 = false → (e.lv k).flags = l.flags.or q.2) ∧ (e.lv k).sregs = l.sregs ∧ (e.lv k).vregs = l.vregs ∧
      e.regs = s.dev.regs ∧ ∀ j, j ≠ k.val → e.core j = s.dev.core j) ∧
    (Ready s k 0x4B w (kvdNeeds k) → ∀ f, kvdFmt i.fb = some f → Runs (.kvd k w) s fun e =>
      let run := fun p => (kvdRun f (i.fa == 11) (s.dev.spNat k (s.dev.spAddr k i.b 0) 4)
        (s.dev.spLoad k (s.dev.spAddr k i.a 0) (kvBytes (i.fa == 11))) p).1
      let a := fun p => scratchAddr k (s.dev.kvdDst k i p)
      (∀ x, (∀ p, p < 64 → x < a p ∨ a p + (run p).length ≤ x) → e.load x 1 = s.dev.load x 1) ∧
      ((∀ p q, p < q → q < 64 → a p + (run p).length ≤ a q) → ∀ p, p < 64 → e.load (a p) (run p).length = run p) ∧
      (e.lv k).sregs = l.sregs ∧ (e.lv k).vregs = l.vregs ∧ e.regs = s.dev.regs ∧ ∀ j, j ≠ k.val → e.core j = s.dev.core j)

/-- When it is ready: TLD enters the transfers in flight with its addresses, count and flag register; TST and SUBMIT become the last pending output of the tile, with the addresses and count as they stand at issue; SREL makes each segment whose bit of imm is 1 not live, with zero bytes, and AREL does so with tiles and clears their add counters. None of them changes a scalar or vector register. An output that finds 32 in its tile ends that tile first and is then issued. TLD_COMPLETE of the oldest transfer, when its source is here and not poisoned and no TST issued before it waits to commit, lands its bytes; TILE_COMMIT_DONE with only a signal to commit signals the ember, and with a SUBMIT to the Geyser of the die appends the descriptor to its queue. (R52, R74, R149, R150, R151, R152, R153.) -/
def Obligations.MovementComplete : Prop :=
  ∀ (k : Fin 512) (w : BitVec 128) (s : State), let i := Ins.of w; let l := s.dev.lv k; let c := s.dev.core k
    (Ready s k 0x51 w (tldNeeds k) → Runs (.tld k w) s fun e =>
      (∃ sh may, (e.core k).tlds = c.tlds ++ [⟨tldSrc s.dev k i, tldDst s.dev k i, s.dev.sr k i.b, i.c, sh, may, false⟩]) ∧
      SameMemory s.dev e ∧ e.lv k = { l with pc := (l.pc + 16) % 2 ^ 48 } ∧ ∀ j, j ≠ k.val → e.core j = s.dev.core j) ∧
    (Ready s k 0x52 w (tstNeeds k) → Runs (.tst k w) s fun e => OnlyCore k s.dev e ∧
      (e.core k).outs = c.outs ++ [.tst (tstSrc s.dev k i) (tstDst s.dev k i) (s.dev.sr k i.b)] ∧
      e.lv k = { l with pc := (l.pc + 16) % 2 ^ 48 }) ∧
    (Ready s k 0x58 w (submitNeeds k) → Runs (.submit k w) s fun e => OnlyCore k s.dev e ∧
      (e.core k).outs = c.outs ++ [.submit i.sub (s.dev.spAddr k i.a i.imm)] ∧
      e.lv k = { l with pc := (l.pc + 16) % 2 ^ 48 }) ∧
    (Ready s k 0x54 w srelNeeds → Runs (.srel k w) s fun e => OnlyCoreAndScratch k s.dev e ∧
      (∀ n, n < 64 → i.imm.testBit n = true → n ∉ (e.lv k).segLive ∧
        ∀ x, x < spSegBytes → e.load (scratchAddr k (n * spSegBytes + x)) 1 = [0]) ∧
      (∀ n, n < 64 → i.imm.testBit n = false → (n ∈ (e.lv k).segLive ↔ n ∈ l.segLive) ∧
        ∀ x, x < spSegBytes → e.load (scratchAddr k (n * spSegBytes + x)) 1 = s.dev.load (scratchAddr k (n * spSegBytes + x)) 1) ∧
      (e.lv k).sregs = l.sregs ∧ (e.lv k).vregs = l.vregs ∧ (e.lv k).acc = l.acc) ∧
    (Ready s k 0x55 w arelNeeds → Runs (.arel k w) s fun e => OnlyCore k s.dev e ∧
      (∀ n, n < 64 → i.imm.testBit n = true → (e.lv k).tileLive n = false ∧ (e.lv k).adds n = 0) ∧
      (∀ n, n < 64 → i.imm.testBit n = false → (e.lv k).tileLive n = l.tileLive n ∧ (e.lv k).adds n = l.adds n) ∧
      (e.lv k).sregs = l.sregs ∧ (e.lv k).vregs = l.vregs) ∧
    (∀ x, x ∈ [(Instr.tst k w, 0x52, tstNeeds k), (.submit k w, 0x58, submitNeeds k), (.esig k w, 0x73, esigNeeds k)] →
      s.dev.issues k x.2.1 w = true → c.flagBusy (x.2.2 s.dev i) = false → (x.2.2 s.dev i).code w = 0 → 32 ≤ c.outs.length →
      exec x.1 s = exec x.1 (on s fun d => d.tileEnd k)) ∧
    (∀ t rest, s.dev.live = true → c.task.isSome = true → c.struck = false → c.tlds = t :: rest →
      s.dev.vex.heldReqs = [] → t.shadow = false → s.dev.poisoned t.src t.count = false →
      s.dev.sourceHere k t = true → c.behindTst t = false → Runs (.tldComplete k) s fun e =>
        e.load (scratchAddr k t.dst) t.count = s.dev.load t.src t.count ∧ (e.core k).tlds = rest ∧
        (whereIs t.src ≠ .companion → ∀ x, x < scratchAddr k t.dst ∨ scratchAddr k t.dst + t.count ≤ x →
          e.load x 1 = s.dev.load x 1) ∧
        (e.lv k).sregs = l.sregs) ∧
    (∀ x op, s.dev.live = true → s.dev.writesVisible k = true → c.committing = [.esig x op] →
      exec (.tileCommitDone k) s = .next (on s fun d => Dev.serveHeld (Dev.setCore
        (Dev.signal (d.setCore k { c with committing := [] }) c.part x op) k
        { (Dev.signal (d.setCore k { c with committing := [] }) c.part x op).core k with committing := [] }) |>.leaveStruck k false)) ∧
    (∀ a, s.dev.live = true → c.struck = false → s.dev.vex.heldReqs = [] → c.committing = [.submit 0 a] →
      s.dev.behindTld k = false → (s.dev.geyser (k / 64)).queue.length < 16 → Runs (.tileCommitDone k) s fun e =>
        (e.geyser (k / 64)).queue = (s.dev.geyser (k / 64)).queue ++ [⟨scratchAddr k a, c.part, some (s.dev.spLoad k a 64)⟩] ∧
        (e.core k).committing = [] ∧ SameMemory s.dev e ∧ e.regs = s.dev.regs)

/-- When it is ready: TEND and END close the tile, so that its outputs join those that commit, in issue order, and the next tile starts from the live state as it is; END marks the task as ending. EWAIT on an ember that fits its condition starts a wait with its operand and, for a timeout that is not 0, the deadline LTC plus s[c]; on one that does not fit it writes 2. ESIG becomes the last pending output, and GKEY writes the key fields that mod names. A wait whose condition is met ends with s[d] := 0; one whose deadline has come while it is not met ends with 1 and is counted in PART_STAT. TASK_END of a task whose outputs are all visible gives up the core. (R73, R74, R75, R155, R156, R157, R395.) -/
def Obligations.TaskFlowComplete : Prop :=
  ∀ (k : Fin 512) (w : BitVec 128) (s : State), let i := Ins.of w; let l := s.dev.lv k; let c := s.dev.core k
    (Ready s k 0x70 w tendNeeds → Runs (.tend k w) s fun e =>
      (e.core k).committing = c.committing ++ c.outs ∧ (e.core k).outs = [] ∧ (e.core k).tileOpen = none ∧
      (e.core k).carry = false ∧ (e.core k).tileStart = e.lv k ∧ e.lv k = { l with pc := (l.pc + 16) % 2 ^ 48 } ∧
      (e.core k).ending = c.ending ∧ SameMemory s.dev e ∧ ∀ j, j ≠ k.val → e.core j = s.dev.core j) ∧
    (Ready s k 0x71 w (endNeeds k) → Runs (.endTask k w) s fun e =>
      (e.core k).committing = c.committing ++ c.outs ∧ (e.core k).outs = [] ∧ (e.core k).ending = true ∧
      SameMemory s.dev e ∧ ∀ j, j ≠ k.val → e.core j = s.dev.core j) ∧
    (Ready s k 0x72 w (ewaitNeeds k) → s.dev.waitFits (s.dev.emberOf k i) i.sub = false →
      exec (.ewait k w) s = .next (retire s k (ewaitNeeds k s.dev i) fun m => m.setS i.d 2)) ∧
    (Ready s k 0x72 w (ewaitNeeds k) → s.dev.waitFits (s.dev.emberOf k i) i.sub = true → Runs (.ewait k w) s fun e =>
      OnlyCore k s.dev e ∧ e.lv k = { l with pc := (l.pc + 16) % 2 ^ 48 } ∧
      (e.core k).wait = some ⟨s.dev.emberOf k i, i.sub, (l.s i.b).toNat,
        if l.s i.c = 0 then none else some (s.dev.ltc.toNat + (l.s i.c).toNat), i.d⟩) ∧
    (Ready s k 0x73 w (esigNeeds k) → Runs (.esig k w) s fun e => OnlyCore k s.dev e ∧
      (e.core k).outs = c.outs ++ [.esig (s.dev.emberOf k i) (esigOp i.sub (l.s i.b))] ∧
      e.lv k = { l with pc := (l.pc + 16) % 2 ^ 48 }) ∧
    (Ready s k 0x74 w gkeyNeeds → exec (.gkey k w) s = .next (retire s k (gkeyNeeds s.dev i) fun m =>
      { m with gkStep := if i.mod 0 then (l.s i.a).toNat % 2 ^ 32 else l.gkStep,
               gkLayer := if i.mod 1 then (l.s i.b).toNat % 2 ^ 16 else l.gkLayer,
               gkTile := if i.mod 2 then (l.s i.c).toNat % 2 ^ 32 else l.gkTile })) ∧
    (∀ x, s.dev.live = true → c.wait = some x → c.working = true → s.dev.waitMet x.ember x.cond x.operand = true →
      exec (.ewaitSatisfied k) s = .next (on s fun d => d.setCore k { c with wait := none, live := l.setS x.dest 0 })) ∧
    (∀ x t, s.dev.live = true → c.wait = some x → c.working = true → x.deadline = some t → t ≤ s.dev.ltc.toNat →
      s.dev.waitMet x.ember x.cond x.operand = false → Runs (.ewaitTimeout k) s fun e =>
        e.core k = { c with wait := none, live := l.setS x.dest 1 } ∧ SameMemory s.dev e ∧
        e.fld (pPART c.part) rPART_STAT.off 63 32 = min (2 ^ 32 - 1) (s.dev.fld (pPART c.part) rPART_STAT.off 63 32 + 1)) ∧
    (∀ t, s.dev.live = true → c.task = some t → s.dev.taskOver k = true → t.desc.doneEn = false → Runs (.taskEnd k) s fun e =>
      (e.core k).task = none ∧ (e.core k).ending = false ∧ (e.lv k).segLive = [] ∧ (e.lv k).accLive = [])

/-- SAVE and RSTR with a tile open end it first and are then issued. When it is ready, SAVE writes the live state, with the instruction address moved on, to its area by the layout of the model (log entry 16), and RSTR puts the live state that its area holds on the core, with s7 its own index. TASK_START puts the first ready task of the current context on the lowest-numbered free core; a task that was not returned starts at its entry, with its arguments in s1 to s6, s7 the index, no segment and no tile live. IBUF_LINE_ARRIVAL puts the missing line last in the buffer and drops the oldest of 16. A suspended task resumes when the granules it waits for are stable and its lines are not left poisoned. TILE_OVERRUN forces the pre-emption of a tile past 16 microseconds, or its rest for the change of CCLK, and sets CORE_STS.overrun. CORE_CTL is stored and stops or resumes issue. CORE_TILE_MAX reads and clears. (R49, R71, R75, R82, R158, R159, R160, R180, R461.) -/
def Obligations.CoreEventsComplete : Prop :=
  ∀ (k : Fin 512) (w : BitVec 128) (s : State), let i := Ins.of w; let l := s.dev.lv k; let c := s.dev.core k
    (Ready s k 0x78 w (saveNeeds k) → Runs (.save k w) s fun e => e.lv k = { l with pc := (l.pc + 16) % 2 ^ 48 }) ∧
    (Ready s k 0x78 w (saveNeeds k) → Direct s.dev (s.dev.areaAt k i) areaBytes →
      (∀ n ∈ l.segLive, n < 64) → (∀ t ∈ l.accLive, t < 64) → Runs (.save k w) s fun e =>
        e.load (s.dev.areaAt k i + 0x100) 49152 = controlBlock { l with pc := (l.pc + 16) % 2 ^ 48 } ∧
        (∀ t ∈ l.accLive, e.load (s.dev.areaAt k i + tileSlot t) 65536 = tileBytesOf l t) ∧
        (∀ n ∈ l.segLive, e.load (s.dev.areaAt k i + segSlot n) spSegBytes = s.dev.load (scratchAddr k (n * spSegBytes)) spSegBytes) ∧
        ∀ x, x < s.dev.areaAt k i ∨ s.dev.areaAt k i + areaBytes ≤ x → e.load x 1 = s.dev.load x 1) ∧
    (∀ x, x ∈ [(Instr.save k w, 0x78, saveNeeds k), (.rstr k w, 0x79, rstrNeeds k)] → s.dev.issues k x.2.1 w = true →
      c.flagBusy (x.2.2 s.dev i) = false → (x.2.2 s.dev i).code w = 0 → c.tileOpen.isSome = true →
      exec x.1 s = exec x.1 (on s fun d => d.tileEnd k)) ∧
    (Ready s k 0x79 w (rstrNeeds k) → Runs (.rstr k w) s fun e =>
      let x := s.dev.areaLive k (s.dev.areaAt k i) { l with pc := (l.pc + 16) % 2 ^ 48 }
      e.lv k = { x with scratch := [], scratchPoison := [] } ∧ (e.lv k).s 7 = BitVec.ofNat 64 k ∧ e.regs = s.dev.regs ∧
      ∀ j, j ≠ k.val → e.core j = s.dev.core j) ∧
    (∀ (p : Fin 64) cx q t, s.dev.live = true → s.dev.partOn p = true → (s.dev.part p).current = some cx →
      (s.dev.part p).switch = none → (s.dev.part p).contained.contains cx = false → s.dev.idleCore p = some k.val →
      s.dev.nextTask p cx = some (q, t) → s.dev.lost t.waits = false → t.saved = none →
      (t.desc.doneEn = true → s.dev.ownsEmber p t.desc.doneEmber = true) → t.desc.args.length = 6 → Runs (.taskStart p) s fun e =>
        (e.core k).st = .running ∧ (e.core k).task = some { t with saved := none, waits := [] } ∧ (e.lv k).pc = t.desc.entry ∧
        (∀ n, n < 6 → (e.lv k).s (n + 1) = t.desc.args.getD n 0) ∧ (e.lv k).s 7 = BitVec.ofNat 64 k ∧
        (∀ n, 8 ≤ n → (e.lv k).s n = 0) ∧ (e.lv k).segLive = [] ∧ (e.lv k).accLive = [] ∧ (e.lv k).gkStep = 0 ∧
        (e.lv k).gkLayer = 0 ∧ (e.lv k).gkTile = 0 ∧ (e.core k).ibuf = []) ∧
    (s.dev.live = true → c.task.isSome = true → l.pc % 16 = 0 → s.dev.missesLine k = true →
      s.dev.companionOwns (lineAddr l.pc) 4096 = false → s.dev.poisoned (lineAddr l.pc) 4096 = false →
      Runs (.ibufLineArrival k) s fun e => OnlyCore k s.dev e ∧
        (e.core k).ibuf.getLast? = some (s.dev.fetchedLine (lineAddr l.pc)) ∧ e.lv k = l ∧
        (c.ibuf.length ≤ 16 → (e.core k).ibuf.length ≤ 16)) ∧
    (s.dev.live = true → c.st = .suspended → s.dev.mending c.suspendedOn = false → s.dev.lost c.suspendedOn = false →
      exec (.taskResumeAfterRefetch k) s = .next (on s fun d => d.setCore k
        { c with st := if d.bit (pCORE k) rCORE_CTL.off 0 then .halted else .running, suspendedOn := [] })) ∧
    (∀ t, s.dev.live = true → c.part < 64 → (c.preempt = true ∧ (s.dev.modes k).precise = false) ∨ s.dev.cclkRest k = true →
      c.forced = false → c.task.isSome = true →
      c.tileOpen = some t → t + 16000 < s.dev.ltc.toNat → Runs (.tileOverrun k) s fun e =>
        e.core k = { c with forced := true } ∧ e.bit (pCORE k) rCORE_STS.off 4 = true ∧
        e.bit (pPART c.part) rPART_EVT.off evOverrun = true ∧ SameMemory s.dev e) ∧
    (∀ (a : Access) (v : Word), s.dev.writable a (pCORE k) rCORE_CTL.off false = true → a.width = .full → ∀ instr,
      instr = .coreCtlHalt a k v ∨ instr = .coreCtlDrain a k v → Runs instr s fun e =>
        e.bit (pCORE k) rCORE_CTL.off 0 = v.toNat.testBit 0 ∧ e.bit (pCORE k) rCORE_CTL.off 1 = v.toNat.testBit 1 ∧
        (c.st = .running ∨ c.st = .halted → (e.core k).st = if v.toNat.testBit 0 then .halted else .running) ∧
        SameMemory s.dev e ∧ e.lv k = l) ∧
    (∀ a : Access, s.dev.writable a (pCORE k) rCORE_TILE_MAX.off false = true → a.width = .full →
      Runs (.coreTileMaxRead a k) s fun e => OnlyRegs s.dev e ∧ e.fld (pCORE k) rCORE_TILE_MAX.off 31 0 = 0 ∧
        e.out = s.dev.out ++ [.readback (BitVec.ofNat 64 (s.dev.rd (pCORE k) rCORE_TILE_MAX.off)) false])

/-- PWR_EN rising makes an unlocked module that is off wait; a module that R36 keeps down leaves that state only when PWR_EN has been low for 100 ms. The ramp starts after 5 ms of input in range. PWR_GOOD rises 20 to 60 ms after the start of the ramp and holds the device in the power-on reset with the LTC at 0; the end of that reset samples SLOT_ID, starts the LTC and records power_on. PWR_EN falling with PWR_GOOD high (from a cold reset, which ends THERM_TRIP_N low), or in a ramp, and a brown-out of more than 10 microseconds below 46.0 V, power the module down; the last two keep it down. THERM_TRIP_N keeps its level in a brown-out. Nothing but the power state changes before PWR_GOOD. (R34, R35, R36, R45, R460.) -/
def Obligations.PowerSequence : Prop :=
  ∀ (s : State) (n : Nat), let p := s.dev.pow
    (p.pwrEn = false → Runs (.pwrEnRise n) s fun e => OnlyPower s.dev e ∧ e.pow.pwrEn = true ∧
      (p.lockout = false → p.phase = .off → e.pow.phase = .waiting) ∧
      (p.lockout = true → n < 100 → e.pow.phase = p.phase ∧ e.pow.lockout = true) ∧
      (100 ≤ n → e.pow.lockout = false)) ∧
    (p.phase = .waiting → p.pwrEn = true → 5 ≤ n →
      exec (.railRampStart n) s = .next (on s fun d => { d with pow := { p with phase := .ramping } })) ∧
    (p.phase = .ramping → 20 ≤ n → n ≤ 60 → Runs (.pwrGoodRise n) s fun e =>
      e.pow.phase = .good ∧ e.pow.pwrGood = true ∧ e.pow.reset = some .powerOn ∧ e.pow.modRstN = false ∧
      e.pow.thermTripN = true ∧ e.ltc = 0 ∧ e.ltcOn = false ∧ e.regs = [] ∧ e.fen.fused = s.dev.fen.fused) ∧
    (∀ slot : Fin 16, p.pwrGood = true → p.reset = some .powerOn → p.refclkA = true → Runs (.powerOnResetEnd slot) s fun e =>
      e.pow.reset = none ∧ e.pow.modRstN = true ∧ e.pow.slotId = slot ∧ e.ltcOn = true ∧ e.ltc = s.dev.ltc ∧
      e.bit pMOD rMOD_RST_CAUSE.off 0 = true ∧ SameMemory s.dev e) ∧
    (p.phase = .good ∨ p.phase = .ramping → Runs .pwrEnFall s fun e =>
      e.pow.pwrEn = false ∧ e.pow.pwrGood = false ∧ e.pow.phase = .discharging ∧ (p.phase = .good → e.pow.thermTripN = true) ∧
      e.pow.lockout = (p.lockout || decide (p.phase = .ramping)) ∧ e.fen.fused = s.dev.fen.fused) ∧
    (p.phase = .waiting → exec .pwrEnFall s = .next (on s fun d => { d with pow := { p with pwrEn := false, phase := .off } })) ∧
    (p.phase = .discharging → exec .railsDischarged s = .next (on s fun d => { d with pow := { p with
      phase := if p.pwrEn = true ∧ p.lockout = false then .waiting else .off } })) ∧
    (∀ us, n < 460 → 10 < us → p.phase = .good → Runs (.brownOut n us) s fun e =>
      e.pow.pwrGood = false ∧ e.pow.phase = .discharging ∧ e.pow.lockout = true ∧ e.pow.thermTripN = p.thermTripN)

/-- A low level of MOD_RST_N of 1 microsecond or more puts the device in cold reset with the LTC at 0, the fuses kept and every other block as at reset; a shorter one changes nothing. Its release samples SLOT_ID, starts the LTC and records cold_pin. WARM_RST_N, after the same filter, and a write of MOD_RST_CTL.warm trigger a warm reset: its cause is kept, and a reset in progress absorbs it. When every trigger has ended, the warm reset leaves the LTC and the registers of the MOD page (but the causes, the claims and the level) as they were, the fuses kept, every register of another page at its reset value, every core as at reset but for the value of the LTC that it has read (the model's choice, log entry 14), the tier map as at reset, no memory byte listed, the device at SL0, and the causes recorded. A loss of REFCLK_A during a reset stops the device at its end. (R30, R37, R38, R39, R45.) -/
def Obligations.ResetPins : Prop :=
  ∀ (s : State) (n : Nat), let p := s.dev.pow
    (p.pwrGood = true → p.modRstN = true → 1000 ≤ n → Runs (.coldReset n) s fun e =>
      e.pow.reset = some .cold ∧ e.pow.modRstN = false ∧ e.ltc = 0 ∧ e.ltcOn = false ∧ e.fen.fused = s.dev.fen.fused ∧
      e.regs = [] ∧ e.mem = [] ∧ e.cores = [] ∧ e.tier = Tier.reset ∧ e.parts = []) ∧
    (n < 1000 → exec (.coldReset n) s = .next s ∧ exec (.warmRstNAssert n) s = .next s) ∧
    (∀ slot : Fin 16, p.pwrGood = true → p.reset = some .cold → p.refclkA = true → Runs (.coldResetRelease slot) s fun e =>
      e.pow.reset = none ∧ e.pow.modRstN = true ∧ e.pow.slotId = slot ∧ e.ltcOn = true ∧ e.ltc = s.dev.ltc ∧
      e.bit pMOD rMOD_RST_CAUSE.off 1 = true) ∧
    (p.pwrGood = true → p.warmRstN = true → 1000 ≤ n → Runs (.warmRstNAssert n) s fun e => OnlyPower s.dev e ∧
      e.pow.warmRstN = false ∧ e.pow.reset = some (p.reset.getD .warm) ∧ e.pow.warmCauses = p.warmCauses ||| 4) ∧
    exec .warmRstNRise s = .next (on s fun d => { d with pow := { p with warmRstN := true } }) ∧
    (∀ (a : Access) (v : Word), s.dev.writable a pMOD rMOD_RST_CTL.off true = true → v.toNat.testBit 0 = true →
      exec (.modRstCtlWarm a v) s = .next (on s fun d => Dev.emit { d with pow :=
        { p with reset := some (p.reset.getD .warm), warmCauses := p.warmCauses ||| 8 } } (.readback 0 false))) ∧
    (p.pwrGood = true → p.reset = some .warm → p.warmRstN = true → p.refclkA = false → Runs .warmResetDone s fun e =>
      e.pow.reset = none ∧ e.pow.stopped = true) ∧
    (p.pwrGood = true → p.reset = some .warm → p.warmRstN = true → p.refclkA = true → Runs .warmResetDone s fun e =>
      e.pow.reset = none ∧ e.ltc = s.dev.ltc ∧ e.ltcOn = s.dev.ltcOn ∧ e.fen.fused = s.dev.fen.fused ∧
      e.mem = [] ∧ (∀ k, e.core k = { Core.reset with ltcSeen := (s.dev.core k).ltcSeen }) ∧ e.parts = [] ∧
      e.tier = Tier.reset ∧ e.fld pMOD rMOD_SL.off 1 0 = 0 ∧
      (∀ b, b < 5 → p.warmCauses.testBit b = true → e.bit pMOD rMOD_RST_CAUSE.off b = true) ∧
      (∀ page off, 0 < page → off < 0x10000 → e.rd page off = (regReset (regKey page off)).toNat) ∧
      (∀ off, off < 0x10000 → off ≠ rMOD_RST_CAUSE.off → off ≠ rMOD_SL.off → off ≠ rCLAIM.off →
        (∀ i, i < 4 → off ≠ rMOD_TCLM.at i) → e.rd pMOD off = s.dev.rd pMOD off))

/-- PWRBRK_N low makes the cap 2,000 W whatever MOD_PWR.cap holds; with it high the cap is that of MOD_PWR.cap, and a write of it applies at once (within the 1 ms the rule gives). Issue is gated while the input power exceeds the cap. A read of the temperatures gates issue from 95 degrees until every die is at or below 92 degrees, and at 110 degrees lowers THERM_TRIP_N and stops the device. MOD_PWR.throttled shows whether either gate stands. The loss of REFCLK_B is noted, and its return ends it; the loss of REFCLK_A is fatal. (R32, R33, R41, R42.) -/
def Obligations.PowerCapAndHeat : Prop :=
  ∀ s : State, let p := s.dev.pow
    (p.pwrGood = true → Runs .pwrbrkNFall s fun e => e.pow.pwrbrkN = false ∧ e.pow.capWatts = 2000 ∧
      e.pow.capGate = decide (2000 < p.watts) ∧ e.bit pMOD rMOD_PWR.off 8 = (p.thermGate || decide (2000 < p.watts)) ∧
      SameMemory s.dev e ∧ e.cores = s.dev.cores) ∧
    (p.pwrGood = true → s.dev.fld pMOD rMOD_PWR.off 1 0 = 1 → Runs .pwrbrkNRise s fun e => e.pow.pwrbrkN = true ∧
      e.pow.capWatts = 2600 ∧ e.pow.capGate = decide (2600 < p.watts) ∧ SameMemory s.dev e ∧ e.cores = s.dev.cores) ∧
    (∀ (a : Access) (v : Word), s.dev.writable a pMOD rMOD_PWR.off false = true → a.width = .full → p.pwrbrkN = true →
      bits v.toNat 1 0 ≠ 3 → Runs (.modPwrCapWrite a v) s fun e => e.fld pMOD rMOD_PWR.off 1 0 = bits v.toNat 1 0 ∧
        e.pow.capWatts = (if bits v.toNat 1 0 = 0 then 3400 else if bits v.toNat 1 0 = 1 then 2600 else 2000) ∧
        SameMemory s.dev e ∧ e.cores = s.dev.cores) ∧
    (∀ temps watts, p.pwrGood = true → (∀ t ∈ temps, t < 110) → Runs (.temperatureRead temps watts) s fun e =>
      e.pow.watts = watts ∧ e.pow.capGate = decide (e.pow.capWatts < watts) ∧ e.pow.stopped = p.stopped ∧
      ((∃ t ∈ temps, 95 ≤ t) → e.pow.thermGate = true) ∧
      ((∀ t ∈ temps, t ≤ 92) → e.pow.thermGate = false) ∧
      ((∀ t ∈ temps, t < 95) → (∃ t ∈ temps, 92 < t) → e.pow.thermGate = p.thermGate) ∧
      e.bit pMOD rMOD_PWR.off 8 = (e.pow.thermGate || e.pow.capGate) ∧ SameMemory s.dev e ∧ e.cores = s.dev.cores) ∧
    (∀ temps watts, p.pwrGood = true → (∃ t ∈ temps, 110 ≤ t) → Runs (.temperatureRead temps watts) s fun e =>
      e.pow.thermTripN = false ∧ e.pow.stopped = true ∧ e.live = false) ∧
    (p.refclkB = true → Runs .refclkBLoss s fun e => e.pow.refclkB = false) ∧
    (p.refclkB = false → Runs .refclkBReturn s fun e => e.pow.refclkB = true) ∧
    (p.refclkA = true → s.dev.live = true → Runs .refclkALoss s fun e => e.pow.refclkA = false ∧ e.pow.stopped = true ∧
      e.live = false)

/-- A 64-bit read of MOD_LTC returns the Local Time Counter; a 32-bit read of its low half returns the low half and latches the high half in MOD_LTC_HI. Neither changes the counter, or anything but registers. (R46, R47.) -/
def Obligations.LtcReads : Prop :=
  ∀ (a : Access) (s : State), s.dev.writable a pMOD rMOD_LTC.off false = true →
    (a.width = .full → Runs (.modLtcRead a) s fun e => OnlyRegs s.dev e ∧ e.out = s.dev.out ++ [.readback s.dev.ltc false]) ∧
    (a.width = .low → Runs (.modLtcRead a) s fun e => OnlyRegs s.dev e ∧
      e.fld pMOD rMOD_LTC_HI.off 31 0 = s.dev.ltc.toNat / 2 ^ 32 ∧
      e.out = s.dev.out ++ [.readback (BitVec.ofNat 64 (s.dev.ltc.toNat % 2 ^ 32)) false])

/-- With the engine free, MAP of an unmapped granule in order gives it the lowest free frame of its tier, the fields of the command, the state zeroing and zero bytes; SET_ATTRIBUTES stores kind, place, pin and shadow fields; MOVE gives a granule that does not migrate a destination frame in the other tier and starts copying; each reports 0. UNMAP stays in progress, and UNMAP_DONE clears the entry and the bytes of the granule and reports 0. A command that meets a condition of its result column writes that result and changes nothing else; one written while the engine is busy only sets lost. (R166, R168, R169, R170, R171, R172, R462.) -/
def Obligations.TierCommandsComplete : Prop :=
  ∀ (a : Access) (v : Word) (s : State), let c := TierCmd.ofWord v.toNat
    (s.dev.writable a pTIER rTIER_CMD.off true = true → s.dev.bit pTIER tierSts 8 = false →
      (c.op = 1 → s.dev.mapCode c = 0 → ∀ f, s.dev.freeFrame (s.dev.mapTier c) = some f → Runs (.map a v) s fun e =>
        e.gran c.gran = {
          valid := true, state := stZeroing, world := c.world, part := c.part, pin := c.pin, run := c.run, kind := c.kind,
          place := c.place, slow := s.dev.mapTier c, frame := f, shadow := c.shadow, sgran := c.sgran, shalf := c.shalf } ∧
        (∀ x, x / granBytes = c.gran → e.load x 1 = [0]) ∧ (∀ x, x / granBytes ≠ c.gran → e.load x 1 = s.dev.load x 1) ∧
        (∀ g, g ≠ c.gran → e.gran g = s.dev.gran g) ∧ e.fld pTIER tierSts 7 0 = 0 ∧ e.bit pTIER tierSts 8 = false ∧
        e.cores = s.dev.cores) ∧
      (c.op = 2 → s.dev.unmapCode c = 0 → Runs (.unmap a v) s fun e =>
        e.tier.unmapping = some c.gran ∧ e.bit pTIER tierSts 8 = true) ∧
      (c.op = 3 → s.dev.attrCode c = 0 → exec (.setAttributes a v) s = .next (on s fun d => Dev.emit (Dev.tierEnd
        (d.setGran c.gran { d.gran c.gran with
          kind := c.kind, place := c.place, pin := c.pin, shadow := c.shadow, sgran := c.sgran, shalf := c.shalf }) 0)
        (.readback 0 false))) ∧
      (c.op = 4 → s.dev.moveCode c = 0 → (s.dev.gran c.gran).moving = false → ∀ f,
        s.dev.freeFrame (!(s.dev.gran c.gran).slow) = some f → Runs (.move a v) s fun e =>
        e.gran c.gran = { s.dev.gran c.gran with state := stCopying, dslow := !(s.dev.gran c.gran).slow, dframe := f } ∧
        (∀ g, g ≠ c.gran → e.gran g = s.dev.gran g) ∧ e.fld pTIER tierSts 7 0 = 0 ∧ SameMemory s.dev e ∧ e.cores = s.dev.cores) ∧
      (∀ i r, r ≠ 0 → (i = .map a v ∧ c.op = 1 ∧ s.dev.mapCode c = r ∨ i = .unmap a v ∧ c.op = 2 ∧ s.dev.unmapCode c = r ∨
          i = .setAttributes a v ∧ c.op = 3 ∧ s.dev.attrCode c = r ∨ i = .move a v ∧ c.op = 4 ∧ s.dev.moveCode c = r) →
        exec i s = .next (on s fun d => (d.tierEnd r).emit (.readback 0 false)))) ∧
    (s.dev.writable a pTIER rTIER_CMD.off true = true → s.dev.bit pTIER tierSts 8 = true → ∀ i,
      (i = .map a v ∧ c.op = 1 ∨ i = .unmap a v ∧ c.op = 2 ∨ i = .setAttributes a v ∧ c.op = 3 ∨ i = .move a v ∧ c.op = 4) →
      exec i s = .next (on s fun d => (d.setBit pTIER tierSts 9 true).emit (.readback 0 false))) ∧
    (∀ g, s.dev.live = true → s.dev.tier.unmapping = some g → s.dev.readsGran g = false →
      Runs .unmapDone s fun e => e.gran g = {} ∧ e.tier.unmapping = none ∧ (∀ x, x / granBytes = g → e.load x 1 = [0]) ∧
        (∀ x, x / granBytes ≠ g → e.load x 1 = s.dev.load x 1) ∧ e.fld pTIER tierSts 7 0 = 0 ∧ e.bit pTIER tierSts 8 = false)

/-- A granule whose zeroing is done is stable. The engine starts a migration of a stable, unpinned granule of place 00b whose partition has room in the other tier. The end of a pass with at most 16 dirty tiles enters switching; with more it starts another pass, and after the eighth it abandons the move and counts it. The switch rewrites the entry with the destination, makes it stable and counts the migration. Heat halves for every granule. A tile of a granule in re-fetch that a good copy can mend loses its poison and is counted; one without a replica is asked for from storage, attempt after attempt, and one that no source can give stays poisoned and has been tried. (R166, R171, R172, R173, R180, R181.) -/
def Obligations.TierEventsComplete : Prop :=
  ∀ (g : Fin 49152) (s : State), s.dev.live = true → let x := s.dev.gran g; let m := s.dev.mig g
    (x.valid = true → x.state = stZeroing →
      exec (.zeroingDone g) s = .next (on s fun d => d.setGran g { x with state := stStable })) ∧
    (∀ f, x.valid = true → x.state = stStable → x.place = 0 → x.pin = false →
      s.dev.tier.unmapping ≠ some g.val → s.dev.roomCode x.part (!x.slow) = 0 →
      s.dev.freeFrame (!x.slow) = some f → Runs (.migrationStart g) s fun e =>
        e.gran g = { x with state := stCopying, dslow := !x.slow, dframe := f } ∧ e.mig g = {} ∧ e.regs = s.dev.regs ∧
        (∀ h, h ≠ g.val → e.gran h = s.dev.gran h) ∧ SameMemory s.dev e) ∧
    (x.valid = true → (x.state = stCopying ∨ x.state = stRetiring) → g.val ∉ s.dev.tier.waiting →
      (m.dirty.length ≤ 16 →
        exec (.migrationPassEnd g) s = .next (on s fun d => d.setGran g { x with state := stSwitching })) ∧
      (16 < m.dirty.length → m.pass + 1 < 8 →
        exec (.migrationPassEnd g) s = .next (on s fun d => d.setMig g { m with pass := m.pass + 1, dirty := [] })) ∧
      (16 < m.dirty.length → 8 ≤ m.pass + 1 → m.retire = false → Runs (.migrationPassEnd g) s fun e =>
        (e.gran g).state = stStable ∧ (e.gran g).frame = x.frame ∧ (e.gran g).slow = x.slow ∧
        e.fld pTIER rTIER_STAT.off 47 40 = min 255 (s.dev.fld pTIER rTIER_STAT.off 47 40 + 1) ∧ SameMemory s.dev e)) ∧
    (x.valid = true → x.state = stSwitching → m.retire = false → m.held = [] → g.val ∉ s.dev.tier.waiting →
      Runs (.migrationSwitchDone g) s fun e =>
        e.gran g = { x with state := stStable, slow := x.dslow, frame := x.dframe, dslow := false, dframe := 0 } ∧
        e.fld pTIER rTIER_STAT.off 63 48 = min 65535 (s.dev.fld pTIER rTIER_STAT.off 63 48 + 1) ∧ SameMemory s.dev e) ∧
    (Tab.wf (fun _ => ({} : TierEntry)) s.dev.tier.map = true → Runs .heatHalve s fun e =>
      (∀ h, e.gran h = { s.dev.gran h with heat := (s.dev.gran h).heat / 2 }) ∧ e.regs = s.dev.regs ∧ SameMemory s.dev e) ∧
    (∀ (t : Fin 1024), let n := g.val * 1024 + t.val
      let mended := fun e : Dev => (∀ l, l / 1024 = n → l ∉ e.poison) ∧ e.refetchTry n = none ∧
        e.fld pTIER rTIER_STAT.off 39 24 = min 65535 (s.dev.fld pTIER rTIER_STAT.off 39 24 + 1)
      x.valid = true → x.state = stRefetch → (s.dev.poisonTiles g).contains n = true → s.dev.tier.tried.contains n = false →
      (∀ bs, s.dev.replicaTile g t = some bs → Runs (.refetchTileDone g t none) s mended) ∧
      (s.dev.replicaTile g t = none → s.dev.chunkOver n = none → Runs (.refetchTileDone g t none) s fun e =>
        n ∈ e.tier.tried ∧ n ∈ e.tier.left ∧ e.poison = s.dev.poison ∧ SameMemory s.dev e) ∧
      (∀ a c k src conn port, s.dev.replicaTile g t = none → s.dev.chunkOver n = some (a, c) →
        s.dev.nextAttempt x.part a c 0 = some (k, src, conn, port) → Runs (.refetchTileDone g t none) s fun e =>
        e.refetchTry n = some { chunk := c, attempts := k, source := src, port := port, start := s.dev.now, inFlight := true } ∧
        e.out = s.dev.out ++ [.readChunk x.part conn (s.dev.remoteOf a src (s.dev.chunk (s.dev.manifest a) a c))
          (s.dev.chunk (s.dev.manifest a) a c).len] ∧
        e.poison = s.dev.poison ∧ e.tier = s.dev.tier ∧ SameMemory s.dev e) ∧
      (∀ data k, s.dev.refetchTry n = some k →
        (∀ bs, s.dev.chunkTile n data = some bs → Runs (.refetchTileDone g t (some (.arrived data))) s mended) ∧
        (s.dev.chunkTile n data = none → (∀ a c, s.dev.chunkOver n = some (a, c) → s.dev.nextAttempt x.part a c (k.attempts + 1) = none) →
          Runs (.refetchTileDone g t (some (.arrived data))) s fun e =>
            n ∈ e.tier.tried ∧ n ∈ e.tier.left ∧ e.refetchTry n = none ∧ e.poison = s.dev.poison ∧ SameMemory s.dev e)))

/-- A write of TIER_PQp that meets the three conditions takes effect whole; another changes nothing and sets refused. The stage cache never holds more frames than its quota after it is adjusted. Enabling a stream in order sets D to dinit and the layer to the counter of its ember; disabling it clears D; an enable out of order leaves it disabled. A stream follows its ember, a staging read that is done makes its copy valid, and reads of STRM_STS and TIER_STAT return and clear their counts. None of these touches memory. (R177.) -/
def Obligations.TierQuotasAndStreamsComplete : Prop :=
  ∀ (a : Access) (p : Fin 64) (v : Word) (s : State), let q := rTIER_PQ.at p
    (s.dev.writable a pTIER q false = true → a.width = .full →
      let fits := s.dev.hbmUse p - s.dev.stageQuota p + bits v.toNat 47 32 ≤ bits v.toNat 15 0 ∧
        s.dev.slowUse p ≤ bits v.toNat 31 16 ∧ bits v.toNat 47 32 ≤ bits v.toNat 15 0
      (fits → Runs (.tierPqWrite a p v) s fun e => OnlyRegs s.dev e ∧ e.fld pTIER q 15 0 = bits v.toNat 15 0 ∧
        e.fld pTIER q 31 16 = bits v.toNat 31 16 ∧ e.fld pTIER q 47 32 = bits v.toNat 47 32) ∧
      (¬ fits → exec (.tierPqWrite a p v) s = .next (on s fun d =>
        (d.setBit pTIER (rTIER_PU.at p) 63 true).emit (.readback 0 false)))) ∧
    (s.dev.live = true → Runs (.stageCacheAdjust p) s fun e => (e.stageOf p).length ≤ s.dev.stageQuota p ∧
      SameMemory s.dev e ∧ e.cores = s.dev.cores) ∧
    (∀ st : Fin 4, s.dev.writable a pTIER (strmCtl p st) false = true → a.width = .full →
      let new := rSTRM_CTL.write (s.dev.rd pTIER (strmCtl p st)) .full v.toNat
      (v.toNat.testBit 63 = false → Runs (.strmCtlWrite a p st v) s fun e =>
        e.strmOn p st = false ∧ e.strmD p st = 0 ∧ SameMemory s.dev e) ∧
      (v.toNat.testBit 63 = true → s.dev.strmOk p new = false → Runs (.strmCtlWrite a p st v) s fun e =>
        e.strmOn p st = false ∧ SameMemory s.dev e) ∧
      (v.toNat.testBit 63 = true → s.dev.strmOk p new = true → Runs (.strmCtlWrite a p st v) s fun e =>
        e.strmOn p st = true ∧ e.strmD p st = bits v.toNat 47 44 ∧
        (e.stream p st).c = s.dev.emberValue (bits v.toNat 13 0) ∧ SameMemory s.dev e)) ∧
    (∀ st : Fin 4, s.dev.live = true → s.dev.strmOn p st = true →
      s.dev.emberValue (s.dev.fld pTIER (strmCtl p st) 13 0) ≠ (s.dev.stream p st).c → Runs (.streamAdvance p st) s fun e =>
        (e.stream p st).c = s.dev.emberValue (s.dev.fld pTIER (strmCtl p st) 13 0) ∧ SameMemory s.dev e) ∧
    (∀ t, s.dev.live = true → (t, (⟨p, false⟩ : Staged)) ∈ s.dev.tier.staged → Runs (.stagingReadDone p t) s fun e =>
      e = { s.dev with tier := { s.dev.tier with staged := e.tier.staged } } ∧
      ∀ y, (t, y) ∈ e.tier.staged → y.done = true) ∧
    (∀ st : Fin 4, s.dev.writable a pTIER (strmSts p st) false = true → a.width = .full →
      Runs (.strmStsRead a p st) s fun e => OnlyRegs s.dev e ∧ e.fld pTIER (strmSts p st) 63 32 = 0 ∧
        e.fld pTIER (strmSts p st) 31 16 = 0 ∧ e.strmD p st = s.dev.strmD p st ∧
        e.out = s.dev.out ++ [.readback (BitVec.ofNat 64 (s.dev.rd pTIER (strmSts p st))) false]) ∧
    (s.dev.writable a pTIER rTIER_STAT.off false = true → a.width = .full → Runs (.tierStatRead a) s fun e =>
      OnlyRegs s.dev e ∧ e.rd pTIER rTIER_STAT.off = 0 ∧
      e.out = s.dev.out ++ [.readback (BitVec.ofNat 64 (s.dev.rd pTIER rTIER_STAT.off)) false])

/-- When the entry at the consumer index is the one named and may execute, the lengths that finished steps kept and the frees of request completions that stand before it are applied first. Then, for an entry that is well formed and for a slot below nseq, each of the six cache commands is executed by its operation: the result is written to the record of its slot and the consumer index advances by one, or the entry waits for what it reads and the consumer index stays. An entry for a slot below nseq with reserved fields has result 0x01. A kept length is the length of its sequence. A step boundary with an empty ring gives an active sequence that lacks it headroom, and ends. (R202, R204, R206, R210, R213, R221.) -/
def Obligations.CacheCommandsComplete : Prop :=
  ∀ (p : Fin 64) (s : State), s.dev.live = true →
    (∀ op, s.dev.cqReady p op = true → let d := (s.dev.applyKeeps p).cqFrees p (s.dev.cqCi p); let i := d.cqCi p; let x := d.cqArgs p i
      let next := fun (e : Dev) => e.setFld (pCACHE p) rCACHE_CQ_IDX.off 47 32 ((e.cqCi p + 1) % e.cqSize p)
      let comes := fun (c : Instr) (r : CacheDone) =>
        (∀ e n, r = (e, some n) → exec c s = .next (on s fun _ => next (e.setSeqResult p x.seq n))) ∧
        (∀ e, r = (e, none) → exec c s = .next (on s fun _ => e))
      (x.seq < d.nseq p → d.cqBad p i = false →
        (op = 1 → comes (.cacheOpen p) (d.openSeq p x)) ∧ (op = 2 → comes (.cachePause p) (d.pauseSeq p x)) ∧
        (op = 3 → comes (.cacheResume p) (d.resumeSeq p x)) ∧ (op = 4 → comes (.cacheFree p) (d.dropSeq p x)) ∧
        (op = 5 → comes (.cacheReceive p) (d.receiveSeq p x)) ∧ (op = 6 → comes (.cacheShip p) (d.shipSeq p x))) ∧
      (x.seq < d.nseq p → d.cqBad p i = true → ∀ c, (op = 1 ∧ c = .cacheOpen p ∨ op = 2 ∧ c = .cachePause p ∨
          op = 3 ∧ c = .cacheResume p ∨ op = 4 ∧ c = .cacheFree p ∨ op = 5 ∧ c = .cacheReceive p ∨ op = 6 ∧ c = .cacheShip p) →
        comes c (d, some 1))) ∧
    (∀ q n, (s.dev.part p).keeps = [(q, n)] → q < s.dev.nseq p → Direct s.dev (s.dev.seqAt p q) 64 → n < 2 ^ 20 →
      (s.dev.applyKeeps p).seqLen p q = n ∧ ((s.dev.applyKeeps p).part p).keeps = []) ∧
    (s.dev.cOn p = true → s.dev.inTest ukEngine (pCACHE p) = false → (s.dev.part p).boundary = false →
      s.dev.cqCi p = s.dev.cqPi p → (s.dev.part p).frees = [] → (s.dev.part p).keeps = [] → (s.dev.part p).awaiting = [] →
      (s.dev.short p = 0 → Runs (.cacheStepBoundary p) s fun e =>
        (e.part p).boundary = false ∧ SameMemory s.dev e ∧ e.regs = s.dev.regs) ∧
      (∀ q, s.dev.lacking p = [q] → s.dev.short p = 1 → 0 < s.dev.available p → s.dev.seqPages p q < 8192 →
        (∀ z, z < s.dev.nseq p → Apart (s.dev.pageEntry p q (s.dev.seqPages p q)) 4 (s.dev.seqAt p z) 64) →
        RecordSound s.dev p q → Runs (.cacheStepBoundary p) s fun e =>
          (e.part p).boundary = false ∧ e.seqH p q = true ∧ e.seqState p q = sqActive ∧
          ∃ n, Tab.get (fun _ => 0) (e.part p).pool n = q * 8192 + s.dev.seqPages p q + 1))

/-- An open is refused with 0x03 unless the sequence is free, and with 0x04 and nothing changed when fewer than the pages of its prompt and one more are available; otherwise the sequence is active. A pause of an active or awaiting sequence makes it paused when it does not bank at once; a resume needs a paused, banking or banked sequence; a free needs one that is not free and makes it free; a receive needs a free slot and room and makes it arriving; a ship needs an active or paused sequence and makes it shipping, unless a page is left poisoned (0x06; that result is the model's choice, log entry 26). A refused command changes nothing. A pause, a resume or a ship whose source lines must first come back, be staged or be re-fetched waits with no result. (R202, R206, R210.) -/
def Obligations.CacheCommandResults : Prop :=
  ∀ (d : Dev) (p : Nat) (x : CacheArgs), let st := d.seqState p x.seq; let n := d.pagesFor p x.arg0
    let gate := fun rs => (d.readGate rs).2
    let pages := (d.seqRefs p x.seq).flatMap (d.pageReads p)
    (st ≠ sqFree → d.openSeq p x = (d, some 0x03)) ∧
    (st = sqFree → x.arg0 ≤ 1048575 → n ≤ 4096 → d.available p < n + 1 → d.openSeq p x = (d, some 0x04)) ∧
    (st = sqFree → x.arg0 ≤ 1048575 → n ≤ 4096 → n + 1 ≤ d.available p →
      (d.openSeq p x).2 = some 0 ∧ (RecordSound d p x.seq → (d.openSeq p x).1.seqState p x.seq = sqActive)) ∧
    (st ≠ sqActive → st ≠ sqAwaiting → d.pauseSeq p x = (d, some 0x03)) ∧
    (st = sqActive ∨ st = sqAwaiting →
      (gate (d.closeReads p x.seq) = .wait → (d.pauseSeq p x).2 = none) ∧
      (gate (d.closeReads p x.seq) ≠ .wait → (d.pauseSeq p x).2 = some 0 ∧ (Direct d (d.seqAt p x.seq) 64 →
        d.bit (pCACHE p) rCACHE_CTL.off 62 = false → (d.pauseSeq p x).1.seqState p x.seq = sqPaused))) ∧
    (st ≠ sqPaused → st ≠ sqBanking → st ≠ sqBanked → d.resumeSeq p x = (d, some 0x03)) ∧
    (st = sqPaused ∨ st = sqBanking →
      (gate (d.reopenReads p x.seq) = .wait → (d.resumeSeq p x).2 = none) ∧
      (gate (d.reopenReads p x.seq) ≠ .wait → (d.resumeSeq p x).2 = some 0 ∧
        (RecordSound d p x.seq → (d.resumeSeq p x).1.seqState p x.seq = sqActive))) ∧
    (st = sqBanked → d.available p < d.seqPages p x.seq + 1 → d.resumeSeq p x = (d, some 0x04)) ∧
    (st = sqBanked → d.seqPages p x.seq + 1 ≤ d.available p → (d.resumeSeq p x).2 = some 0 ∧
      (Direct d (d.seqAt p x.seq) 64 → (d.resumeSeq p x).1.seqState p x.seq = sqRestoring)) ∧
    (st = sqFree → d.dropSeq p x = (d, some 0x03)) ∧
    (st ≠ sqFree → (d.dropSeq p x).2 = some 0 ∧ (Direct d (d.seqAt p x.seq) 64 → (d.dropSeq p x).1.seqState p x.seq = sqFree)) ∧
    (st ≠ sqFree → d.receiveSeq p x = (d, some 0x03)) ∧
    (st = sqFree → x.arg0 ≤ 4096 → d.available p < x.arg0 + 1 → d.receiveSeq p x = (d, some 0x04)) ∧
    (st = sqFree → x.arg0 ≤ 4096 → x.arg0 + 1 ≤ d.available p →
      (d.receiveSeq p x).2 = some 0 ∧ (RecordSound d p x.seq → (d.receiveSeq p x).1.seqState p x.seq = sqArriving)) ∧
    (st ≠ sqActive → st ≠ sqPaused → d.shipSeq p x = (d, some 0x03)) ∧
    (st = sqActive ∨ st = sqPaused →
      (gate (d.closeReads p x.seq ++ pages) = .wait → (d.shipSeq p x).2 = none) ∧
      (gate (d.closeReads p x.seq ++ pages) = .clear → d.closeReads p x.seq = [] → (d.shipSeq p x).2 = some 0 ∧
        (Direct d (d.seqAt p x.seq) 64 → (d.shipSeq p x).1.seqState p x.seq = sqShipping)) ∧
      (gate (d.closeReads p x.seq ++ pages) = .bad → d.closeReads p x.seq = [] → (d.shipSeq p x).2 = some 0x06))

/-- With the cache manager on, the slot below nseq, its record writable and no boundary waiting: a banking copy that is done, its source readable, makes the sequence banked and is counted; a restoring copy makes it active, or awaiting page without headroom; an expiry in time frees it, marks it expired and is counted; a transfer of a tile or of a parameter record with a good check value lands in its page, a record is kept when its geometry agrees (0x07 when not) and its epoch is here (0x05 when not), and a transfer with a bad check value is asked for again up to 4 times and then ends the arrival; a whole arrival makes the sequence active and is acknowledged; an acknowledgement frees the source, marks it shipped and counts it; an abort or a timeout returns a shipping sequence to the state it was shipped from, or frees an arriving one, with result 0x06. (R206, R207, R208, R210, R211, R212.) -/
def Obligations.CacheEventsComplete : Prop :=
  ∀ (p : Fin 64) (q : Fin 16384) (s : State), s.dev.live = true → s.dev.cOn p = true → q.val < s.dev.nseq p →
    RecordSound s.dev p q → (s.dev.part p).boundary = false → let st := s.dev.seqState p q; let stat := rCACHE_STAT.off
    let reads := (s.dev.seqRefs p q).flatMap (s.dev.pageReads p)
    (st = sqBanking → (s.dev.readGate reads).2 ≠ .wait → Runs (.bankingCopyDone p q) s fun e => e.seqState p q = sqBanked ∧
      e.fld (pCACHE p) stat 63 48 = min 65535 (s.dev.fld (pCACHE p) stat 63 48 + 1)) ∧
    (st = sqRestoring → (s.dev.readGate reads).2 ≠ .wait → Runs (.restoringCopyDone p q) s fun e =>
      e.seqState p q = sqActive ∧ e.seqH p q = true ∨ e.seqState p q = sqAwaiting ∧ e.seqH p q = false) ∧
    (st = sqPaused ∨ st = sqBanking ∨ st = sqBanked → s.dev.seqExpiry p q ≤ s.dev.ltc.toNat →
      s.dev.spared p q = false → Runs (.sequenceExpiry p q) s fun e => e.seqState p q = sqFree ∧
        (e.seqWord p q).testBit 26 = true ∧
        e.fld (pCACHE p) stat 47 32 = min 65535 (s.dev.fld (pCACHE p) stat 47 32 + 1)) ∧
    (∀ x, s.dev.hears = true → st = sqArriving → s.dev.ship? p q = some x →
      (∀ page t data, page < s.dev.seqPages p q → t < s.dev.cTpp p →
        let lands := fun item a => Runs (.shipTileArrival p q item true) s fun e =>
          (∃ y, e.ship? p q = some y ∧ ShipItem.key item ∈ y.got) ∧
          (s.dev.tierOk p (s.dev.partWorld p) a data.length = true → Direct s.dev a data.length → e.load a data.length = data)
        (data.length = s.dev.cTile p → lands (.tile page t data) (s.dev.tileAddr p (s.dev.pageRef p q page) t)) ∧
        (data.length = s.dev.cParam p → lands (.params page t data) (s.dev.paramAddr p (s.dev.pageRef p q page) t))) ∧
      (∀ data kv4 tpp dh, let item := ShipItem.record data kv4 tpp dh
        let same := kv4 = s.dev.cKv4 p ∧ tpp = s.dev.cTpp p ∧ dh = s.dev.cDim p
        let epoch := s.dev.slotOf p (leNat ((data.drop 12).take 4))
        let ends := fun n => Runs (.shipTileArrival p q item true) s fun e =>
          e.seqState p q = sqFree ∧ bits (e.seqWord p q) 23 16 = n
        (¬ same → ends 0x07) ∧ (same → epoch = none → ends 0x05) ∧
        (∀ i, same → epoch = some i → Runs (.shipTileArrival p q item true) s fun e =>
          e.seqState p q = sqArriving ∧ (∃ y, e.ship? p q = some y ∧ y.record = some data) ∧
          Tab.get (fun _ => 0) (e.part p).seqPins q ≠ 0)) ∧
      (∀ item, let n := Tab.get (fun _ => 0) x.tries (ShipItem.key item)
        (n < 4 → Runs (.shipTileArrival p q item false) s fun e => e.seqState p q = sqArriving ∧ ∃ y, e.ship? p q = some y ∧
          Tab.get (fun _ => 0) y.tries (ShipItem.key item) = n + 1) ∧
        (4 ≤ n → Runs (.shipTileArrival p q item false) s fun e =>
          e.seqState p q = sqFree ∧ bits (e.seqWord p q) 23 16 = 0x06))) ∧
    (∀ x, st = sqArriving → s.dev.ship? p q = some x → s.dev.shipWhole p q x = true → s.dev.engineVisible = true → Runs (.arrivalComplete p q) s fun e =>
      e.seqState p q = sqActive ∧ e.ship? p q = none) ∧
    (s.dev.hears = true → st = sqShipping → Runs (.shipAcknowledgement p q) s fun e => e.seqState p q = sqFree ∧
      (e.seqWord p q).testBit 25 = true ∧ e.fld (pCACHE p) stat 15 0 = min 65535 (s.dev.fld (pCACHE p) stat 15 0 + 1)) ∧
    (∀ x i, st = sqShipping → s.dev.ship? p q = some x → x.prior < 16 →
      (i = .shipAbortReceive p q ∧ s.dev.hears = true ∨ i = .shipAckTimeout p q ∧ x.since + 2 * s.dev.shipTo p ≤ s.dev.ltc.toNat) →
      Runs i s fun e => e.seqState p q = x.prior ∧ bits (e.seqWord p q) 23 16 = 0x06 ∧ e.ship? p q = none) ∧
    (∀ x i, st = sqArriving → s.dev.ship? p q = some x →
      (i = .shipAbortReceive p q ∧ s.dev.hears = true ∨ i = .arrivalTimeout p q ∧ x.since + s.dev.shipTo p ≤ s.dev.ltc.toNat) →
      Runs i s fun e => e.seqState p q = sqFree ∧ bits (e.seqWord p q) 23 16 = 0x06)

/-- A write of the producer index stores it modulo the ring. Enabling a cache manager whose tables are sound takes effect with no page in use; one whose tables are not sound leaves it disabled; disabling takes effect when every sequence is free, and otherwise changes nothing. A read of CACHE_STAT returns the counts and clears them. None touches memory. (R213, R214, R8.) -/
def Obligations.CacheRegistersComplete : Prop :=
  ∀ (a : Access) (p : Fin 64) (v : Word) (s : State), let e0 := s.dev.store8 a (pCACHE p) rCACHE_CTL.off rCACHE_CTL v
    (s.dev.writable a (pCACHE p) rCACHE_CQ_IDX.off true = true → Runs (.cacheCqPiWrite a p v) s fun e =>
      e.cqPi p = bits v.toNat 15 0 % s.dev.cqSize p ∧ e.cqCi p = s.dev.cqCi p ∧ SameMemory s.dev e ∧ e.cores = s.dev.cores) ∧
    (s.dev.writable a (pCACHE p) rCACHE_CTL.off false = true →
      (s.dev.cOn p = false → e0.cOn p = true → e0.cacheSound p = true → Runs (.cacheCtlWrite a p v) s fun e =>
        e.cOn p = true ∧ (e.part p).pool = [] ∧ (e.part p).bankUsed = [] ∧ e.cRsv p = 0 ∧ SameMemory s.dev e) ∧
      (s.dev.cOn p = false → e0.cOn p = true → e0.cacheSound p = false → Runs (.cacheCtlWrite a p v) s fun e =>
        e.cOn p = false ∧ OnlyRegs s.dev e) ∧
      (s.dev.cOn p = true → e0.cOn p = false → (∀ q, q < s.dev.nseq p → s.dev.seqState p q = sqFree) →
        Runs (.cacheCtlWrite a p v) s fun e => e.cOn p = false ∧ OnlyRegs s.dev e) ∧
      (s.dev.cOn p = true → e0.cOn p = false → (∃ q, q < s.dev.nseq p ∧ s.dev.seqState p q ≠ sqFree) →
        exec (.cacheCtlWrite a p v) s = .next (on s fun d => d.emit (.readback 0 false)))) ∧
    (s.dev.writable a (pCACHE p) rCACHE_STAT.off false = true → a.width = .full → Runs (.cacheStatRead a p) s fun e =>
      OnlyRegs s.dev e ∧ e.rd (pCACHE p) rCACHE_STAT.off = 0 ∧
      e.out = s.dev.out ++ [.readback (BitVec.ofNat 64 (s.dev.rd (pCACHE p) rCACHE_STAT.off)) false])

/-- For a record below nreq whose 128 bytes can be written: admit of a free, sound record with a current epoch makes it running with nout 0, reason none, the epoch of the current slot, allowed at dmax, probe and wcount at 0, and pins the epoch; cancel of a running record makes it cancelled, keeps its other fields, and lets its sequence be freed; release of a finished, cancelled or failed record frees it; draft on sets allowed to dmax and clears the rest of the draft state. Each reports 0 and changes no byte outside the record. Admit of a record that is not free, or when no epoch is current, and release of a free or running one report 0x03, admit of an unsound record 0x04, any command of a record not below nreq 0x02, and cancel of a record that is not running 0, each changing nothing else. Which result stands for which refusal follows the table of GEN_CMD_STS. (R215, R216, R217, R289.) -/
def Obligations.RequestCommandsComplete : Prop :=
  ∀ (a : Access) (p : Fin 64) (v : Word) (s : State), s.dev.writable a (pGEN p) rGEN_CMD.off true = true →
    let n := bits v.toNat 15 0; let w := s.dev.reqWord p n; let st := s.dev.reqState p n; let at_ := s.dev.reqAt p n
    let alone := fun (e : Dev) => e.fld (pGEN p) rGEN_CMD_STS.off 7 0 = 0 ∧ e.cores = s.dev.cores ∧
      ∀ x, x < at_ ∨ at_ + 128 ≤ x → e.load x 1 = s.dev.load x 1
    let only := fun r => Host.Outcome.next (on s fun d => Dev.emit (d.setFld (pGEN p) rGEN_CMD_STS.off 7 0 r) (.readback 0 false))
    (n < s.dev.nreq p → Direct s.dev at_ 128 →
      (∀ i, genOp v = 1 → st = rqFree → s.dev.reqSound p n = true → s.dev.currentSlot p = some i → Runs (.admitReq a p v) s fun e =>
        e.reqWord p n = rqRunning * 2 ^ 60 + s.dev.slotEpoch p i ∧
        e.reqDraft p n = draftWord (s.dev.reqDmax p n) 0 0 (bits (s.dev.reqDraft p n) 21 17) ∧
        e.slotPins p i = (s.dev.slotPins p i + 1) % 2 ^ 24 ∧ (e.part p).running = (s.dev.part p).running + 1 ∧ alone e) ∧
      (genOp v = 2 → st = rqRunning → Runs (.cancel a p v) s fun e => e.reqWord p n = putBits w 63 60 rqCancelled ∧
        (e.part p).running = (s.dev.part p).running - 1 ∧
        (e.part p).frees = (s.dev.part p).frees ++ [(s.dev.fld (pCACHE p) rCACHE_CQ_IDX.off 15 0, s.dev.reqSeq p n)] ∧
        (∀ i, s.dev.slotOf p (bits w 31 0) = some i → s.dev.slotState p i = slCurrent →
          e.slotPins p i = s.dev.slotPins p i - 1) ∧ alone e) ∧
      (genOp v = 3 → st = rqFinished ∨ st = rqCancelled ∨ st = rqFailed → Runs (.release a p v) s fun e =>
        e.reqWord p n = putBits w 63 60 rqFree ∧ (e.part p).running = (s.dev.part p).running ∧ alone e) ∧
      (genOp v = 4 → Runs (.draftOn a p v) s fun e =>
        e.reqDraft p n = draftWord (s.dev.reqDmax p n) 0 0 0 ∧ e.reqWord p n = w ∧ alone e)) ∧
    (n < s.dev.nreq p →
      (genOp v = 1 → st ≠ rqFree → exec (.admitReq a p v) s = only 3) ∧
      (genOp v = 1 → st = rqFree → s.dev.reqSound p n = false → exec (.admitReq a p v) s = only 4) ∧
      (genOp v = 1 → st = rqFree → s.dev.reqSound p n = true → s.dev.currentSlot p = none → exec (.admitReq a p v) s = only 3) ∧
      (genOp v = 2 → st ≠ rqRunning → exec (.cancel a p v) s = only 0) ∧
      (genOp v = 3 → st = rqFree ∨ st = rqRunning → exec (.release a p v) s = only 3)) ∧
    (s.dev.nreq p ≤ n → ∀ i, (i = .admitReq a p v ∧ genOp v = 1 ∨ i = .cancel a p v ∧ genOp v = 2 ∨
      i = .release a p v ∧ genOp v = 3 ∨ i = .draftOn a p v ∧ genOp v = 4) → exec i s = only 2)

/-- On a live device, an idle Geyser in service takes the descriptor at the head of its queue: a sound one becomes active at row 0; one that R220 refuses is dropped whole, counted and logged with its code, and no memory is touched. A row whose request is not known, not running, of another epoch or unsound ends before it is computed with the status of R220, and waits while a row of an earlier step of the same request stands in another Geyser. A row that ends before it is computed gets a completion record with its status, and one that goes on gets the record of the row computed; either way the next row is reached, and after the last row the descriptor is finished. The record's trunc bit says whether drafts were cut. A row that waits leaves memory as it is, and is worked again when the hold ends. The end of a finished descriptor waits until its records are visible and leaves the Geyser with its queue and no active descriptor. (R218, R220, R224, R227, R230, R231.) -/
def Obligations.GeyserComplete : Prop :=
  ∀ (die : Fin 8) (s : State), s.dev.live = true → let x := s.dev.geyser die
    (∀ y rest, x.active = none → x.queue = y :: rest → s.dev.inTest ukEngine (pGEY die) = false →
      let g := GDesc.ofBytes (s.dev.descBytes y); let code := s.dev.geyserCode y.part g
      (code = 0 → Runs (.geyserDescriptorStart die) s fun e => e.geyser die =
          { queue := rest, active := some y, running := s.dev.rowRunning y.part g 0 } ∧
        e.phAgents y.part phGenerate = s.dev.phAgents y.part phGenerate + 1 ∧ SameMemory s.dev e ∧ e.cores = s.dev.cores) ∧
      (code ≠ 0 → s.dev.bit (pGEY die) rERR_LOG0.off 63 = false → Runs (.geyserDescriptorStart die) s fun e =>
        e.geyser die = { x with queue := rest } ∧ e.rd (pGEY die) rERR_LOG0.off = (2 ^ 63 + 0x80 * 2 ^ 48 + code) % 2 ^ 64 ∧
        e.rd (pGEY die) rERR_LOG1.off = y.addr % 2 ^ 64 ∧ SameMemory s.dev e ∧ e.cores = s.dev.cores)) ∧
    (∀ y, x.active = some y → x.finished = false →
      let g := GDesc.ofBytes (s.dev.descBytes y); let e0 := s.dev.rowEntry g x.row; let n := e0.req
      let r := s.dev.rowStart die y.part g x.row x.running; let out := g.compl + 256 * x.row
      let known := n < s.dev.nreq y.part ∧ ((List.range g.nrows).filter fun j => (s.dev.rowEntry g j).req == n).length ≤ 1 ∧
        s.dev.tierOk y.part (s.dev.partWorld y.part) (s.dev.reqAt y.part n) 128 = true
      let run := s.dev.reqState y.part n = rqRunning
      let mine := bits (s.dev.reqWord y.part n) 31 0 = g.epoch
      (s.dev.scratchBusy out 256 true = true → r.2 = .waits false) ∧
      (s.dev.scratchBusy out 256 true = false →
        (¬ known → r.2 = .ends 0x06 false) ∧
        (known → s.dev.earlierRow die y.part g.step n = true → r.2 = .waits false) ∧
        (known → s.dev.earlierRow die y.part g.step n = false →
          (¬ run → r.2 = .ends (if x.running = true ∧ s.dev.reqState y.part n = rqCancelled then 0x01 else 0x02) false) ∧
          (run → ¬ mine → r.2 = .ends 0x03 false) ∧
          (run → mine → s.dev.reqSound y.part n = false → r.2 = .ends 0x08 false) ∧
          (run → mine → s.dev.reqSound y.part n = true → ∀ nd pr bias, r.2 = .goes nd pr bias →
            nd ≤ e0.nd ∧ nd ≤ s.dev.draftCap y.part g.step ∧ nd + e0.base % 64 ≤ 63))) ∧
      ∀ i, (i = .geyserRowCommit die ∧ x.held = false ∨ i = .geyserPoisonResume die ∧ x.held = true) →
        (∀ st cut, r.2 = .ends st cut → Runs i s fun e => (e.geyser die).row = x.row + 1 ∧ (e.geyser die).held = false ∧
          (e.geyser die).active = some y ∧ (e.geyser die).finished = decide (g.nrows ≤ x.row + 1) ∧
          (Direct s.dev out 256 → e.loadNat out 1 = st ∧ (e.loadNat out 2).testBit 12 = cut ∧
            ∀ a, a < out ∨ out + 256 ≤ a → e.load a 1 = s.dev.load a 1)) ∧
        (∀ held, r.2 = .waits held → Runs i s fun e => e.geyser die = { x with held := held } ∧ e.mem = s.dev.mem) ∧
        (∀ nd pr bias, r.2 = .goes nd pr bias → Runs i s fun e =>
          (e.geyser die).row = x.row + 1 ∧ (e.geyser die).held = false ∧ (e.geyser die).active = some y ∧
          (e.geyser die).finished = decide (g.nrows ≤ x.row + 1) ∧
          (e0.nd ≤ 8 → Direct s.dev out 256 → e.loadNat out 1 = (r.1.commitRow y.part g e0 nd pr bias).2.status ∧
            (e.loadNat out 2).testBit 12 = decide (nd < e0.nd)))) ∧
    (∀ y, x.active = some y → x.finished = true → let g := GDesc.ofBytes (s.dev.descBytes y)
      (s.dev.rangeVisible g.compl (256 * g.nrows) = true → Runs (.geyserDescriptorDone die) s fun e =>
        e.geyser die = { queue := x.queue } ∧ SameMemory s.dev e ∧ e.cores = s.dev.cores) ∧
      (s.dev.rangeVisible g.compl (256 * g.nrows) = false → exec (.geyserDescriptorDone die) s = .next s))

/-- At the end of step k, whose last descriptor was committed at time t, debt becomes min(dcap, max(0, debt + t - start - period)), all in nanoseconds, the level is 0 with mode off, the fixed level with mode fixed, and min(7, ceil(debt / quantum)) with mode catch-up, and DAMP_BUDGET holds the number of the next step, the level, and the draft and prefill caps of DAMP_LVL at that level; a step longer than the period is counted. A write of DAMP_STEP starts its step at the present time, and while a step boundary works, at its end. While a request runs a write of DAMP_CTL changes mode and level only; with none running it takes whole. A read of DAMP_STAT returns the counts and clears them. The draft cap of a step is that of the budget published for it, and of the last one published when there is none. None touches memory. (R232.) -/
def Obligations.DamperComplete : Prop :=
  ∀ (a : Access) (p : Fin 64) (v : Word) (s : State), let page := pGEN p; let c := rDAMP_CTL.off; let b := rDAMP_BUDGET.off
    (∀ y t, s.dev.live = true → (s.dev.part p).damp.find? (fun y => y.k == v) = some y → y.ended = some t →
      Runs (.damperStepEnd p v) s fun e =>
        let period := s.dev.fld page c 31 16 * 1000
        let debt := min (s.dev.fld page c 15 0 * 1000) (s.dev.rd page rDAMP_DEBT.off + (t - y.start) - period)
        let q := s.dev.fld page c 47 32 * 1000
        let level := e.fld page b 31 29
        e.rd page rDAMP_DEBT.off = debt ∧ e.fld page b 63 32 = (v.toNat + 1) % 2 ^ 32 ∧
        (s.dev.fld page c 63 62 = 0 → level = 0) ∧ (s.dev.fld page c 63 62 = 2 → level = s.dev.fld page c 61 59) ∧
        (s.dev.fld page c 63 62 = 1 → q ≠ 0 → level ≤ 7 ∧ (level < 7 → debt ≤ level * q ∧ level * q < debt + q) ∧
          (level = 7 → 6 * q < debt)) ∧
        e.fld page b 27 24 = bits (s.dev.rd page (rDAMP_LVL.at level)) 35 32 ∧
        e.draftCap p (v.toNat + 1) = e.fld page b 27 24 ∧
        (∀ n, (∀ x ∈ (e.part p).budgets, x.1 ≠ n % 2 ^ 32) → e.draftCap p n = e.fld page b 27 24) ∧
        e.fld page b 23 0 = bits (s.dev.rd page (rDAMP_LVL.at level)) 23 0 ∧
        e.fld page rDAMP_STAT.off 63 48 = min 65535 (s.dev.fld page rDAMP_STAT.off 63 48 + if period < t - y.start then 1 else 0) ∧
        (e.part p).damp = (s.dev.part p).damp.filter (fun z => z.k != v) ∧ SameMemory s.dev e ∧ e.cores = s.dev.cores) ∧
    (s.dev.writable a page rDAMP_STEP.off true = true → Runs (.dampStepWrite a p v) s fun e => OnlyPart p s.dev e ∧
      e.rd page rDAMP_STEP.off = v.toNat ∧
      ((s.dev.part p).boundary = false → ({ k := v, start := s.dev.now, last := 0, ended := none } : DampStep) ∈ (e.part p).damp) ∧
      ((s.dev.part p).boundary = true → (e.part p).heldSteps = (s.dev.part p).heldSteps ++ [v])) ∧
    (s.dev.writable a page c false = true → a.width = .full → bits v.toNat 63 62 ≠ 3 → Runs (.dampCtlWrite a p v) s fun e =>
      OnlyRegs s.dev e ∧ e.fld page c 63 62 = bits v.toNat 63 62 ∧ e.fld page c 61 59 = bits v.toNat 61 59 ∧
      ∀ h ∈ [(55, 52), (47, 32), (31, 16), (15, 0)], e.fld page c h.1 h.2 =
        if (s.dev.part p).running = 0 then bits v.toNat h.1 h.2 else s.dev.fld page c h.1 h.2) ∧
    (s.dev.writable a page rDAMP_STAT.off false = true → a.width = .full → Runs (.dampStatRead a p) s fun e =>
      OnlyRegs s.dev e ∧ e.rd page rDAMP_STAT.off = 0 ∧
      e.out = s.dev.out ++ [.readback (BitVec.ofNat 64 (s.dev.rd page rDAMP_STAT.off)) false])

/-- A write of k to LRN_PSTEP moves the open step's counts to LRN_PLAST with the present LTC as its end: each phase with agents at work has gained the time since the last account once in wall_ns and once for each agent in busy_ns, both saturating; then every count is 0 and the open step is k, begun now. With the trace enabled the closed record joins trace memory. A write of en = 1 to LRN_PTRACE claims trace memory and restarts the index, or is refused with en left at 0 while another holds it; a write of en = 0 with nothing waiting gives it up. The oldest waiting record is written to its place of the ring and counted. A write of free = 1 to LRN_GEN of a context in a group of several devices, or under recording, sets refused and changes nothing else; another write takes. None touches memory, but for the record written. (R253, R254, R255, R256, R249.) -/
def Obligations.PhaseCountersComplete : Prop :=
  ∀ (a : Access) (p : Fin 64) (v : Word) (s : State), let page := pLRN p; let ph := (s.dev.part p).phases
    let dt := s.dev.now - ph.since; let top := 2 ^ 64 - 1
    (s.dev.writable a page rLRN_PSTEP.off true = true → Runs (.lrnPstepWrite a p v) s fun e => OnlyPart p s.dev e ∧
      e.rd page (rLRN_PLAST.at 0) = s.dev.rd page (pcur 0) ∧ e.rd page (rLRN_PLAST.at 1) = s.dev.rd page (pcur 1) ∧
      e.rd page (rLRN_PLAST.at 2) = s.dev.now ∧
      (Tab.wf (fun _ => 0) ph.agents = true → ∀ n, n < 16 → s.dev.phAgents p n ≠ 0 →
        e.rd page (rLRN_PLAST.at (8 + 4 * n)) = min top (s.dev.rd page (phWord n 0) + dt) ∧
        e.rd page (rLRN_PLAST.at (9 + 4 * n)) = min top (s.dev.rd page (phWord n 1) + s.dev.phAgents p n * dt)) ∧
      e.rd page (pcur 0) = v.toNat ∧ e.rd page (pcur 1) = s.dev.now ∧ e.rd page (pcur 3) = p ∧
      (∀ i, 3 < i → i < 72 → e.rd page (pcur i) = 0) ∧ (e.part p).phases.since = s.dev.now ∧
      (e.part p).phases.trace = ph.trace ++
        if s.dev.bit page rLRN_PTRACE.off 63 then [(List.range 72).flatMap fun i => natLe 8 (e.rd page (rLRN_PLAST.at i))] else []) ∧
    (s.dev.writable a page rLRN_PTRACE.off false = true → a.width = .full →
      (v.toNat.testBit 63 = true → s.dev.bit page rLRN_PTRACE.off 63 = false → s.dev.held pMOD rCLAIM.off = false →
        Runs (.lrnPtraceWrite a p v) s fun e => OnlyRegs s.dev e ∧ e.bit page rLRN_PTRACE.off 63 = true ∧
          e.rd page rLRN_PTIDX.off = 0 ∧ e.holds pMOD rCLAIM.off traceHolder p = true) ∧
      (v.toNat.testBit 63 = true → s.dev.bit page rLRN_PTRACE.off 63 = false → s.dev.held pMOD rCLAIM.off = true →
        Runs (.lrnPtraceWrite a p v) s fun e => OnlyRegs s.dev e ∧ e.bit page rLRN_PTRACE.off 63 = false ∧
          e.bit pMOD rCLAIM.off 62 = true) ∧
      (v.toNat.testBit 63 = false → ph.trace = [] → s.dev.holds pMOD rCLAIM.off traceHolder p = true →
        Runs (.lrnPtraceWrite a p v) s fun e => OnlyRegs s.dev e ∧ e.bit page rLRN_PTRACE.off 63 = false ∧
          e.held pMOD rCLAIM.off = false)) ∧
    (∀ r rest, s.dev.live = true → ph.trace = r :: rest → let n := s.dev.fld page rLRN_PTIDX.off 31 0
      let at_ := s.dev.fld page rLRN_PTRACE.off 31 0 * 0x10000 + n % max 1 (s.dev.fld page rLRN_PTRACE.off 55 32) * 576
      Runs (.traceRecordWritten p) s fun e => (e.part p).phases.trace = rest ∧
        e.fld page rLRN_PTIDX.off 31 0 = (n + 1) % 2 ^ 32 ∧ e.cores = s.dev.cores ∧
        (s.dev.tierOk p (s.dev.partWorld p) at_ r.length = true → Direct s.dev at_ r.length →
          e.load at_ r.length = r ∧ ∀ x, x < at_ ∨ at_ + r.length ≤ x → e.load x 1 = s.dev.load x 1)) ∧
    (∀ c : Fin 16, s.dev.writable a page (rLRN_GEN.at c) false = true → a.width = .full →
      let barred := s.dev.inWideGroup p c = true ∨ s.dev.recording p c = true
      (v.toNat.testBit 0 = true → barred → Runs (.lrnGenWrite a p c v) s fun e => OnlyRegs s.dev e ∧
        e.bit page (rLRN_GEN.at c) 63 = true ∧ e.bit page (rLRN_GEN.at c) 0 = s.dev.bit page (rLRN_GEN.at c) 0) ∧
      (v.toNat.testBit 0 = false ∨ ¬ barred → Runs (.lrnGenWrite a p c v) s fun e => SameMemory s.dev e ∧ e.cores = s.dev.cores ∧
        e.bit page (rLRN_GEN.at c) 0 = v.toNat.testBit 0 ∧ (s.dev.bit page rLRN_ASH_CTL.off 63 = false → OnlyRegs s.dev e)))

/-- A write of rec = 1 for a context whose generators are not free-running, with trace memory free and room for the record, claims trace memory and starts a log whose only record is the begin record, index 0; with trace memory held, or free-running generators, rec stays 0 and nothing is recorded. A write of LRN_ASH_APP while recording appends the prepared record with index and check value filled in, waits its turn behind others, and waits for lines that must first come back; with nothing recorded it changes nothing. When the record no longer fits beside the reserve, gap is set and nothing is appended. A write of rec = 0 appends the end record with the count, the flags and the check value of all records before it. A record leaves trace memory for its place in the area. How the begin record spells what R259 names follows its table. (R257, R258, R259, R260, R261.) -/
def Obligations.AshRecorderComplete : Prop :=
  ∀ (a : Access) (p : Fin 64) (v : Word) (s : State), let page := pLRN p; let ctl := rLRN_ASH_CTL.off; let sts := rLRN_ASH_STS.off
    let log := (s.dev.part p).ash; let c := bits v.toNat 3 0
    (s.dev.writable a page ctl false = true → a.width = .full → s.dev.bit page ctl 63 = false → v.toNat.testBit 63 = true →
      (s.dev.bit page (rLRN_GEN.at c) 0 = false → s.dev.held pMOD rCLAIM.off = false → 144 ≤ s.dev.ashSize p →
        Runs (.ashRecordStart a p v) s fun e => OnlyPart p s.dev e ∧ e.recording p c = true ∧
          e.holds pMOD rCLAIM.off ashHolder p = true ∧ e.fld page sts 2 1 = 0 ∧ (e.part p).ash.nrec = 1 ∧
          (e.part p).ash.queue = [ashRecord 1 0 0 (s.dev.beginBody p c)]) ∧
      (s.dev.bit page (rLRN_GEN.at c) 0 = true ∨ s.dev.held pMOD rCLAIM.off = true →
        Runs (.ashRecordStart a p v) s fun e => OnlyRegs s.dev e ∧ e.bit page ctl 63 = false)) ∧
    (s.dev.writable a page ctl false = true → a.width = .full → s.dev.bit page ctl 63 = true → v.toNat.testBit 63 = false →
      Runs (.ashRecordStop a p v) s fun e => OnlyPart p s.dev e ∧ e.bit page ctl 63 = false ∧ (e.part p).ash.ended = true ∧
        (e.part p).ash.queue = log.queue ++ [ashRecord 0xFF 0 log.nrec (natLe 4 log.nrec ++
          natLe 1 (s.dev.fld page sts 2 1) ++ natLe 3 0 ++ natLe 4 (crc32c.result log.crc))]) ∧
    (s.dev.writable a page rLRN_ASH_APP.off true = true → let x := bits v.toNat 47 0; let n := s.dev.loadNatNew (x + 4) 4
      let flags := s.dev.loadNatNew (x + 2) 2; let r := ashRecord (s.dev.loadNatNew x 2) flags log.nrec (s.dev.loadNew (x + 16) n)
      let w := s.dev.partWorld p; let gate := fun m => (s.dev.readGate [(x, m)]).2
      (s.dev.bit page ctl 63 = false → exec (.lrnAshAppWrite a p v) s = .next (on s fun d => d.emit (.readback 0 false))) ∧
      (s.dev.bit page ctl 63 = true → log.apps ≠ [] → Runs (.lrnAshAppWrite a p v) s fun e => OnlyPart p s.dev e ∧
        (e.part p).ash = { log with apps := log.apps ++ [x] }) ∧
      (s.dev.bit page ctl 63 = true → log.apps = [] → x % 64 = 0 → s.dev.rangeCode p w x 16 = 0 →
        (gate 16 = .wait → Runs (.lrnAshAppWrite a p v) s fun e => (e.part p).ash = { log with apps := [x] } ∧ SameMemory s.dev e) ∧
        (gate 16 = .clear → gate (16 + n) = .clear → s.dev.rangeCode p w x (16 + n) = 0 → flags % 2 = 1 → s.dev.bit page sts 1 = false →
          (log.pos + r.length + 64 ≤ s.dev.ashSize p → Runs (.lrnAshAppWrite a p v) s fun e =>
            SameMemory s.dev e ∧ e.cores = s.dev.cores ∧
            (e.part p).ash.queue = log.queue ++ [r] ∧ (e.part p).ash.nrec = log.nrec + 1 ∧ (e.part p).ash.apps = [] ∧
            (e.part p).ash.pos = log.pos + r.length ∧ (e.part p).ash.crc = crc32c.feed log.crc r) ∧
          (s.dev.ashSize p < log.pos + r.length + 64 → Runs (.lrnAshAppWrite a p v) s fun e =>
            (e.part p).ash = log ∧ e.bit page sts 1 = true ∧ e.bit (pPART p) rPART_EVT.off evEngine = true ∧
            SameMemory s.dev e)))) ∧
    (∀ r rest, s.dev.live = true → (s.dev.part p).phases.trace = [] → log.queue = r :: rest →
      let at_ := s.dev.fld page rLRN_ASH_BASE.off 31 0 * 0x10000 + (log.pos - (log.queue.map List.length).sum)
      Runs (.traceRecordWritten p) s fun e => (e.part p).ash.queue = rest ∧
        e.fld page sts 63 32 = (s.dev.fld page sts 63 32 + 1) % 2 ^ 32 ∧ e.cores = s.dev.cores ∧
        (s.dev.tierOk p (s.dev.partWorld p) at_ r.length = true → Direct s.dev at_ r.length →
          e.load at_ r.length = r ∧ ∀ y, y < at_ ∨ at_ + r.length ≤ y → e.load y 1 = s.dev.load y 1))

/-- With the unit idle, out of test and no add waiting, a command is latched and sets busy. One whose word or table range fails its checks ends with its code; one whose table waits for a line stays, one whose table is left poisoned ends with 0x05 and names its first entry in STV_PROG, and one whose entries fail their checks ends with their code: none of these touches memory. An update, a scan or a mirror whose entries pass is worked as far as it can go; zero writes +0 to every element of the window's buffer and has result 0; pull writes the mirror of a named owned entry into its b and r, and into its m without nom, and sets held and complete. A command written while busy only sets lost. One piece of an update writes to b, r and m of its span exactly the elements that the recurrence of R270 computes from what lay there; one of a scan changes no memory and counts the non-finite gradients; one of a mirror sends the entry and waits for its acknowledgement with the timeout latched from STV_CTL.mto; a piece that must wait changes neither memory nor the command, and one whose lines are left poisoned ends a scan with 0x05. (R268, R269, R270, R276, R277, R279, R280, R281, R282.) -/
def Obligations.StoveCommandsComplete : Prop :=
  (∀ (a : Access) (p : Fin 64) (v : Word) (slabs : List MirrorEntry) (s : State),
    s.dev.writable a (pSTV p) rSTV_CMD.off true = true → let op := stoveOp v
    let c := s.dev.latchStove p op v (if op = 5 then slabs else []); let form := s.dev.stoveForm p c
    let taken := fun (d : Dev) => Dev.setStove (Dev.setBit ((d.setBit (pSTV p) stvSts 8 true).phStart p (stovePhase op))
      (pSTV p) stvSts 16 (op != 1 && (d.part p).updOvf)) p (some c)
    let ended_ := fun (x : StoveCmd) (r : Nat) (e : Dev) => e.stove p = some { x with result := r, finished := true, mirrors := [] }
    let works := fun (i : Instr) => i = .update a p v ∧ op = 1 ∨ i = .scan a p v ∧ op = 2 ∨ i = .mirror a p v ∧ op = 4
    let any_ := fun (i : Instr) => works i ∨ i = .zero a p v ∧ op = 3 ∨ i = .pull a p v slabs ∧ op = 5
    (s.dev.bit (pSTV p) stvSts 8 = true → ∀ i, any_ i →
      exec i s = .next (on s fun d => (d.setBit (pSTV p) stvSts 9 true).emit (.readback 0 false))) ∧
    (s.dev.bit (pSTV p) stvSts 8 = false → s.dev.inTest ukEngine (pSTV p) = false → (s.dev.part p).heldAdds = [] →
      (form ≠ 0 → ∀ i, any_ i → Runs i s fun e => ended_ c form e ∧ e.bit (pSTV p) stvSts 8 = true ∧ SameMemory s.dev e ∧
        e.cores = s.dev.cores) ∧
      (form = 0 → op = 3 → let w := bits v.toNat 55 52; let n := s.dev.winN p w * s.dev.winWidth p w
        Direct s.dev (s.dev.winBuf p w) n → Runs (.zero a p v) s fun e => ended_ { c with ready := true } 0 e ∧
          e.load (s.dev.winBuf p w) n = List.replicate n 0 ∧ OutsideSame [(s.dev.winBuf p w, n)] s.dev e) ∧
      (form = 0 → op ≠ 3 → let x := s.dev.stoveEntries c; let y := s.dev.stoveRows x
        let table := (s.dev.readGate [(c.entryAt 0, 64 * c.count)]).2
        let rows := (s.dev.readGate ((x.groups.map fun g => (c.rowAt g, 64)).filter fun r =>
          s.dev.tierOk p (s.dev.partWorld p) r.1 r.2)).2
        let code := s.dev.stoveCode p y
        (table = .wait → ∀ i, any_ i → Runs i s fun e => e.stove p = some c ∧ SameMemory s.dev e) ∧
        (table = .bad → ∀ i, any_ i → Runs i s fun e => ended_ c 5 e ∧ SameMemory s.dev e ∧
          e.fld (pSTV p) rSTV_PROG.off 47 32 = c.index 0) ∧
        (table = .clear → rows = .clear → code ≠ 0 → ∀ i, any_ i → Runs i s fun e =>
          ended_ y code e ∧ SameMemory s.dev e ∧ e.cores = s.dev.cores) ∧
        (table = .clear → rows = .clear → code = 0 → ∀ i, works i →
          exec i s = .next (on s fun d => (((taken d).setStove p (some y)).stoveRun p y.fuel).emit (.readback 0 false))) ∧
        (table = .clear → rows = .clear → code = 0 → op = 5 → y.entries.length = 1 →
          let e0 := y.entry 0; let nom := (y.row e0.group).nom
          e0.kind = kindOwned →
          (e0.solo = true ∨ s.dev.portTo e0.bdev = none ∨ pulledSlabs e0 nom slabs = none → Runs (.pull a p v slabs) s fun e =>
            ended_ y 6 e ∧ SameMemory s.dev e) ∧
          (∀ m, e0.solo = false → s.dev.portTo e0.bdev ≠ none → pulledSlabs e0 nom slabs = some [m] →
            let h := c.entryAt 0 + 56
            let rs := [(e0.b, m.b.length), (e0.r, m.r.length), (h, 5)] ++ if nom then [] else [(e0.m, m.m.length)]
            Separate s.dev rs → Runs (.pull a p v slabs) s fun e => ended_ y 0 e ∧ e.load e0.b m.b.length = m.b ∧
              e.load e0.r m.r.length = m.r ∧ (nom = false → e.load e0.m m.m.length = m.m) ∧ OutsideSame rs s.dev e ∧
              e.loadNat h 4 = m.step % 2 ^ 32 ∧ e.loadNat (h + 4) 1 = 1))))) ∧
  ∀ (d : Dev) (p : Nat) (c : StoveCmd), let e := c.entry c.next; let r := c.row e.group; let k := slabElems * c.slab
    let n := min (if c.op = 1 then r.span else slabElems) (e.count - k); let flag := c.entryAt c.next + 60
    let check := (d.stoveCheck p (e.tensors c.op r.nom) k n).2
    c.next < c.entries.length → e.kind = kindOwned → c.closed = false →
    (c.op = 1 → k < e.count → check = .clear →
      let rs := [(flag, 1), (e.b + 2 * k, 2 * n), (e.r + k, n)] ++ if r.nom then [] else [(e.m + 2 * k, 2 * n)]
      let xs := (List.range n).map fun i =>
        { i := e.first + k + i, g := d.loadNatNew (e.g + e.gw * (k + i)) e.gw, b := d.loadNat (e.b + 2 * (k + i)) 2,
          r := d.loadNat (e.r + k + i) 1, m := if r.nom then 0 else d.loadNat (e.m + 2 * (k + i)) 2 }
      let ys := (r.updateSpan c e xs).elems
      Separate d rs → Apart flag 1 (e.g + e.gw * k) (e.gw * n) →
        (d.stoveStep p c).load (e.b + 2 * k) (2 * n) = packed 2 (ys.map NewElem.b) ∧
        (d.stoveStep p c).load (e.r + k) n = packed 1 (ys.map fun y => unsigned 8 y.r) ∧
        (r.nom = false → (d.stoveStep p c).load (e.m + 2 * k) (2 * n) = packed 2 (ys.map NewElem.m)) ∧
        OutsideSame rs d (d.stoveStep p c)) ∧
    (c.op = 2 → k < e.count → check = .clear →
      SameMemory d (d.stoveStep p c) ∧ ∃ c', (d.stoveStep p c).stove p = some c' ∧ c'.next = c.next ∧
        c'.part.nonfin = c.part.nonfin + ((List.range n).filter fun i =>
          let x := d.loadNatNew (e.g + e.gw * (k + i)) e.gw
          let g := if e.g32 then f32c x else layBf16.value x
          g.isNan || g.isInf).length) ∧
    (c.op = 1 ∨ c.op = 2 → k < e.count → check = .wait → SameMemory d (d.stoveStep p c) ∧ (d.stoveStep p c).stove p = d.stove p) ∧
    (c.op = 2 → k < e.count → ∀ sl, check = .bad sl → SameMemory d (d.stoveStep p c) ∧
      (d.stoveStep p c).stove p = some { c with result := 5, finished := true, mirrors := [] }) ∧
    (c.op = 4 → e.solo = false → (d.stoveCheck p (e.tensors 4 r.nom) 0 e.count).2 = .clear →
      SameMemory d (d.stoveStep p c) ∧ (d.stoveStep p c).stove p =
        some { c with mirrors := [e.bent], deadline := d.now + c.mto })

/-- When every result is visible, and not before, the result shows, busy clears and a local counter ember of the partition gains 1. An accepted mirror lets the work go on, which after the last entry ends with 0; a refused one, and one not acknowledged in time, end the command with 0x06. A die that waits goes on with its work. A mirror slab that fits its entry, whose bases lie as R264 asks, is written to b, r and m, the last one sets held and complete once it is visible; one that cannot be taken changes no memory. An aligned word written into an enabled window is added to its element as R266 gives, and nothing else changes; of a write that runs past the window's end the rest is stored; a poisoned one changes no byte and poisons its destination lines; any other write only sets badwr. Word 0 of an enabled window takes nothing but its disabling; enabling takes effect only when R268 allows it; words 1 and 2 of an enabled window are ignored. That writing en = 0 disables a window although R268 says that a write of word 0 is ignored is the model's reading (log entry 22). (R265, R266, R267, R268, R279, R281, R282.) -/
def Obligations.StoveEventsComplete : Prop :=
  ∀ (p : Fin 64) (s : State),
    (∀ c, s.dev.live = true → s.dev.stove p = some c →
      (c.finished = true → s.dev.engineVisible = false → exec (.stoveCommandDone p) s = .next s) ∧
      (c.finished = true → s.dev.engineVisible = true → Runs (.stoveCommandDone p) s fun e => e.stove p = none ∧ e.fld (pSTV p) stvSts 7 0 = c.result % 256 ∧
        e.bit (pSTV p) stvSts 8 = false ∧ SameMemory s.dev e ∧
        (c.word.toNat.testBit 15 = true → let m := bits c.word.toNat 13 0; s.dev.ownsEmber p m = true → s.dev.emberRemote m = false →
          s.dev.emberKind m = ebCounter → s.dev.emberValue m + 1 < 2 ^ 64 → e.emberValue m = s.dev.emberValue m + 1)) ∧
      (∀ n, c.finished = false → c.mirrors = [n] →
        (s.dev.hears = true → Runs (.mirrorAckReceive p n false) s fun e =>
          e = s.dev.setStove p (some { c with result := 6, finished := true, mirrors := [] })) ∧
        (s.dev.hears = true → c.next + 1 = c.entries.length → c.op = 1 ∨ c.op = 4 → c.ready = true → (s.dev.part p).heldAdds = [] →
          s.dev.inTest ukEngine (pSTV p) = false → Runs (.mirrorAckReceive p n true) s fun e =>
          e = s.dev.setStove p
            (some { c with mirrors := [], next := c.next + 1, slab := 0, closed := false, result := 0, finished := true })) ∧
        (c.deadline ≤ s.dev.now → Runs (.mirrorTimeout p) s fun e =>
          e = s.dev.setStove p (some { c with result := 6, finished := true, mirrors := [] }))) ∧
      (c.finished = false → c.mirrors = [] → c.ready = true → (s.dev.part p).heldAdds = [] →
        exec (.stovePoisonResume p) s = .next (on s fun d => d.stoveRun p c.fuel))) ∧
    (∀ m : MirrorEntry, s.dev.live = true → s.dev.hears = true → let at_ := s.dev.shardAt p m.entry
      let e0 := ShardEntry.ofBytes (s.dev.loadNew at_ 64); let w := s.dev.partWorld p
      let k := slabElems * m.slab; let data := [(e0.b + 2 * k, m.b.length), (e0.r + k, m.r.length)] ++
        if m.m.isEmpty then [] else [(e0.m + 2 * k, m.m.length)]
      let lies := fun t : Nat × Nat => s.dev.placed t.1 (t.2 * e0.count) t.2 = true ∧ s.dev.tierOk p w t.1 (t.2 * e0.count) = true
      let ok := m.entry < s.dev.fld (pSTV p) rSTV_SHARD.off 47 32 ∧ s.dev.tierOk p w at_ 64 = true ∧ s.dev.poisoned at_ 64 = false ∧
        mirrorFits e0 m = true ∧ lies (e0.b, 2) ∧ lies (e0.r, 1) ∧ (m.m ≠ [] → lies (e0.m, 2))
      (ok → (s.dev.part p).mirrorsDone = [] → s.dev.engineVisible = true →
        Separate s.dev ((at_ + 56, 5) :: data) → Runs (.mirrorReceive p m) s fun e => e.load (e0.b + 2 * k) m.b.length = m.b ∧
          e.load (e0.r + k) m.r.length = m.r ∧ (m.m ≠ [] → e.load (e0.m + 2 * k) m.m.length = m.m) ∧
          (m.isLast = true → e.loadNat (at_ + 56) 4 = m.step % 2 ^ 32 ∧ e.loadNat (at_ + 60) 1 = 1) ∧
          (m.isLast = false → m.isFirst = true → e.loadNat (at_ + 60) 1 = 0) ∧
          OutsideSame ((at_ + 56, 5) :: data) s.dev e) ∧
      (¬ ok → Runs (.mirrorReceive p m) s fun e => SameMemory s.dev e ∧ e.parts = s.dev.parts)) ∧
    (∀ (w : Fin 16) off (bs : List Byte) bad, s.dev.live = true → s.dev.winOn p w = true → off < 4 * s.dev.winN p w →
      let n := s.dev.winWidth p w; let i := off / 4; let at_ := s.dev.winBuf p w + n * i; let hi := s.dev.winBase p w + off + 4
      let f := if s.dev.winBf16 p w then layBf16 else layFp32; let x := BitVec.ofNat 32 (leNat (bs.take 4))
      let sum := (windowAdd f (s.dev.winMode p w i x) (s.dev.loadNat at_ n) x).1 % 256 ^ n
      ((s.dev.part p).heldAdds = [] → s.dev.companionOwns at_ n = false → s.dev.poisoned at_ n = false → off % 4 = 0 →
        (bs.length = 4 → Direct s.dev at_ n → Runs (.stoveWindowWrite p w off bs false) s fun e =>
          e.loadNat at_ n = sum ∧ OutsideSame [(at_, n)] s.dev e ∧ e.cores = s.dev.cores) ∧
        (4 < bs.length → off + 4 = 4 * s.dev.winN p w → Separate s.dev [(at_, n), (hi, bs.length - 4)] →
          Runs (.stoveWindowWrite p w off bs false) s fun e => e.loadNat at_ n = sum ∧
            e.load hi (bs.length - 4) = bs.drop 4 ∧ OutsideSame [(at_, n), (hi, bs.length - 4)] s.dev e)) ∧
      (off % 4 ≠ 0 ∨ bs.length % 4 ≠ 0 → off + bs.length ≤ 4 * s.dev.winN p w →
        exec (.stoveWindowWrite p w off bs bad) s = .next (on s fun d => d.setBit (pSTV p) stvSts 19 true)) ∧
      (off % 4 = 0 → bs.length % 4 = 0 → off + bs.length ≤ 4 * s.dev.winN p w → Runs (.stoveWindowWrite p w off bs true) s fun e =>
        e.mem = s.dev.mem ∧ e.regs = s.dev.regs ∧ ∀ l, at_ / 64 ≤ l → 64 * l < at_ + n * (bs.length / 4) → l ∈ e.poison)) ∧
    (∀ (a : Access) (w : Fin 16) (j : Fin 4) (v : Word), s.dev.writable a (pSTV p) (0x400 + 0x20 * w.val + 8 * j.val) false = true →
      a.width = .full → let same := Host.Outcome.next (on s fun d => d.emit (.readback 0 false))
      (s.dev.winOn p w = true → (j = 0 → v.toNat.testBit 63 = false → Runs (.stvWinWrite a p w 0 v) s fun e => OnlyRegs s.dev e ∧
          e.winOn p w = false ∧ e.winBase p w = s.dev.winBase p w) ∧
        (j = 0 ∧ v.toNat.testBit 63 = true ∨ j = 1 ∨ j = 2 → exec (.stvWinWrite a p w j v) s = same)) ∧
      (s.dev.winOn p w = false → let new := s.dev.store8 a (pSTV p) (0x400 + 0x20 * w.val) rSTV_WIN v
        (j = 0 → Runs (.stvWinWrite a p w 0 v) s fun e => OnlyRegs s.dev e ∧ e.winBase p w = bits v.toNat 47 0 ∧
          e.winOn p w = (v.toNat.testBit 63 && new.winSound p w)) ∧
        (j = 1 → Runs (.stvWinWrite a p w 1 v) s fun e => OnlyRegs s.dev e ∧ e.winN p w = bits v.toNat 39 0) ∧
        (j = 2 → Runs (.stvWinWrite a p w 2 v) s fun e => OnlyRegs s.dev e ∧ e.winBuf p w = bits v.toNat 47 0)) ∧
      (j = 3 → let c := s.dev.fld (pSTV p) (rSTV_WIN.at w) 55 52
        Runs (.stvWinWrite a p w 3 v) s fun e => OnlyPart p s.dev e ∧ e.rd (pSTV p) (rSTV_WIN_KEY.at w) = v.toNat ∧
          e.winKey p w = { stochastic := s.dev.bit (pPART p) (rPART_CTX.at c) 62, seed := s.dev.rd (pLRN p) (rLRN_SEED.at c) }))

/-- With no command in progress and no reserved field set: open of a free slot with a sound region list makes it loading with that list; verify of a loading slot whose manifest has form, both signatures, place and regions right latches it, and without the signatures reports 0x04; an open and a verify wait for what they read; commit-open of a loading slot, alone or at the master of a ready group, opens the next epoch and starts the timeout; and a member of a group whose slot has failed casts no; ready and fail of a load outside any group decide at once, the outcome being no for fail and for a failed slot, and those of a group cast the vote; release frees a loading slot. While the commit of a slot is open on the member, freeze holds it and abandon makes it loading; force-commit makes a voted one current. Release, force-commit and abandon end the turn boundary of the slot's group. A slot that becomes current makes the one that was current old, or free when no pin is on it. A command in a state that does not permit it reports 0x02. (R285, R286, R287, R288, R295, R301, R302, R303, R309, R329.) -/
def Obligations.EpochCommandsComplete : Prop :=
  ∀ (a : Access) (p : Fin 64) (v : Word) (s : State), s.dev.writable a (pWGT p) rWGT_CMD.off true = true →
    bits v.toNat 56 42 = 0 → let i := wgtSlot v; let w := s.dev.weights p; let st := s.dev.slotState p i; let op := wgtOp v
    let gate := fun rs => (s.dev.readGate rs).2
    let sts := fun (e : Dev) => e.fld (pWGT p) wgtSts 7 0; let g := wgtGroup v; let next := (s.dev.epochNow p + 1) % 2 ^ 32
    let only := fun r => Host.Outcome.next (on s fun d => Dev.emit (d.wgtEnd p r) (.readback 0 false))
    let failed := fun (e : Dev) => e.bit (pWGT p) (slotOff i) 60 = true
    let closed := fun (e : Dev) => ∀ k, k < 1024 → Tab.get (fun _ => 0) w.groupOf i = k + 1 → s.dev.groupState k ≠ gFree →
      (s.dev.group k).part = p → e.bit pFAB (gsts k) 54 = false
    let current := fun (e : Dev) epoch => e.slotState p i = slCurrent ∧ e.slotEpoch p i = epoch ∧
      (∀ j, s.dev.currentSlot p = some j → j ≠ i → e.slotState p j = if s.dev.slotPins p j = 0 then slFree else slOld) ∧
      (e.weights p).commitSlot = none ∧ sts e = 0
    (s.dev.bit (pWGT p) wgtSts 8 = false →
      (op = 1 → st = slFree → let n := s.dev.fld (pWGT p) (rWGT_SLOT_NREG.at i) 44 32; let base := bits v.toNat 31 0 * 0x10000
        let es := (List.range n).map fun k => s.dev.loadNat (base + 8 * k) 8; let rs := es.map fun e => (bits e 15 0, bits e 31 16)
        1 ≤ n → n ≤ 4096 → s.dev.tierOk p (s.dev.partWorld p) base (8 * n) = true →
        (∀ r ∈ rs, ∀ k, k < r.2 → (s.dev.gran (r.1 + k)).valid = true ∧ (s.dev.gran (r.1 + k)).part = p) →
        (∀ j, j < 4 → j ≠ i → s.dev.slotState p j ≠ slFree → ∀ o ∈ s.dev.regionsOf p j, ∀ r ∈ rs,
          r.2 = 0 ∨ o.2 = 0 ∨ Apart r.1 r.2 o.1 o.2) →
        (gate [(base, 8 * n)] = .wait → Runs (.openSlot a p v) s fun e => (e.weights p).held = some v ∧
          e.bit (pWGT p) wgtSts 8 = true ∧ e.slotState p i = slFree ∧ SameMemory s.dev e) ∧
        (gate [(base, 8 * n)] = .clear → Runs (.openSlot a p v) s fun e => e.slotState p i = slLoading ∧ e.regionsOf p i = rs ∧ e.slotPins p i = 0 ∧ sts e = 0 ∧
          (∀ j, j < 4 → j ≠ i → e.slotState p j = s.dev.slotState p j) ∧ SameMemory s.dev e)) ∧
      (op = 2 → st = slLoading → w.localLoad.contains i = true ∨ s.dev.groupState g = gReady →
        let at_ := s.dev.fld (pWGT p) rWGT_MAN.off 47 0; let m := s.dev.manifest at_
        (gate (s.dev.manifestRange p at_) = .wait → Runs (.verify a p v) s fun e => (e.weights p).held = some v ∧
          e.bit (pWGT p) wgtSts 8 = true ∧ SameMemory s.dev e) ∧
        (gate (s.dev.manifestRange p at_) = .clear → s.dev.manifestForm p at_ = true → m.part = p → (m.member, m.members) = s.dev.loadGroup p i g →
        (∀ c, c < m.nchunk → inRegions (s.dev.regionsOf p i) (s.dev.chunk m at_ c).dest (s.dev.chunk m at_ c).len = true) →
        Runs (.verify a p v) s fun e => SameMemory s.dev e ∧
          if s.dev.signaturesOk m at_ = true then
            i ∈ (e.weights p).verified ∧ e.rd (pWGT p) (rWGT_SLOT_MAN.at i) = at_ ∧ sts e = 0
          else e.weights p = w ∧ sts e = 4)) ∧
      (op = 5 → st = slLoading → (wgtLocal v = true ∨ w.localLoad.contains i = true) ∨
          s.dev.groupState g = gReady ∧ (s.dev.group g).own = 0 → Runs (.commitOpen a p v) s fun e =>
        (e.weights p).commitSlot = some i ∧ (e.weights p).commitEpoch = next ∧
        (e.weights p).deadline = s.dev.now + s.dev.fld (pWGT p) rWGT_CTL.off 31 0 * 1000000 ∧ sts e = 0 ∧ SameMemory s.dev e ∧
        if failed s.dev ∧ wgtLocal v = false ∧ w.localLoad.contains i = false then (e.weights p).vote = some false
        else (e.weights p).vote = none ∧ e.slotState p i = slLoading) ∧
      (op = 6 → st = slLoading → ¬ failed s.dev →
        (w.localLoad.contains i = true → Runs (.ready a p v) s fun e => current e next ∧ SameMemory s.dev e) ∧
        (w.localLoad.contains i = false → w.commitSlot = some i → w.vote = none → Runs (.ready a p v) s fun e =>
          (e.weights p).vote = some true ∧ e.slotState p i = slVoted ∧ e.bit (pWGT p) wgtSts 8 = true)) ∧
      (op = 6 → st = slLoading → failed s.dev → w.localLoad.contains i = true → Runs (.ready a p v) s fun e =>
        e.slotState p i = slLoading ∧ (e.weights p).commitSlot = none ∧ sts e = 9 ∧ SameMemory s.dev e) ∧
      (op = 7 → st = slLoading →
        (w.localLoad.contains i = true → Runs (.fail a p v) s fun e =>
          e.slotState p i = slLoading ∧ (e.weights p).commitSlot = none ∧ sts e = 9) ∧
        (w.localLoad.contains i = false → w.commitSlot = some i → w.vote = none → Runs (.fail a p v) s fun e =>
          (e.weights p).vote = some false ∧ e.slotState p i = slVoted ∧ e.bit (pWGT p) wgtSts 8 = true)) ∧
      (op = 11 → st = slLoading → Runs (.releaseSlot a p v) s fun e => e.slotState p i = slFree ∧ e.regionsOf p i = [] ∧
        closed e ∧ sts e = 0 ∧ SameMemory s.dev e) ∧
      (∀ c, (c = .openSlot a p v ∧ op = 1 ∧ st ≠ slFree ∨ c = .verify a p v ∧ op = 2 ∧ st ≠ slLoading ∨
        c = .fetch a p v ∧ op = 3 ∧ st ≠ slLoading ∨ c = .commitOpen a p v ∧ op = 5 ∧ st ≠ slLoading ∨
        c = .ready a p v ∧ op = 6 ∧ st ≠ slLoading ∨ c = .fail a p v ∧ op = 7 ∧ st ≠ slLoading ∨
        c = .releaseSlot a p v ∧ op = 11 ∧ st ≠ slLoading) → exec c s = only 2)) ∧
    (st = slVoted ∨ st = slLoading → w.commitSlot = some i →
      (op = 8 → Runs (.freeze a p v) s fun e => (e.weights p).frozen = true ∧ e.slotState p i = st ∧ sts e = 0 ∧
        SameMemory s.dev e) ∧
      (op = 9 → st = slVoted → Runs (.forceCommit a p v) s fun e => current e (w.commitEpoch % 2 ^ 32) ∧ closed e ∧ SameMemory s.dev e) ∧
      (op = 10 → Runs (.abandon a p v) s fun e => e.slotState p i = slLoading ∧ (e.weights p).commitSlot = none ∧ sts e = 0 ∧
        closed e ∧ SameMemory s.dev e))

/-- A fetch of a verified loading slot clears its failed bit and is in progress, or is done when no chunk is left. An abort marks it and drops the chunks that wait. A chunk that arrives whole with its digest lands at its destination and is counted; a last attempt that ends in an error, or that has run for WGT_CTL.ato, makes the load fail with its chunk, and what has arrived stands in the destination; an attempt whose destination is no longer that of the loading slot is refused. Once nothing is in flight a failing load ends with the failed bit set and result 0x07 and its chunk, 0x06 when it was refused, or 0x0A after an abort, and the slot stays loading, or casts a no when its commit is open. An open that a member hears starts its timeout; one of another epoch gets a no and 0x08, one for a slot that has failed a no; the timeout of a member that has not voted casts a no, or ends the commit of a load outside any group with 0x09. The message of a round that is due gives its vote to the AND of the votes, and one of a later round is kept. When every round is done with every vote yes the slot becomes current with the opened epoch; otherwise it returns to loading with 0x09; either way the commit is over. (R296, R297, R298, R301, R302.) -/
def Obligations.FetchAndVoteComplete : Prop :=
  ∀ (p : Fin 64) (s : State), let w := s.dev.weights p; let page := pWGT p; let sts := fun (e : Dev) => e.fld page wgtSts 7 0
    (∀ (a : Access) (v : Word), s.dev.writable a page rWGT_CMD.off true = true → bits v.toNat 56 42 = 0 → let i := wgtSlot v
      (wgtOp v = 3 → s.dev.bit page wgtSts 8 = false → s.dev.slotState p i = slLoading → w.verified.contains i = true → w.held = none →
        Runs (.fetch a p v) s fun e => e.bit page (slotOff i) 60 = false ∧ e.slotState p i = slLoading ∧ SameMemory s.dev e ∧
          ((e.weights p).fetching = some i ∧ e.bit page wgtSts 8 = true ∨
            (e.weights p).fetching = none ∧ (e.weights p).chunks = [] ∧ sts e = 0 ∧ e.bit page wgtSts 8 = false)) ∧
      (wgtOp v = 4 → w.fetching = some i → exec (.abort a p v) s = .next (on s fun d => Dev.emit
        (d.setWeights p { w with aborted := true, chunks := w.chunks.filter ChunkTry.inFlight }) (.readback 0 false)))) ∧
    (∀ c n, s.dev.live = true → s.dev.tryOf p n = some c → let a := s.dev.fetchMan p; let x := s.dev.chunk (s.dev.manifest a) a n
      (∀ data, s.dev.chunkOpen p x = true → data.length = x.len → Config.sha384 data = x.digest →
        Runs (.chunkAttemptEnd p n (.arrived data)) s fun e =>
        e.fld page wgtSts 43 24 = (s.dev.fld page wgtSts 43 24 + 1) % 2 ^ 20 ∧
        (s.dev.tierOk p (s.dev.partWorld p) x.dest x.len = true → Direct s.dev x.dest x.len →
          e.load x.dest x.len = data ∧ OutsideSame [(x.dest, x.len)] s.dev e)) ∧
      (∀ r data, (r = .chunkAttemptEnd p n (.error data) ∨
          r = .chunkAttemptTimeout p ⟨n, data⟩ ∧ c.start + s.dev.fld page rWGT_CTL.off 47 32 * 1000000 ≤ s.dev.now) →
        (s.dev.chunkOpen p x = false → Runs r s fun e => (e.weights p).refused = true ∧
          (∀ y ∈ (e.weights p).chunks, y.chunk ≠ n ∧ y.inFlight = true) ∧ SameMemory s.dev e) ∧
        (s.dev.chunkOpen p x = true → w.failing = false → s.dev.maxAttempts p ≤ c.attempts + 1 →
          Runs r s fun e => (e.weights p).failedChunk = some n ∧ (∀ y ∈ (e.weights p).chunks, y.chunk ≠ n) ∧
            (e.weights p).fetching = w.fetching ∧ (data = [] → SameMemory s.dev e) ∧
            (data.length ≤ x.len → s.dev.tierOk p (s.dev.partWorld p) x.dest data.length = true → Direct s.dev x.dest data.length →
              e.load x.dest data.length = data ∧ OutsideSame [(x.dest, data.length)] s.dev e)))) ∧
    (∀ i, s.dev.live = true → w.fetching = some i → w.failing = true → (∀ c ∈ w.chunks, c.inFlight = false) → w.held = none →
      Runs (.loadFailed p) s fun e => (e.weights p).fetching = none ∧ (e.weights p).failing = false ∧
        e.bit page (slotOff i) 60 = true ∧ e.bit page wgtSts 8 = false ∧
        (w.commitSlot = some i → w.vote = none → w.localLoad.contains i = false → s.dev.slotState p i = slLoading →
          (e.weights p).vote = some false ∧ e.slotState p i = slVoted) ∧
        (w.commitSlot = none ∨ w.vote ≠ none → (e.weights p).vote = w.vote ∧ e.slotState p i = s.dev.slotState p i) ∧
        sts e = (if w.aborted then 0x0A else if w.refused then 0x06 else 0x07) ∧
        (w.aborted = false → w.refused = false → e.fld page wgtSts 63 44 = w.failedChunk.getD 0 % 2 ^ 20) ∧ SameMemory s.dev e) ∧
    (∀ (i : Fin 4) (g : Fin 1024) (epoch : BitVec 32), s.dev.live = true → s.dev.hears = true → s.dev.groupState g = gReady →
      Runs (.commitOpenReceive p i g epoch) s fun e => (e.weights p).commitSlot = some i.val ∧
        (e.weights p).commitEpoch = epoch.toNat ∧ SameMemory s.dev e ∧
        (e.weights p).deadline = s.dev.now + s.dev.fld page rWGT_CTL.off 31 0 * 1000000 ∧
        if epoch.toNat ≠ (s.dev.epochNow p + 1) % 2 ^ 32 then (e.weights p).vote = some false ∧ sts e = 8
        else if s.dev.slotState p i = slLoading ∧ s.dev.bit page (slotOff i) 60 = true ∧ w.localLoad.contains i.val = false then
          (e.weights p).vote = some false ∧ e.slotState p i = slVoted
        else (e.weights p).vote = none ∧ e.slotState p i = s.dev.slotState p i) ∧
    (∀ i, s.dev.live = true → w.commitSlot = some i →
      (w.vote = none → w.deadline ≤ s.dev.now → Runs (.commitTimeout p) s fun e => SameMemory s.dev e ∧
        if w.localLoad.contains i = true then
          (e.weights p).commitSlot = none ∧ sts e = 9 ∧ (s.dev.slotState p i = slLoading → e.slotState p i = slLoading)
        else (e.weights p).vote = some false ∧ (s.dev.slotState p i = slLoading → e.slotState p i = slVoted)) ∧
      (∀ y, w.vote = some y → w.frozen = false → s.dev.voteRounds p ≤ w.voteRound → Runs (.commitBarrierComplete p w.allYes) s fun e =>
        (e.weights p).commitSlot = none ∧ SameMemory s.dev e ∧ e.bit page wgtSts 8 = (w.fetching.isSome || w.held.isSome) ∧
        if w.allYes = true then
          e.slotState p i = slCurrent ∧ e.slotEpoch p i = w.commitEpoch % 2 ^ 32 ∧ sts e = 0
        else (s.dev.slotState p i = slVoted → e.slotState p i = slLoading) ∧ sts e = 9) ∧
      ∀ o, o ≠ w.allYes ∨ w.frozen = true ∨ w.voteRound < s.dev.voteRounds p → exec (.commitBarrierComplete p o) s = .next s) ∧
    (∀ g yes, let x := s.dev.group g; s.dev.groupState g = gReady → x.part = p.val → x.votes = [] → w.commitSlot.isSome = true →
      w.commitGroup = g → w.frozen = false → w.vote.isSome = true →
      (w.voteRound + 1 = s.dev.voteRounds p → let e := s.dev.hearVote g x.commits w.voteRound yes
        (e.weights p).voteRound = w.voteRound + 1 ∧ (e.weights p).allYes = (w.allYes && yes)) ∧
      (∀ round, round ≠ w.voteRound → let e := s.dev.hearVote g x.commits round yes
        e.weights p = w ∧ (e.group g).votes = [(x.commits, round, yes)]))

/-- On a live device an idle Flue engine in service takes the descriptor at the head of its queue. One that fails the check of R306 writes no byte and has that status, and one whose destination lies outside the loading slots also gives the partition's commands result 0x06. The conversion of a sound one goes on group after group; a group of recipe 0 whose source elements can be read writes, for every record of it, the elements that the encoding of R305 gives, and no other byte. A stopped engine looks at its source again. The end of a descriptor waits until its data are visible, writes the status word, marks the slot of a failed one as failed, and leaves the engine with its queue and no active descriptor. (R304, R305, R306.) -/
def Obligations.FlueComplete : Prop :=
  (∀ (die : Fin 8) (s : State), s.dev.live = true → let f := s.dev.flue die
    (∀ y rest, f.active = none → f.queue = y :: rest → s.dev.inTest ukEngine (pFLUE die) = false →
      let x := FDesc.ofBytes (s.dev.descBytes y); let st := s.dev.flueCheck y.part x
      (st ≠ 0 → Runs (.flueDescriptorStart die) s fun e => e.flue die = { queue := rest, active := some y, status := st } ∧
        (st = 3 → s.dev.flueOpen y.part x.dst x.dstLen = false → e.fld (pWGT y.part) wgtSts 7 0 = 6) ∧
        SameMemory s.dev e ∧ e.cores = s.dev.cores) ∧
      (st = 0 → exec (.flueDescriptorStart die) s = .next (on s fun d =>
        ((d.setFlue die { queue := rest, active := some y, status := 0 }).phStart y.part phReshard).flueGo die))) ∧
    (f.held = true → exec (.fluePoisonResume die) s = .next (on s fun d => (d.setFlue die { f with held := false }).flueGo die)) ∧
    (∀ y, f.active = some y → f.held = false → let x := FDesc.ofBytes (s.dev.descBytes y)
      (s.dev.flueVisible x = false → exec (.flueDescriptorDone die) s = .next s) ∧
      (s.dev.flueVisible x = true → Runs (.flueDescriptorDone die) s fun e => e.flue die = { queue := f.queue } ∧ e.cores = s.dev.cores ∧
        (x.sts ≠ 0 → x.sts % 8 = 0 → s.dev.rangeCode y.part (s.dev.partWorld y.part) x.sts 8 = 0 → Direct s.dev x.sts 8 →
          e.loadNat x.sts 8 = f.statusWord % 2 ^ 64 ∧ OutsideSame [(x.sts, 8)] s.dev e) ∧
        (x.sts = 0 → SameMemory s.dev e) ∧
        (∀ i, i < 4 → f.status ≠ 0 → s.dev.slotState y.part i = slLoading ∨ s.dev.slotState y.part i = slVoted →
          inRegions (s.dev.regionsOf y.part i) x.dst 1 = true → e.bit (pWGT y.part) (slotOff i) 60 = true)))) ∧
  ∀ (d : Dev) (x : FDesc) (fs fd : Fmt) (i : Nat), x.recipe = 0 → let n := fd.elemBits
    let at_ := x.dst + i * fd.recordBytes x.kd + x.dk0 * n / 8
    let es := ((List.range x.nk).map fun t => (encodeElem fd (d.flueValue x fs i (x.sk0 + t))).1)
    Direct d at_ (n * x.nk / 8) → (d.flueGroup x fs fd i).1.load at_ (n * x.nk / 8) = packElems n es ∧
      OutsideSame [(at_, n * x.nk / 8)] d (d.flueGroup x fs fd i).1

/-- On a live device with REFCLK_B a port that trains with the fabric at its service level reports its width, no wider than its good lanes; without REFCLK_B it does not. A trained port that is not asleep sends a hello with its ID, version range and wish to sleep. A hello that arrives sets the peer fields and the state: conflict for this device's own ID, up with the highest common version, or incompatible with none; a port up whose two ends ask for sleep falls asleep. A port that hears nothing goes down, is counted and loses its peer, and trains again when it is enabled and its clock is there. An idle port in power state sleep asks for sleep, or sleeps when its peer has asked; traffic wakes it, and the packets that waited for it leave. Half power with a peer of version 2 idles lanes, and they carry traffic again. None touches memory or a core. (R310, R311, R312, R313, R314, R42.) -/
def Obligations.FabricPortsComplete : Prop :=
  ∀ (n : Fin 24) (s : State), s.dev.live = true → let r := rFAB_PORT.at n; let st := s.dev.portState n
    let ok := fun (e : Dev) => SameMemory s.dev e ∧ e.cores = s.dev.cores ∧ e.parts = s.dev.parts
    (∀ lanes : Fin 3, s.dev.pow.refclkB = false → exec (.fabricPortTrained n lanes) s = .next s) ∧
    (∀ (lanes : Fin 3) w, 2 ≤ s.dev.fld pMOD rMOD_SL.off 1 0 → st = portTraining → s.dev.pow.refclkB = true →
      s.dev.widest n = some w → w ≤ lanes.val → Runs (.fabricPortTrained n lanes) s fun e =>
      n.val ∈ e.fab.trained ∧ e.fld pFAB r 47 46 = lanes ∧ e.portState n = portTraining ∧ ok e) ∧
    (n.val ∈ s.dev.fab.trained → st ≠ portAsleep → exec (.helloSend n) s = .next (on s fun d => d.emit (.hello n
      { id := d.id, idValid := d.bit pFAB rFAB_ID.off 63, master := d.fld pFAB rFAB_STACK.off 13 0, port := n, verLo := 1,
        verHi := 2, caps := 0, sleep := d.fab.askSleep.contains n.val }))) ∧
    (∀ h : Hello, n.val ∈ s.dev.fab.trained → st ≠ portAsleep → let hi := min 2 h.verHi; let lo := max 1 h.verLo
      let mine := h.idValid = true ∧ s.dev.bit pFAB rFAB_ID.off 63 = true ∧ h.id = s.dev.id
      let both := h.sleep = true ∧ s.dev.fab.askSleep.contains n.val = true
      Runs (.helloReceive n h) s fun e => ok e ∧ e.bit pFAB r 43 = true ∧ e.fld pFAB r 42 38 = h.port % 32 ∧
        e.fld pFAB r 33 20 = h.id % 2 ^ 14 ∧ (mine → e.portState n = portConflict) ∧
        (¬ mine → hi < lo → e.portState n = portIncompatible) ∧
        (¬ mine → lo ≤ hi → e.fld pFAB r 45 44 = hi ∧ e.portState n = if st = portUp ∧ both then portAsleep else portUp)) ∧
    (n.val ∈ s.dev.fab.trained → st ≠ portAsleep → Runs (.fabricPortLoss n) s fun e => ok e ∧ n.val ∉ e.fab.trained ∧
      e.portState n = (if s.dev.bit pFAB r 63 = true ∧ s.dev.pow.refclkB = true then portTraining else portDown) ∧
      e.fld pFAB r 43 20 = 0 ∧ e.fld pFAB r 45 44 = 0 ∧
      e.fld pFAB (rFAB_PERR.at n) 31 16 = min 65535 (s.dev.fld pFAB (rFAB_PERR.at n) 31 16 + 1)) ∧
    (s.dev.fld pFAB r 60 59 = 2 → st = portUp → Runs (.portSleepRequest n) s fun e => ok e ∧ n.val ∈ e.fab.askSleep ∧
      if n.val ∈ s.dev.fab.peerSleep then e.portState n = portAsleep ∧ e.out = s.dev.out ++ [.portSleep n]
      else e.portState n = portUp ∧ e.out = s.dev.out) ∧
    (st = portAsleep → Runs (.portWake n) s fun e => ok e ∧ e.portState n = portUp ∧ n.val ∉ e.fab.askSleep ∧
      n.val ∉ e.fab.peerSleep ∧ ∀ q ∈ s.dev.fab.asleep, (s.dev.routeOf q.dst).testBit 63 = true → (s.dev.routeOf q.dst).testBit n = true →
        ∃ m q', Out.packet m q' ∈ e.out ∧ q'.dst = q.dst ∧ q'.payload = q.payload) ∧
    (∀ idle, st = portUp → s.dev.fld pFAB r 45 44 = 2 → idle = false ∨ s.dev.fld pFAB r 60 59 = 1 →
      Runs (.portHalfIdle n idle) s fun e => ok e ∧ e.regs = s.dev.regs ∧ (n.val ∈ e.fab.halfIdle ↔ idle = true))

/-- A write of FAB_ID is ignored while a group is not free; otherwise it takes, and a change of the ID sends every port in conflict back to training. A join at the master records the member at its index, or raises the event where the index is held. A flood written at a master goes to every member recorded, and the device enters warm reset with the flood as a cause; at a device that is no master it does nothing. A flood from the right source does the same, absorbed by a reset in progress; one from another source does nothing. An access to FAB_RT_DATA reads or writes the entry at the index and advances it; a destination whose entry is written is lost no longer. None touches memory. (R315, R316, R317, R39.) -/
def Obligations.IdentityAndFloodsComplete : Prop :=
  ∀ (a : Access) (s : State), let warm := fun (e : Dev) => e.pow.reset = some (s.dev.pow.reset.getD .warm) ∧
      e.pow.warmCauses = s.dev.pow.warmCauses ||| 16 ∧ SameMemory s.dev e ∧ e.regs = s.dev.regs
    (∀ v : Word, s.dev.writable a pFAB rFAB_ID.off false = true → a.width = .full →
      (s.dev.anyGroup = true → exec (.fabIdWrite a v) s = .next (on s fun d => d.emit (.readback 0 false))) ∧
      (s.dev.anyGroup = false → Runs (.fabIdWrite a v) s fun e => e.id = bits v.toNat 13 0 ∧
        e.fld pFAB rFAB_ID.off 63 62 = bits v.toNat 63 62 ∧ e.fld pFAB rFAB_ID.off 57 48 = bits v.toNat 57 48 ∧
        SameMemory s.dev e ∧ ∀ n : Fin 24, e.portState n =
          if s.dev.portState n = portConflict ∧ e.id ≠ s.dev.id then portTraining else s.dev.portState n)) ∧
    (∀ (src : Fin 16384) (i : Fin 16), s.dev.live = true → s.dev.bit pFAB rFAB_STACK.off 63 = true →
      s.dev.bit pFAB rFAB_ID.off 63 = true → Runs (.stackJoinReceive src i) s fun e => SameMemory s.dev e ∧
        if Tab.get (fun _ => 0) s.dev.fab.stack i = 0 then Tab.get (fun _ => 0) e.fab.stack i = src.val + 1
        else e.fab = s.dev.fab ∧ e.bit pFAB rINT_STS.off 0 = true) ∧
    (∀ v : Word, s.dev.writable a pFAB rFAB_FLOOD.off true = true → let scope := bits v.toNat 1 0
      (s.dev.bit pFAB rFAB_STACK.off 63 = false → exec (.fabFloodWrite a v) s = .next (on s fun d => d.emit (.readback 0 false))) ∧
      (s.dev.bit pFAB rFAB_STACK.off 63 = true → scope = 1 ∨ scope = 2 ∧ s.dev.bit pFAB rFAB_STACK.off 62 = true →
        Runs (.fabFloodWrite a v) s fun e => warm e ∧ ∀ x ∈ s.dev.fab.stack, x.2 ≠ 0 → x.2 - 1 ≠ s.dev.id →
          s.dev.bit pFAB rFAB_ID.off 63 = true → x.2 - 1 ∉ s.dev.fab.lost → s.dev.portTo (x.2 - 1) ≠ none →
          ∃ m q, Out.packet m q ∈ e.out ∧ q.dst = x.2 - 1 ∧ q.type = tyFlood ∧ q.arg = 1)) ∧
    (∀ (src : Fin 16384) (system : Bool), s.dev.pow.pwrGood = true → s.dev.pow.stopped = false →
      s.dev.bit pFAB rFAB_ID.off 63 = true →
      (s.dev.floodFrom src system = true → Runs (.floodReceive src system) s warm) ∧
      (s.dev.floodFrom src system = false → exec (.floodReceive src system) s = .next s)) ∧
    (s.dev.writable a pFAB rFAB_RT_DATA.off false = true → let i := s.dev.fld pFAB rFAB_RT_ADDR.off 13 0
      (∀ v : Word, a.width = .full → Runs (.fabRtDataAccess a (some v)) s fun e =>
        e.routeOf i = (v &&& 0x8000000000FFFFFF).toNat ∧ (∀ j, j ≠ i → e.routeOf j = s.dev.routeOf j) ∧ i ∉ e.fab.lost ∧
        e.fld pFAB rFAB_RT_ADDR.off 13 0 = (i + 1) % 16384 ∧ SameMemory s.dev e) ∧
      (Runs (.fabRtDataAccess a none) s fun e => OnlyRegs s.dev e ∧ e.fld pFAB rFAB_RT_ADDR.off 13 0 = (i + 1) % 16384 ∧
        e.out = s.dev.out ++ [.readback (BitVec.ofNat 64 (a.width.view (s.dev.routeOf i))) false]))

/-- On a live device, a packet whose CRC-32C does not agree is counted; one for another device goes on its route unchanged; one for this device shows that its sender is not lost, and one that is next in its flow is taken and acknowledged, an early one is held, and a repeated one only acknowledged. A put that is next, and whose bytes lie in the partition, is written. A cumulative acknowledgement frees exactly the packets that it covers and starts the count of resends again. Without an acknowledgement the flow is resent and the resend counted, and after 8 resends its destination is lost. (R317, R320, R321, R331.) -/
def Obligations.FlowsComplete : Prop :=
  ∀ s : State, s.dev.live = true →
    (∀ (n : Fin 24) (q : Packet) (crc : BitVec 32), s.dev.portState n = portUp →
      (crc.toNat ≠ packetCrc q → Runs (.packetReceive n q crc) s fun e => OnlyRegs s.dev e ∧
        e.fld pFAB (rFAB_PERR.at n) 63 32 = min (2 ^ 32 - 1) (s.dev.fld pFAB (rFAB_PERR.at n) 63 32 + 1)) ∧
      (crc.toNat = packetCrc q → s.dev.hears = true → q.dst ≠ s.dev.id →
        exec (.packetReceive n q crc) s = .next (on s fun d => d.depart q)) ∧
      (crc.toNat = packetCrc q → s.dev.hears = true → q.dst = s.dev.id → q.type < 14 →
        let here := fun (d : Dev) => d.found (· == q.src)
        let f := s.dev.flow q.src q.vc; let ahead := (q.fseq + (2 ^ 32 - f.expect)) % 2 ^ 32
        (q.type = tyHello ∨ q.type = tyAck → exec (.packetReceive n q crc) s = .next (on s here)) ∧
        (q.type ≠ tyHello → q.type ≠ tyAck → f.expect < 2 ^ 32 → q.fseq < 2 ^ 32 →
          (ahead = 0 → f.early = [] → q.type ∈ [tyJoin, tyFlood, tyEmber, tySegment, tyMirror, tyAbort] →
            exec (.packetReceive n q crc) s = .next (on s fun d =>
              ((here d).setFlow q.src q.vc { f with expect := (f.expect + 1) % 2 ^ 32 }).ackFlow q.src q.vc)) ∧
          (ahead = 0 → f.early = [] → q.type = tyPut → let tgt := bits q.place 47 0; let m := q.payload.length
            s.dev.tierOk q.part (s.dev.partWorld q.part) tgt m = true → Direct s.dev tgt m →
              Runs (.packetReceive n q crc) s fun e => e.load tgt m = q.payload ∧ OutsideSame [(tgt, m)] s.dev e ∧
                (e.flow q.src q.vc).expect = (f.expect + 1) % 2 ^ 32 ∧ q.src ∉ e.fab.lost) ∧
          (0 < ahead → ahead < 2 ^ 31 → (∀ x ∈ f.early, x.fseq ≠ q.fseq) → Runs (.packetReceive n q crc) s fun e =>
            e.flow q.src q.vc = { f with early := f.early ++ [q] } ∧ SameMemory s.dev e ∧ q.src ∉ e.fab.lost) ∧
          (2 ^ 31 ≤ ahead → exec (.packetReceive n q crc) s = .next (on s fun d => (here d).ackFlow q.src q.vc))))) ∧
    (∀ (src : Fin 16384) (vc : Fin 8) (k : BitVec 32), s.dev.bit pFAB rFAB_ID.off 63 = true → let f := s.dev.flow src vc
      Runs (.ackReceive src vc k) s fun e =>
        (e.flow src vc).unacked = f.unacked.filter (fun x => 2 ^ 31 ≤ (k.toNat + (2 ^ 32 - x.fseq % 2 ^ 32)) % 2 ^ 32) ∧
        ((e.flow src vc).unacked ≠ f.unacked → (e.flow src vc).resends = 0) ∧ e.regs = s.dev.regs ∧ SameMemory s.dev e) ∧
    (∀ (dst : Fin 16384) (vc : Fin 8), let f := s.dev.flow dst vc; f.unacked ≠ [] → s.dev.retraining dst = false →
      (f.resends < 8 → Runs (.flowResendTimeout dst vc) s fun e => e.flow dst vc = { f with resends := f.resends + 1 } ∧
        SameMemory s.dev e ∧ e.regs = s.dev.regs) ∧
      (8 ≤ f.resends → Runs (.flowResendTimeout dst vc) s fun e => e.fab.lost.contains dst.val = true))

/-- With no group command in progress and no reserved bit set: create of a free group that meets every check of R324 makes it joining with its members, place, partition, context and buffers, and is in progress; one whose member list must first come back or be re-fetched waits; create of a group that is not free reports 0x02 and changes no group; destroy frees the group whatever its state and reports 0. A command written while one is in progress only sets lost. A join every round of which has been heard, and whose check values agree, makes the group ready and reports 0; one that disagrees puts it in error with 0x07, and one that takes longer than FAB_CTL.jto with 0x08. (R323, R324, R325, R328, R340.) -/
def Obligations.GroupsComplete : Prop :=
  (∀ (a : Access) (v : Word) (s : State), s.dev.writable a pFAB rFAB_GCMD.off true = true → let g := bits v.toNat 9 0
    let op := bits v.toNat 63 60; let d := s.dev; let res := fun (e : Dev) => e.fld pFAB gcmdSts 7 0
    (d.bit pFAB gcmdSts 8 = true → ∀ i, (i = .create a v ∧ op = 1 ∨ i = .destroy a v ∧ op = 2) →
      exec i s = .next (on s fun d => (d.setBit pFAB gcmdSts 9 true).emit (.readback 0 false))) ∧
    (d.bit pFAB gcmdSts 8 = false → bits v.toNat 59 10 = 0 →
      (op = 1 → d.groupState g ≠ gFree →
        exec (.create a v) s = .next (on s fun d => (d.joinEnd 2).emit (.readback 0 false))) ∧
      (op = 1 → d.groupState g = gFree → let n := d.fld pFAB rFAB_GARG0.off 61 48 + 1; let list := d.fld pFAB rFAB_GARG0.off 47 0
        let part := d.fld pFAB rFAB_GARG1.off 59 54; let nbuf := d.fld pFAB rFAB_GARG1.off 43 32 + 1
        let base := d.fld pFAB rFAB_GARG1.off 31 0 * 0x10000; let dom := d.fld pFAB rFAB_ID.off 57 48
        let l := (d.memberList list n).1; let me := (d.id, dom, part)
        16 ≤ nbuf → list % 4 = 0 → d.tierOk part (d.partWorld part) list (4 * n) = true →
        ((d.readGate [(list, 4 * n)]).2 = .wait → Runs (.create a v) s fun e => e.groupState g = gFree ∧ e.bit pFAB gcmdSts 8 = true ∧
          e.fab.creating = some (g, d.rd pFAB rFAB_GARG0.off, d.rd pFAB rFAB_GARG1.off) ∧ SameMemory d e) ∧
        ((d.readGate [(list, 4 * n)]).2 = .clear → (d.memberList list n).2 = false → d.bit pFAB rFAB_ID.off 62 = true → d.hears = true →
        ∀ own, own < n → l[own]? = some me → (∀ j, j < n → j ≠ own → ∀ m, l[j]? = some m → m.1 ≠ d.id) →
          (∀ m ∈ l, m.2.1 = dom) ∨ d.fld pFAB rFAB_GARG1.off 53 44 ≠ dom →
          n = 1 ∨ d.bit (pLRN part) (rLRN_GEN.at (d.fld pFAB rFAB_GARG1.off 63 60)) 0 = false →
          d.tierOk part (d.partWorld part) base (nbuf * 0x10000) = true → Runs (.create a v) s fun e =>
            e.groupState g = gJoining ∧ (e.group g).members = l ∧ (e.group g).own = own ∧ (e.group g).part = part ∧
            (e.group g).ctx = d.fld pFAB rFAB_GARG1.off 63 60 ∧ (e.group g).nbuf = nbuf ∧ (e.group g).bufBase = base ∧
            (e.group g).joining = true ∧ (e.group g).joinStart = d.now ∧ e.bit pFAB gcmdSts 8 = true ∧ res e = 0 ∧ SameMemory d e)) ∧
      (op = 2 → Runs (.destroy a v) s fun e => e.groupState g = gFree ∧
        e.group g = { joins := (d.group g).joins } ∧ e.bit pFAB gcmdSts 8 = false ∧ res e = 0))) ∧
  ∀ (g : Fin 1024) (s : State), s.dev.live = true → let x := s.dev.group g; x.joining = true →
    let done := fun (e : Dev) r => e.bit pFAB gcmdSts 8 = false ∧ e.fld pFAB gcmdSts 7 0 = r ∧
      e.group g = { x with joining := false, joins := [] } ∧ SameMemory s.dev e
    (s.dev.groupState g = gJoining →
      (∀ crcs v1, x.joinHeard ≠ barrierRounds x.size ∨ crcs ≠ x.crcsEqual ∨ v1 ≠ x.anyV1 → exec (.groupJoinDone g crcs v1) s = .next s) ∧
      (x.joinHeard = barrierRounds x.size → (∀ j ∈ x.joins, j.2.1 = x.listCrc) → Runs (.groupJoinDone g true x.anyV1) s fun e =>
        done e 0 ∧ e.groupState g = gReady ∧ (e.bit pFAB (gsts g) 53 = true ↔ x.lowestVersion 32 = 1)) ∧
      (x.joinHeard = barrierRounds x.size → (∃ j ∈ x.joins, j.2.1 ≠ x.listCrc) → Runs (.groupJoinDone g false x.anyV1) s fun e =>
        done e 7 ∧ e.groupState g = gError ∧ e.fld pFAB (gsts g) 59 56 = causeJoin)) ∧
    (x.joinStart + s.dev.fld pFAB rFAB_CTL.off 31 16 * 1000 ≤ s.dev.now →
      Runs (.groupJoinTimeout g) s fun e => done e 8 ∧
        e.groupState g = if s.dev.groupState g = gJoining then gError else s.dev.groupState g)

/-- A descriptor joins its engine's queue, or sets full_drop when the queue is full. A Bellows engine drops a descriptor that it may not read, waits for one whose line must first come back, refuses one that fails its checks with its status and one whose block table is left poisoned with 0x04, and begins one that passes them. A segment of a collective that runs here is added to the source and kept at its own block of a reduce-scatter, counted as in transit or at the endpoint, or written as it is for an all-gather; one whose collective is still to come is held in a free buffer; one of an aborted collective is dropped; one of another digest, or of a collective that has completed, puts the group in error. A collective whose part has ended well leaves the group with its status word written once its bytes are visible. An abort ends the collective with its number with the sender's status, or is kept until that one is accepted; after a mismatch it ends all of them. A stopped collective goes on when its source is whole, waits while it may still clear, and ends otherwise. A remote ember operation acts on a fitting ember, and one that does not fit is counted. Reads of the counts return and clear them. (R328, R330, R332, R333, R334, R335, R337, R338, R394.) -/
def Obligations.BellowsComplete : Prop :=
  (∀ (a : Access) (e0 : Fin 4) (v : Word) (s : State), s.dev.writable a pFAB (rFAB_BLW_SUB.at e0) true = true →
    let q := s.dev.bellowsQueue e0; let at_ := bits v.toNat 47 0
    (q.length < 64 → Runs (.fabBlwSubWrite a e0 v) s fun e =>
      e.bellowsQueue e0 = q ++ [⟨at_, (s.dev.gran (at_ / granBytes)).part, none⟩] ∧
      e.fld pFAB (rFAB_BLW_STS.at e0) 7 0 = q.length + 1 ∧ SameMemory s.dev e) ∧
    (64 ≤ q.length → exec (.fabBlwSubWrite a e0 v) s = .next (on s fun d =>
      (d.setBit pFAB (rFAB_BLW_STS.at e0) 16 true).emit (.readback 0 false)))) ∧
  (∀ (e0 : Fin 4) (s : State) (y : Submitted) (rest : List Submitted), s.dev.live = true → 2 ≤ s.dev.fld pMOD rMOD_SL.off 1 0 →
    s.dev.inTest ukEngine (pBLW e0) = false → s.dev.busyGroups e0 < 64 → s.dev.bellowsQueue e0 = y :: rest →
    (y.bytes = none → s.dev.tierOk y.part (s.dev.partWorld y.part) y.addr 64 = false →
      exec (.bellowsDescriptorStart e0) s = .next (on s fun d => d.setBellowsQueue e0 rest)) ∧
    let bs := s.dev.descBytes y; let sts := leNat ((bs.drop 32).take 8)
    let table := (s.dev.readGate (s.dev.tableOf y.part bs)).2
    let refused := fun st => Runs (.bellowsDescriptorStart e0) s fun e =>
      e.bellowsQueue e0 = rest ∧ e.fab.groups = s.dev.fab.groups ∧ (sts = 0 → SameMemory s.dev e) ∧
      (sts ≠ 0 → sts % 8 = 0 → s.dev.tierOk y.part (s.dev.partWorld y.part) sts 8 = true → Direct s.dev sts 8 →
        e.loadNat sts 8 = st % 2 ^ 64 ∧ OutsideSame [(sts, 8)] s.dev e)
    (y.bytes = none → s.dev.tierOk y.part (s.dev.partWorld y.part) y.addr 64 = true → (s.dev.readGate [(y.addr, 64)]).2 = .wait →
      Runs (.bellowsDescriptorStart e0) s fun e => e.bellowsQueue e0 = y :: rest ∧ SameMemory s.dev e) ∧
    (y.bytes ≠ none ∨ s.dev.tierOk y.part (s.dev.partWorld y.part) y.addr 64 = true ∧ (s.dev.readGate [(y.addr, 64)]).2 = .clear →
      (table = .bad → refused 4) ∧
      (∀ st, table = .clear → s.dev.checkDesc e0 y.part bs = .inl st → refused st) ∧
      (∀ x blocks digest, table = .clear → s.dev.checkDesc e0 y.part bs = .inr (x, blocks, digest) → exec (.bellowsDescriptorStart e0) s =
        .next (on s fun d => (d.setBellowsQueue e0 rest).acceptDesc y.part x blocks digest)))) ∧
  (∀ (sg : Segment) (s : State), s.dev.live = true → s.dev.hears = true → let g := sg.group.val; let x := s.dev.group g
    s.dev.groupState g = gReady →
    (x.find sg.cseq = none → x.aborted sg.cseq = true → Runs (.segmentArrival sg) s fun e =>
      e.fab.groups = s.dev.fab.groups ∧ SameMemory s.dev e) ∧
    (x.find sg.cseq = none → x.aborted sg.cseq = false → s.dev.completed g sg.cseq = true → Runs (.segmentArrival sg) s fun e =>
      e.groupState g = gError ∧ e.fld pFAB (gsts g) 59 56 = causeMismatch) ∧
    (∀ b, x.find sg.cseq = none → x.aborted sg.cseq = false → s.dev.completed g sg.cseq = false → x.freeBuffer = some b →
      Direct s.dev (x.bufAt b) sg.data.length → Runs (.segmentArrival sg) s fun e =>
      e.group g = { x with held := x.held ++ [⟨b, sg⟩] } ∧ e.load (x.bufAt b) sg.data.length = sg.data ∧
      OutsideSame [(x.bufAt b, sg.data.length)] s.dev e) ∧
    (∀ c, x.find sg.cseq = some c → c.digest ≠ sg.digest → Runs (.segmentArrival sg) s fun e =>
      e.groupState g = gError ∧ e.fld pFAB (gsts g) 59 56 = causeMismatch) ∧
    (∀ c, x.find sg.cseq = some c → c.digest = sg.digest → c.started = true → c.stopped = none →
      c.done.contains (segKey sg.block sg.seg sg.gather) = false → let m := (c.segAt 0 sg.block sg.seg).2
      let src := (c.segAt c.desc.src sg.block sg.seg).1; let dst := c.dstAt sg.block sg.seg; let slot := s.dev.slotFor c sg
      let buf := if slot = none then x.freeBuffer.toList.map fun b => (x.bufAt b, m) else []
      sg.data.length = m → 0 < m → Separate s.dev ((dst, m) :: buf) → (∀ r ∈ buf, Apart r.1 r.2 src m) →
      (c.desc.op = opReduceScatter → sg.gather = false → x.own = sg.block → (s.dev.readGate [(src, m)]).2 = .clear → m % 4 = 0 →
        Runs (.segmentArrival sg) s fun e => e.load dst m =
          (ringBytes c.desc.fmt c.desc.rop (m / ringWidth c.desc.fmt) sg.data (s.dev.loadNew src m)).1 ∧
          OutsideSame ((dst, m) :: buf) s.dev e ∧
          (slot = none → e.fld pFAB rFAB_STAT.off 31 8 = min (2 ^ 24 - 1) (s.dev.fld pFAB rFAB_STAT.off 31 8 + 1)) ∧
          (slot ≠ none → e.fld pFAB rFAB_STAT.off 63 32 = min (2 ^ 32 - 1) (s.dev.fld pFAB rFAB_STAT.off 63 32 + 1))) ∧
      (c.desc.op = opAllGather → sg.gather = true → Runs (.segmentArrival sg) s fun e => e.load dst m = sg.data ∧
        OutsideSame ((dst, m) :: buf) s.dev e))) ∧
  (∀ (g : Fin 1024) (s : State), s.dev.live = true → let l := (s.dev.group g).active; let x := s.dev.group g
    let word := fun (c : Collective) st => (st + c.flags.toNat * 2 ^ 8 + b2n c.endpoint * 2 ^ 12 + c.cseq % 2 ^ 32 * 2 ^ 32) % 2 ^ 64
    let written := fun (c : Collective) st (e : Dev) => c.desc.sts ≠ 0 → Direct s.dev c.desc.sts 8 → e.loadNat c.desc.sts 8 = word c st
    let without := fun (c : Collective) (e : Dev) => (e.group g).active.length = (l.filter fun z => !(z == c)).length
    (∀ c, l.find? (s.dev.collDone g) = some c →
      (s.dev.collVisible c.part = false → exec (.collectiveComplete g) s = .next s) ∧
      (s.dev.collVisible c.part = true → Runs (.collectiveComplete g) s fun e => written c 0 e ∧ without c e)) ∧
    (s.dev.hears = true → s.dev.groupState g = gReady →
      (∀ (q : BitVec 32) (st : Byte), st.toNat ≠ 8 →
        (∀ c, x.find q.toNat = some c → Runs (.collectiveAbortReceive g ⟨q, st⟩) s fun e => written c st.toNat e ∧ without c e) ∧
        (x.find q.toNat = none → x.aborted q.toNat = false → s.dev.completed g q.toNat = false →
          exec (.collectiveAbortReceive g ⟨q, st⟩) s = .next (on s fun d =>
            d.setGroup g { x with aborts := x.aborts ++ [(q.toNat, st.toNat)] }))) ∧
      ∀ q, Runs (.collectiveAbortReceive g ⟨q, 8⟩) s fun e => (e.group g).active = l.filter fun z => z.desc.op == opPut) ∧
    (∀ c, l.filter (·.stopped.isSome) = [c] → let gate := (s.dev.readGate (c.reads x.own x.size)).2
      (gate = .wait → Runs (.bellowsPoisonResume g) s fun e => e.group g = x ∧ SameMemory s.dev e) ∧
      (gate = .bad → Runs (.bellowsPoisonResume g) s fun e => written c 4 e ∧ without c e) ∧
      (gate = .clear → c.started = true → exec (.bellowsPoisonResume g) s = .next (on s fun d =>
        (d.setColl g { c with stopped := none }).takeHeld g c.cseq)))) ∧
  (∀ (p : Fin 64) (m : Fin 16384) (op : EmberOp) (s : State), s.dev.live = true → s.dev.hears = true →
    let k := s.dev.emberKind m; let old := s.dev.emberValue m
    (s.dev.ownsEmber p m = false ∨ s.dev.emberRemote m = true ∨ k = ebOff ∨ k = ebBarrier ∧ s.dev.emberParties m = 0 → exec (.emberOperationReceive p m op) s =
      .next (on s fun d => d.count (pPART p) rPART_STAT.off 31 16 1)) ∧
    (s.dev.ownsEmber p m = true → s.dev.emberRemote m = false →
      (∀ n, op = .add n → k = ebCounter → old + n.toNat < 2 ^ 64 → Runs (.emberOperationReceive p m op) s fun e =>
        OnlyRegs s.dev e ∧ e.emberValue m = old + n.toNat) ∧
      (op = .arrive → k = ebBarrier → s.dev.emberParties m ≠ 0 → Runs (.emberOperationReceive p m op) s fun e =>
        OnlyRegs s.dev e ∧ e.emberValue m = if s.dev.emberParties m ≤ bits old 15 0 + 1
          then (bits old 63 32 + 1) % 2 ^ 32 * 2 ^ 32 else bits old 63 32 * 2 ^ 32 + (bits old 15 0 + 1)) ∧
      (op = .set ∨ op = .clear → k = ebEvent → Runs (.emberOperationReceive p m op) s fun e =>
        OnlyRegs s.dev e ∧ e.emberValue m = if op = .set then 1 else 0))) ∧
  ∀ (a : Access) (port : Option (Fin 24)) (s : State),
    let off := match port with | none => rFAB_STAT.off | some n => rFAB_PERR.at n
    s.dev.writable a pFAB off false = true → a.width = .full → Runs (.fabStatRead a port) s fun e => OnlyRegs s.dev e ∧
      e.rd pFAB off = 0 ∧ e.out = s.dev.out ++ [.readback (BitVec.ofNat 64 (s.dev.rd pFAB off)) false]

/-- A capability exchange of an enabled port that is not asleep offers versions 1 to 2 and features 7, and brings the port up with the highest common version and the common features, or incompatible with none or with other values than the port that carries traffic, which counts as a loss of a port that was up; what was held goes out in order, a poisoned write as an error without feature 2, and after a lost link the credit word of every enabled queue behind it. A port that is up sends idle flits. A port that hears nothing goes down with the link event, and with no other port carrying traffic the lost-link timer starts. An idle port sleeps when the companion agrees, and traffic wakes it and goes out. When the timer ends the link is lost: the lines the companion held modified are poisoned and counted; writes not acknowledged, messages, requests and pops that were held are dropped and counted; reads not answered complete poisoned, as far as the link cache holds them; and nothing else of the window stays here. Unmasking a pending vector ends its pending bit. A read of VEX_STS returns and clears its counts. (R344, R345, R349, R350, R357.) -/
def Obligations.VexioLinkComplete : Prop :=
  ∀ (n : Fin 2) (s : State), let r := rVEX_PORT.at n; let other := 1 - n.val; let x := s.dev.vex
    let pops := fun p => (s.dev.part p).notices
    let quiet := x.heldReqs = [] ∧ ∀ p, p < 64 → (pops p).held = [] ∨ (pops p).oldest = none
    let sent := fun (poison : Bool) (o : Out) => match o with
      | .companionWrite i a bs true w => if poison then .companionWrite i a bs true w else Out.companionError i a bs.length w
      | o => o
    (∀ lo hi (feat : Word), s.dev.live = true → s.dev.bit pVEX r 63 = true → s.dev.pow.refclkB = true →
      s.dev.vexState n ≠ vxAsleep → let ver := min 2 hi; let f := bits feat.toNat 2 0
      let agrees := max 1 lo ≤ ver ∧ (s.dev.vexCarries other = true →
        s.dev.fld pVEX (rVEX_PORT.at other) 47 46 = ver ∧ s.dev.fld pVEX (rVEX_PORT.at other) 2 0 = f)
      (¬ agrees → Runs (.vexioCapabilityExchange n lo hi feat) s fun e => e.vexState n = vxIncompatible ∧
        e.fld pVEX r 47 46 = 0 ∧ e.fld pVEX r 2 0 = 0 ∧ SameMemory s.dev e ∧
        (s.dev.vexCarries n = false → e.out = s.dev.out ++ [.vexCaps n 1 2 7] ∧ OnlyRegs s.dev e) ∧
        (s.dev.vexCarries n = true → e.bit pVEX rINT_STS.off 0 = true ∧ (s.dev.vexCarries other = false → e.vex.lostAt =
          if x.lostAt = none ∧ x.linkLost = false then some (s.dev.now + s.dev.fld pVEX rVEX_CTL.off 15 0 * 1000000) else x.lostAt))) ∧
      (agrees → 1 ≤ s.dev.fld pMOD rMOD_SL.off 1 0 → quiet →
        Runs (.vexioCapabilityExchange n lo hi feat) s fun e => e.vexState n = vxUp ∧ e.fld pVEX r 47 46 = ver ∧
          e.fld pVEX r 2 0 = f ∧ e.vex = { x with lostAt := none, linkLost := false, heldOut := [] } ∧ SameMemory s.dev e ∧
          (x.linkLost = false → e.out = s.dev.out ++ [.vexCaps n 1 2 7] ++ x.heldOut.map (sent (f.testBit 2))) ∧
          (x.linkLost = true → ∀ p q, p < 64 → q < 16 → s.dev.wqOn p q = true → .companionWrite none
            (s.dev.rd (pVWQ p) (rVWQ_WQ_CRED.at q)) (natLe 8 (s.dev.wqGrant p q)) false (s.dev.partWorld p) ∈ e.out))) ∧
    (s.dev.live = true → s.dev.vexState n = vxUp → exec (.idleFlitSend n) s = .next (on s fun d => d.emit (.idleFlit n))) ∧
    (s.dev.live = true → s.dev.vexState n = vxUp ∨ s.dev.vexState n = vxIncompatible → Runs (.vexioPortLoss n) s fun e =>
      e.vexState n = (if s.dev.bit pVEX r 63 = true ∧ s.dev.pow.refclkB = true then vxTraining else vxDown) ∧
      e.fld pVEX r 47 46 = 0 ∧ e.fld pVEX r 2 0 = 0 ∧ e.bit pVEX rINT_STS.off 0 = true ∧ SameMemory s.dev e ∧
      e.vex.lostAt = (if s.dev.vexCarries other = true ∨ x.lostAt ≠ none ∨ x.linkLost = true then x.lostAt
        else some (s.dev.now + s.dev.fld pVEX rVEX_CTL.off 15 0 * 1000000))) ∧
    (∀ agreed, s.dev.live = true → s.dev.vexState n = vxUp → s.dev.fld pVEX r 62 61 = 1 → s.dev.fld pVEX r 47 46 = 2 →
      Runs (.vexioSleep n agreed) s fun e => OnlyRegs s.dev e ∧ e.out = s.dev.out ++ [.vexSleep n] ∧
        e.vexState n = if agreed then vxAsleep else vxUp) ∧
    (s.dev.live = true → s.dev.vexState n = vxAsleep → 1 ≤ s.dev.fld pMOD rMOD_SL.off 1 0 → quiet →
      Runs (.vexioPortWake n) s fun e => e.vexState n = vxUp ∧ SameMemory s.dev e ∧ e.vex = { x with heldOut := [] } ∧
        e.out = s.dev.out ++ x.heldOut.map (sent (s.dev.vexFeature 2))) ∧
    (∀ t, s.dev.live = true → s.dev.vexCarries 0 = false → s.dev.vexCarries 1 = false → x.lostAt = some t → t ≤ s.dev.now →
      let lines := x.filter.filter (·.2)
      (∀ y ∈ x.reads, windowBase ≤ y.1 ∧ y.1 + y.2 ≤ 0x200000000000) →
      Runs .linkLost s fun e => e.vex.linkLost = true ∧ e.vex.reads = [] ∧ e.vex.lostAt = none ∧ e.vex.filter = [] ∧ e.vex.writes = [] ∧
        e.vex.heldReqs = [] ∧ (∀ y ∈ lines, y.1 < windowBase / 64 → y.1 ∈ e.poison) ∧
        e.fld pVEX rVEX_STS.off 63 32 = min (2 ^ 32 - 1) (s.dev.fld pVEX rVEX_STS.off 63 32 + lines.length) ∧
        e.fld pVEX rVEX_STS.off 31 0 = min (2 ^ 32 - 1) (s.dev.fld pVEX rVEX_STS.off 31 0 + (x.writes.length +
          (x.heldOut.filter ownMessage).length + x.heldReqs.length + ((List.range 64).map fun p => (pops p).held.length).sum)) ∧
        ((x.reads.map fun y => y.2 / 64 + 2).sum ≤ linkCacheLines → ∀ y ∈ x.reads, 0 < y.2 →
          e.poisoned y.1 y.2 = true ∧ e.windowHere y.1 y.2 = true) ∧
        e.bit pVEX rINT_STS.off 0 = true ∧ (∀ p, p < 64 → (e.part p).notices.held = []) ∧
        ∀ a, e.load a 1 = if windowBase ≤ a ∧ a < 0x200000000000 then [0] else s.dev.load a 1) ∧
    (∀ (a : Access) (i : Fin 512) (v : Word), s.dev.writable a pVEX (rVEX_VEC.at i) false = true → a.width = .full →
      Runs (.vexVecWrite a i v) s fun e => e.bit pVEX (rVEX_VEC.at i) 32 = v.toNat.testBit 32 ∧ SameMemory s.dev e ∧
        e.fld pVEX (rVEX_VEC.at i) 31 0 = bits v.toNat 31 0 ∧
        e.bit pVEX (rVEX_VEC.at i) 33 = (s.dev.bit pVEX (rVEX_VEC.at i) 33 && v.toNat.testBit 32)) ∧
    (∀ a : Access, s.dev.writable a pVEX rVEX_STS.off false = true → a.width = .full → Runs (.vexStsRead a) s fun e =>
      OnlyRegs s.dev e ∧ e.rd pVEX rVEX_STS.off = 0 ∧
      e.out = s.dev.out ++ [.readback (BitVec.ofNat 64 (s.dev.rd pVEX rVEX_STS.off)) false])

/-- The companion reaches a device address at the aperture's base plus that address, and a line of the window at the other aperture's base. On a live device whose link carries traffic, a read of the tiers or scratchpads that the companion may make returns the bytes and changes none; a write stores its bytes; a share or own of a line of the tiers, with coherence negotiated, grants the line and returns it; a write back of a line held modified, like the answer to a snoop of one, stores all of its bytes but those that the device has written since, and ends the grant; a recalled line of the window leaves the device's copies. A request to an address that is not there, or in the other world, is answered with an error and logged. A request of class M while the link is down is held. One to register space is a register access of the companion. An acknowledgement ends the write it names; data of the window that arrives is kept, with its poison, and ends the read that asked for it. (R342, R344, R346, R347, R349.) -/
def Obligations.CompanionTrafficComplete : Prop :=
  ∀ (sec : Bool) (s : State), s.dev.live = true → let d := s.dev
    let back := fun l (bs : List Byte) (e : Dev) => OutsideSame [(l * 64, 64)] d e ∧ (∀ x ∈ e.vex.filter, x.1 ≠ l) ∧
      ∀ i, i < 64 → e.load (l * 64 + i) 1 = if l * 64 + i ∈ d.vex.written then d.load (l * 64 + i) 1 else (bs.drop i).take 1
    (∀ a, a < 2 ^ 48 → d.rd pVEX rVEX_WIN_D.off + a < 2 ^ 64 → d.fromCompanion (d.companionAddr a) = some a) ∧
    (∀ r x, d.vexUp = false → d.reached r = some x → whereIs (reqAddr x) ≠ .regs →
      exec (.companionRequest sec r) s = .next (on s fun d =>
        { d with vex := { d.vex with heldReqs := d.vex.heldReqs ++ [.memory sec x] } })) ∧
    (d.vexUp = true →
      (∀ c a n, d.fromCompanion c = some a → d.companionCode sec a n = 0 → d.scratchBusy a n false = false →
        d.poisoned a n = false → d.switching a n = none → c < 2 ^ 64 →
        Runs (.companionRequest sec (.read c n)) s fun e => e.out = d.out ++ [.memData c (d.load a n) false] ∧ SameMemory d e ∧
          e.regs = d.regs ∧ e.cores = d.cores) ∧
      (∀ c a bs, d.fromCompanion c = some a → 0 < bs.length → d.companionCode sec a bs.length = 0 → Direct d a bs.length →
        Runs (.companionRequest sec (.write c bs false)) s fun e => e.load a bs.length = bs ∧
          OutsideSame [(a, bs.length)] d e ∧ e.cores = d.cores) ∧
      (∀ c r, let a := (d.fromCompanion c).getD c
        let refused := fun n => d.fromCompanion c = none ∨ whereIs a ≠ .regs ∧ d.companionCode sec a n ≠ 0
        (∃ n, r = .read c n ∧ refused n) ∨ (∃ bs bad, r = .write c bs bad ∧ refused bs.length) → d.bit pVEX rERR_LOG0.off 63 = false →
        Runs (.companionRequest sec r) s fun e => OnlyRegs d e ∧ e.out = d.out ++ [.readback 0 true] ∧
          e.rd pVEX rERR_LOG1.off = a % 2 ^ 64 ∧ e.bit pVEX rERR_LOG0.off 63 = true) ∧
      (∀ c l a own, d.fromCompanion (64 * c) = some a → l = a / 64 →
        let near := d.vex.filter.filter fun x => x.1 % 2 == l % 2 && x.1 != l
        d.companionCode sec (l * 64) 64 = 0 → d.vexFeature 0 = true → l * 64 < 0x030000000000 → near.length < filterSize →
        d.poisoned (l * 64) 64 = false → d.switching (l * 64) 64 = none →
        Runs (.companionRequest sec (if own then .own c else .share c)) s fun e =>
          e.vex.filter = (d.vex.filter.filter fun x => x.1 != l) ++ [(l, own)] ∧ SameMemory d e ∧ e.regs = d.regs ∧
          e.out = d.out ++ [.memData (d.companionAddr (l * 64)) (d.load (l * 64) 64) false]) ∧
      (∀ c l a bs, d.fromCompanion (64 * c) = some a → l = a / 64 → (l, true) ∈ d.vex.filter → bs.length = 64 →
        Direct d (l * 64) 64 → Runs (.companionRequest sec (.writeBack c bs false)) s fun e => back l bs e) ∧
      (∀ c l, d.reached (.recall c) = some (.recall l) → Runs (.companionRequest sec (.recall c)) s fun e =>
        l ∉ e.vex.cached ∧ (∀ y, y ≠ l → (y ∈ e.vex.cached ↔ y ∈ d.vex.cached)) ∧ OutsideSame [(l * 64, 64)] d e ∧
          e.regs = d.regs) ∧
      (∀ id, exec (.companionResponse (.writeAck id)) s = .next (on s fun d =>
        { d with vex := { d.vex with writes := d.vex.writes.filter fun w => w.id != id } })) ∧
      (∀ a bs bad, windowBase ≤ a → a < 0x200000000000 → 0 < bs.length →
        (NSet.addRange d.vex.cached (a / 64) ((a + bs.length + 63) / 64 - a / 64)).length ≤ linkCacheLines →
        Runs (.companionResponse (.readData a bs bad)) s fun e =>
          e.load a bs.length = bs ∧ OutsideSame [(a, bs.length)] d e ∧ e.regs = d.regs ∧ (a, bs.length) ∉ e.vex.reads ∧
          (if bad = true then e.poisoned a bs.length = true else e.poison = d.poison) ∧
          ∀ i, i < bs.length → (a + i) / 64 ∈ e.vex.cached) ∧
      (∀ l bs, (l, true) ∈ d.vex.filter → d.vex.heldReqs = [] → bs.length = 64 → Direct d (l * 64) 64 →
        Runs (.companionResponse (.snoop l (some bs) false)) s fun e => back l bs e)) ∧
    (∀ c page off, page < 0x10000 → off < 0x10000 → off % 8 = 0 →
      d.fromCompanion c = some (0x0C0000000000 + page * 0x10000 + off) → let a : Access := ⟨.companion, sec, .full⟩
      (∀ bs : List Byte, bs.length = 8 → let v := BitVec.ofNat 64 (leNat bs)
        ((pageOf page).isSome = true → reservedAt page off = false → windowPage page = false → ownCommand a page off v = false →
          exec (.companionRequest sec (.write c bs false)) s = exec (.registerWrite a page off v) s) ∧
        (∀ (p : Fin 64) (q : Fin 16), page = pVWQ p → off = rVWQ_DB.at q →
          exec (.companionRequest sec (.write c bs false)) s = exec (.vwqDbWrite a p q v) s)) ∧
      (pageOf page = none → windowPage page = false →
        exec (.companionRequest sec (.read c 8)) s = exec (.reservedRegisterAccess a page off) s) ∧
      (page = pVEX → off = rVEX_CTL.off → d.writable a pVEX rVEX_CTL.off false = true →
        Runs (.companionRequest sec (.read c 8)) s fun e => OnlyRegs d e ∧ e.rd pVEX rVEX_CTL.off = d.rd pVEX rVEX_CTL.off ∧
          e.out = d.out ++ [.readback (BitVec.ofNat 64 (d.rd pVEX rVEX_CTL.off)) false]))

/-- A doorbell or a full pop of the companion that comes while no port carries class X is held, and so is a doorbell behind memory requests that wait. A doorbell of an enabled queue within the grant moves pi; one at pi changes nothing; another sets the error and the partition's event and leaves pi. Enabling a sound queue starts both indices at the start field; an unsound one stays off; disabling turns it off and takes the grant back to pi. The packet at ci enters the task queue of its context as a task that remembers the queue and index, and ci advances; one whose context is off is counted as a fault and consumed; one for a full task queue waits. A pop returns the oldest notice of the highest class and frees its slot; with none it is held, or answered empty when it may not be held or sixteen are; the first hold that ends is answered empty once a port carries the answer. (R352, R353, R354, R355, R356, R382.) -/
def Obligations.WorkQueuesComplete : Prop :=
  ∀ (p : Fin 64) (q : Fin 16) (s : State), let page := pVWQ p; let pi := s.dev.wqPi p q; let nt := (s.dev.part p).notices
    (∀ (a : Access) (v : Word), s.dev.reachable page = true → s.dev.worldOk a page = true → s.dev.classX a = true →
      (exec (.vwqDbWrite a p q v) s = .next (on s fun d =>
        { d with vex := { d.vex with heldReqs := d.vex.heldReqs ++ [.bell p q (bits v.toNat 31 0)] } })) ∧
      (a.width = .full → exec (.vwqNpopRead a p) s = .next (on s fun d =>
        { d with vex := { d.vex with heldReqs := d.vex.heldReqs ++ [.pop p] } }))) ∧
    (∀ (a : Access) (v : Word), s.dev.writable a page (rVWQ_DB.at q) true = true → let new := bits v.toNat 31 0
      let ahead := (new + (2 ^ 32 - pi)) % 2 ^ 32; let room := (s.dev.wqGrant p q + (2 ^ 32 - pi)) % 2 ^ 32
      let behind := s.dev.vex.heldReqs.any fun y => match y with | .memory _ _ => true | _ => false
      (s.dev.classX a = false → a.by_ = .companion → behind = true → exec (.vwqDbWrite a p q v) s = .next (on s fun d =>
        { d with vex := { d.vex with heldReqs := d.vex.heldReqs ++ [.bell p q new] } })) ∧
      (s.dev.classX a = false → ¬ (a.by_ = .companion ∧ behind = true) → (s.dev.wqOn p q = true → ahead ≤ room → Runs (.vwqDbWrite a p q v) s fun e => OnlyRegs s.dev e ∧ e.wqPi p q = new ∧
        e.wqGrant p q = s.dev.wqGrant p q) ∧
      (s.dev.wqOn p q = false ∨ ahead ≠ 0 ∧ room < ahead → Runs (.vwqDbWrite a p q v) s fun e => e.wqPi p q = pi ∧
        e.bit page (rVWQ_WQ_CI.at q) 63 = true ∧ e.bit (pPART p) rPART_EVT.off evWq = true ∧ SameMemory s.dev e))) ∧
    (∀ (a : Access) (v : Word), s.dev.writable a page (rVWQ_WQ.at q) false = true → a.width = .full →
      let new := s.dev.store8 a page (rVWQ_WQ.at q) rVWQ_WQ v
      (s.dev.wqOn p q = false → v.toNat.testBit 63 = true → Runs (.vwqWqEnWrite a p q v) s fun e => SameMemory s.dev e ∧
        if new.wqSound p q = true then e.wqOn p q = true ∧ e.wqPi p q = s.dev.fld page (rVWQ_WQ_START.at q) 63 32 ∧
          e.wqCi p q = s.dev.fld page (rVWQ_WQ_START.at q) 63 32
        else e.wqOn p q = false) ∧
      (s.dev.wqOn p q = true → v.toNat.testBit 63 = false → Runs (.vwqWqEnWrite a p q v) s fun e => SameMemory s.dev e ∧
        e.wqOn p q = false ∧ e.wqGrant p q = pi ∧ e.wqPi p q = pi)) ∧
    (s.dev.live = true → s.dev.wqOn p q = true → s.dev.wqCi p q ≠ pi → let i := s.dev.wqCi p q; let at_ := s.dev.wqEntry p q
      let t := TaskDesc.ofBytes (s.dev.load at_ 64); let tq := s.dev.wqTq p q
      s.dev.companionOwns at_ 64 = false → s.dev.poisoned at_ 64 = false →
      (s.dev.ctxOn p t.context = true → s.dev.queueFull p t.context tq = false → Runs (.workEntryPass p q) s fun e =>
        e.wqCi p q = (i + 1) % 2 ^ 32 ∧ e.occ p t.context tq = s.dev.occ p t.context tq + 1 ∧ SameMemory s.dev e ∧
        ∃ k, e.tasks p t.context tq = s.dev.tasks p t.context tq ++ [k] ∧ k.desc = t ∧ k.source = some (s.dev.packetSource p q i) ∧
          k.queue = tq ∧ k.saved = none) ∧
      (s.dev.ctxOn p t.context = true → s.dev.queueFull p t.context tq = true → exec (.workEntryPass p q) s = .next s) ∧
      (s.dev.ctxOn p t.context = false → Runs (.workEntryPass p q) s fun e => e.wqCi p q = (i + 1) % 2 ^ 32 ∧
        (e.part p).queues = (s.dev.part p).queues ∧ SameMemory s.dev e ∧
        e.fld (pPART p) rPART_STAT.off 15 0 = min 65535 (s.dev.fld (pPART p) rPART_STAT.off 15 0 + 1))) ∧
    (∀ a : Access, s.dev.writable a page rVWQ_NPOP.off false = true →
      let hold := s.dev.fld page rVWQ_NCTL.off 63 48
      (s.dev.classX a = false →
        (∀ c w, a.width = .full → nt.oldest = some (c, w) → Runs (.vwqNpopRead a p) s fun e => SameMemory s.dev e ∧
          Out.readback w false ∈ e.out ∧
          Tab.get (fun _ => []) (e.part p).notices.classes c = (Tab.get (fun _ => []) nt.classes c).tail) ∧
        (a.width = .full → nt.oldest = none → hold ≠ 0 → s.dev.vexVersion = 2 → nt.held.length < 16 →
          exec (.vwqNpopRead a p) s = .next (on s fun d => d.setNotices p { nt with held := nt.held ++ [d.now + hold * 1000] })) ∧
        (a.width = .full → nt.oldest = none → hold = 0 ∨ s.dev.vexVersion ≠ 2 ∨ 16 ≤ nt.held.length →
          exec (.vwqNpopRead a p) s = .next (on s fun d => d.emit (.readback 0 false))) ∧
        (∀ c w, a.width ≠ .full → nt.oldest = some (c, w) → exec (.vwqNpopRead a p) s =
          .next (on s fun d => d.emit (.readback (BitVec.ofNat 64 (a.width.view w.toNat)) false))))) ∧
    (∀ i t, s.dev.live = true → s.dev.vexUp = true → nt.held[i]? = some t → t ≤ s.dev.now →
      (∀ (j u : Nat), j < i → nt.held[j]? = some u → s.dev.now < u) → exec (.noticePopHoldExpiry p) s =
      .next (on s fun d => (d.setNotices p { nt with held := nt.held.eraseIdx i }).emit (.readback 0 false)))

/-- A tail in range is stored and starts an idle channel; the old tail changes nothing; any other value only sets overrun. Enabling a channel makes it idle with both indices 0 and takes its partition; disabling one that runs no descriptor stops it and disables it. An abort lets a running descriptor go on to the end of its burst, and stops an idle or stalled channel at once with the page interrupt. A resume restarts a stopped channel at the same head. A descriptor at an address that the rules forbid ends with status 0x02; one with own at 0 stalls the channel, sets noown and the page interrupt, and nothing is written; one with fence waits while a write of the channel's earlier descriptors is not visible; one that is refused ends with its status before it moves anything; one that meets every check begins at byte 0, and when its mode needs the unit it claims it and loads the initial value, or ends with status 0x03 when another holds it. None of them touches memory. (R364.) -/
def Obligations.DmaChannelsComplete : Prop :=
  ∀ (a : Access) (c : Fin 192) (v : Word) (s : State), let d := s.dev; let page := pDMA c
    (d.writable a page (chOff c rDMA_IDX) true = true → let new := bits v.toNat 15 0
      let dist := (new + 65536 - d.chTail c) % 65536; let used := (d.chTail c + 65536 - d.chHead c) % 65536
      (dist = 0 → exec (.dmaIdxWrite a c v) s = .next (on s fun d => d.emit (.readback 0 false))) ∧
      (dist ≠ 0 → used + dist ≤ d.chSize c → Runs (.dmaIdxWrite a c v) s fun e => OnlyRegs d e ∧ e.chTail c = new ∧
        e.chHead c = d.chHead c ∧ e.chState c = if d.chState c = chIdle then chRunning else d.chState c) ∧
      (dist ≠ 0 → d.chSize c < used + dist → exec (.dmaIdxWrite a c v) s = .next (on s fun d =>
        (d.setBit page (chOff c rDMA_STS) 1 true).emit (.readback 0 false)))) ∧
    (d.writable a page (chOff c rDMA_CTL) false = true → let irq := fun (e : Dev) => e.bit page rINT_STS.off (dmaLocal c + 1) = true
      (d.chOn c = false → writesBit a v 63 true = true → Runs (.dmaCtlEnWrite a c v) s fun e => OnlyRegs d e ∧
        e.chOn c = true ∧ e.chState c = chIdle ∧ e.chHead c = 0 ∧ e.chTail c = 0 ∧ e.chPart c = bits v.toNat 59 54) ∧
      (d.chOn c = true → writesBit a v 63 false = true → (d.chan c).run = none → Runs (.dmaCtlEnWrite a c v) s fun e =>
        e.chOn c = false ∧ e.chState c = chDisabled ∧ SameMemory d e ∧ e.chPart c = d.chPart c ∧ e.chWorld c = d.chWorld c) ∧
      (∀ r, d.chOn c = true → writesBit a v 62 true = true → (d.chan c).run = some r → Runs (.dmaAbort a c v) s fun e =>
        e.chan c = { run := some r, abort := true } ∧ SameMemory d e) ∧
      (d.chOn c = true → v.toNat.testBit 63 = true → writesBit a v 62 true = true → v.toNat.testBit 61 = false →
        (d.chan c).run = none → d.chState c = chIdle ∨ d.chState c = chStalled → Runs (.dmaAbort a c v) s fun e =>
          e.chState c = chStopped ∧ irq e ∧ e.chHead c = d.chHead c ∧ SameMemory d e) ∧
      (d.chOn c = true → v.toNat.testBit 63 = true → writesBit a v 61 true = true → v.toNat.testBit 62 = false →
        d.chState c = chStalled ∨ d.chState c = chStopped ∨ d.chState c = chError → Runs (.dmaResume a c v) s fun e =>
          OnlyRegs d e ∧ e.chHead c = d.chHead c ∧
          e.chState c = if d.chHead c = d.chTail c then chIdle else chRunning)) ∧
    (d.live = true → d.chState c = chRunning → d.chServes c = true → d.inTest ukDma c = false → (d.chan c).run = none →
      d.chHead c ≠ d.chTail c → let at_ := d.chEntry c (d.chHead c); let bs := d.load at_ 64; let x := DmaDesc.ofBytes bs
      let run := fun (e : Dev) fin code => (e.chan c).run = some (DmaRun.mk bs at_ 0 x.total 0 0 false fin false code) ∧
        (e.chan c).abort = (d.chan c).abort ∧ SameMemory d e ∧ e.cores = d.cores ∧ e.chHead c = d.chHead c
      (d.dmaMay c at_ 64 = false ∨ (∃ k, whereIs at_ = .scratch k) → Runs (.dmaDescriptorStart c) s fun e =>
        e.chHead c = (d.chHead c + 1) % 65536 ∧ e.fld page (chOff c rDMA_STS) 11 4 = 2 ∧
        e.chState c = (if d.chOn c then chError else chDisabled) ∧ SameMemory d e) ∧
      (d.dmaMay c at_ 64 = true → whereIs at_ = .tier → d.dmaHere c at_ 64 = (d, true) → d.poisoned at_ 64 = false →
        d.switching at_ 64 = none →
        (x.own = false → Runs (.dmaDescriptorStart c) s fun e => e.chState c = chStalled ∧ e.chHead c = d.chHead c ∧
          e.bit page (chOff c rDMA_STS) 2 = true ∧ e.bit page rINT_STS.off (dmaLocal c + 1) = true ∧ SameMemory d e) ∧
        (x.own = true → x.fence = true → d.dmaVisible c = false → exec (.dmaDescriptorStart c) s = .next s) ∧
        (x.own = true → x.fence = false ∨ d.dmaVisible c = true →
          (d.dmaCheck c x ≠ 0 → Runs (.dmaDescriptorStart c) s fun e => run e true (d.dmaCheck c x)) ∧
          (d.dmaCheck c x = 0 → x.mode = mdNone → Runs (.dmaDescriptorStart c) s fun e => run e false 0) ∧
          (d.dmaCheck c x = 0 → x.mode ≠ mdNone → d.held page (chClaim c) = false → Runs (.dmaDescriptorStart c) s fun e =>
            run e false 0 ∧ e.holds page (chClaim c) dmaHolder c = true ∧
            e.crcVal c = if x.cont then d.crcVal c else (crcOf x.poly).init) ∧
          (d.dmaCheck c x = 0 → x.mode ≠ mdNone → d.held page (chClaim c) = true → d.holds page (chClaim c) dmaHolder c = false →
            Runs (.dmaDescriptorStart c) s fun e => run e true 3 ∧ e.crcVal c = d.crcVal c))))

/-- A burst of a fill writes the pattern, and one of a copy the source's bytes, to the destination and nowhere else; a line left poisoned lands poisoned; the last one finishes the descriptor with status 0, or 0x04 when a line was poisoned. A burst to or from an address that the channel may no longer access ends the descriptor with 0x02. A burst with a transfer error is issued again, and after its third retry the descriptor ends with 0x07. A finished descriptor gets its residue, status and retries, its check field when it has a result, and own at 0; head advances, the status is recorded, and the channel is idle, running, stopped or in error. A feed of 1, 2 or 4 bytes by a holder gives the value of the algorithm, and any other feed only sets badfeed; a write of VAL sets it, and init loads the initial value. (R361, R365, R367, R368, R369, R370, R372, R373, R374.) -/
def Obligations.DmaDescriptorsComplete : Prop :=
  ∀ (c : Fin 192) (s : State), let d := s.dev; let page := pDMA c
    (∀ r, d.live = true → d.chan c = { run := some r, abort := false } → r.finished = false → let x := DmaDesc.ofBytes r.bytes
      let b := x.burst r.pos; let n := b.2.2; let last := r.pos + n == r.total
      let after := fun (e : Dev) bad => let code := if last then (if bad then 4 else 0) else r.status
        (e.chan c).run = some { r with pos := r.pos + n, burstRetries := 0, finished := last, poisoned := bad, status := code }
      (d.burstMay c x b last = false → exec (.dmaBurstDone c false) s = .next (on s fun d => d.setRun c (some
        { r with finished := true, status := 2 }))) ∧
      (d.burstMay c x b last = true → d.burstReady c x b last = (d, true) → x.mode = mdNone → Direct d b.2.1 n →
        (x.op = opFill → Runs (.dmaBurstDone c false) s fun e => after e r.poisoned ∧ e.load b.2.1 n = x.fillBytes r.pos n ∧
          OutsideSame [(b.2.1, n)] d e ∧ e.cores = d.cores) ∧
        (x.op = opCopy → whereIs b.1 ≠ .companion → d.switching b.1 n = none →
          (d.poisoned b.1 n = false → Runs (.dmaBurstDone c false) s fun e => after e r.poisoned ∧ e.load b.2.1 n = d.load b.1 n ∧
            OutsideSame [(b.2.1, n)] d e ∧ e.cores = d.cores) ∧
          (d.poisoned b.1 n = true → n = 64 → b.1 % 64 = 0 → b.2.1 % 64 = 0 → Runs (.dmaBurstDone c false) s fun e => after e true ∧
            e.load b.2.1 64 = d.load b.1 64 ∧ e.poisoned b.2.1 64 = true ∧ OutsideSame [(b.2.1, 64)] d e ∧ e.cores = d.cores))) ∧
      (r.burstRetries < 3 → exec (.dmaBurstDone c true) s = .next (on s fun d => d.setRun c (some
        { r with burstRetries := r.burstRetries + 1, retries := satAdd 7 r.retries 1 }))) ∧
      (3 ≤ r.burstRetries → exec (.dmaBurstDone c true) s = .next (on s fun d => d.setRun c (some
        { r with finished := true, status := 7 })))) ∧
    (∀ r, d.live = true → (d.chan c).run = some r → r.finished = true → r.wrote = false → d.dmaVisible c = true →
      Direct d (r.addr + 48) 15 → Direct d (r.addr + 63) 1 → let x := DmaDesc.ofBytes r.bytes; let i := (d.chHead c + 1) % 65536
      Runs (.dmaDescriptorComplete c) s fun e => e.load (r.addr + 56) 6 = natLe 6 (r.total - r.pos) ∧
        e.load (r.addr + 62) 1 = natLe 1 r.status ∧ e.load (r.addr + 63) 1 = natLe 1 r.retries ∧
        OutsideSame [(r.addr + 48, 16)] d e ∧ (e.chan c).run = none ∧ e.chHead c = i ∧
        ((r.status = 0 ∨ r.status = 5) → x.mode ≠ mdNone →
          e.load (r.addr + 48) 8 = natLe 8 ((crcOf x.poly).result (d.crcVal c))) ∧
        (r.status = 6 → e.load (r.addr + 48) 8 = natLe 8 (d.crcVal c)) ∧
        e.fld page (chOff c rDMA_STS) 11 4 = r.status % 256 ∧
        e.chState c = if r.status = 0 ∨ r.status = 4 ∨ r.status = 5
          then (if (d.chan c).abort then (if d.chOn c then chStopped else chDisabled) else if i = d.chTail c then chIdle else chRunning)
          else if d.chOn c then (if r.status = 6 then chStopped else chError) else chDisabled) ∧
    (∀ (a : Access) (v : Word),
      (∀ n, d.writable a page (chOff c rDMA_CRC_FEED) false = true →
        ((n = 1 ∨ n = 2 ∨ n = 4) ∧ d.softHolds c = true → exec (.dmaCrcFeedWrite a c n v) s = .next (on s fun d =>
          (d.setCrcVal c ((crcOf (d.fld page (chClaim c) 1 0)).feed (d.crcVal c) (natLe n v.toNat))).emit (.readback 0 false))) ∧
        (¬ ((n = 1 ∨ n = 2 ∨ n = 4) ∧ d.softHolds c = true) → exec (.dmaCrcFeedWrite a c n v) s = .next (on s fun d =>
          (d.setBit page (chOff c rDMA_STS) 3 true).emit (.readback 0 false)))) ∧
      (d.writable a page (chOff c rDMA_CRC_VAL) false = true → a.width = .full → Runs (.dmaCrcValWrite a c v) s fun e =>
        OnlyRegs d e ∧ e.crcVal c = v.toNat) ∧
      (d.writable a page (chClaim c) true = true → v.toNat.testBit 2 = true → Runs (.dmaCrcInit a c v) s fun e =>
        OnlyRegs d e ∧ e.crcVal c = (crcOf (bits v.toNat 1 0)).init ∧ e.fld page (chClaim c) 1 0 = bits v.toNat 1 0))

/-- Enabling a partition that meets every check makes it enabled with its contexts, and gives its cores their partition and world; the first check that fails is reported and nothing else changes. Disabling is ignored while a context is enabled, and otherwise returns the save-area frames. Creating a context makes it idle with empty queues and a base for its generators; a wrong isa leaves it disabled; disabling takes effect only when it is idle or held. A change of prio takes. A post completes, is read in its turn, and puts its task at the tail of its queue, or sets tfull when that is full; a post at a bad address is refused with tbad, and one for a disabled context is a fault. Reads of PART_SW and PART_STAT return and clear their counts. (R378, R380, R381, R382, R464, R8.) -/
def Obligations.PartitionsComplete : Prop :=
  ∀ (a : Access) (p : Fin 64) (v : Word) (s : State), let d := s.dev; let page := pPART p; let ctl := rPART_CTL.off
    let still := d.bit (pLRN p) rLRN_ASH_CTL.off 63 = false
    let nothing := fun i => exec i s = .next (on s fun d => d.emit (.readback 0 false))
    (d.writable a page ctl false = true →
      (d.partOn p = false → writesBit a v 63 true = true → let n := bits v.toNat 35 32 + 1
        let code := d.enableCode p n (carriedBits a.width v.toNat)
        (code ≠ 0 → exec (.partCtlEnWrite a p v) s = .next (on s fun d => (d.setFld page ctl 55 48 code).emit (.readback 0 false))) ∧
        (code = 0 → Runs (.partCtlEnWrite a p v) s fun e => e.partOn p = true ∧ e.nctx p = n ∧ e.fld page ctl 55 48 = 0 ∧
          SameMemory d e ∧ (∀ q, q ≠ p.val → e.part q = d.part q) ∧
          ∀ k ∈ d.coreSet p, (e.core k).part = p ∧ e.bit (pCORE k) rWORLD.off 0 = d.partWorld p)) ∧
      (d.partOn p = true → writesBit a v 63 false = true →
        ((∃ c, c < 16 ∧ d.ctxOn p c = true) → nothing (.partCtlDisable a p v)) ∧
        ((∀ c, c < 16 → d.ctxOn p c = false) → Runs (.partCtlDisable a p v) s fun e => e.partOn p = false ∧
          (e.part p).saveFrames = [] ∧ (e.part p).current = none ∧ SameMemory d e ∧ e.cores = d.cores))) ∧
    (∀ c : Fin 16, d.writable a page (ctxReg c) false = true → c.val < d.nctx p → let en := fun (e : Dev) => e.bit page (ctxReg c) 63
      (en d = false → writesBit a v 63 true = true → let isa := bits v.toNat 55 48
        (isa = 0 ∨ implVersion < isa → Runs (.partCtxEnWrite a p c v) s fun e => en e = false ∧
          SameMemory d e ∧ (still → OnlyRegs d e)) ∧
        (1 ≤ isa → isa ≤ implVersion → Runs (.partCtxEnWrite a p c v) s fun e => en e = true ∧ e.ctxState p c = cxIdle ∧
          (∀ q, q < 8 → e.tasks p c q = []) ∧ e.rd page (rPART_TQOCC.at c) = 0 ∧
          Tab.get (fun _ => 0) (e.part p).genBase c = d.fen.draws)) ∧
      (en d = true → writesBit a v 63 false = true →
        (still → d.ctxState p c ≠ cxIdle → d.ctxState p c ≠ cxHeld → nothing (.partCtxEnWrite a p c v)) ∧
        (d.ctxState p c = cxIdle ∨ d.ctxState p c = cxHeld → Runs (.partCtxEnWrite a p c v) s fun e => en e = false ∧
          e.ctxState p c = cxOff ∧ Tab.get (fun _ => []) (e.part p).saved c = [])) ∧
      (en d = true → v.toNat.testBit 63 = true → a.width = .full → Runs (.partCtxPrioWrite a p c v) s fun e => en e = true ∧
        SameMemory d e ∧ (still → OnlyRegs d e) ∧ e.ctxPrio p c = bits v.toNat 61 59 ∧ e.ctxState p c = d.ctxState p c)) ∧
    (d.writable a page rPART_TPOST.off true = true → exec (.partTpostWrite a p v) s = .next (on s fun d =>
      (d.setPart p { d.part p with tposts := (d.part p).tposts ++ [v.toNat] }).emit (.readback 0 false))) ∧
    (∀ w rest, d.live = true → (d.part p).tposts = w :: rest → let at_ := bits w 47 0; let q := bits w 58 56
      (at_ % 64 ≠ 0 ∨ d.accessCode p (d.partWorld p) at_ 64 ≠ 0 → Runs (.tpostDescriptorRead p) s fun e =>
        (e.part p).tposts = rest ∧ (e.part p).queues = (d.part p).queues ∧ e.bit page rPART_EVT.off evTbad = true ∧ SameMemory d e) ∧
      (at_ % 64 = 0 → d.accessCode p (d.partWorld p) at_ 64 = 0 → whereIs at_ = .tier → d.companionOwns at_ 64 = false →
        d.poisoned at_ 64 = false → let x := TaskDesc.ofBytes (d.load at_ 64)
        (d.ctxOn p x.context = true → d.queueFull p x.context q = false → Runs (.tpostDescriptorRead p) s fun e =>
          (e.part p).tposts = rest ∧ e.occ p x.context q = d.occ p x.context q + 1 ∧
          ∃ t, e.tasks p x.context q = d.tasks p x.context q ++ [t] ∧ t.desc = x ∧ t.queue = q ∧ t.saved = none ∧ t.source = none) ∧
        (d.ctxOn p x.context = true → d.queueFull p x.context q = true → Runs (.tpostDescriptorRead p) s fun e =>
          (e.part p).tposts = rest ∧ (e.part p).queues = (d.part p).queues ∧ e.bit page rPART_EVT.off evTfull = true ∧ SameMemory d e) ∧
        (d.ctxOn p x.context = false → Runs (.tpostDescriptorRead p) s fun e => (e.part p).tposts = rest ∧
          (e.part p).queues = (d.part p).queues ∧ e.bit page rPART_EVT.off evFault = true ∧ SameMemory d e))) ∧
    (a.width = .full → let back := fun (e : Dev) off => e.out = d.out ++ [.readback (BitVec.ofNat 64 (d.rd page off)) false]
      (d.writable a page rPART_SW.off false = true → Runs (.partSwRead a p) s fun e => OnlyRegs d e ∧ back e rPART_SW.off ∧
        e.fld page rPART_SW.off 63 32 = 0 ∧ e.fld page rPART_SW.off 31 0 = d.fld page rPART_SW.off 31 0) ∧
      (d.writable a page rPART_STAT.off false = true → Runs (.partStatRead a p) s fun e => OnlyRegs d e ∧
        back e rPART_STAT.off ∧ e.rd page rPART_STAT.off = 0))

/-- On a live device a slice that has run out is marked. With no switch in progress, the partition with no current context begins to restore the one chosen, or does nothing when none is runnable; a choice that overtakes the current context begins to save it, with a request to every core, and idle cores at rest. A core whose mode lets it rest comes to rest. When all rest, the state of every core that holds any is saved, the cores are empty, no context is current, and no memory but the scratchpads changes. A restore gives every core the state saved from it, makes the context current with a new slice, or held with the restore event when a check value failed, ends the switch, and counts it; a context with state saved from a core that is retired is contained and held instead. (R384, R385, R386, R387, R388, R389, R390, R396, R436.) -/
def Obligations.SwitchesComplete : Prop :=
  ∀ (p : Fin 64) (s : State), s.dev.live = true → let d := s.dev; let x := d.part p
    (∀ c, x.current = some c → x.sliceEnd ≤ d.now →
      exec (.sliceExpiry p) s = .next (on s fun d => d.setPart p { x with sliceOver := true })) ∧
    (d.partOn p = true → x.switch = none →
      (∀ c, x.current = none → d.choice p = some c → Runs (.contextSwitchStart p) s fun e => e.ctxState p c = cxRestoring ∧
        (e.part p).switch = some ⟨none, some c, .restore, d.now⟩ ∧ SameMemory d e) ∧
      (x.current = none → d.choice p = none → exec (.contextSwitchStart p) s = .next s) ∧
      (∀ c n, c < 16 → x.current = some c → d.choice p = some n → d.overtakes p c n = true →
        d.runnable p c = true ∨ d.holdsAny p = true → Runs (.contextSwitchStart p) s fun e => e.ctxState p c = cxSaving ∧
          (e.part p).switch = some ⟨some c, some n, .rest, d.now⟩ ∧ SameMemory d e ∧
          ∀ k ∈ d.coreSet p, (e.core k).preempt = true ∧ ((d.core k).task = none → (e.core k).atRest = true))) ∧
    (∀ k : Fin 512, let c := d.core k
      c.preempt = true → c.atRest = false → c.struck = false → c.begun = false → c.mayRest (d.modes k).precise = true →
      Runs (.coreAtRest k) s fun e => e.core k = { c with atRest := true, st := if c.holds then .saving else c.st } ∧
        SameMemory d e ∧ ∀ j, j ≠ k.val → e.core j = d.core j) ∧
    (∀ c i t, x.switch = some ⟨some c, i, .rest, t⟩ → d.allRest p = true → Runs (.switchSaveDone p) s fun e =>
      (e.part p).current = none ∧ (e.part p).last = some c ∧
      Tab.get (fun _ => []) (e.part p).saved c = ((d.coreSet p).filter fun k => (d.core k).holds).map d.saveCore ∧
      (∀ k ∈ d.coreSet p, (e.core k).task = none ∧ (e.core k).live.segLive = [] ∧ (e.core k).live.accLive = []) ∧
      ∀ a, a < scratchBase ∨ scratchAddr 512 0 ≤ a → e.load a 1 = d.load a 1) ∧
    (∀ c o t bad, x.switch = some ⟨o, some c, .restore, t⟩ → c < 16 → let saved := Tab.get (fun _ => []) x.saved c
      (∀ y ∈ saved, y.core < 512 ∧ d.coreRetired y.core = false ∧ d.inTest ukCore y.core = false) →
      (saved.map SavedCore.core).Nodup →
      ((∀ y ∈ saved, y.core ∉ bad) → Runs (.switchRestoreDone p bad) s fun e => e.ctxState p c = cxCurrent ∧
        (e.part p).current = some c ∧ (e.part p).switch = none ∧ Tab.get (fun _ => []) (e.part p).saved c = [] ∧
        (e.part p).sliceEnd = d.now + d.fld (pPART p) rPART_CTL.off 31 16 * 1000 ∧
        e.fld (pPART p) rPART_SW.off 63 32 = min (2 ^ 32 - 1) (d.fld (pPART p) rPART_SW.off 63 32 + 1) ∧
        ∀ y ∈ saved, (e.core y.core).task = y.task ∧ (e.core y.core).outs = y.outs ∧ (e.core y.core).part = p ∧
          (e.core y.core).live = { y.live with scratch := [], scratchPoison := [] }) ∧
      ((∀ y ∈ saved, ∀ z, y.task = some z → z.desc.context < 16 ∧ z.queue < 8) → (∃ y ∈ saved, y.core ∈ bad) →
        Runs (.switchRestoreDone p bad) s fun e => e.ctxState p c = cxHeld ∧ (e.part p).current = some c ∧
          (e.part p).switch = none ∧ e.bit (pPART p) rPART_EVT.off evRestore = true)) ∧
    (∀ c o t bad, x.switch = some ⟨o, some c, .restore, t⟩ → c < 16 → (∃ y ∈ Tab.get (fun _ => []) x.saved c, d.coreRetired y.core = true) →
      Runs (.switchRestoreDone p bad) s fun e => e.ctxState p c = cxHeld ∧ (e.part p).switch = none ∧
        c ∈ (e.part p).contained ∧ (e.part p).current = x.current ∧ SameMemory d e)

/-- A counter takes an add, and one that would pass its maximum stays at 2^64 - 1 and sets esat. A barrier takes an arrival, an event a set and a clear. A signal that does not fit the kind changes no ember; it sets ekind, adds 1 to kindmis, and leaves the ember index in ERR_LOG0 of the EMB page. A signal to an ember with remote at 1 changes no register here, and goes to the ember and device that its fields name. A write of EMB_CFG takes its fields and makes the value 0. The signal of an engine is a counter add of 1. (R392.) -/
def Obligations.EmberSignalsComplete : Prop :=
  ∀ (n : Fin 16384) (s : State), let d := s.dev; let page := pEMB n
    (∀ p : Fin 64, d.live = true → d.partOn p = true → d.ownsEmber p n = true →
      let sets := fun op w => exec (.emberSignal p n op) s = .next (on s fun d => d.wr page (valOff n) w)
      (d.emberRemote n = false →
        (∀ m : Word, d.emberKind n = ebCounter →
          (d.emberValue n + m.toNat < 2 ^ 64 → sets (.add m) (d.emberValue n + m.toNat)) ∧
          (2 ^ 64 ≤ d.emberValue n + m.toNat → Runs (.emberSignal p n (.add m)) s fun e => OnlyRegs d { e with vex := d.vex } ∧
            e.emberValue n = 2 ^ 64 - 1 ∧ e.bit (pPART p) rPART_EVT.off evSat = true)) ∧
        (d.emberKind n = ebBarrier → d.emberParties n ≠ 0 →
          sets .arrive (barrierArrive (d.emberValue n) (d.emberParties n))) ∧
        (d.emberKind n = ebEvent → sets .set 1 ∧ sets .clear 0) ∧
        (∀ op, (match op with
            | .add _ => d.emberKind n ≠ ebCounter
            | .arrive => d.emberKind n ≠ ebBarrier ∨ d.emberParties n = 0
            | .set | .clear => d.emberKind n ≠ ebEvent) → Runs (.emberSignal p n op) s fun e =>
          (∀ m : Fin 16384, e.emberValue m = d.emberValue m ∧ e.rd (pEMB m) (cfgOff m) = d.rd (pEMB m) (cfgOff m)) ∧
          SameMemory d e ∧ e.cores = d.cores ∧ e.bit (pPART p) rPART_EVT.off evKind = true ∧
          e.fld (pPART p) rPART_STAT.off 31 16 = min 65535 (d.fld (pPART p) rPART_STAT.off 31 16 + 1) ∧
          (d.bit page rERR_LOG0.off 63 = false → e.fld page rERR_LOG0.off 13 0 = n))) ∧
      (d.emberRemote n = true → ∀ op, Runs (.emberSignal p n op) s fun e => e.regs = d.regs ∧ SameMemory d e ∧
        let t := d.fld page (cfgOff n) 54 41
        (d.hears = true → t ∉ d.fab.lost → ∃ q, (e.flow t 0).unacked = (d.flow t 0).unacked ++ [q] ∧ q.type = tyEmber ∧ q.dst = t ∧
          q.part = d.fld page (cfgOff n) 60 55 ∧ bits q.arg 13 0 = d.fld page (cfgOff n) 40 27))) ∧
    (∀ (a : Access) (v : Word), d.writable a page (cfgOff n) false = true → a.width = .full →
      Runs (.embCfgWrite a n v) s fun e => OnlyRegs d e ∧ e.emberValue n = 0 ∧ e.emberKind n = bits v.toNat 63 62 ∧
        e.emberParties n = bits v.toNat 15 0 ∧ e.emberRemote n = v.toNat.testBit 61) ∧
    ∀ p e, d.signal1 p e = d.signal p e (.add 1)

/-- Fender runs the first FEN that it accepts, of copy A else of copy B, with its root keys locked and CDI_1 derived, and enters recovery when it accepts neither; MGT and DEV are likewise taken from the first copy that is accepted, and without a DEV the failure is recorded. A key slot that is locked keeps its key; a lock of an unlocked slot takes only when the key passes. A target above the fused count and at most the svn that runs is burned one bit at a time, each raising the fused count by exactly 1; any other target changes nothing. A good token unlocks at the next warm reset only. A request over I3C or from the mailbox is answered and enters that transport's transcript, and the mailbox request is taken. In recovery, firmware is written to copy B only. (R403, R405, R407, R408, R410, R411, R412, R413, R416, R459.) -/
def Obligations.BootChainComplete : Prop :=
  ∀ s : State, let d := s.dev; let f := d.fen; let boot := rFEN_BOOT.off
    (d.live = true → f.fenOk = false → d.inRecovery = false → ∀ (x y : ImageCheck),
      (imageOk f.fused x = false → imageOk f.fused y = false → Runs (.bootRomStart x y) s fun e => e.inRecovery = true ∧
        e.fen = f ∧ OnlyRegs d e) ∧
      (∀ im b, (imageOk f.fused x = true ∧ im = x ∧ b = false ∨ imageOk f.fused x = false ∧ imageOk f.fused y = true ∧ im = y ∧ b = true) →
        Runs (.bootRomStart x y) s fun e => e.fen.fenOk = true ∧ e.fen.bootFromB = b ∧ e.fen.fenDigest = im.digest ∧
          e.fen.cdi = Config.hmac384 Config.uds (im.digest ++ natLe 1 im.svn ++ dbgByte f.debug) ∧ e.bit pFEN boot 3 = b ∧
          e.fld pFEN boot 47 40 = f.fused % 256 ∧ e.fld pFEN boot 55 48 = im.svn % 256 ∧ SameMemory d e ∧
          (∀ k ∈ [0, 16], e.bit pFEN (rFEN_KEY.at k) 63 = true ∧ e.bit pFEN (rFEN_KEY.at k) 62 = true) ∧
          (f.monotonic < 32768 → e.fen.monotonic = f.monotonic + 1) ∧ (32768 ≤ f.monotonic → e.bit pFEN boot 34 = true))) ∧
    (∀ (x y : ImageCheck), d.live = true →
      (f.fenOk = true → f.mgtOk = false → d.inRecovery = false → Runs (.imageVerify .mgt x y) s fun e =>
        match pickImage f.fused x y with
        | some z => e.fen = { f with mgtOk := true, mgtDigest := z.1.digest } ∧ e.inRecovery = false ∧ OnlyRegs { d with fen := e.fen } e
        | none => e.inRecovery = true ∧ e.fen = f ∧ OnlyRegs d e) ∧
      (f.mgtOk = true → f.devOk = false → Runs (.imageVerify .dev x y) s fun e =>
        match pickImage f.fused x y with
        | some z => e.fen.devOk = true ∧ e.fen.devDigest = z.1.digest ∧ e.fen.cdi =
            Config.hmac384 f.cdi (f.mgtDigest ++ z.1.digest ++ natLe 1 f.fused ++ dbgByte f.debug)
        | none => e.fen = f ∧ e.level = d.level ∧ e.fld pMOD rMOD_SL.off 11 8 = 1 ∧ e.bit pMOD rINT_STS.off 0 = true)) ∧
    (∀ (a : Access) (v : Word),
      (∀ slot : Fin 32, let r := rFEN_KEY.at slot; d.writable a pFEN r false = true → writesBit a v 63 true = true →
        (d.bit pFEN r 63 = true → exec (.fenKeyLock a slot v) s = .next (on s fun d => d.emit (.readback 0 false))) ∧
        (d.bit pFEN r 63 = false → Runs (.fenKeyLock a slot v) s fun e => OnlyRegs d e ∧ e.bit pFEN r 63 = d.keyPasses slot ∧
          (d.keyPasses slot = true → e.bit pFEN r 62 = true))) ∧
      (d.writable a pFEN rFEN_ARB.off true = true → let t := bits v.toNat 6 0
        (f.fused < t → t ≤ d.fld pFEN boot 55 48 → Runs (.fenArbWrite a v) s fun e => e.bit pFEN rFEN_ARB.off 7 = true ∧
          e.fen = { f with burnTarget := max t f.burnTarget } ∧ SameMemory d e) ∧
        (t ≤ f.fused ∨ d.fld pFEN boot 55 48 < t →
          exec (.fenArbWrite a v) s = .next (on s fun d => d.emit (.readback 0 false))))) ∧
    (d.live = true → d.bit pFEN rFEN_ARB.off 7 = true → f.fused < f.burnTarget → Runs .arbBitBurned s fun e =>
      e.fen = { f with fused := f.fused + 1 } ∧ OnlyRegs { d with fen := e.fen } e ∧
      e.fld pFEN boot 47 40 = (f.fused + 1) % 256 ∧ (e.bit pFEN rFEN_ARB.off 7 = true ↔ f.fused + 1 < f.burnTarget)) ∧
    (∀ t : UnlockToken, d.live = true → f.fenOk = true → f.debugFuse = true → t.ecdsaOk = true → t.lmsOk = true →
      t.namesDevice = true → exec (.debugUnlockToken t) s = .next (on s fun d => { d with fen := { f with unlockPending := true } })) ∧
    (∀ msg, d.live = true → let nonce := (List.range 4).flatMap fun i => natLe 8 (Config.random (f.draws + i)).toNat
      let answer := fun old => Config.spdmAnswer (if spdmStarts msg then [] else old) d.measurements nonce msg
      let grown := fun old => (if spdmStarts msg then [] else old) ++ msg ++ answer old
      let same := fun (e : Dev) => e.fen.draws = f.draws + 4 ∧ SameMemory d e ∧
        e.fen.attLeaves = if spdmSigns msg then (f.attLeaves + 1) % 32768 else f.attLeaves
      (f.mgtOk = true ∨ d.inRecovery = true → Runs (.spdmRequest true msg) s fun e => same e ∧ e.regs = d.regs ∧
        e.out = d.out ++ [.spdm d.i3cAddr (answer f.transcriptI3c)] ∧ e.fen.transcriptI3c = grown f.transcriptI3c ∧
        e.fen.transcriptVex = f.transcriptVex) ∧
      (f.mgtOk = true → d.bit pATT rATT_REQ.off 63 = true → Runs (.spdmRequest false msg) s fun e => same e ∧
        e.bit pATT rATT_REQ.off 63 = false ∧ e.fen.attAnswer = answer f.transcriptVex ∧
        e.fen.transcriptVex = grown f.transcriptVex ∧ e.fen.transcriptI3c = f.transcriptI3c)) ∧
    (∀ off data, d.live = true → d.inRecovery = true →
      (0x02000000 ≤ off → off + data.length ≤ 0x03E00000 → exec (.recoveryFirmwareUpdate off data) s = .next (on s fun d =>
        { d with fen := { f with flash := memStore f.flash off data } })) ∧
      (off < 0x02000000 ∨ 0x03E00000 < off + data.length → exec (.recoveryFirmwareUpdate off data) s = .next s))

/-- Below the target, with DEV accepted and within the step bound, the level rises by one: to SL1 with the lowest die whose HBM trained and that has 64 good cores, whose cores are idle, to SL2 with the other dies and the fabric, to SL3 with the slow tier. Where the level needs a part that is missing it stays where it is and the class of the part is recorded; rise and failure raise the event of the MOD page. A write of the target takes. The cores of the first die change clock once at SL2 when all of them rest. (R417, R419, R420, R430.) -/
def Obligations.ServiceLevelsComplete : Prop :=
  ∀ s : State, let d := s.dev; let sl := rMOD_SL.off; let event := fun (e : Dev) => e.bit pMOD rINT_STS.off 0 = true
    let quiet := d.vex.heldReqs = []
    (∀ r : BringUp, d.live = true → d.fen.devOk = true → d.level < d.fld pMOD sl 5 4 → r.afterMs ≤ stepBound d.level →
      let trained := (List.range 8).filter (hbmTrained r); let full := fun die => decide (64 ≤ (d.goodCores r die).length)
      let fails := fun (e : Dev) n => e.level = d.level ∧ e.fld pMOD sl 11 8 = n ∧ event e ∧ SameMemory d e ∧ e.cores = d.cores
      (d.level = 0 →
        (∀ die, trained.find? full = some die → Runs (.serviceLevelRise r) s fun e => e.level = 1 ∧ event e ∧
          e.fld pMOD sl 14 12 = die ∧ e.tier.hbmDies = [die] ∧ e.fld pMOD sl 5 4 = d.fld pMOD sl 5 4 ∧
          ∀ k, k < 512 → (e.core k).st = if k / 64 = die then .idle else .selfTest) ∧
        (trained.find? full = none → Runs (.serviceLevelRise r) s fun e => fails e (if trained = [] then 2 else 3))) ∧
      (d.level = 1 → let first := d.fld pMOD sl 14 12
        (r.serdesOk = true → Runs (.serviceLevelRise r) s fun e => e.level = 2 ∧ event e ∧
          e.tier.hbmDies = (List.range 8).filter (fun die => die == first || hbmTrained r die) ∧
          (d.pow.refclkB = true → ∀ n : Fin 24, d.bit pFAB (rFAB_PORT.at n) 63 = true → d.portState n = portDown → e.portState n = portTraining) ∧
          (quiet → ∀ k, k < 512 → k / 64 = first → e.core k = d.core k) ∧
          ∀ k, k < 512 → k / 64 ≠ first → k % 64 < (d.goodCores r (k / 64)).length → (e.core k).st = .idle) ∧
        (r.serdesOk = false → Runs (.serviceLevelRise r) s fun e => fails e 4)) ∧
      (2 ≤ d.level →
        (r.lpddrOk = true → Runs (.serviceLevelRise r) s fun e => e.level = 3 ∧ event e ∧ e.tier.slowIn = true ∧
          e.tier.slowGone = (List.range 32768).filter (fun n => d.logged 5 (65536 + n)) ∧ (quiet → e.cores = d.cores)) ∧
        (r.lpddrOk = false → Runs (.serviceLevelRise r) s fun e => fails e 5))) ∧
    (∀ (a : Access) (v : Word), d.writable a pMOD sl false = true → a.width = .full → Runs (.modSlTargetWrite a v) s fun e =>
      OnlyRegs d e ∧ e.fld pMOD sl 5 4 = bits v.toNat 5 4 ∧ e.level = d.level) ∧
    (d.live = true → 2 ≤ d.level → d.pow.cclkMHz = 470 → (∀ i, i < 64 → (d.core (64 * d.fld pMOD sl 14 12 + i)).restsForClock = true) →
      exec .cclkChange s = .next (on s fun d => { d with pow := { d.pow with cclkMHz := 940 } }))

/-- On a live device, a corrected error is counted, and below the threshold of its unit within the window nothing else stops; at the threshold the unit goes under test. A deferred error poisons its line and is counted. A contained error counts, puts its unit under test, and strikes its work: with the carry flag at 0 the task returns to the head of its queue without its live state on the core, with the carry flag at 1 its context is contained and the fault event raised, and a descriptor of a DMA channel ends with status 0x04. One that reaches a unit under test leaves that unit's work alone. A fatal error stops the device, lowers ALERT_N and brings every fabric and Ethernet port down. A read of ERR_STAT returns the counts and clears them. (R421, R423, R424, R425, R426, R427, R429, R438.) -/
def Obligations.ErrorClassesComplete : Prop :=
  ∀ (x : HwError) (s : State), let d := s.dev; let c := unitCode x.unit; let u := d.unit c x.place; let n := min 65535 (max 1 x.count)
    let stat := fun (e : Dev) hi lo => e.fld pERR rERR_STAT.off hi lo
    (d.live = true →
      (d.inTest c x.place = false → hasTest x.unit = true → let v := d.correctedNow x
        (v.corrected < max 1 (d.fld pERR rERR_CTL.off 15 0) → Runs (.correctedError x) s fun e => e.unit c x.place = v ∧
          stat e 63 40 = min (2 ^ 24 - 1) (stat d 63 40 + n) ∧ e.cores = d.cores ∧ e.chans = d.chans) ∧
        (max 1 (d.fld pERR rERR_CTL.off 15 0) ≤ v.corrected → Runs (.correctedError x) s fun e =>
          (e.unit c x.place).testing = true ∧ (e.unit c x.place).corrected = 0 ∧
          stat e 63 40 = min (2 ^ 24 - 1) (stat d 63 40 + n))) ∧
      (whereIs x.addr = .tier → Runs (.deferredError x) s fun e => x.addr / 64 ∈ e.poison ∧
        stat e 39 24 = min 65535 (stat d 39 24 + 1)) ∧
      (d.inTest c x.place = false → hasTest x.unit = true → u.transientAt = none →
        Runs (.containedError x) s fun e => (e.unit c x.place).testing = true ∧ stat e 23 8 = min 65535 (stat d 23 8 + n)) ∧
      (d.inTest c x.place = false → u.transientAt = none → x.unit = .core → x.place < 512 → let k := d.core x.place
        ∀ t, k.task = some t → k.part < 64 → t.desc.context < 16 → t.queue < 8 → k.ending = false → k.committing = [] →
          k.tlds.any TldOp.old = false → let q := d.tasks k.part t.desc.context t.queue
          (k.carry = false → Runs (.containedError x) s fun e => (e.core x.place).task = none ∧ (e.core x.place).live = .empty ∧
            (e.core x.place).outs = [] ∧ ∃ z, e.tasks k.part t.desc.context t.queue = z :: q ∧ z.desc = t.desc ∧ z.adm = t.adm ∧
              ∃ l, z.saved = some l ∧ l.pc = k.tileStart.pc ∧ l.sregs = k.tileStart.sregs) ∧
          (k.carry = true → Runs (.containedError x) s fun e => (e.core x.place).task = none ∧
            (e.core x.place).live = .empty ∧ (e.part k.part).contained.contains t.desc.context = true ∧
            e.bit (pPART k.part) rPART_EVT.off evFault = true)) ∧
      (∀ r, d.inTest c x.place = false → x.unit = .dmaChannel → (d.chan x.place).run = some r → r.finished = false →
        Runs (.containedError x) s fun e => (e.chan x.place).run = some { r with finished := true, status := 4 }) ∧
      (d.inTest c x.place = true → Runs (.containedError x) s fun e => e.cores = d.cores ∧ e.chans = d.chans ∧
        e.geysers = d.geysers ∧ e.flues = d.flues ∧ stat e 23 8 = min 65535 (stat d 23 8 + n)) ∧
      Runs (.fatalError x) s fun e => e.live = false ∧ e.pow = { d.pow with stopped := true, alertN := false } ∧
        (∀ m : Fin 24, e.portState m = portDown) ∧ (∀ m : Fin 2, e.ethState m = 0) ∧ e.cores = d.cores) ∧
    (∀ a : Access, d.writable a pERR rERR_STAT.off false = true → a.width = .full → Runs (.errStatRead a) s fun e =>
      OnlyRegs d e ∧ e.rd pERR rERR_STAT.off = 0 ∧
      e.out = d.out ++ [.readback (BitVec.ofNat 64 (d.rd pERR rERR_STAT.off)) false])

/-- A unit that passes its test is out of it, with the time of a transient verdict recorded when it was the unit's own test; a core is idle again. A core that fails takes a spare of its die under the same exposed number, which goes under test, or, without any, its number is retired. A row that fails is repaired on a spare row, and the repair is counted and logged. When a granule that retires from a frame has switched, it stands stable in its new frame, and the old frame leaves service for good. (R427, R428, R431, R432, R434, R435, R436.) -/
def Obligations.SelfTestsComplete : Prop :=
  ∀ s : State, s.dev.live = true → let d := s.dev
    (∀ (u : UnitKind) (place : Nat) (r : TestResult), d.tested u place = true → let c := unitCode u; let v := (d.unit c place).verdict
      (r.pass = true → Runs (.selfTestDone u place r) s fun e =>
        (u ≠ .engine → e.unit c place = { transientAt := if v = vdPending then some d.now else none }) ∧
        (u = .core → e.core place = { d.core place with st := .idle })) ∧
      (r.pass = false → u = .core → place < 512 →
        (∀ n rest, d.spareCores (place / 64) = n :: rest → Runs (.selfTestDone u place r) s fun e =>
          e.physical place = n % 128 ∧ e.spareCores (place / 64) = rest ∧ (e.unit c place).testing = true ∧
          (e.unit c place).verdict = vdSpare ∧ e.cores = d.cores ∧
          e.errs.repairLog = d.errs.repairLog ++ [(c, 72 * (place / 64) + d.physical place)]) ∧
        (d.spareCores (place / 64) = [] → d.donorCore place = none → Runs (.selfTestDone u place r) s fun e =>
          (e.core place).st = .retired ∧ (e.unit c place).retired = true ∧ e.inTest c place = true ∧ e.coreRetired place = true)) ∧
      (r.pass = false → r.spareRow = true → r.retire = false → u = .hbmRow ∨ u = .slowRow →
        Runs (.selfTestDone u place r) s fun e => e.unit c place = {} ∧
          e.fld pERR rERR_FRET.off 15 0 = min 65535 (d.fld pERR rERR_FRET.off 15 0 + 1) ∧
          e.errs.repairLog = d.errs.repairLog ++ [(c, place)])) ∧
    (∀ g : Fin 49152, let x := d.gran g
      x.valid = true → x.state = stSwitching → (d.mig g).retire = true → (d.mig g).held = [] →
      (d.unit 5 (if x.slow then 65536 + x.frame else x.frame)).testing = false → Runs (.frameRetireDone g) s fun e =>
        e.gran g = { x with state := stStable, slow := x.dslow, frame := x.dframe, dslow := false, dframe := 0 } ∧
        (∀ h, h ≠ g.val → e.gran h = d.gran h) ∧
        x.frame ∈ (if x.slow then e.tier.slowGone else e.tier.hbmGone) ∧
        x.frame ∉ (if x.slow then e.tier.slowUsed else e.tier.hbmUsed) ∧ SameMemory d e ∧
        e.fld pTIER rTIER_STAT.off 63 48 = min 65535 (d.fld pTIER rTIER_STAT.off 63 48 + 1))

/-- A register access from the other world, an access to a reserved page or offset, and an access of a width that is not permitted complete with error status and read 0. Nothing changes but the error log of the page reached, or of the MOD page for a reserved page: with valid at 0 it takes the code and the address, and with valid at 1 only over is set. The write and read of a plain register show the first for every register. (R399, R443, R451.) -/
def Obligations.AccessErrorsComplete : Prop :=
  ∀ (a : Access) (page off : Nat) (s : State), let d := s.dev
    let logged := fun lp code (e : Dev) => OnlyRegs d e ∧ e.out = d.out ++ [.readback 0 true] ∧
      (∀ q o, q ≠ lp ∨ 0x100 ≤ o → q < 0x1000 → o < 0x10000 → e.rd q o = d.rd q o) ∧
      (d.bit lp rERR_LOG0.off 63 = false → e.bit lp rERR_LOG0.off 63 = true ∧ e.fld lp rERR_LOG0.off 55 48 = code ∧
        e.rd lp rERR_LOG1.off = (0x0C0000000000 + page * 0x10000 + off) % 2 ^ 64 ∧
        e.fld lp rERR_LOG2.off 31 24 = a.by_.code ∧ e.rd lp rERR_LOG3.off = d.ltc.toNat) ∧
      (d.bit lp rERR_LOG0.off 63 = true → e.bit lp rERR_LOG0.off 62 = true ∧
        ∀ o ∈ [rERR_LOG1.off, rERR_LOG2.off, rERR_LOG3.off], e.rd lp o = d.rd lp o)
    (∀ (eff : Dev → Dev) action, d.reachable page = true → d.arrives a = true → page < 0x1000 → d.worldOk a page = false →
      logged page 1 (d.regWrite a page off action eff)) ∧
    (∀ r v (eff : Dev → Dev), d.reachable page = true → d.arrives a = true → page < 0x1000 → d.worldOk a page = false →
      logged page 1 (d.regReadOf a page off r v eff)) ∧
    (pageOf page ≠ none → d.reachable page = true → d.arrives a = true → d.worldOk a page = true → reservedAt page (off / 8 * 8) = true →
      d.blockInReset page off = false → Runs (.reservedRegisterAccess a page off) s (logged page 2)) ∧
    (pageOf page = none → windowPage page = false → d.reachable page = true → d.arrives a = true → Runs (.reservedRegisterAccess a page off) s (logged pMOD 2)) ∧
    (∀ n w, pageOf page ≠ none → d.reachable page = true → d.arrives a = true → d.worldOk a page = true → widthOk page off n w = false →
      Runs (.badWidthAccess a page off n w) s (logged page 3))

/-- A block reset of a block that supports it and is at rest begins, with the header at its reset values; another is refused; one that is running absorbs a further one. Its end gives every register after the header its reset value, and frees the page. INT_SET sets the causes written, INT_EN takes the enables of the causes in use; neither touches memory or a core. A Secure write of WORLD sets the world of a page that has its own, and that of a disabled partition on all seven of its pages; a page of an enabled partition keeps its world, and a Non-secure write changes nothing. (R448, R449, R452, R400.) -/
def Obligations.BlocksAndInterruptsComplete : Prop :=
  ∀ (a : Access) (page : Nat) (v : Word) (s : State), let d := s.dev; let sts := rBLK_STS.off
    let nothing := fun i => exec i s = .next (on s fun d => d.emit (.readback 0 false))
    (∀ k n, pageOf page = some (k, n) → d.writable a page rBLK_CTL.off true = true → v.toNat.testBit 0 = true →
      (d.bit page sts 1 = true → nothing (.blkCtlReset a page v)) ∧
      (d.bit page sts 1 = false → k.breset = true → d.blockAtRest page = true → Runs (.blkCtlReset a page v) s fun e =>
        e.bit page sts 1 = true ∧ OnlyRegs d e ∧ ∀ o ∈ [rINT_STS.off, rINT_EN.off, rERR_LOG0.off, rWORLD.off, rCLAIM.off],
          e.rd page o = (regReset (regKey page o)).toNat) ∧
      (d.bit page sts 1 = false → k.breset = false ∨ d.blockAtRest page = false → exec (.blkCtlReset a page v) s =
        .next (on s fun d => (d.setBit page sts 2 true).emit (.readback 0 false)))) ∧
    (d.live = true → page < 0x1000 → d.bit page sts 1 = true → Runs (.blockResetDone page) s fun e => e.bit page sts 1 = false ∧
      SameMemory d e ∧ ((∀ n, pageOf page ≠ some (.eth, n)) → ∀ o, 0x100 ≤ o → o < 0x10000 →
        e.rd page o = (regReset (regKey page o)).toNat)) ∧
    (∀ k n, pageOf page = some (k, n) →
      (d.writable a page rINT_SET.off true = true → Runs (.intSetWrite a page v) s fun e => SameMemory d e ∧ e.cores = d.cores ∧
        ∀ i, i < 64 → e.bit page rINT_STS.off i = (d.bit page rINT_STS.off i || (decide (i < causesOf page) && v.toNat.testBit i))) ∧
      (d.writable a page rINT_EN.off false = true → a.width = .full → Runs (.intEnWrite a page v) s fun e => SameMemory d e ∧
        e.cores = d.cores ∧ e.rd page rINT_EN.off = v.toNat % 2 ^ causesOf page ∧
        e.rd page rINT_STS.off = d.rd page rINT_STS.off) ∧
      (d.writable a page rWORLD.off false = true →
        (a.world = some false → nothing (.worldWrite a page v)) ∧
        (a.world ≠ some false → a.reaches 0 0 = true → let w := v.toNat.testBit 0
          (k = .part → d.partOn n = false → Runs (.worldWrite a page v) s fun e => OnlyRegs d e ∧
            ∀ q ∈ [pPART n, pCACHE n, pGEN n, pLRN n, pSTV n, pWGT n, pVWQ n], e.bit q rWORLD.off 0 = w) ∧
          (k = .part → d.partOn n = true → nothing (.worldWrite a page v)) ∧
          (k = .core → (∃ p, p < 64 ∧ d.partOn p = true ∧ d.ownsCore p n = true) → nothing (.worldWrite a page v)) ∧
          (k = .core → (∀ p, p < 64 → d.partOn p = true → d.ownsCore p n = false) → Runs (.worldWrite a page v) s fun e =>
            OnlyRegs d e ∧ e.bit page rWORLD.off 0 = w) ∧
          (k ∈ [.mod, .err, .tier, .fab, .vex, .att, .emb, .hbm, .sdie, .eth, .gey, .flue, .blw, .dma] →
            Runs (.worldWrite a page v) s fun e => OnlyRegs d e ∧ e.bit page rWORLD.off 0 = w) ∧
          (k ∈ [.fen, .cache, .gen, .lrn, .stv, .wgt, .vwq] → nothing (.worldWrite a page v)))))

/-- For the claim register of the MOD page, of a comparator, of an Ethernet port that is off, and of the check-value unit of each DMA channel: a software claim of a free resource sets held with software as its holder and rid as hid; one of a held resource is refused and the holder stays. A release with the rid of the software that holds it frees it; any other release is refused and the holder stays. No memory and no core changes. (R454, R455.) -/
def Obligations.ClaimsComplete : Prop :=
  ∀ (a : Access) (page off : Nat) (v : Word) (s : State), let d := s.dev; let rid := bits v.toNat 31 16
    d.writable a page off true = true →
    (off = rCLAIM.off ∧ (page = pMOD ∨ ∃ n : Fin 2, page = pETH n ∧ d.bit page rETH_PORT.off 63 = false) ∨
      (∃ n : Fin 4, page = pMOD ∧ off = rMOD_TCLM.at n) ∨ ∃ c : Fin 192, page = pDMA c ∧ off = chClaim c) →
    let holder := fun (e : Dev) => (e.held page off, e.fld page off 55 48, e.fld page off 47 32)
    let refused := fun (e : Dev) => OnlyRegs d e ∧ e.bit page off 62 = true ∧ holder e = holder d
    (claimOp v = 1 → d.held page off = false → Runs (.softwareClaim a page off v) s fun e => OnlyRegs d e ∧
      holder e = (true, 0xFF, rid)) ∧
    (claimOp v = 1 → d.held page off = true → Runs (.softwareClaim a page off v) s refused) ∧
    (claimOp v = 2 → holder d = (true, 0xFF, rid) → Runs (.softwareRelease a page off v) s fun e => OnlyRegs d e ∧
      holder e = (false, 0, 0)) ∧
    (claimOp v = 2 → holder d ≠ (true, 0xFF, rid) → Runs (.softwareRelease a page off v) s refused)

/-- A write of a register that has no command of its own on an error, core, ember, Geyser, Flue, Bellows, HBM or Stove-die page, or of the ring of a disabled channel, stores each field that the access reaches as its access code gives, the reserved bits of a barrier's or an event's value as 0, and changes nothing else. A key word of a locked slot, the ring of an enabled channel, the core set of an enabled partition, the registers of an enabled cache manager, and the request buffer while a request waits keep what they hold. (R8, R403, R459.) -/
def Obligations.PlainWritesComplete : Prop :=
  ∀ (a : Access) (page off : Nat) (v : Word) (k : PageKind) (n : Nat) (r : Reg) (s : State), let d := s.dev
    pageOf page = some (k, n) → regAt page off = some r → off % 8 = 0 → 0x100 ≤ off → off < 0x10000 → ownCommand a page off v = false →
    d.writable a page off (actionAt page off) = true →
    (k ∈ [.err, .core, .emb, .eth, .gey, .flue, .blw, .hbm, .sdie] ∨ k = .dma ∧ rDMA_RING.covers off = true ∧
        d.chOn (channelAt page off) = false → Runs (.registerWrite a page off v) s fun e => OnlyRegs d e ∧
      (let x := r.write (d.rd page off) a.width v.toNat % 2 ^ 64; let m := n * 2048 + (off - rEMB_VAL.off) / 16
        e.rd page off = if k = .emb ∧ rEMB_VAL.covers off = true then
            if d.emberKind m = ebBarrier then putBits x 31 16 0 else if d.emberKind m = ebEvent then x % 2 else x
          else x) ∧
      ∀ q o, q < 0x1000 → o < 0x10000 → q ≠ page ∨ o ≠ off → e.rd q o = d.rd q o) ∧
    (k = .fen ∧ 0x1000 ≤ off ∧ d.bit pFEN (rFEN_KEY.at ((off - 0x1000) / 128)) 63 = true ∨
        k = .dma ∧ rDMA_RING.covers off = true ∧ d.chOn (channelAt page off) = true ∨
        k = .part ∧ rPART_CORE.covers off = true ∧ d.partOn n = true ∨
        k = .cache ∧ d.bit (pCACHE n) rCACHE_CTL.off 63 = true ∨
        k = .att ∧ rATT_REQ_BUF.covers off = true ∧ d.bit pATT rATT_REQ.off 63 = true →
      exec (.registerWrite a page off v) s = .next (on s fun d => d.emit (.readback 0 false)))

/-- A write of arm arms a comparator, held or not; one that is armed and finds the LTC at or above its value clears arm, sets fired and its cause, and one that is not armed or not yet there does nothing. An Ethernet port that is switched on claims its unit and trains at SL2; with the unit held by software it stays off and refused is set; switched off it goes down and gives the unit up. A port that has trained is up; one whose link is lost trains again while it is on, and a lost connection leaves it up; a frame of at most 9,216 bytes whose last four bytes are not the CRC-32 of those before them is counted, a good one is not, a longer one is dropped, and a read returns the count and clears it. ATT_REQ.go hands over a packet of len bytes, or sets lost; a response fills the buffer with its length, ready and its cause; a clear of ready takes. (R291, R290, R376, R457, R458, R459.) -/
def Obligations.PortsAndMailboxComplete : Prop :=
  ∀ (a : Access) (v : Word) (s : State), let d := s.dev
    (∀ n : Fin 4, let r := rMOD_TCLM.at n; let due := d.bit pMOD r 0 = true ∧ d.rd pMOD (rMOD_TCMP.at n) ≤ d.now
      (d.writable a pMOD r true = true → v.toNat.testBit 0 = true → Runs (.modTclmArmWrite a n v) s fun e => OnlyRegs d e ∧
        e.bit pMOD r 0 = true) ∧
      (d.pow.pwrGood = true → d.ltcOn = true → due → Runs (.comparatorFire n) s fun e => e.bit pMOD r 0 = false ∧
        e.bit pMOD r 1 = true ∧ e.bit pMOD rINT_STS.off (n + 1) = true ∧ SameMemory d e ∧ e.ltc = d.ltc) ∧
      (¬ due → exec (.comparatorFire n) s = .next s)) ∧
    (∀ n : Fin 2, let page := pETH n; let r := rETH_PORT.off; let on_ := fun (e : Dev) => e.bit page r 63
      let trains := decide (2 ≤ d.level) && d.pow.refclkB
      (d.writable a page r false = true → a.width = .full →
        (v.toNat.testBit 63 = true → d.ethOn n = false → d.held page rCLAIM.off = false → Runs (.ethPortEnWrite a n v) s fun e =>
          OnlyRegs d e ∧ on_ e = true ∧ e.holds page rCLAIM.off ethHolder n = true ∧
          e.ethState n = if trains then 1 else d.ethState n) ∧
        (v.toNat.testBit 63 = true → d.held page rCLAIM.off = true → d.holds page rCLAIM.off ethHolder n = false →
          Runs (.ethPortEnWrite a n v) s fun e => OnlyRegs d e ∧ on_ e = false ∧ e.bit page rCLAIM.off 62 = true ∧
            e.ethState n = d.ethState n) ∧
        (v.toNat.testBit 63 = false → Runs (.ethPortEnWrite a n v) s fun e => on_ e = false ∧ e.ethState n = 0 ∧
          e.holds page rCLAIM.off ethHolder n = false) ∧
        Runs (.ethPortRead a n) s fun e => OnlyRegs d e ∧ e.fld page r 31 0 = 0 ∧ e.ethState n = d.ethState n ∧
          e.out = d.out ++ [.readback (BitVec.ofNat 64 (d.rd page r)) false]) ∧
      (d.live = true →
        (d.ethState n = 1 → d.ethOn n = true → d.pow.refclkB = true →
          exec (.ethernetPortTrained n) s = .next (on s fun d => d.setFld page r 51 48 ethUp)) ∧
        (d.ethState n = ethUp →
          (Runs (.ethernetLinkDown n none) s fun e => e.ethState n = if d.ethOn n && d.pow.refclkB then 1 else 0) ∧
          (∀ q, Runs (.ethernetLinkDown n (some q)) s fun e => e.ethState n = ethUp ∧
            (q.2 < d.nconn q.1 → d.connPort q.1 q.2 = n → d.connAt q.1 q.2 ∈ e.eth.lost)) ∧
          (∀ frame, 4 ≤ frame.length → let m := frame.length - 4
            (frame.length ≤ 9216 → Runs (.ethernetPacketReceive n frame) s fun e => OnlyRegs d e ∧ e.ethState n = ethUp ∧
              e.fld page r 31 0 = if crc32.of (frame.take m) = leNat (frame.drop m) then d.fld page r 31 0
                else min (2 ^ 32 - 1) (d.fld page r 31 0 + 1)) ∧
            (9216 < frame.length → exec (.ethernetPacketReceive n frame) s = .next s))))) ∧
    (let req := rATT_REQ.off; let rsp := rATT_RSP.off
      (d.writable a pATT req false = true → a.width = .full → Runs (.attReqGo a v) s fun e => OnlyRegs d e ∧
        (d.bit pATT req 63 = false → e.bit pATT req 63 = v.toNat.testBit 63 ∧ e.fld pATT req 12 0 = bits v.toNat 12 0) ∧
        (d.bit pATT req 63 = true → e.bit pATT req 63 = true ∧ e.fld pATT req 12 0 = d.fld pATT req 12 0 ∧
          (v.toNat.testBit 63 = true → e.bit pATT req 62 = true))) ∧
      (∀ bs, d.live = true → d.fen.mgtOk = true → d.fen.attAnswer ≠ [] → d.bit pATT rsp 63 = false → d.bit pATT rBLK_STS.off 1 = false →
        1 ≤ bs.length → bs.length ≤ 4096 → Runs (.attResponseReady bs) s fun e => e.bit pATT rsp 63 = true ∧
          e.fld pATT rsp 12 0 = bs.length % 4096 ∧ e.bit pATT rINT_STS.off 1 = true ∧ SameMemory d e ∧
          ∀ i, 8 * i < bs.length → e.rd pATT (rATT_RSP_BUF.at i) = leNat ((bs.drop (8 * i)).take 8)) ∧
      (d.writable a pATT rsp false = true → a.width = .full → v.toNat.testBit 63 = true → Runs (.attRspReadyClear a v) s fun e =>
        OnlyRegs d e ∧ e.bit pATT rsp 63 = false))

/-- After a power-on reset every register of register space holds the reset value of its fields, but MOD_RST_CAUSE, which reports the power-on reset; every page is Secure, the service level is 0 and its target 3, and the Local Time Counter stands at 0 and counts. No core has a task, no granule is mapped and no command waits. Memory and the register file are in canonical form. That a byte of memory reads 0 is the model's choice (log entry 4), as is every register value that the spec does not give (log entry 1). (R7, R37, R400, R417, 02_module, 18_registers.) -/
def Obligations.ResetHolds : Prop :=
  let d := State.reset.dev
  (∀ page off, off < 0x10000 → ¬ (page = pMOD ∧ off = rMOD_RST_CAUSE.off) → d.rd page off = (regReset (regKey page off)).toNat) ∧
  d.rd pMOD rMOD_RST_CAUSE.off = 1 ∧ (∀ page, pageOf page ≠ none → d.pageWorld page = true) ∧
  d.level = 0 ∧ d.fld pMOD rMOD_SL.off 5 4 = 3 ∧ d.ltc = 0 ∧ d.ltcOn = true ∧ d.live = true ∧
  (∀ k, (d.core k).task = none) ∧ (∀ g, (d.gran g).valid = false) ∧ (∀ a, d.load a 1 = [0]) ∧ State.reset.pending = [] ∧
  (∀ c : Fin 192, d.chSize c = 4 ∧ d.chState c = chDisabled) ∧ (∀ n : Fin 2, d.bit (pETH n) rETH_PORT.off 63 = true) ∧
  (∀ e : Fin 16384, d.emberKind e = ebOff) ∧ MemoryWf State.reset ∧ RegsWf State.reset

/-- From every state whose memory lists its bytes by rising address and none that is 0, and whose register file lists its registers by rising key and none at its reset value, a step that answers a next state answers one of that kind. Equal memories are therefore equal data, and so are equal register files. (00_scope, 18_registers.) -/
def Obligations.StepKeepsCanonical : Prop :=
  ∀ s t : State, MemoryWf s → RegsWf s → Machine.step s = .next t → MemoryWf t ∧ RegsWf t

/-- Reading a control block that was made from a live state whose values fit their fields gives that state's scalar registers, vector lanes, generators, instruction address, generator keys, flags and addition counters, every one of them, and takes everything else from the state it is read over. The layout of the control block is the model's choice (log entry 16). (R78, R158, R160.) -/
def Obligations.ControlBlockRoundTrip : Prop :=
  ∀ l base : Live, l.pc < 2 ^ 64 → l.gkStep < 2 ^ 64 → l.gkLayer < 2 ^ 64 → l.gkTile < 2 ^ 64 →
    (∀ n, n < 256 → (l.gen n).key < 2 ^ 64 ∧ (l.gen n).counter < 2 ^ 128 ∧ (l.gen n).rest < 2 ^ 112 ∧ (l.gen n).restBits < 2 ^ 16) →
    (∀ t, t < 64 → l.adds t < 2 ^ 64) → let m := ofControlBlock (controlBlock l) base
    (controlBlock l).length = 49152 ∧ (∀ r, r < 64 → m.s r = l.s r) ∧ (∀ r j, r < 32 → j < 128 → m.lane r j = l.lane r j) ∧
    (∀ n, n < 256 → m.gen n = l.gen n) ∧ m.pc = l.pc ∧ m.gkStep = l.gkStep ∧ m.gkLayer = l.gkLayer ∧ m.gkTile = l.gkTile ∧
    m.flags = l.flags ∧ (∀ t, t < 64 → m.adds t = l.adds t) ∧ m.acc = base.acc ∧ m.segLive = base.segLive ∧
    m.accLive = base.accLive ∧ m.accInt = base.accInt
end

