-- ==== Sys2Proof/Laws/Bits.lean ====
section
/-! SUPPORT. Laws of bit fields and byte order. -/

namespace Sys2Proof

theorem bits_lt (v hi lo : Nat) : bits v hi lo < 2 ^ (hi + 1 - lo) := Nat.mod_lt _ (Nat.two_pow_pos _)

theorem testBit_bits (v hi lo i : Nat) : (bits v hi lo).testBit i = (decide (i < hi + 1 - lo) && v.testBit (lo + i)) := by
  simp [bits, Nat.testBit_mod_two_pow, Nat.testBit_shiftRight]

/-- A number split at a field. -/
theorem bits_split (v hi lo : Nat) (h : lo ≤ hi) :
    v = 2 ^ (hi + 1) * (v / 2 ^ (hi + 1)) + (2 ^ lo * bits v hi lo + v % 2 ^ lo) := by
  have e : 2 ^ (hi + 1) = 2 ^ lo * 2 ^ (hi + 1 - lo) := by rw [← Nat.pow_add]; congr 1; omega
  have a := Nat.div_add_mod v (2 ^ lo)
  have b := Nat.div_add_mod (v / 2 ^ lo) (2 ^ (hi + 1 - lo))
  rw [Nat.div_div_eq_div_mul, ← e] at b
  have c : bits v hi lo = v / 2 ^ lo % 2 ^ (hi + 1 - lo) := by simp [bits, Nat.shiftRight_eq_div_pow]
  rw [c]
  calc v = 2 ^ lo * (v / 2 ^ lo) + v % 2 ^ lo := a.symm
    _ = 2 ^ lo * (2 ^ (hi + 1 - lo) * (v / 2 ^ (hi + 1)) + v / 2 ^ lo % 2 ^ (hi + 1 - lo)) + v % 2 ^ lo := by rw [b]
    _ = _ := by rw [e, Nat.mul_add, ← Nat.mul_assoc, Nat.add_assoc]

theorem putBits_eq (v hi lo n : Nat) (h : lo ≤ hi) :
    putBits v hi lo n =
      2 ^ (hi + 1) * (v / 2 ^ (hi + 1)) + (2 ^ lo * (n % 2 ^ (hi + 1 - lo)) + v % 2 ^ lo) := by
  have a := bits_split v hi lo h
  simp only [putBits]
  have : v - bits v hi lo * 2 ^ lo = 2 ^ (hi + 1) * (v / 2 ^ (hi + 1)) + v % 2 ^ lo := by
    rw [Nat.mul_comm (bits v hi lo)]; omega
  rw [this, Nat.mul_comm (n % _)]; omega

/-- The bits of a number after a field of it is replaced. -/
theorem testBit_putBits (v hi lo n i : Nat) (h : lo ≤ hi) :
    (putBits v hi lo n).testBit i = if lo ≤ i ∧ i ≤ hi then n.testBit (i - lo) else v.testBit i := by
  have e : 2 ^ (hi + 1) = 2 ^ lo * 2 ^ (hi + 1 - lo) := by rw [← Nat.pow_add]; congr 1; omega
  have hC : v % 2 ^ lo < 2 ^ lo := Nat.mod_lt _ (Nat.two_pow_pos _)
  have hN : n % 2 ^ (hi + 1 - lo) < 2 ^ (hi + 1 - lo) := Nat.mod_lt _ (Nat.two_pow_pos _)
  have hB : 2 ^ lo * (n % 2 ^ (hi + 1 - lo)) + v % 2 ^ lo < 2 ^ (hi + 1) := by
    rw [e]
    calc _ < 2 ^ lo * (n % 2 ^ (hi + 1 - lo)) + 2 ^ lo := by omega
      _ = 2 ^ lo * (n % 2 ^ (hi + 1 - lo) + 1) := by rw [Nat.mul_add, Nat.mul_one]
      _ ≤ _ := Nat.mul_le_mul_left _ hN
  rw [putBits_eq v hi lo n h, Nat.testBit_two_pow_mul_add _ hB, Nat.testBit_two_pow_mul_add _ hC]
  simp only [Nat.testBit_mod_two_pow, Nat.testBit_div_two_pow]
  by_cases a : i < hi + 1
  · by_cases b : i < lo
    · have : ¬ (lo ≤ i ∧ i ≤ hi) := by omega
      simp [a, b, this]
    · have c : lo ≤ i ∧ i ≤ hi := by omega
      have g : i - lo < hi + 1 - lo := by omega
      simp [a, b, c, g]
  · have : ¬ (lo ≤ i ∧ i ≤ hi) := by omega
    simp only [a, this, if_false]
    congr 1
    omega

/-- The field just put. -/
theorem bits_putBits_same (v hi lo n : Nat) (h : lo ≤ hi) : bits (putBits v hi lo n) hi lo = n % 2 ^ (hi + 1 - lo) := by
  apply Nat.eq_of_testBit_eq
  intro i
  rw [testBit_bits, testBit_putBits _ _ _ _ _ h, Nat.testBit_mod_two_pow]
  by_cases g : i < hi + 1 - lo
  · have : lo ≤ lo + i ∧ lo + i ≤ hi := by omega
    simp [g, this]
  · simp [g]

/-- A field that lies outside the one put stays. -/
theorem bits_putBits_other (v hi lo n hi' lo' : Nat) (h : lo ≤ hi) (ho : hi < lo' ∨ hi' < lo) :
    bits (putBits v hi lo n) hi' lo' = bits v hi' lo' := by
  apply Nat.eq_of_testBit_eq
  intro i
  rw [testBit_bits, testBit_bits, testBit_putBits _ _ _ _ _ h]
  by_cases g : i < hi' + 1 - lo'
  · have : ¬ (lo ≤ lo' + i ∧ lo' + i ≤ hi) := by omega
    simp [g, this]
  · simp [g]

/-- A word with a field put is a word. -/
theorem putBits_lt (v hi lo n k : Nat) (h : lo ≤ hi) (hk : hi < k) (hv : v < 2 ^ k) : putBits v hi lo n < 2 ^ k := by
  apply Nat.lt_pow_two_of_testBit
  intro i hi'
  rw [testBit_putBits _ _ _ _ _ h]
  have : ¬ (lo ≤ i ∧ i ≤ hi) := by omega
  rw [if_neg this]
  exact Nat.testBit_lt_two_pow (lt_of_lt_of_le hv (Nat.pow_le_pow_right (by norm_num) hi'))

theorem natLe_length (n v : Nat) : (natLe n v).length = n := by
  induction n generalizing v with
  | zero => rfl
  | succ n ih => simp [natLe, ih]

end Sys2Proof
end

