-- ==== Sys2Proof/Laws/Tab.lean ====
section
/-! SUPPORT. Laws of sparse tables: what a read finds after each operation, and that every operation keeps the canonical
form. -/

namespace Sys2Proof.Machine

variable {α : Type}

theorem Tab.get_drop_same (f : Nat → α) (t : Tab α) (k : Nat) : Tab.get f (Tab.drop t k) k = f k := by
  induction t with
  | nil => rfl
  | cons p t ih =>
    obtain ⟨j, v⟩ := p
    by_cases h : j = k
    · subst h; simpa [Tab.drop] using ih
    · simpa [Tab.drop, Tab.get, h] using ih

theorem Tab.get_drop_other (f : Nat → α) (t : Tab α) {j k : Nat} (h : j ≠ k) :
    Tab.get f (Tab.drop t k) j = Tab.get f t j := by
  induction t with
  | nil => rfl
  | cons p t ih =>
    obtain ⟨i, v⟩ := p
    by_cases hi : i = k
    · subst hi; simpa [Tab.drop, Tab.get, h.symm] using ih
    · by_cases hj : i = j
      · subst hj; simp [Tab.drop, Tab.get, hi]
      · simpa [Tab.drop, Tab.get, hi, hj] using ih

theorem Tab.get_insert_same (f : Nat → α) (t : Tab α) (k : Nat) (v : α) (h : ∀ p ∈ t, p.1 ≠ k) :
    Tab.get f (Tab.insert k v t) k = v := by
  induction t with
  | nil => simp [Tab.insert, Tab.get]
  | cons p t ih =>
    obtain ⟨j, u⟩ := p
    have hj : j ≠ k := h (j, u) (by simp)
    have ht : ∀ p ∈ t, p.1 ≠ k := fun p hp => h p (by simp [hp])
    by_cases hk : k < j
    · simp [Tab.insert, hk, Tab.get]
    · simpa [Tab.insert, hk, Tab.get, hj] using ih ht

theorem Tab.get_insert_other (f : Nat → α) (t : Tab α) {j k : Nat} (v : α) (h : j ≠ k) :
    Tab.get f (Tab.insert k v t) j = Tab.get f t j := by
  induction t with
  | nil => simp [Tab.insert, Tab.get, h.symm]
  | cons p t ih =>
    obtain ⟨i, u⟩ := p
    by_cases hk : k < i
    · simp [Tab.insert, hk, Tab.get, h.symm]
    · by_cases hi : i = j
      · subst hi; simp [Tab.insert, hk, Tab.get]
      · simpa [Tab.insert, hk, Tab.get, hi] using ih

theorem Tab.mem_drop {t : Tab α} {k : Nat} {p : Nat × α} : p ∈ Tab.drop t k ↔ p ∈ t ∧ p.1 ≠ k := by
  simp [Tab.drop, List.mem_filter]

/-- What a set does, whatever the table. -/
theorem Tab.set_eq [DecidableEq α] (f : Nat → α) (t : Tab α) (k : Nat) (v : α) :
    Tab.set f t k v = if v = f k then Tab.drop t k else Tab.insert k v (Tab.drop t k) := by
  cases t <;> simp [Tab.set, Tab.drop, Tab.insert]

/-- A read of the key just set gives the value set. -/
@[simp] theorem Tab.get_set_same [DecidableEq α] (f : Nat → α) (t : Tab α) (k : Nat) (v : α) :
    Tab.get f (Tab.set f t k v) k = v := by
  by_cases h : v = f k
  · simp [Tab.set_eq, h, Tab.get_drop_same]
  · simp only [Tab.set_eq, h, if_false]
    exact Tab.get_insert_same f _ k v fun p hp => (Tab.mem_drop.mp hp).2

/-- A set leaves every other key as it was. -/
theorem Tab.get_set_other [DecidableEq α] (f : Nat → α) (t : Tab α) {j k : Nat} (v : α) (h : j ≠ k) :
    Tab.get f (Tab.set f t k v) j = Tab.get f t j := by
  by_cases hv : v = f k
  · simp [Tab.set_eq, hv, Tab.get_drop_other f t h]
  · simp only [Tab.set_eq, hv, if_false]
    rw [Tab.get_insert_other f _ v h, Tab.get_drop_other f t h]

theorem Tab.drop_insert (t : Tab α) (k : Nat) (v : α) : Tab.drop (Tab.insert k v t) k = Tab.drop t k := by
  induction t with
  | nil => simp [Tab.insert, Tab.drop]
  | cons p t ih =>
    obtain ⟨j, u⟩ := p
    by_cases h : k < j
    · simp [Tab.insert, h, Tab.drop]
    · simp only [Tab.drop, ne_eq, decide_not] at ih
      by_cases e : j = k <;> simp [Tab.insert, h, Tab.drop, e, ih]

theorem Tab.drop_drop (t : Tab α) (k : Nat) : Tab.drop (Tab.drop t k) k = Tab.drop t k := by
  simp [Tab.drop, List.filter_filter]

/-- The last of two sets of one key counts. -/
@[simp] theorem Tab.set_set [DecidableEq α] (f : Nat → α) (t : Tab α) (k : Nat) (u v : α) :
    Tab.set f (Tab.set f t k u) k v = Tab.set f t k v := by
  have h : Tab.drop (Tab.set f t k u) k = Tab.drop t k := by
    rw [Tab.set_eq f t k u]
    split
    · exact Tab.drop_drop t k
    · rw [Tab.drop_insert, Tab.drop_drop]
  rw [Tab.set_eq f (Tab.set f t k u), Tab.set_eq f t k v, h]

theorem Tab.get_set [DecidableEq α] (f : Nat → α) (t : Tab α) (j k : Nat) (v : α) :
    Tab.get f (Tab.set f t k v) j = if j = k then v else Tab.get f t j := by
  by_cases h : j = k
  · subst h; simp
  · simp [h, Tab.get_set_other f t v h]

/-- A read inside a cleared range gives the default, outside it what was there. -/
theorem Tab.get_clear (f : Nat → α) (t : Tab α) (lo hi k : Nat) :
    Tab.get f (Tab.clear t lo hi) k = if lo ≤ k ∧ k < hi then f k else Tab.get f t k := by
  induction t with
  | nil => simp [Tab.clear, Tab.get]
  | cons p t ih =>
    obtain ⟨j, v⟩ := p
    simp only [Tab.clear] at ih ⊢
    by_cases hj : j < lo ∨ hi ≤ j
    · have : (decide (j < lo) || decide (hi ≤ j)) = true := by simpa using hj
      simp only [List.filter_cons, this, if_true, Tab.get]
      by_cases e : j = k
      · subst e
        have : ¬ (lo ≤ j ∧ j < hi) := by omega
        simp [this]
      · simpa [e] using ih
    · have : (decide (j < lo) || decide (hi ≤ j)) = false := by simpa using hj
      simp only [List.filter_cons, this, Bool.false_eq_true, if_false, Tab.get]
      by_cases e : j = k
      · subst e
        have : lo ≤ j ∧ j < hi := by omega
        simpa [this] using ih
      · simpa [e] using ih

/-! ### The canonical form -/

theorem Tab.wf_cons [DecidableEq α] {f : Nat → α} {k : Nat} {v : α} {t : Tab α} :
    Tab.wf f ((k, v) :: t) = true ↔ v ≠ f k ∧ (∀ p ∈ t, k < p.1) ∧ Tab.wf f t = true := by
  simp [Tab.wf, and_assoc]

theorem Tab.wf_filter [DecidableEq α] {f : Nat → α} (q : Nat × α → Bool) {t : Tab α} (h : Tab.wf f t = true) :
    Tab.wf f (t.filter q) = true := by
  induction t with
  | nil => simpa using h
  | cons p t ih =>
    obtain ⟨k, v⟩ := p
    obtain ⟨h1, h2, h3⟩ := Tab.wf_cons.mp h
    by_cases hq : q (k, v)
    · rw [List.filter_cons_of_pos hq, Tab.wf_cons]
      exact ⟨h1, fun p hp => h2 p (List.mem_filter.mp hp).1, ih h3⟩
    · rw [List.filter_cons_of_neg hq]
      exact ih h3

theorem Tab.wf_drop [DecidableEq α] {f : Nat → α} {t : Tab α} (k : Nat) (h : Tab.wf f t = true) :
    Tab.wf f (Tab.drop t k) = true := Tab.wf_filter _ h

theorem Tab.wf_clear [DecidableEq α] {f : Nat → α} {t : Tab α} (lo hi : Nat) (h : Tab.wf f t = true) :
    Tab.wf f (Tab.clear t lo hi) = true := Tab.wf_filter _ h

theorem Tab.wf_slice [DecidableEq α] {f : Nat → α} {t : Tab α} (lo hi : Nat) (h : Tab.wf f t = true) :
    Tab.wf f (Tab.slice t lo hi) = true := Tab.wf_filter _ h

theorem Tab.mem_insert {k : Nat} {v : α} {t : Tab α} {p : Nat × α} (h : p ∈ Tab.insert k v t) : p = (k, v) ∨ p ∈ t := by
  induction t with
  | nil => simpa [Tab.insert] using h
  | cons q t ih =>
    obtain ⟨j, u⟩ := q
    by_cases hk : k < j
    · simpa [Tab.insert, hk] using h
    · simp only [Tab.insert, hk, if_false, List.mem_cons] at h ⊢
      rcases h with h | h
      · exact .inr (.inl h)
      · rcases ih h with h | h
        · exact .inl h
        · exact .inr (.inr h)

theorem Tab.wf_insert [DecidableEq α] {f : Nat → α} {k : Nat} {v : α} {t : Tab α} (hv : v ≠ f k)
    (hk : ∀ p ∈ t, p.1 ≠ k) (h : Tab.wf f t = true) : Tab.wf f (Tab.insert k v t) = true := by
  induction t with
  | nil => simp [Tab.insert, Tab.wf, hv]
  | cons q t ih =>
    obtain ⟨j, u⟩ := q
    obtain ⟨h1, h2, h3⟩ := Tab.wf_cons.mp h
    have hj : j ≠ k := hk (j, u) (by simp)
    by_cases lt : k < j
    · simp only [Tab.insert, lt, if_true]
      refine Tab.wf_cons.mpr ⟨hv, fun p hp => ?_, h⟩
      rcases List.mem_cons.mp hp with rfl | hp
      · exact lt
      · exact lt.trans (h2 p hp)
    · simp only [Tab.insert, lt, if_false]
      refine Tab.wf_cons.mpr ⟨h1, fun p hp => ?_, ih (fun p hp => hk p (by simp [hp])) h3⟩
      rcases Tab.mem_insert hp with rfl | hp
      · show j < k; omega
      · exact h2 p hp

/-- A set keeps the canonical form. -/
theorem Tab.wf_set [DecidableEq α] {f : Nat → α} {t : Tab α} (k : Nat) (v : α) (h : Tab.wf f t = true) :
    Tab.wf f (Tab.set f t k v) = true := by
  by_cases hv : v = f k
  · simpa [Tab.set_eq, hv] using Tab.wf_drop k h
  · simp only [Tab.set_eq, hv, if_false]
    exact Tab.wf_insert hv (fun p hp => (Tab.mem_drop.mp hp).2) (Tab.wf_drop k h)

end Sys2Proof.Machine
end

