-- ==== Sys2Proof/Laws/State.lean ====
section
/-! SUPPORT. What each update of the device leaves and sets: one lemma per field per update, so that no proof unfolds a
record update. -/

namespace Sys2Proof.Machine

/-! #### wr -/

@[simp] theorem Dev.wr_pow (d : Dev) (page off v : Nat) : (d.wr page off v).pow = d.pow := rfl
@[simp] theorem Dev.wr_ltc (d : Dev) (page off v : Nat) : (d.wr page off v).ltc = d.ltc := rfl
@[simp] theorem Dev.wr_ltcOn (d : Dev) (page off v : Nat) : (d.wr page off v).ltcOn = d.ltcOn := rfl
@[simp] theorem Dev.wr_mem (d : Dev) (page off v : Nat) : (d.wr page off v).mem = d.mem := rfl
@[simp] theorem Dev.wr_poison (d : Dev) (page off v : Nat) : (d.wr page off v).poison = d.poison := rfl
@[simp] theorem Dev.wr_tier (d : Dev) (page off v : Nat) : (d.wr page off v).tier = d.tier := rfl
@[simp] theorem Dev.wr_cores (d : Dev) (page off v : Nat) : (d.wr page off v).cores = d.cores := rfl
@[simp] theorem Dev.wr_parts (d : Dev) (page off v : Nat) : (d.wr page off v).parts = d.parts := rfl
@[simp] theorem Dev.wr_geysers (d : Dev) (page off v : Nat) : (d.wr page off v).geysers = d.geysers := rfl
@[simp] theorem Dev.wr_flues (d : Dev) (page off v : Nat) : (d.wr page off v).flues = d.flues := rfl
@[simp] theorem Dev.wr_chans (d : Dev) (page off v : Nat) : (d.wr page off v).chans = d.chans := rfl
@[simp] theorem Dev.wr_fab (d : Dev) (page off v : Nat) : (d.wr page off v).fab = d.fab := rfl
@[simp] theorem Dev.wr_vex (d : Dev) (page off v : Nat) : (d.wr page off v).vex = d.vex := rfl
@[simp] theorem Dev.wr_fen (d : Dev) (page off v : Nat) : (d.wr page off v).fen = d.fen := rfl
@[simp] theorem Dev.wr_errs (d : Dev) (page off v : Nat) : (d.wr page off v).errs = d.errs := rfl
@[simp] theorem Dev.wr_out (d : Dev) (page off v : Nat) : (d.wr page off v).out = d.out := rfl
@[simp] theorem Dev.wr_fresh (d : Dev) (page off v : Nat) : (d.wr page off v).fresh = d.fresh := rfl
@[simp] theorem Dev.wr_core (d : Dev) (page off v : Nat) (cj : Nat) : (d.wr page off v).core cj = d.core cj := rfl
@[simp] theorem Dev.wr_part (d : Dev) (page off v : Nat) (pj : Nat) : (d.wr page off v).part pj = d.part pj := rfl
@[simp] theorem Dev.wr_load (d : Dev) (page off v : Nat) (ma mn : Nat) : (d.wr page off v).load ma mn = d.load ma mn := rfl
@[simp] theorem Dev.wr_gran (d : Dev) (page off v : Nat) (gj : Nat) : (d.wr page off v).gran gj = d.gran gj := rfl

/-! #### setFld -/

@[simp] theorem Dev.setFld_pow (d : Dev) (page off hi lo n : Nat) : (d.setFld page off hi lo n).pow = d.pow := rfl
@[simp] theorem Dev.setFld_ltc (d : Dev) (page off hi lo n : Nat) : (d.setFld page off hi lo n).ltc = d.ltc := rfl
@[simp] theorem Dev.setFld_ltcOn (d : Dev) (page off hi lo n : Nat) : (d.setFld page off hi lo n).ltcOn = d.ltcOn := rfl
@[simp] theorem Dev.setFld_mem (d : Dev) (page off hi lo n : Nat) : (d.setFld page off hi lo n).mem = d.mem := rfl
@[simp] theorem Dev.setFld_poison (d : Dev) (page off hi lo n : Nat) : (d.setFld page off hi lo n).poison = d.poison := rfl
@[simp] theorem Dev.setFld_tier (d : Dev) (page off hi lo n : Nat) : (d.setFld page off hi lo n).tier = d.tier := rfl
@[simp] theorem Dev.setFld_cores (d : Dev) (page off hi lo n : Nat) : (d.setFld page off hi lo n).cores = d.cores := rfl
@[simp] theorem Dev.setFld_parts (d : Dev) (page off hi lo n : Nat) : (d.setFld page off hi lo n).parts = d.parts := rfl
@[simp] theorem Dev.setFld_geysers (d : Dev) (page off hi lo n : Nat) : (d.setFld page off hi lo n).geysers = d.geysers := rfl
@[simp] theorem Dev.setFld_flues (d : Dev) (page off hi lo n : Nat) : (d.setFld page off hi lo n).flues = d.flues := rfl
@[simp] theorem Dev.setFld_chans (d : Dev) (page off hi lo n : Nat) : (d.setFld page off hi lo n).chans = d.chans := rfl
@[simp] theorem Dev.setFld_fab (d : Dev) (page off hi lo n : Nat) : (d.setFld page off hi lo n).fab = d.fab := rfl
@[simp] theorem Dev.setFld_vex (d : Dev) (page off hi lo n : Nat) : (d.setFld page off hi lo n).vex = d.vex := rfl
@[simp] theorem Dev.setFld_fen (d : Dev) (page off hi lo n : Nat) : (d.setFld page off hi lo n).fen = d.fen := rfl
@[simp] theorem Dev.setFld_errs (d : Dev) (page off hi lo n : Nat) : (d.setFld page off hi lo n).errs = d.errs := rfl
@[simp] theorem Dev.setFld_out (d : Dev) (page off hi lo n : Nat) : (d.setFld page off hi lo n).out = d.out := rfl
@[simp] theorem Dev.setFld_fresh (d : Dev) (page off hi lo n : Nat) : (d.setFld page off hi lo n).fresh = d.fresh := rfl
@[simp] theorem Dev.setFld_core (d : Dev) (page off hi lo n : Nat) (cj : Nat) : (d.setFld page off hi lo n).core cj = d.core cj := rfl
@[simp] theorem Dev.setFld_part (d : Dev) (page off hi lo n : Nat) (pj : Nat) : (d.setFld page off hi lo n).part pj = d.part pj := rfl
@[simp] theorem Dev.setFld_load (d : Dev) (page off hi lo n : Nat) (ma mn : Nat) : (d.setFld page off hi lo n).load ma mn = d.load ma mn := rfl
@[simp] theorem Dev.setFld_gran (d : Dev) (page off hi lo n : Nat) (gj : Nat) : (d.setFld page off hi lo n).gran gj = d.gran gj := rfl

/-! #### setBit -/

@[simp] theorem Dev.setBit_pow (d : Dev) (page off b : Nat) (v : Bool) : (d.setBit page off b v).pow = d.pow := rfl
@[simp] theorem Dev.setBit_ltc (d : Dev) (page off b : Nat) (v : Bool) : (d.setBit page off b v).ltc = d.ltc := rfl
@[simp] theorem Dev.setBit_ltcOn (d : Dev) (page off b : Nat) (v : Bool) : (d.setBit page off b v).ltcOn = d.ltcOn := rfl
@[simp] theorem Dev.setBit_mem (d : Dev) (page off b : Nat) (v : Bool) : (d.setBit page off b v).mem = d.mem := rfl
@[simp] theorem Dev.setBit_poison (d : Dev) (page off b : Nat) (v : Bool) : (d.setBit page off b v).poison = d.poison := rfl
@[simp] theorem Dev.setBit_tier (d : Dev) (page off b : Nat) (v : Bool) : (d.setBit page off b v).tier = d.tier := rfl
@[simp] theorem Dev.setBit_cores (d : Dev) (page off b : Nat) (v : Bool) : (d.setBit page off b v).cores = d.cores := rfl
@[simp] theorem Dev.setBit_parts (d : Dev) (page off b : Nat) (v : Bool) : (d.setBit page off b v).parts = d.parts := rfl
@[simp] theorem Dev.setBit_geysers (d : Dev) (page off b : Nat) (v : Bool) : (d.setBit page off b v).geysers = d.geysers := rfl
@[simp] theorem Dev.setBit_flues (d : Dev) (page off b : Nat) (v : Bool) : (d.setBit page off b v).flues = d.flues := rfl
@[simp] theorem Dev.setBit_chans (d : Dev) (page off b : Nat) (v : Bool) : (d.setBit page off b v).chans = d.chans := rfl
@[simp] theorem Dev.setBit_fab (d : Dev) (page off b : Nat) (v : Bool) : (d.setBit page off b v).fab = d.fab := rfl
@[simp] theorem Dev.setBit_vex (d : Dev) (page off b : Nat) (v : Bool) : (d.setBit page off b v).vex = d.vex := rfl
@[simp] theorem Dev.setBit_fen (d : Dev) (page off b : Nat) (v : Bool) : (d.setBit page off b v).fen = d.fen := rfl
@[simp] theorem Dev.setBit_errs (d : Dev) (page off b : Nat) (v : Bool) : (d.setBit page off b v).errs = d.errs := rfl
@[simp] theorem Dev.setBit_out (d : Dev) (page off b : Nat) (v : Bool) : (d.setBit page off b v).out = d.out := rfl
@[simp] theorem Dev.setBit_fresh (d : Dev) (page off b : Nat) (v : Bool) : (d.setBit page off b v).fresh = d.fresh := rfl
@[simp] theorem Dev.setBit_core (d : Dev) (page off b : Nat) (v : Bool) (cj : Nat) : (d.setBit page off b v).core cj = d.core cj := rfl
@[simp] theorem Dev.setBit_part (d : Dev) (page off b : Nat) (v : Bool) (pj : Nat) : (d.setBit page off b v).part pj = d.part pj := rfl
@[simp] theorem Dev.setBit_load (d : Dev) (page off b : Nat) (v : Bool) (ma mn : Nat) : (d.setBit page off b v).load ma mn = d.load ma mn := rfl
@[simp] theorem Dev.setBit_gran (d : Dev) (page off b : Nat) (v : Bool) (gj : Nat) : (d.setBit page off b v).gran gj = d.gran gj := rfl

/-! #### count -/

@[simp] theorem Dev.count_pow (d : Dev) (page off hi lo n : Nat) : (d.count page off hi lo n).pow = d.pow := rfl
@[simp] theorem Dev.count_ltc (d : Dev) (page off hi lo n : Nat) : (d.count page off hi lo n).ltc = d.ltc := rfl
@[simp] theorem Dev.count_ltcOn (d : Dev) (page off hi lo n : Nat) : (d.count page off hi lo n).ltcOn = d.ltcOn := rfl
@[simp] theorem Dev.count_mem (d : Dev) (page off hi lo n : Nat) : (d.count page off hi lo n).mem = d.mem := rfl
@[simp] theorem Dev.count_poison (d : Dev) (page off hi lo n : Nat) : (d.count page off hi lo n).poison = d.poison := rfl
@[simp] theorem Dev.count_tier (d : Dev) (page off hi lo n : Nat) : (d.count page off hi lo n).tier = d.tier := rfl
@[simp] theorem Dev.count_cores (d : Dev) (page off hi lo n : Nat) : (d.count page off hi lo n).cores = d.cores := rfl
@[simp] theorem Dev.count_parts (d : Dev) (page off hi lo n : Nat) : (d.count page off hi lo n).parts = d.parts := rfl
@[simp] theorem Dev.count_geysers (d : Dev) (page off hi lo n : Nat) : (d.count page off hi lo n).geysers = d.geysers := rfl
@[simp] theorem Dev.count_flues (d : Dev) (page off hi lo n : Nat) : (d.count page off hi lo n).flues = d.flues := rfl
@[simp] theorem Dev.count_chans (d : Dev) (page off hi lo n : Nat) : (d.count page off hi lo n).chans = d.chans := rfl
@[simp] theorem Dev.count_fab (d : Dev) (page off hi lo n : Nat) : (d.count page off hi lo n).fab = d.fab := rfl
@[simp] theorem Dev.count_vex (d : Dev) (page off hi lo n : Nat) : (d.count page off hi lo n).vex = d.vex := rfl
@[simp] theorem Dev.count_fen (d : Dev) (page off hi lo n : Nat) : (d.count page off hi lo n).fen = d.fen := rfl
@[simp] theorem Dev.count_errs (d : Dev) (page off hi lo n : Nat) : (d.count page off hi lo n).errs = d.errs := rfl
@[simp] theorem Dev.count_out (d : Dev) (page off hi lo n : Nat) : (d.count page off hi lo n).out = d.out := rfl
@[simp] theorem Dev.count_fresh (d : Dev) (page off hi lo n : Nat) : (d.count page off hi lo n).fresh = d.fresh := rfl
@[simp] theorem Dev.count_core (d : Dev) (page off hi lo n : Nat) (cj : Nat) : (d.count page off hi lo n).core cj = d.core cj := rfl
@[simp] theorem Dev.count_part (d : Dev) (page off hi lo n : Nat) (pj : Nat) : (d.count page off hi lo n).part pj = d.part pj := rfl
@[simp] theorem Dev.count_load (d : Dev) (page off hi lo n : Nat) (ma mn : Nat) : (d.count page off hi lo n).load ma mn = d.load ma mn := rfl
@[simp] theorem Dev.count_gran (d : Dev) (page off hi lo n : Nat) (gj : Nat) : (d.count page off hi lo n).gran gj = d.gran gj := rfl

/-! #### emit -/

@[simp] theorem Dev.emit_pow (d : Dev) (o : Out) : (d.emit o).pow = d.pow := rfl
@[simp] theorem Dev.emit_ltc (d : Dev) (o : Out) : (d.emit o).ltc = d.ltc := rfl
@[simp] theorem Dev.emit_ltcOn (d : Dev) (o : Out) : (d.emit o).ltcOn = d.ltcOn := rfl
@[simp] theorem Dev.emit_regs (d : Dev) (o : Out) : (d.emit o).regs = d.regs := rfl
@[simp] theorem Dev.emit_mem (d : Dev) (o : Out) : (d.emit o).mem = d.mem := rfl
@[simp] theorem Dev.emit_poison (d : Dev) (o : Out) : (d.emit o).poison = d.poison := rfl
@[simp] theorem Dev.emit_tier (d : Dev) (o : Out) : (d.emit o).tier = d.tier := rfl
@[simp] theorem Dev.emit_cores (d : Dev) (o : Out) : (d.emit o).cores = d.cores := rfl
@[simp] theorem Dev.emit_parts (d : Dev) (o : Out) : (d.emit o).parts = d.parts := rfl
@[simp] theorem Dev.emit_geysers (d : Dev) (o : Out) : (d.emit o).geysers = d.geysers := rfl
@[simp] theorem Dev.emit_flues (d : Dev) (o : Out) : (d.emit o).flues = d.flues := rfl
@[simp] theorem Dev.emit_chans (d : Dev) (o : Out) : (d.emit o).chans = d.chans := rfl
@[simp] theorem Dev.emit_fab (d : Dev) (o : Out) : (d.emit o).fab = d.fab := rfl
@[simp] theorem Dev.emit_vex (d : Dev) (o : Out) : (d.emit o).vex = d.vex := rfl
@[simp] theorem Dev.emit_fen (d : Dev) (o : Out) : (d.emit o).fen = d.fen := rfl
@[simp] theorem Dev.emit_errs (d : Dev) (o : Out) : (d.emit o).errs = d.errs := rfl
@[simp] theorem Dev.emit_fresh (d : Dev) (o : Out) : (d.emit o).fresh = d.fresh := rfl
@[simp] theorem Dev.emit_rd (d : Dev) (o : Out) (rp ro : Nat) : (d.emit o).rd rp ro = d.rd rp ro := rfl
@[simp] theorem Dev.emit_fld (d : Dev) (o : Out) (rp ro rh rl : Nat) : (d.emit o).fld rp ro rh rl = d.fld rp ro rh rl := rfl
@[simp] theorem Dev.emit_bit (d : Dev) (o : Out) (rp ro rb : Nat) : (d.emit o).bit rp ro rb = d.bit rp ro rb := rfl
@[simp] theorem Dev.emit_core (d : Dev) (o : Out) (cj : Nat) : (d.emit o).core cj = d.core cj := rfl
@[simp] theorem Dev.emit_part (d : Dev) (o : Out) (pj : Nat) : (d.emit o).part pj = d.part pj := rfl
@[simp] theorem Dev.emit_load (d : Dev) (o : Out) (ma mn : Nat) : (d.emit o).load ma mn = d.load ma mn := rfl
@[simp] theorem Dev.emit_gran (d : Dev) (o : Out) (gj : Nat) : (d.emit o).gran gj = d.gran gj := rfl

/-! #### setCore -/

@[simp] theorem Dev.setCore_pow (d : Dev) (k : Nat) (c : Core) : (d.setCore k c).pow = d.pow := rfl
@[simp] theorem Dev.setCore_ltc (d : Dev) (k : Nat) (c : Core) : (d.setCore k c).ltc = d.ltc := rfl
@[simp] theorem Dev.setCore_ltcOn (d : Dev) (k : Nat) (c : Core) : (d.setCore k c).ltcOn = d.ltcOn := rfl
@[simp] theorem Dev.setCore_regs (d : Dev) (k : Nat) (c : Core) : (d.setCore k c).regs = d.regs := rfl
@[simp] theorem Dev.setCore_mem (d : Dev) (k : Nat) (c : Core) : (d.setCore k c).mem = d.mem := rfl
@[simp] theorem Dev.setCore_poison (d : Dev) (k : Nat) (c : Core) : (d.setCore k c).poison = d.poison := rfl
@[simp] theorem Dev.setCore_tier (d : Dev) (k : Nat) (c : Core) : (d.setCore k c).tier = d.tier := rfl
@[simp] theorem Dev.setCore_parts (d : Dev) (k : Nat) (c : Core) : (d.setCore k c).parts = d.parts := rfl
@[simp] theorem Dev.setCore_geysers (d : Dev) (k : Nat) (c : Core) : (d.setCore k c).geysers = d.geysers := rfl
@[simp] theorem Dev.setCore_flues (d : Dev) (k : Nat) (c : Core) : (d.setCore k c).flues = d.flues := rfl
@[simp] theorem Dev.setCore_chans (d : Dev) (k : Nat) (c : Core) : (d.setCore k c).chans = d.chans := rfl
@[simp] theorem Dev.setCore_fab (d : Dev) (k : Nat) (c : Core) : (d.setCore k c).fab = d.fab := rfl
@[simp] theorem Dev.setCore_vex (d : Dev) (k : Nat) (c : Core) : (d.setCore k c).vex = d.vex := rfl
@[simp] theorem Dev.setCore_fen (d : Dev) (k : Nat) (c : Core) : (d.setCore k c).fen = d.fen := rfl
@[simp] theorem Dev.setCore_errs (d : Dev) (k : Nat) (c : Core) : (d.setCore k c).errs = d.errs := rfl
@[simp] theorem Dev.setCore_out (d : Dev) (k : Nat) (c : Core) : (d.setCore k c).out = d.out := rfl
@[simp] theorem Dev.setCore_fresh (d : Dev) (k : Nat) (c : Core) : (d.setCore k c).fresh = d.fresh := rfl
@[simp] theorem Dev.setCore_rd (d : Dev) (k : Nat) (c : Core) (rp ro : Nat) : (d.setCore k c).rd rp ro = d.rd rp ro := rfl
@[simp] theorem Dev.setCore_fld (d : Dev) (k : Nat) (c : Core) (rp ro rh rl : Nat) : (d.setCore k c).fld rp ro rh rl = d.fld rp ro rh rl := rfl
@[simp] theorem Dev.setCore_bit (d : Dev) (k : Nat) (c : Core) (rp ro rb : Nat) : (d.setCore k c).bit rp ro rb = d.bit rp ro rb := rfl
@[simp] theorem Dev.setCore_part (d : Dev) (k : Nat) (c : Core) (pj : Nat) : (d.setCore k c).part pj = d.part pj := rfl
@[simp] theorem Dev.setCore_load (d : Dev) (k : Nat) (c : Core) (ma mn : Nat) : (d.setCore k c).load ma mn = d.load ma mn := rfl
@[simp] theorem Dev.setCore_gran (d : Dev) (k : Nat) (c : Core) (gj : Nat) : (d.setCore k c).gran gj = d.gran gj := rfl

/-! #### setPart -/

@[simp] theorem Dev.setPart_pow (d : Dev) (p : Nat) (x : Part) : (d.setPart p x).pow = d.pow := rfl
@[simp] theorem Dev.setPart_ltc (d : Dev) (p : Nat) (x : Part) : (d.setPart p x).ltc = d.ltc := rfl
@[simp] theorem Dev.setPart_ltcOn (d : Dev) (p : Nat) (x : Part) : (d.setPart p x).ltcOn = d.ltcOn := rfl
@[simp] theorem Dev.setPart_regs (d : Dev) (p : Nat) (x : Part) : (d.setPart p x).regs = d.regs := rfl
@[simp] theorem Dev.setPart_mem (d : Dev) (p : Nat) (x : Part) : (d.setPart p x).mem = d.mem := rfl
@[simp] theorem Dev.setPart_poison (d : Dev) (p : Nat) (x : Part) : (d.setPart p x).poison = d.poison := rfl
@[simp] theorem Dev.setPart_tier (d : Dev) (p : Nat) (x : Part) : (d.setPart p x).tier = d.tier := rfl
@[simp] theorem Dev.setPart_cores (d : Dev) (p : Nat) (x : Part) : (d.setPart p x).cores = d.cores := rfl
@[simp] theorem Dev.setPart_geysers (d : Dev) (p : Nat) (x : Part) : (d.setPart p x).geysers = d.geysers := rfl
@[simp] theorem Dev.setPart_flues (d : Dev) (p : Nat) (x : Part) : (d.setPart p x).flues = d.flues := rfl
@[simp] theorem Dev.setPart_chans (d : Dev) (p : Nat) (x : Part) : (d.setPart p x).chans = d.chans := rfl
@[simp] theorem Dev.setPart_fab (d : Dev) (p : Nat) (x : Part) : (d.setPart p x).fab = d.fab := rfl
@[simp] theorem Dev.setPart_vex (d : Dev) (p : Nat) (x : Part) : (d.setPart p x).vex = d.vex := rfl
@[simp] theorem Dev.setPart_fen (d : Dev) (p : Nat) (x : Part) : (d.setPart p x).fen = d.fen := rfl
@[simp] theorem Dev.setPart_errs (d : Dev) (p : Nat) (x : Part) : (d.setPart p x).errs = d.errs := rfl
@[simp] theorem Dev.setPart_out (d : Dev) (p : Nat) (x : Part) : (d.setPart p x).out = d.out := rfl
@[simp] theorem Dev.setPart_fresh (d : Dev) (p : Nat) (x : Part) : (d.setPart p x).fresh = d.fresh := rfl
@[simp] theorem Dev.setPart_rd (d : Dev) (p : Nat) (x : Part) (rp ro : Nat) : (d.setPart p x).rd rp ro = d.rd rp ro := rfl
@[simp] theorem Dev.setPart_fld (d : Dev) (p : Nat) (x : Part) (rp ro rh rl : Nat) : (d.setPart p x).fld rp ro rh rl = d.fld rp ro rh rl := rfl
@[simp] theorem Dev.setPart_bit (d : Dev) (p : Nat) (x : Part) (rp ro rb : Nat) : (d.setPart p x).bit rp ro rb = d.bit rp ro rb := rfl
@[simp] theorem Dev.setPart_core (d : Dev) (p : Nat) (x : Part) (cj : Nat) : (d.setPart p x).core cj = d.core cj := rfl
@[simp] theorem Dev.setPart_load (d : Dev) (p : Nat) (x : Part) (ma mn : Nat) : (d.setPart p x).load ma mn = d.load ma mn := rfl
@[simp] theorem Dev.setPart_gran (d : Dev) (p : Nat) (x : Part) (gj : Nat) : (d.setPart p x).gran gj = d.gran gj := rfl

/-! #### setGran -/

@[simp] theorem Dev.setGran_pow (d : Dev) (g : Nat) (e : TierEntry) : (d.setGran g e).pow = d.pow := rfl
@[simp] theorem Dev.setGran_ltc (d : Dev) (g : Nat) (e : TierEntry) : (d.setGran g e).ltc = d.ltc := rfl
@[simp] theorem Dev.setGran_ltcOn (d : Dev) (g : Nat) (e : TierEntry) : (d.setGran g e).ltcOn = d.ltcOn := rfl
@[simp] theorem Dev.setGran_regs (d : Dev) (g : Nat) (e : TierEntry) : (d.setGran g e).regs = d.regs := rfl
@[simp] theorem Dev.setGran_mem (d : Dev) (g : Nat) (e : TierEntry) : (d.setGran g e).mem = d.mem := rfl
@[simp] theorem Dev.setGran_poison (d : Dev) (g : Nat) (e : TierEntry) : (d.setGran g e).poison = d.poison := rfl
@[simp] theorem Dev.setGran_cores (d : Dev) (g : Nat) (e : TierEntry) : (d.setGran g e).cores = d.cores := rfl
@[simp] theorem Dev.setGran_parts (d : Dev) (g : Nat) (e : TierEntry) : (d.setGran g e).parts = d.parts := rfl
@[simp] theorem Dev.setGran_geysers (d : Dev) (g : Nat) (e : TierEntry) : (d.setGran g e).geysers = d.geysers := rfl
@[simp] theorem Dev.setGran_flues (d : Dev) (g : Nat) (e : TierEntry) : (d.setGran g e).flues = d.flues := rfl
@[simp] theorem Dev.setGran_chans (d : Dev) (g : Nat) (e : TierEntry) : (d.setGran g e).chans = d.chans := rfl
@[simp] theorem Dev.setGran_fab (d : Dev) (g : Nat) (e : TierEntry) : (d.setGran g e).fab = d.fab := rfl
@[simp] theorem Dev.setGran_vex (d : Dev) (g : Nat) (e : TierEntry) : (d.setGran g e).vex = d.vex := rfl
@[simp] theorem Dev.setGran_fen (d : Dev) (g : Nat) (e : TierEntry) : (d.setGran g e).fen = d.fen := rfl
@[simp] theorem Dev.setGran_errs (d : Dev) (g : Nat) (e : TierEntry) : (d.setGran g e).errs = d.errs := rfl
@[simp] theorem Dev.setGran_out (d : Dev) (g : Nat) (e : TierEntry) : (d.setGran g e).out = d.out := rfl
@[simp] theorem Dev.setGran_fresh (d : Dev) (g : Nat) (e : TierEntry) : (d.setGran g e).fresh = d.fresh := rfl
@[simp] theorem Dev.setGran_rd (d : Dev) (g : Nat) (e : TierEntry) (rp ro : Nat) : (d.setGran g e).rd rp ro = d.rd rp ro := rfl
@[simp] theorem Dev.setGran_fld (d : Dev) (g : Nat) (e : TierEntry) (rp ro rh rl : Nat) : (d.setGran g e).fld rp ro rh rl = d.fld rp ro rh rl := rfl
@[simp] theorem Dev.setGran_bit (d : Dev) (g : Nat) (e : TierEntry) (rp ro rb : Nat) : (d.setGran g e).bit rp ro rb = d.bit rp ro rb := rfl
@[simp] theorem Dev.setGran_core (d : Dev) (g : Nat) (e : TierEntry) (cj : Nat) : (d.setGran g e).core cj = d.core cj := rfl
@[simp] theorem Dev.setGran_part (d : Dev) (g : Nat) (e : TierEntry) (pj : Nat) : (d.setGran g e).part pj = d.part pj := rfl
@[simp] theorem Dev.setGran_load (d : Dev) (g : Nat) (e : TierEntry) (ma mn : Nat) : (d.setGran g e).load ma mn = d.load ma mn := rfl

/-! #### setLv -/

@[simp] theorem Dev.setLv_pow (d : Dev) (k : Nat) (l : Live) : (d.setLv k l).pow = d.pow := rfl
@[simp] theorem Dev.setLv_ltc (d : Dev) (k : Nat) (l : Live) : (d.setLv k l).ltc = d.ltc := rfl
@[simp] theorem Dev.setLv_ltcOn (d : Dev) (k : Nat) (l : Live) : (d.setLv k l).ltcOn = d.ltcOn := rfl
@[simp] theorem Dev.setLv_regs (d : Dev) (k : Nat) (l : Live) : (d.setLv k l).regs = d.regs := rfl
@[simp] theorem Dev.setLv_mem (d : Dev) (k : Nat) (l : Live) : (d.setLv k l).mem = d.mem := rfl
@[simp] theorem Dev.setLv_poison (d : Dev) (k : Nat) (l : Live) : (d.setLv k l).poison = d.poison := rfl
@[simp] theorem Dev.setLv_tier (d : Dev) (k : Nat) (l : Live) : (d.setLv k l).tier = d.tier := rfl
@[simp] theorem Dev.setLv_parts (d : Dev) (k : Nat) (l : Live) : (d.setLv k l).parts = d.parts := rfl
@[simp] theorem Dev.setLv_geysers (d : Dev) (k : Nat) (l : Live) : (d.setLv k l).geysers = d.geysers := rfl
@[simp] theorem Dev.setLv_flues (d : Dev) (k : Nat) (l : Live) : (d.setLv k l).flues = d.flues := rfl
@[simp] theorem Dev.setLv_chans (d : Dev) (k : Nat) (l : Live) : (d.setLv k l).chans = d.chans := rfl
@[simp] theorem Dev.setLv_fab (d : Dev) (k : Nat) (l : Live) : (d.setLv k l).fab = d.fab := rfl
@[simp] theorem Dev.setLv_vex (d : Dev) (k : Nat) (l : Live) : (d.setLv k l).vex = d.vex := rfl
@[simp] theorem Dev.setLv_fen (d : Dev) (k : Nat) (l : Live) : (d.setLv k l).fen = d.fen := rfl
@[simp] theorem Dev.setLv_errs (d : Dev) (k : Nat) (l : Live) : (d.setLv k l).errs = d.errs := rfl
@[simp] theorem Dev.setLv_out (d : Dev) (k : Nat) (l : Live) : (d.setLv k l).out = d.out := rfl
@[simp] theorem Dev.setLv_fresh (d : Dev) (k : Nat) (l : Live) : (d.setLv k l).fresh = d.fresh := rfl
@[simp] theorem Dev.setLv_rd (d : Dev) (k : Nat) (l : Live) (rp ro : Nat) : (d.setLv k l).rd rp ro = d.rd rp ro := rfl
@[simp] theorem Dev.setLv_fld (d : Dev) (k : Nat) (l : Live) (rp ro rh rl : Nat) : (d.setLv k l).fld rp ro rh rl = d.fld rp ro rh rl := rfl
@[simp] theorem Dev.setLv_bit (d : Dev) (k : Nat) (l : Live) (rp ro rb : Nat) : (d.setLv k l).bit rp ro rb = d.bit rp ro rb := rfl
@[simp] theorem Dev.setLv_part (d : Dev) (k : Nat) (l : Live) (pj : Nat) : (d.setLv k l).part pj = d.part pj := rfl
@[simp] theorem Dev.setLv_load (d : Dev) (k : Nat) (l : Live) (ma mn : Nat) : (d.setLv k l).load ma mn = d.load ma mn := rfl
@[simp] theorem Dev.setLv_gran (d : Dev) (k : Nat) (l : Live) (gj : Nat) : (d.setLv k l).gran gj = d.gran gj := rfl

/-! #### onLv -/

@[simp] theorem Dev.onLv_pow (d : Dev) (k : Nat) (f : Live → Live) : (d.onLv k f).pow = d.pow := rfl
@[simp] theorem Dev.onLv_ltc (d : Dev) (k : Nat) (f : Live → Live) : (d.onLv k f).ltc = d.ltc := rfl
@[simp] theorem Dev.onLv_ltcOn (d : Dev) (k : Nat) (f : Live → Live) : (d.onLv k f).ltcOn = d.ltcOn := rfl
@[simp] theorem Dev.onLv_regs (d : Dev) (k : Nat) (f : Live → Live) : (d.onLv k f).regs = d.regs := rfl
@[simp] theorem Dev.onLv_mem (d : Dev) (k : Nat) (f : Live → Live) : (d.onLv k f).mem = d.mem := rfl
@[simp] theorem Dev.onLv_poison (d : Dev) (k : Nat) (f : Live → Live) : (d.onLv k f).poison = d.poison := rfl
@[simp] theorem Dev.onLv_tier (d : Dev) (k : Nat) (f : Live → Live) : (d.onLv k f).tier = d.tier := rfl
@[simp] theorem Dev.onLv_parts (d : Dev) (k : Nat) (f : Live → Live) : (d.onLv k f).parts = d.parts := rfl
@[simp] theorem Dev.onLv_geysers (d : Dev) (k : Nat) (f : Live → Live) : (d.onLv k f).geysers = d.geysers := rfl
@[simp] theorem Dev.onLv_flues (d : Dev) (k : Nat) (f : Live → Live) : (d.onLv k f).flues = d.flues := rfl
@[simp] theorem Dev.onLv_chans (d : Dev) (k : Nat) (f : Live → Live) : (d.onLv k f).chans = d.chans := rfl
@[simp] theorem Dev.onLv_fab (d : Dev) (k : Nat) (f : Live → Live) : (d.onLv k f).fab = d.fab := rfl
@[simp] theorem Dev.onLv_vex (d : Dev) (k : Nat) (f : Live → Live) : (d.onLv k f).vex = d.vex := rfl
@[simp] theorem Dev.onLv_fen (d : Dev) (k : Nat) (f : Live → Live) : (d.onLv k f).fen = d.fen := rfl
@[simp] theorem Dev.onLv_errs (d : Dev) (k : Nat) (f : Live → Live) : (d.onLv k f).errs = d.errs := rfl
@[simp] theorem Dev.onLv_out (d : Dev) (k : Nat) (f : Live → Live) : (d.onLv k f).out = d.out := rfl
@[simp] theorem Dev.onLv_fresh (d : Dev) (k : Nat) (f : Live → Live) : (d.onLv k f).fresh = d.fresh := rfl
@[simp] theorem Dev.onLv_rd (d : Dev) (k : Nat) (f : Live → Live) (rp ro : Nat) : (d.onLv k f).rd rp ro = d.rd rp ro := rfl
@[simp] theorem Dev.onLv_fld (d : Dev) (k : Nat) (f : Live → Live) (rp ro rh rl : Nat) : (d.onLv k f).fld rp ro rh rl = d.fld rp ro rh rl := rfl
@[simp] theorem Dev.onLv_bit (d : Dev) (k : Nat) (f : Live → Live) (rp ro rb : Nat) : (d.onLv k f).bit rp ro rb = d.bit rp ro rb := rfl
@[simp] theorem Dev.onLv_part (d : Dev) (k : Nat) (f : Live → Live) (pj : Nat) : (d.onLv k f).part pj = d.part pj := rfl
@[simp] theorem Dev.onLv_load (d : Dev) (k : Nat) (f : Live → Live) (ma mn : Nat) : (d.onLv k f).load ma mn = d.load ma mn := rfl
@[simp] theorem Dev.onLv_gran (d : Dev) (k : Nat) (f : Live → Live) (gj : Nat) : (d.onLv k f).gran gj = d.gran gj := rfl

/-! #### storeRaw -/

@[simp] theorem Dev.storeRaw_pow (d : Dev) (a : Nat) (bs : List Byte) : (d.storeRaw a bs).pow = d.pow := rfl
@[simp] theorem Dev.storeRaw_ltc (d : Dev) (a : Nat) (bs : List Byte) : (d.storeRaw a bs).ltc = d.ltc := rfl
@[simp] theorem Dev.storeRaw_ltcOn (d : Dev) (a : Nat) (bs : List Byte) : (d.storeRaw a bs).ltcOn = d.ltcOn := rfl
@[simp] theorem Dev.storeRaw_regs (d : Dev) (a : Nat) (bs : List Byte) : (d.storeRaw a bs).regs = d.regs := rfl
@[simp] theorem Dev.storeRaw_tier (d : Dev) (a : Nat) (bs : List Byte) : (d.storeRaw a bs).tier = d.tier := rfl
@[simp] theorem Dev.storeRaw_cores (d : Dev) (a : Nat) (bs : List Byte) : (d.storeRaw a bs).cores = d.cores := rfl
@[simp] theorem Dev.storeRaw_parts (d : Dev) (a : Nat) (bs : List Byte) : (d.storeRaw a bs).parts = d.parts := rfl
@[simp] theorem Dev.storeRaw_geysers (d : Dev) (a : Nat) (bs : List Byte) : (d.storeRaw a bs).geysers = d.geysers := rfl
@[simp] theorem Dev.storeRaw_flues (d : Dev) (a : Nat) (bs : List Byte) : (d.storeRaw a bs).flues = d.flues := rfl
@[simp] theorem Dev.storeRaw_chans (d : Dev) (a : Nat) (bs : List Byte) : (d.storeRaw a bs).chans = d.chans := rfl
@[simp] theorem Dev.storeRaw_fab (d : Dev) (a : Nat) (bs : List Byte) : (d.storeRaw a bs).fab = d.fab := rfl
@[simp] theorem Dev.storeRaw_vex (d : Dev) (a : Nat) (bs : List Byte) : (d.storeRaw a bs).vex = d.vex := rfl
@[simp] theorem Dev.storeRaw_fen (d : Dev) (a : Nat) (bs : List Byte) : (d.storeRaw a bs).fen = d.fen := rfl
@[simp] theorem Dev.storeRaw_errs (d : Dev) (a : Nat) (bs : List Byte) : (d.storeRaw a bs).errs = d.errs := rfl
@[simp] theorem Dev.storeRaw_out (d : Dev) (a : Nat) (bs : List Byte) : (d.storeRaw a bs).out = d.out := rfl
@[simp] theorem Dev.storeRaw_fresh (d : Dev) (a : Nat) (bs : List Byte) : (d.storeRaw a bs).fresh = d.fresh := rfl
@[simp] theorem Dev.storeRaw_rd (d : Dev) (a : Nat) (bs : List Byte) (rp ro : Nat) : (d.storeRaw a bs).rd rp ro = d.rd rp ro := rfl
@[simp] theorem Dev.storeRaw_fld (d : Dev) (a : Nat) (bs : List Byte) (rp ro rh rl : Nat) : (d.storeRaw a bs).fld rp ro rh rl = d.fld rp ro rh rl := rfl
@[simp] theorem Dev.storeRaw_bit (d : Dev) (a : Nat) (bs : List Byte) (rp ro rb : Nat) : (d.storeRaw a bs).bit rp ro rb = d.bit rp ro rb := rfl
@[simp] theorem Dev.storeRaw_core (d : Dev) (a : Nat) (bs : List Byte) (cj : Nat) : (d.storeRaw a bs).core cj = d.core cj := rfl
@[simp] theorem Dev.storeRaw_part (d : Dev) (a : Nat) (bs : List Byte) (pj : Nat) : (d.storeRaw a bs).part pj = d.part pj := rfl
@[simp] theorem Dev.storeRaw_gran (d : Dev) (a : Nat) (bs : List Byte) (gj : Nat) : (d.storeRaw a bs).gran gj = d.gran gj := rfl

/-! #### What is read back -/

theorem Dev.rd_lt (d : Dev) (page off : Nat) : d.rd page off < 2 ^ 64 := (Tab.get regReset d.regs (regKey page off)).isLt

theorem Dev.rd_wr (d : Dev) (page off v pg o : Nat) :
    (d.wr page off v).rd pg o = if regKey pg o = regKey page off then v % 2 ^ 64 else d.rd pg o := by
  simp only [Dev.rd, Dev.wr, Tab.get_set]
  split <;> simp

@[simp] theorem Dev.rd_wr_same (d : Dev) (page off v : Nat) : (d.wr page off v).rd page off = v % 2 ^ 64 := by
  simp [Dev.rd_wr]

/-- A write of one register leaves every other register. -/
theorem Dev.rd_wr_other (d : Dev) (page off v pg o : Nat) (h : regKey pg o ≠ regKey page off) :
    (d.wr page off v).rd pg o = d.rd pg o := by simp [Dev.rd_wr, h]

theorem Dev.fld_wr_other (d : Dev) (page off v pg o hi lo : Nat) (h : regKey pg o ≠ regKey page off) :
    (d.wr page off v).fld pg o hi lo = d.fld pg o hi lo := by simp [Dev.fld, Dev.rd_wr_other, h]

theorem Dev.bit_wr_other (d : Dev) (page off v pg o b : Nat) (h : regKey pg o ≠ regKey page off) :
    (d.wr page off v).bit pg o b = d.bit pg o b := by simp [Dev.bit, Dev.fld_wr_other, h]

theorem Dev.rd_setFld_same (d : Dev) (page off hi lo n : Nat) (h : lo ≤ hi) (h64 : hi < 64) :
    (d.setFld page off hi lo n).rd page off = putBits (d.rd page off) hi lo n := by
  simp only [Dev.setFld, Dev.rd_wr_same]
  exact Nat.mod_eq_of_lt (putBits_lt _ _ _ _ _ h h64 (d.rd_lt page off))

theorem Dev.fld_setFld_same (d : Dev) (page off hi lo n : Nat) (h : lo ≤ hi) (h64 : hi < 64) :
    (d.setFld page off hi lo n).fld page off hi lo = n % 2 ^ (hi + 1 - lo) := by
  simp only [Dev.fld, Dev.rd_setFld_same _ _ _ _ _ _ h h64, bits_putBits_same _ _ _ _ h]

/-- Another field of the same register stays. -/
theorem Dev.fld_setFld_field (d : Dev) (page off hi lo n hi' lo' : Nat) (h : lo ≤ hi) (h64 : hi < 64)
    (ho : hi < lo' ∨ hi' < lo) : (d.setFld page off hi lo n).fld page off hi' lo' = d.fld page off hi' lo' := by
  simp only [Dev.fld, Dev.rd_setFld_same _ _ _ _ _ _ h h64, bits_putBits_other _ _ _ _ _ _ h ho]

theorem Dev.rd_setFld_other (d : Dev) (page off hi lo n pg o : Nat) (h : regKey pg o ≠ regKey page off) :
    (d.setFld page off hi lo n).rd pg o = d.rd pg o := Dev.rd_wr_other _ _ _ _ _ _ h

theorem Dev.fld_setFld_other (d : Dev) (page off hi lo n pg o hi' lo' : Nat) (h : regKey pg o ≠ regKey page off) :
    (d.setFld page off hi lo n).fld pg o hi' lo' = d.fld pg o hi' lo' := Dev.fld_wr_other _ _ _ _ _ _ _ _ h

theorem Dev.bit_setFld_other (d : Dev) (page off hi lo n pg o b : Nat) (h : regKey pg o ≠ regKey page off) :
    (d.setFld page off hi lo n).bit pg o b = d.bit pg o b := Dev.bit_wr_other _ _ _ _ _ _ _ h

theorem Dev.bit_setFld_field (d : Dev) (page off hi lo n b : Nat) (h : lo ≤ hi) (h64 : hi < 64) (ho : hi < b ∨ b < lo) :
    (d.setFld page off hi lo n).bit page off b = d.bit page off b := by
  simp [Dev.bit, Dev.fld_setFld_field _ _ _ _ _ _ _ _ h h64 ho]

theorem Dev.bit_setBit_same (d : Dev) (page off b : Nat) (v : Bool) (h : b < 64) :
    (d.setBit page off b v).bit page off b = v := by
  simp only [Dev.setBit, Dev.bit, Dev.fld_setFld_same _ _ _ _ _ _ (Nat.le_refl b) h]
  cases v <;> simp [b2n]

theorem Dev.bit_setBit_other (d : Dev) (page off b : Nat) (v : Bool) (pg o c : Nat) (h : regKey pg o ≠ regKey page off) :
    (d.setBit page off b v).bit pg o c = d.bit pg o c := Dev.bit_setFld_other _ _ _ _ _ _ _ _ _ h

theorem Dev.bit_setBit_bit (d : Dev) (page off b c : Nat) (v : Bool) (h : b < 64) (hc : c ≠ b) :
    (d.setBit page off b v).bit page off c = d.bit page off c :=
  Dev.bit_setFld_field _ _ _ _ _ _ _ (Nat.le_refl b) h (by omega)

theorem Dev.fld_setBit_other (d : Dev) (page off b : Nat) (v : Bool) (pg o hi lo : Nat) (h : regKey pg o ≠ regKey page off) :
    (d.setBit page off b v).fld pg o hi lo = d.fld pg o hi lo := Dev.fld_setFld_other _ _ _ _ _ _ _ _ _ _ h

theorem Dev.fld_setBit_field (d : Dev) (page off b hi lo : Nat) (v : Bool) (h : b < 64) (ho : b < lo ∨ hi < b) :
    (d.setBit page off b v).fld page off hi lo = d.fld page off hi lo :=
  Dev.fld_setFld_field _ _ _ _ _ _ _ _ (Nat.le_refl b) h ho

/-- Registers of different pages, or of different offsets of one page, are different words of register space. -/
theorem regKey_ne {page off pg o : Nat} (ho : o < 0x10000) (hoff : off < 0x10000) (h : pg ≠ page ∨ o ≠ off) :
    regKey pg o ≠ regKey page off := by simp only [regKey]; omega

@[simp] theorem Dev.core_setCore_same (d : Dev) (k : Nat) (c : Core) : (d.setCore k c).core k = c := by
  simp [Dev.core, Dev.setCore]

theorem Dev.core_setCore_other (d : Dev) (k j : Nat) (c : Core) (h : j ≠ k) : (d.setCore k c).core j = d.core j := by
  simp [Dev.core, Dev.setCore, Tab.get_set_other _ _ _ h]

@[simp] theorem Dev.setCore_setCore (d : Dev) (k : Nat) (c e : Core) : (d.setCore k c).setCore k e = d.setCore k e := by
  simp [Dev.setCore]

@[simp] theorem Dev.setPart_setPart (d : Dev) (p : Nat) (x y : Part) : (d.setPart p x).setPart p y = d.setPart p y := by
  simp [Dev.setPart]

@[simp] theorem Dev.part_setPart_same (d : Dev) (p : Nat) (x : Part) : (d.setPart p x).part p = x := by
  simp [Dev.part, Dev.setPart]

theorem Dev.part_setPart_other (d : Dev) (p q : Nat) (x : Part) (h : q ≠ p) : (d.setPart p x).part q = d.part q := by
  simp [Dev.part, Dev.setPart, Tab.get_set_other _ _ _ h]

@[simp] theorem Dev.gran_setGran_same (d : Dev) (g : Nat) (e : TierEntry) : (d.setGran g e).gran g = e := by
  simp [Dev.gran, Dev.setGran]

theorem Dev.gran_setGran_other (d : Dev) (g h : Nat) (e : TierEntry) (n : h ≠ g) : (d.setGran g e).gran h = d.gran h := by
  simp [Dev.gran, Dev.setGran, Tab.get_set_other _ _ _ n]

@[simp] theorem Dev.lv_setLv (d : Dev) (k : Nat) (l : Live) : (d.setLv k l).lv k = l := by simp [Dev.lv, Dev.setLv]

@[simp] theorem Dev.lv_onLv (d : Dev) (k : Nat) (f : Live → Live) : (d.onLv k f).lv k = f (d.lv k) := by simp [Dev.onLv]

theorem Dev.core_onLv_other (d : Dev) (k j : Nat) (f : Live → Live) (h : j ≠ k) : (d.onLv k f).core j = d.core j :=
  Dev.core_setCore_other _ _ _ _ h

/-! #### Scalar registers -/

@[simp] theorem Live.s_zero (l : Live) : l.s 0 = 0 := rfl
@[simp] theorem Live.setS_zero (l : Live) (v : Word) : l.setS 0 v = l := rfl

theorem Live.s_setS_same (l : Live) (r : Nat) (v : Word) (h : r ≠ 0) : (l.setS r v).s r = v := by
  simp [Live.s, Live.setS, h]

theorem Live.s_setS_other (l : Live) (r q : Nat) (v : Word) (h : q ≠ r) : (l.setS r v).s q = l.s q := by
  by_cases hr : r = 0
  · simp [Live.setS, hr]
  · simp [Live.s, Live.setS, hr, Tab.get_set_other _ _ _ h]

theorem Live.setS_pc (l : Live) (r : Nat) (v : Word) : (l.setS r v).pc = l.pc := by
  simp only [Live.setS]; split <;> rfl

end Sys2Proof.Machine
end

