-- ==== Sys2Proof/Laws/Issue.lean ====
section
/-! SUPPORT. What issuing an instruction can do: it takes effect, or the core does one of the other things of Dev.issueIns. -/

namespace Sys2Proof.Machine

/-- An instruction that issues and is clear to go takes its effect, after the instruction address has moved on. -/
theorem Dev.issue_clear {d : Dev} {k op : Nat} {w : BitVec 128} (needs : Dev → Ins → Needs) (eff : Ins → Dev → Dev)
    (hi : d.issues k op w = true) (hc : d.clear k w (needs d (Ins.of w)) = true) :
    d.issue k op w needs eff = eff (Ins.of w) (d.advance k (needs d (Ins.of w))) := by
  simp only [Dev.issues, Bool.and_eq_true, decide_eq_true_eq, beq_iff_eq] at hi
  obtain ⟨⟨⟨h1, h2⟩, h3⟩, h4⟩ := hi
  simp only [Dev.clear, Bool.and_eq_true, Bool.not_eq_true', beq_iff_eq] at hc
  obtain ⟨⟨⟨⟨⟨c1, c2⟩, c3⟩, c4⟩, c5⟩, c6⟩ := hc
  simp only [Dev.issue, h3, h1, h2, h4, Bool.not_true, Bool.false_eq_true, if_false, bne_self_eq_false]
  simp only [Dev.issueIns, Dev.issueGo, c1, c2, c3, c4, c5, c6, Bool.false_eq_true, if_false, bne_self_eq_false, Bool.not_true]

/-- A core that may not issue, or whose next word is another, does nothing. -/
theorem Dev.issue_other {d : Dev} {k op : Nat} {w x : BitVec 128} (needs : Dev → Ins → Needs) (eff : Ins → Dev → Dev)
    (h : d.canIssue k (Ins.of w).op = false ∨ d.fetch k = .wait ∨ (d.fetch k = .word x ∧ x ≠ w)) :
    d.issue k op w needs eff = d := by
  rcases h with h | h | ⟨h, hx⟩
  · simp [Dev.issue, h]
  · simp [Dev.issue, h]
  · simp [Dev.issue, h, hx]

/-- Moving on changes the core alone. -/
@[simp] theorem Dev.advance_mem (d : Dev) (k : Nat) (n : Needs) : (d.advance k n).mem = d.mem := rfl
@[simp] theorem Dev.advance_regs (d : Dev) (k : Nat) (n : Needs) : (d.advance k n).regs = d.regs := rfl
@[simp] theorem Dev.advance_poison (d : Dev) (k : Nat) (n : Needs) : (d.advance k n).poison = d.poison := rfl
@[simp] theorem Dev.advance_parts (d : Dev) (k : Nat) (n : Needs) : (d.advance k n).parts = d.parts := rfl
@[simp] theorem Dev.advance_ltc (d : Dev) (k : Nat) (n : Needs) : (d.advance k n).ltc = d.ltc := rfl

theorem Dev.lv_advance (d : Dev) (k : Nat) (n : Needs) :
    (d.advance k n).lv k = { d.lv k with pc := ((d.lv k).pc + 16) % 2 ^ 48 } := by
  simp [Dev.advance, Dev.lv]

/-- The effect of an instruction on its own registers, put together with the move of the instruction address. -/
theorem Dev.onLv_advance (d : Dev) (k : Nat) (n : Needs) (f : Live → Live) :
    (d.advance k n).onLv k f = d.setCore k
      { d.core k with begun := false, tileOpen := some ((d.core k).tileOpen.getD d.now), carry := (d.core k).carry || (d.core k).carries n,
                      live := f { (d.core k).live with pc := ((d.core k).live.pc + 16) % 2 ^ 48 } } := by
  simp [Dev.onLv, Dev.setLv, Dev.lv, Dev.advance]

theorem Dev.core_advance_other (d : Dev) (k j : Nat) (n : Needs) (h : j ≠ k) : (d.advance k n).core j = d.core j :=
  Dev.core_setCore_other _ _ _ _ h

end Sys2Proof.Machine
end

