-- ==== Sys2Proof/Laws/Lanes.lean ====
section
/-! SUPPORT. Laws of vector registers: what a lane reads after a register is written. -/

namespace Sys2Proof.Machine

variable {α : Type}

/-- A key after a row of keys was set: the row's element, or what was there. -/
theorem Tab.get_setRow [DecidableEq α] (f : Nat → α) (t : Tab α) (lo : Nat) (row : List α) (x : Nat) :
    Tab.get f (Tab.setRow f t lo row) x
      = if h : lo ≤ x ∧ x - lo < row.length then row[x - lo]'h.2 else Tab.get f t x := by
  induction row generalizing t lo with
  | nil => simp [Tab.setRow]
  | cons v vs ih =>
    simp only [Tab.setRow, ih, Tab.get_set, List.length_cons]
    by_cases hx : x = lo
    · subst hx
      have : ¬ (x + 1 ≤ x ∧ x - (x + 1) < vs.length) := by omega
      simp
    · by_cases hr : lo + 1 ≤ x ∧ x - (lo + 1) < vs.length
      · have h2 : lo ≤ x ∧ x - lo < vs.length + 1 := by omega
        rw [dif_pos hr, dif_pos h2]
        have e : x - lo = (x - (lo + 1)) + 1 := by omega
        simp [e]
      · have h2 : ¬ (lo ≤ x ∧ x - lo < vs.length + 1) := by omega
        rw [dif_neg hr, dif_neg h2, if_neg hx]

theorem Live.lane_setV_same (l : Live) (r j : Nat) (row : List Lane) (hj : j < 128) (h : j < row.length) :
    (l.setV r row).lane r j = row[j] := by
  simp only [Live.lane, Live.setV, Tab.get_setRow]
  rw [dif_pos ⟨by omega, by simp; omega⟩]
  simp

theorem Live.lane_setV_other (l : Live) (r q j : Nat) (row : List Lane) (hj : j < 128) (h : q ≠ r) :
    (l.setV r row).lane q j = l.lane q j := by
  simp only [Live.lane, Live.setV, Tab.get_setRow]
  rw [dif_neg]
  simp only [List.length_take]
  omega

theorem eachF_fst {β : Type} (l : List α) (f : α → β × NFlags) : (eachF l f).1 = l.map fun a => (f a).1 := by
  induction l with
  | nil => rfl
  | cons a t ih => simpa [eachF] using ih

theorem Live.lane_lanes_same (l : Live) (r j : Nat) (f : Nat → Lane × NFlags) (hj : j < 128) :
    (l.lanes r f).lane r j = (f j).1 := by
  have h : j < (eachF (List.range 128) f).1.length := by simp [eachF_fst, hj]
  have e := Live.lane_setV_same l r j (eachF (List.range 128) f).1 hj h
  have g : (eachF (List.range 128) f).1[j] = (f j).1 := by simp [eachF_fst]
  rw [g] at e
  simpa [Live.lanes, Live.lane, Live.flag] using e

theorem Live.lane_lanes_other (l : Live) (r q j : Nat) (f : Nat → Lane × NFlags) (hj : j < 128) (h : q ≠ r) :
    (l.lanes r f).lane q j = l.lane q j := by
  have e := Live.lane_setV_other l r q j (eachF (List.range 128) f).1 hj h
  simpa [Live.lanes, Live.lane, Live.flag] using e

end Sys2Proof.Machine
end

