-- ==== Sys2Proof/Laws/Mem.lean ====
section
/-! SUPPORT. Laws of memory: reading back what was written, what a write leaves, and that every operation on memory keeps
its canonical form. -/

namespace Sys2Proof.Machine

/-- A byte after bytes were stored: the byte stored there, or what was there. -/
theorem memStore_get (m : Tab Byte) (a : Nat) (bs : List Byte) (x : Nat) :
    Tab.get (fun _ => 0) (memStore m a bs) x
      = if h : a ≤ x ∧ x - a < bs.length then bs[x - a]'h.2 else Tab.get (fun _ => 0) m x := by
  induction bs generalizing m a with
  | nil => simp [memStore]
  | cons b bs ih =>
    simp only [memStore, ih, Tab.get_set, List.length_cons]
    by_cases hx : x = a
    · subst hx
      have : ¬ (x + 1 ≤ x ∧ x - (x + 1) < bs.length) := by omega
      simp
    · by_cases hr : a + 1 ≤ x ∧ x - (a + 1) < bs.length
      · have h2 : a ≤ x ∧ x - a < bs.length + 1 := by omega
        rw [dif_pos hr, dif_pos h2]
        have e : x - a = (x - (a + 1)) + 1 := by omega
        simp [e]
      · have h2 : ¬ (a ≤ x ∧ x - a < bs.length + 1) := by omega
        rw [dif_neg hr, dif_neg h2, if_neg hx]

/-- A store leaves every byte outside the bytes stored. -/
theorem memStore_get_other (m : Tab Byte) (a : Nat) (bs : List Byte) (x : Nat) (h : x < a ∨ a + bs.length ≤ x) :
    Tab.get (fun _ => 0) (memStore m a bs) x = Tab.get (fun _ => 0) m x := by
  rw [memStore_get, dif_neg (by omega)]

theorem memLoad_length (m : Tab Byte) (a n : Nat) : (memLoad m a n).length = n := by
  induction n generalizing a with
  | zero => rfl
  | succ n ih => simp [memLoad, ih]

theorem memLoad_getElem (m : Tab Byte) (a n i : Nat) (h : i < (memLoad m a n).length) :
    (memLoad m a n)[i] = Tab.get (fun _ => 0) m (a + i) := by
  induction n generalizing a i with
  | zero => simp [memLoad] at h
  | succ n ih =>
    cases i with
    | zero => simp [memLoad]
    | succ i =>
      have := ih (a + 1) i (by simpa [memLoad] using h)
      simpa [memLoad, Nat.add_assoc, Nat.add_comm 1] using this

/-- A load of what was just stored gives it back. -/
theorem memLoad_memStore_same (m : Tab Byte) (a : Nat) (bs : List Byte) : memLoad (memStore m a bs) a bs.length = bs := by
  apply List.ext_getElem (memLoad_length _ _ _)
  intro i h1 h2
  rw [memLoad_getElem, memStore_get, dif_pos (by omega)]
  congr 1
  omega

/-- A store keeps the canonical form. -/
theorem memStore_wf {m : Tab Byte} (a : Nat) (bs : List Byte) (h : Tab.wf (fun _ => 0) m = true) :
    Tab.wf (fun _ => 0) (memStore m a bs) = true := by
  induction bs generalizing m a with
  | nil => simpa [memStore] using h
  | cons b bs ih => exact ih _ (Tab.wf_set _ _ h)

theorem Dev.load_storeRaw_same (d : Dev) (a : Nat) (bs : List Byte) : (d.storeRaw a bs).load a bs.length = bs :=
  memLoad_memStore_same _ _ _

/-- Bytes in little-endian order give the number back (R5). -/
theorem leNat_natLe (n v : Nat) : leNat (natLe n v) = v % 256 ^ n := by
  induction n generalizing v with
  | zero => simp [natLe, leNat, Nat.mod_one]
  | succ n ih =>
    simp only [natLe, leNat, ih, BitVec.toNat_ofNat]
    show v % 256 + 256 * (v / 256 % 256 ^ n) = v % 256 ^ (n + 1)
    rw [Nat.pow_succ', Nat.mod_mul]

/-- A number stored little-endian and loaded again is the number, to its width (R5). -/
theorem Dev.loadNat_storeRaw (d : Dev) (a n v : Nat) : (d.storeRaw a (natLe n v)).loadNat a n = v % 256 ^ n := by
  have := Dev.load_storeRaw_same d a (natLe n v)
  rw [natLe_length] at this
  rw [Dev.loadNat, this, leNat_natLe]

end Sys2Proof.Machine
end

