-- ==== Sys2Proof/Laws/Regs.lean ====
section
/-! SUPPORT. What a register access can do (R399, R443, R445, R448), and the claim, log and count operations. -/

namespace Sys2Proof.Machine

/-- A write that reaches its register takes its effect and completes normally. -/
theorem Dev.regWrite_writable {d : Dev} {a : Access} {page off : Nat} {action : Bool} (eff : Dev → Dev)
    (h : d.writable a page off action = true) : d.regWrite a page off action eff = (eff d).emit (.readback 0 false) := by
  simp only [Dev.writable, Bool.and_eq_true, Bool.or_eq_true, Bool.not_eq_true', beq_iff_eq] at h
  obtain ⟨⟨⟨⟨h1, h0⟩, h2⟩, h3⟩, h4⟩ := h
  rcases h4 with h4 | h4 <;> simp [Dev.regWrite, h1, h0, h2, h3, h4]

/-- A write of the wrong world changes nothing but the page's error log (R399). -/
theorem Dev.regWrite_world {d : Dev} {a : Access} {page off : Nat} {action : Bool} (eff : Dev → Dev)
    (hr : d.reachable page = true) (ha : d.arrives a = true) (hw : d.worldOk a page = false) :
    d.regWrite a page off action eff = d.badAccess a page page off 0x01 := by
  simp [Dev.regWrite, hr, ha, hw]

theorem Dev.regReadOf_world {d : Dev} {a : Access} {page off : Nat} {r : Reg} {v : Nat} (eff : Dev → Dev)
    (hr : d.reachable page = true) (ha : d.arrives a = true) (hw : d.worldOk a page = false) :
    d.regReadOf a page off r v eff = d.badAccess a page page off 0x01 := by
  simp [Dev.regReadOf, hr, ha, hw]

/-- A read that reaches its register returns the value and clears the RC fields within the access (R8). -/
theorem Dev.regReadOf_ok {d : Dev} {a : Access} {page off : Nat} {r : Reg} {v : Nat} (eff : Dev → Dev)
    (h : d.writable a page off false = true) :
    d.regReadOf a page off r v eff = (eff (d.wr page off (r.afterRead (d.rd page off) a.width))).emit
      (.readback (BitVec.ofNat 64 (a.width.view v)) false) := by
  simp only [Dev.writable, Bool.and_eq_true, Bool.or_eq_true, Bool.not_eq_true'] at h
  obtain ⟨⟨⟨⟨h1, h0⟩, h2⟩, h3⟩, _⟩ := h
  simp [Dev.regReadOf, h1, h0, h2, h3]

/-- An event whose condition holds takes its effect. -/
theorem Dev.when_true {d : Dev} {c : Bool} (f : Dev → Dev) (hl : d.live = true) (hc : c = true) : d.when c f = f d := by
  simp [Dev.when, hl, hc]

theorem Dev.when_false {d : Dev} {c : Bool} (f : Dev → Dev) (h : d.live = false ∨ c = false) : d.when c f = d := by
  rcases h with h | h <;> simp [Dev.when, h]

end Sys2Proof.Machine
end

