-- ==== Sys2Proof/WellFormed.lean ====
section
/-! DEFINITION. The commands that the outside can form: numbers that are plain naturals lie in the ranges the spec gives
them, and byte lists have the lengths of what they stand for. -/

namespace Sys2Proof

/-- A register page number: 16 bits (R442). -/
def pageForm (page : Nat) : Bool := page < 0x10000

/-- An offset within a page: 16 bits, a multiple of 8 (R442, R445). -/
def offForm (off : Nat) : Bool := off < 0x10000 && off % 8 == 0

/-- A payload of at most n bytes. -/
def atMost (n : Nat) (l : List Byte) : Bool := l.length ≤ n

/-- A device address and a length whose last byte lies below 2^48 (R440). -/
def spanForm (a n : Nat) : Bool := 0 < n && a + n ≤ 2 ^ 48

/-- The bytes that a mirrored entry carries for one slab (R263, R279). -/
def MirrorEntry.form (m : MirrorEntry) : Bool :=
  m.srcDev < 2 ^ 14 && m.srcPart < 64 && atMost 65536 m.b && atMost 65536 m.r && atMost 65536 m.m

/-- Fields of a packet header within their widths (R322). -/
def Packet.form (p : Packet) : Bool :=
  p.dst < 2 ^ 14 && p.src < 2 ^ 14 && p.vc < 5 && p.cls < 2 && p.type < 16 && p.ver < 4 && p.fseq < 2 ^ 32
    && p.group < 1024 && p.part < 64 && p.digest < 2 ^ 16 && p.cseq < 2 ^ 32 && p.place < 2 ^ 64 && p.arg < 2 ^ 32
    && atMost 2048 p.payload

/-- A segment is of at most 64 KiB, and its numbers lie within their fields (R322, R336). -/
def Segment.form (s : Segment) : Bool :=
  s.cseq < 2 ^ 32 && s.digest < 2 ^ 16 && s.src < 2 ^ 14 && s.block < 2 ^ 14 && s.seg < 2 ^ 24 && atMost 65536 s.data

/-- A request of the companion at companion addresses of 64 bits (R341, R342). -/
def CompanionReq.form : CompanionReq → Bool
  | .read a n => 0 < n && a + n ≤ 2 ^ 64
  | .write a bs _ => 0 < bs.length && a + bs.length ≤ 2 ^ 64
  | .share line => line < 2 ^ 58
  | .own line => line < 2 ^ 58
  | .writeBack line bs _ => line < 2 ^ 58 && bs.length == 64
  | .recall line => line < 2 ^ 58

/-- An answer of the companion (R346, R347). -/
def CompanionResp.form : CompanionResp → Bool
  | .writeAck _ => true
  | .readData a bs _ => spanForm a bs.length
  | .snoop line bs _ => line < 2 ^ 42 && (match bs with | some l => l.length == 64 | none => true)

/-- Bytes of a chunk: at most 64 tiles (R292). -/
def ChunkResult.form : ChunkResult → Bool
  | .arrived data => atMost 0x400000 data
  | .error data => atMost 0x400000 data

/-- Is the command one that the outside can form? -/
def Instr.wf : Instr → Bool
  | .temperatureRead temps _ => temps.length == 40
  | .refetchTileDone _ _ chunk => chunk.all ChunkResult.form
  | .stagingReadDone _ tile => tile < 49152 * 1024
  | .stoveWindowWrite _ _ _ data _ => 0 < data.length && atMost 65536 data
  | .pull _ _ _ slabs => slabs.all MirrorEntry.form
  | .mirrorReceive _ m => m.form
  | .mirrorAckReceive _ entry _ => entry < 65536
  | .chunkAttemptEnd _ chunk r => chunk < 2 ^ 20 && r.form
  | .chunkAttemptTimeout _ chunk => chunk.number < 2 ^ 20 && atMost 0x400000 chunk.data
  | .packetReceive _ pkt _ => pkt.form
  | .segmentArrival seg => seg.form
  | .companionRequest _ r => r.form
  | .companionResponse r => r.form
  | .dmaCrcFeedWrite _ _ nbytes _ => nbytes == 1 || nbytes == 2 || nbytes == 4 || nbytes == 8
  | .switchRestoreDone _ bad => bad.all (· < 512)
  | .spdmRequest _ msg => atMost 4096 msg
  | .attResponseReady packet => atMost 4096 packet
  | .serviceLevelRise r => r.hbmOk.length == 8 && r.corePass.length == 8
  | .blkCtlReset _ page _ => pageForm page
  | .blockResetDone page => pageForm page
  | .intSetWrite _ page _ => pageForm page
  | .intEnWrite _ page _ => pageForm page
  | .softwareClaim _ page off _ => pageForm page && offForm off
  | .softwareRelease _ page off _ => pageForm page && offForm off
  | .worldWrite _ page _ => pageForm page
  | .reservedRegisterAccess _ page off => pageForm page && offForm off
  | .badWidthAccess _ page off n _ => pageForm page && off < 0x10000 && !(n == 8 && off % 8 == 0) && !(n == 4 && off % 4 == 0)
  | .registerWrite _ page off _ => pageForm page && offForm off
  | _ => true

end Sys2Proof
end

