-- ==== Sys2Proof/Tests/Slice0.lean ====
section
/-! SUPPORT. The author's own tests: ill-formed commands that are refused, a state and operands for the hypotheses of each
statement of the obligations file, and a few worked examples. -/

open Sys2Proof Sys2Proof.Machine Sys2Proof.Safety
namespace Sys2Proof.Tests

set_option Elab.async false

/-! ### Small states -/

/-- A Secure 64-bit access of management firmware, and a 32-bit one of the low half. -/
def full : Access := ⟨.mgmt, true, .full⟩
def low : Access := ⟨.mgmt, true, .low⟩

/-- Registers written over a device: page, offset, value. -/
def regsOn (d : Dev) (l : List (Nat × Nat × Nat)) : Dev := l.foldl (fun d x => d.wr x.1 x.2.1 x.2.2) d

/-- No command waits. -/
def st (d : Dev) : State := ⟨[], d⟩

/-- The reset device with registers written. -/
def dr (l : List (Nat × Nat × Nat)) : Dev := regsOn Dev.reset l

/-- Memory that holds these bytes from an address on. -/
def memOn (d : Dev) (a : Nat) (bs : List Byte) : Dev := { d with mem := memStore d.mem a bs }

def aTask : Task :=
  { desc := ⟨0, false, 0, 0, 0, List.replicate 6 0⟩, queue := 0, source := none, adm := {}, saved := none, waits := [] }

/-- An instruction word from its fields (R121): op d a b c fa fb sub mod imm. -/
def word (op d a b c fa fb sub md imm : Nat) : BitVec 128 :=
  BitVec.ofNat 128 (op + d * 2 ^ 8 + a * 2 ^ 14 + b * 2 ^ 20 + c * 2 ^ 26 + fa * 2 ^ 32 + fb * 2 ^ 36 + sub * 2 ^ 40
    + md * 2 ^ 44 + imm * 2 ^ 64)

/-- A core that runs a task, its buffer holding the line at 0 with the word w first. -/
def coreOn (w : BitVec 128) (l : Live) : Core :=
  { Core.reset with st := .running, task := some aTask, live := l, ibuf := [⟨0, memStore [] 0 (natLe 16 w.toNat), []⟩] }

/-- Granule 0 mapped, stable, Secure, of partition 0. -/
def mapped : Tier := { Tier.reset with map := [(0, { valid := true, world := true })] }

/-- Core 0 of partition 0, which owns embers 0 to 15, about to execute w. -/
def runs (w : BitVec 128) (l : Live := Live.empty) : State :=
  st { dr [(pPART 0, rPART_EMB.off, 16 * 2 ^ 32)] with cores := [(0, coreOn w l)], tier := mapped }

/-- Scalar registers. -/
def sr (l : List (Nat × Nat)) : Live := l.foldl (fun x r => x.setS r.1 (BitVec.ofNat 64 r.2)) Live.empty

theorem ready {s : State} {k op : Nat} {w : BitVec 128} {n : Dev → Ins → Needs}
    (h : (s.dev.issues k op w && s.dev.clear k w (n s.dev (Ins.of w))) = true) : Ready s k op w n := by
  simpa [Ready] using h

/-- Core 0 of a live device with one of its fields changed. -/
def coreWith (f : Core → Core) (d : Dev := Dev.reset) : State :=
  st { d with cores := [(0, f { Core.reset with st := .running, task := some aTask })] }

/-! ### Witnesses: the queue -/

/-- Meets StepRunsFrontCommand, both clauses on an empty queue. -/
theorem witness_StepRunsFrontCommand :
    State.reset.pending = [] ∧ (∃ s : State, s.pending = [] ∧ s.dev.live = false) ∧ State.reset.dev.live = true ∧
      (let d := State.reset.dev; d.parts = [] ∧ d.fab.puts = [] ∧ d.fab.creating = none ∧ d.strmOn 63 3 = false) :=
  ⟨rfl, ⟨{ State.reset with dev := { Dev.reset with pow := { Dev.reset.pow with stopped := true } } }, rfl, rfl⟩, by decide, by decide⟩

/-- Meets ExecKeepsQueue: a command that answers a next state, alone and at the front of a queue. -/
theorem witness_ExecKeepsQueue : (∃ t, exec .warmRstNRise State.reset = .next t) ∧
    (∃ t, Machine.step { pending := [.warmRstNRise], dev := Dev.reset } = .next t) := ⟨⟨_, rfl⟩, ⟨_, rfl⟩⟩

/-! ### Witnesses: the cores -/

/-- Meets ScalarTables: each of its premises about the divisor. -/
theorem witness_ScalarTables : (3 : Word) ≠ 0 ∧ ¬((7 : Word).toInt = -2 ^ 63 ∧ (3 : Word).toInt = -1) ∧
    ((0x8000000000000000 : Word).toInt = -2 ^ 63 ∧ (0xFFFFFFFFFFFFFFFF : Word).toInt = -1) := by decide

/-- Meets ScalarCompletes. -/
theorem witness_ScalarCompletes : let w := word
    (let x := w 0x01 63 62 61 0 0 0 12 0 0; Ready (runs x) 0 0x01 x sopNeeds) ∧
    (let x := w 0x02 1 2 0 0 0 0 12 0 (2 ^ 64 - 1); Ready (runs x) 0 0x02 x sopiNeeds) ∧
    (let x := w 0x03 1 2 3 0 0 0 0 3 0; Ready (runs x) 0 0x03 x mulNeeds) ∧
    (let x := w 0x04 1 2 3 0 0 0 0 3 0; Ready (runs x) 0 0x04 x divNeeds) ∧
    (let x := w 0x05 0 0 0 0 0 0 0 0 7; Ready (runs x) 0 0x05 x sliNeeds) ∧
    (let x := w 0x0A 1 0 0 0 0 0 0 0 0; Ready (runs x) 0 0x0A x rdltcNeeds) ∧
    (let x := w 0x0F 0 0 0 0 0 0 0 0 0; Ready (runs x) 0 0x0F x nopNeeds) := by
  refine ⟨?_, ?_, ?_, ?_, ?_, ?_, ?_⟩ <;> exact ready (by decide +kernel)

/-- Meets ScalarMemoryCompletes, at the last 8 bytes of the scratchpad. -/
theorem witness_ScalarMemoryCompletes : let w := word
    (let x := w 0x06 1 2 0 0 0 0 0 0 0xFFFFF8; Ready (runs x) 0 0x06 x (sldNeeds 0)) ∧
    (let x := w 0x07 0 2 3 0 0 0 0 0 0xFFFFF8; Ready (runs x) 0 0x07 x (sstNeeds 0)) := by
  refine ⟨?_, ?_⟩ <;> exact ready (by decide +kernel)

/-- Meets BranchesComplete: BR and JMP ready, a reserved condition, and targets off a multiple of 16. -/
theorem witness_BranchesComplete : let w := word
    (let x := w 0x08 0 2 3 0 0 0 6 0 16; Ready (runs x) 0 0x08 x (brNeeds 0)) ∧
    (let x := w 0x09 1 2 0 0 0 0 0 0 32; Ready (runs x) 0 0x09 x (jmpNeeds 0)) ∧
    (let x := w 0x08 0 2 3 0 0 0 7 0 16; 7 ≤ (Ins.of x).sub ∧ unusedSet x (brNeeds 0 (runs x).dev (Ins.of x)).used = false) ∧
    (let x := w 0x08 0 2 3 0 0 0 6 0 8; (Ins.of x).sub < 7 ∧ unusedSet x (brNeeds 0 (runs x).dev (Ins.of x)).used = false) ∧
    (let x := w 0x09 1 2 0 0 0 0 0 0 8; unusedSet x (jmpNeeds 0 (runs x).dev (Ins.of x)).used = false) := by
  refine ⟨ready (by decide +kernel), ready (by decide +kernel), ?_, ?_, ?_⟩ <;> decide +kernel

/-- A task that draws its random bits free-running. -/
def freeRuns (w : BitVec 128) : State :=
  st { Dev.reset with cores := [(0, { coreOn w Live.empty with task := some { aTask with adm := { freeRunning := true } } })] }

/-- Meets VectorLanesComplete. -/
theorem witness_VectorLanesComplete : let w := word
    (let x := w 0x20 31 1 2 0 0 0 0 0 0; Ready (runs x) 0 0x20 x vopNeeds) ∧
    (let x := w 0x21 31 1 2 3 0 0 0 1 0; Ready (runs x) 0 0x21 x vfmaNeeds) ∧
    (let x := w 0x22 31 1 2 0 0 0 0 0 0; Ready (runs x) 0 0x22 x vcmpNeeds) ∧
    (let x := w 0x23 31 1 2 3 0 0 0 0 0; Ready (runs x) 0 0x23 x vselNeeds) ∧
    (let x := w 0x24 31 1 0 0 0 0 0 0 0; Ready (runs x) 0 0x24 x vfnNeeds) ∧
    (let x := w 0x25 31 1 0 0 0 1 0 0 0; Ready (runs x) 0 0x25 x vcvtNeeds ∧
      (cvtFmt (Ins.of x).fa).isSome = true ∧ (cvtFmt (Ins.of x).fb).isSome = true) ∧
    (let x := w 0x28 1 2 0 0 0 0 0 0 0; Ready (runs x) 0 0x28 x (vldNeeds 0) ∧ (recFmt (Ins.of x).fa).isSome = true) ∧
    (let x := w 0x2C 1 2 0 0 0 0 2 0 63; Ready (runs x) 0 0x2C x (vrndNeeds 0) ∧
      ((runs x).dev.modes 0).freeRunning = false) := by
  refine ⟨ready (by decide +kernel), ready (by decide +kernel), ready (by decide +kernel), ready (by decide +kernel),
    ready (by decide +kernel), ⟨ready (by decide +kernel), ?_, ?_⟩, ⟨ready (by decide +kernel), ?_⟩,
    ⟨ready (by decide +kernel), ?_⟩⟩ <;> decide +kernel

/-- Meets VectorMovesComplete. -/
theorem witness_VectorMovesComplete : let w := word
    (let x := w 0x26 31 1 0 0 0 0 1 0 0; Ready (runs x) 0 0x26 x vredNeeds) ∧
    (let x := w 0x27 1 2 0 0 0 0 0 0 127; Ready (runs x) 0 0x27 x vmvsNeeds ∧ (Ins.of x).sub = 0 ∧ (Ins.of x).d ≠ 0) ∧
    (let x := w 0x27 0 2 0 0 0 0 0 0 127; Ready (runs x) 0 0x27 x vmvsNeeds ∧ (Ins.of x).d = 0) ∧
    (let x := w 0x27 1 2 0 0 0 0 1 0 0; Ready (runs x) 0 0x27 x vmvsNeeds ∧ (Ins.of x).sub = 1) ∧
    (let x := w 0x27 1 2 0 0 0 0 2 0 127; Ready (runs x) 0 0x27 x vmvsNeeds ∧ (Ins.of x).sub = 2) ∧
    (let x := w 0x29 0 1 2 0 0 0 0 0 0; Ready (runs x) 0 0x29 x (vstNeeds 0) ∧ (recFmt (Ins.of x).fb).isSome = true) ∧
    (let x := w 0x2A 1 2 3 0 0 0 0 0 127; Ready (runs x) 0 0x2A x (vacrNeeds 0)) ∧
    (let x := w 0x2B 1 2 3 0 0 0 0 0 127; Ready (runs x) 0 0x2B x (vacwNeeds 0)) ∧
    (let x := w 0x2C 1 2 0 0 0 0 1 0 0; Ready (freeRuns x) 0 0x2C x (vrndNeeds 0) ∧
      ((freeRuns x).dev.modes 0).freeRunning = true) := by
  refine ⟨ready (by decide +kernel), ⟨ready (by decide +kernel), ?_, ?_⟩, ⟨ready (by decide +kernel), ?_⟩,
    ⟨ready (by decide +kernel), ?_⟩, ⟨ready (by decide +kernel), ?_⟩, ⟨ready (by decide +kernel), ?_⟩,
    ready (by decide +kernel), ready (by decide +kernel), ⟨ready (by decide +kernel), ?_⟩⟩ <;> decide +kernel

/-- Meets MatrixComplete. -/
theorem witness_MatrixComplete : let w := word
    (let x := w 0x40 1 2 3 0 1 1 0 1 0; Ready (runs x) 0 0x40 x (mmaNeeds 0)) ∧
    (let s := coreWith fun c => { c with mmas := [⟨1, [0]⟩] }; s.dev.live = true ∧ (s.dev.core 0).mmas = ⟨1, [0]⟩ :: []) ∧
    (let x := w 0x50 1 2 0 0 0 0 0 4 0; Ready (runs x) 0 0x50 x (drnNeeds 0) ∧ (Ins.of x).mod 2 = true) ∧
    (let x := w 0x50 1 2 0 0 0 0 0 0 0; Ready (runs x) 0 0x50 x (drnNeeds 0) ∧ (Ins.of x).mod 2 = false) := by
  refine ⟨ready (by decide +kernel), ?_, ⟨ready (by decide +kernel), ?_⟩, ⟨ready (by decide +kernel), ?_⟩⟩ <;> decide +kernel

/-- Meets AttentionComplete; KVD with runs that do not overlap. -/
theorem witness_AttentionComplete : let w := word
    (let x := w 0x48 1 2 3 4 0 1 0 0 0; Ready (runs x) 0 0x48 x (astepNeeds 0) ∧ (recFmt (Ins.of x).fb).isSome = true) ∧
    (let x := w 0x49 1 0 0 2 0 0 0 0 127; Ready (runs x) 0 0x49 x (anormNeeds 0)) ∧
    (let x := w 0x4A 1 2 3 4 0 10 5 0 0; Ready (runs x (sr [(1, 0x2000), (3, 0x4000), (4, 64)])) 0 0x4A x (kvqNeeds 0)) ∧
    (let x := w 0x4B 1 2 3 0 10 1 0 0 (64 * 2 ^ 24)
     Ready (runs x (sr [(1, 0x2000), (3, 0x4000)])) 0 0x4B x (kvdNeeds 0) ∧ (kvdFmt (Ins.of x).fb).isSome = true ∧
       kvdStride (Ins.of x) = 64) := by
  refine ⟨⟨ready (by decide +kernel), ?_⟩, ready (by decide +kernel), ready (by decide +kernel),
    ready (by decide +kernel), ?_, ?_⟩ <;> decide +kernel
/-- Core 0 with 32 outputs pending in its tile. -/
def withOuts (s : State) : State :=
  st (s.dev.setCore 0 { s.dev.core 0 with tileOpen := some 0, outs := List.replicate 32 (.esig 3 (.add 1)) })

/-- Meets MovementComplete: the six instructions, an arrival, a commit of a signal and of a descriptor, and a full tile. -/
theorem witness_MovementComplete : let w := word
    (let x := w 0x51 1 2 3 4 0 0 0 0 0; Ready (runs x (sr [(3, 256)])) 0 0x51 x (tldNeeds 0)) ∧
    (let x := w 0x52 1 2 3 0 0 0 0 0 0; Ready (runs x (sr [(2, 0x10000), (3, 256)])) 0 0x52 x (tstNeeds 0)) ∧
    (let x := w 0x58 0 1 0 0 0 0 0 0 0; Ready (runs x) 0 0x58 x (submitNeeds 0)) ∧
    (let x := w 0x54 0 0 0 0 0 0 0 0 (2 ^ 63 + 1); Ready (runs x) 0 0x54 x srelNeeds) ∧
    (let x := w 0x55 0 0 0 0 0 0 0 0 (2 ^ 63 + 1); Ready (runs x) 0 0x55 x arelNeeds) ∧
    (let t : TldOp := ⟨0, 0, 256, 4, false, false, false⟩
     let d := (coreWith (fun c => { c with tlds := [t] }) { Dev.reset with tier := mapped }).dev
     d.live = true ∧ (d.core 0).task.isSome = true ∧ (d.core 0).struck = false ∧ (d.core 0).tlds = t :: [] ∧
       d.vex.heldReqs = [] ∧ whereIs t.src = .tier ∧ t.shadow = false ∧ d.poisoned t.src t.count = false ∧
       d.sourceHere 0 t = true ∧ (d.core 0).behindTst t = false) ∧
    (let d := (coreWith fun c => { c with committing := [.esig 3 (.add 1)] }).dev
     d.live = true ∧ d.writesVisible 0 = true ∧ (d.core 0).committing = [.esig 3 (.add 1)]) ∧
    (let d := (coreWith fun c => { c with committing := [.submit 0 64] }).dev
     d.live = true ∧ (d.core 0).struck = false ∧ d.vex.heldReqs = [] ∧ (d.core 0).committing = [.submit 0 64] ∧
       d.behindTld 0 = false ∧ (d.geyser 0).queue.length < 16) ∧
    (∀ x ∈ [(w 0x52 1 2 3 0 0 0 0 0 0, 0x52, tstNeeds 0), (w 0x58 0 1 0 0 0 0 0 0 0, 0x58, submitNeeds 0),
        (w 0x73 0 1 2 0 0 0 3 0 15, 0x73, esigNeeds 0)],
      let d := (withOuts (runs x.1 (sr [(2, 0x10000), (3, 256)]))).dev; let n := x.2.2 d (Ins.of x.1)
      d.issues 0 x.2.1 x.1 = true ∧ (d.core 0).flagBusy n = false ∧ n.code x.1 = 0 ∧ 32 ≤ (d.core 0).outs.length) := by
  refine ⟨ready (by decide +kernel), ready (by decide +kernel), ready (by decide +kernel), ready (by decide +kernel),
    ready (by decide +kernel), ?_, ?_, ?_, ?_⟩ <;> decide +kernel

/-- Core 0 waits on ember 0, a counter, for a value of at least n, until the LTC is t. -/
def waits (n t : Nat) : Dev :=
  (coreWith (fun c => { c with wait := some ⟨0, 0, n, some t, 5⟩ }) (dr [(pEMB 0, cfgOff 0, 0)])).dev

/-- The state of runs, with ember 15 a counter. -/
def runsEmber (x : BitVec 128) : State :=
  let s := runs x
  st (regsOn s.dev [(pEMB 15, cfgOff 15, 0)])

/-- Meets TaskFlowComplete: a wait that does not fit, one that does, a wait that is met and one whose time is over. -/
theorem witness_TaskFlowComplete : let w := word
    (let x := w 0x70 0 0 0 0 0 0 0 0 0; Ready (runs x) 0 0x70 x tendNeeds) ∧
    (let x := w 0x71 0 0 0 0 0 0 0 0 0; Ready (runs x) 0 0x71 x (endNeeds 0)) ∧
    (let x := w 0x72 1 2 3 4 0 0 0 0 15; Ready (runs x) 0 0x72 x (ewaitNeeds 0) ∧
      (runs x).dev.waitFits ((runs x).dev.emberOf 0 (Ins.of x)) (Ins.of x).sub = false) ∧
    (let x := w 0x72 1 2 3 4 0 0 0 0 15; let s := runsEmber x
     Ready s 0 0x72 x (ewaitNeeds 0) ∧ s.dev.waitFits (s.dev.emberOf 0 (Ins.of x)) (Ins.of x).sub = true) ∧
    (let x := w 0x73 0 1 2 0 0 0 3 0 15; Ready (runs x) 0 0x73 x (esigNeeds 0)) ∧
    (let x := w 0x74 0 1 2 3 0 0 0 7 0; Ready (runs x) 0 0x74 x gkeyNeeds) ∧
    (let d := waits 0 0; let c := d.core 0; let x : EWait := ⟨0, 0, 0, some 0, 5⟩
     d.live = true ∧ c.wait = some x ∧ c.working = true ∧ d.waitMet x.ember x.cond x.operand = true) ∧
    (let d := waits 1 0; let c := d.core 0; let x : EWait := ⟨0, 0, 1, some 0, 5⟩
     d.live = true ∧ c.wait = some x ∧ c.working = true ∧ x.deadline = some 0 ∧ 0 ≤ d.ltc.toNat ∧
       d.waitMet x.ember x.cond x.operand = false) ∧
    (let d := (coreWith fun c => { c with ending := true }).dev
     d.live = true ∧ (d.core 0).task = some aTask ∧ d.taskOver 0 = true ∧ aTask.desc.doneEn = false) := by
  refine ⟨ready (by decide +kernel), ready (by decide +kernel), ⟨ready (by decide +kernel), ?_⟩,
    ⟨ready (by decide +kernel), ?_⟩, ready (by decide +kernel), ready (by decide +kernel), ?_, ?_, ?_⟩ <;> decide +kernel
/-- The first 36 bytes of a save area of version 1 with nothing live: the mask of integer tiles is chosen so that the
register of R159's check value stands at 0 behind it, and zero bytes leave it there. -/
def areaHeadBytes : List Byte :=
  [1, 0, 1, 0] ++ List.replicate 24 0 ++ [173, 55, 141, 135] ++ [255, 255, 255, 255]

/-- Core 0 about to execute the RSTR x of the area at 0x10000. -/
def restores (x : BitVec 128) : State := let s := runs x; st (memOn s.dev 0x10000 areaHeadBytes)

theorem memLoad_zero {m : Tab Byte} : ∀ {a n : Nat}, (∀ p ∈ m, p.1 < a) → memLoad m a n = List.replicate n 0
  | _, 0, _ => rfl
  | a, n + 1, h => by
    have get : ∀ (t : Tab Byte), (∀ p ∈ t, p.1 < a) → Tab.get (fun _ => 0) t a = 0 := by
      intro t
      induction t with
      | nil => intro _; rfl
      | cons p t ih =>
        intro h
        have hp := h p (by simp)
        have ht := ih fun q hq => h q (by simp [hq])
        obtain ⟨j, v⟩ := p
        simp only [Tab.get]
        rw [if_neg (by simp at hp; omega)]
        exact ht
    have next : ∀ p ∈ m, p.1 < a + 1 := fun p hp => Nat.lt_succ_of_lt (h p hp)
    rw [memLoad, memLoad_zero next, List.replicate_succ]
    exact congrArg (· :: _) (get m h)

theorem feed_zero (n : Nat) : crc32c.feed 0 (List.replicate n 0) = 0 := by
  induction n with
  | zero => rfl
  | succ n ih =>
    rw [List.replicate_succ]
    exact ih

theorem area_sound (x : BitVec 128) : (restores x).dev.areaOk 0 1 0x10000 = true := by
  have hm : (restores x).dev.mem = memStore [] 0x10000 areaHeadBytes := rfl
  have masks : (restores x).dev.areaMasks 0x10000 = ([], [], maskBits 0x878D37AD00000000) := by
    simp only [Dev.areaMasks, Dev.loadNat, Dev.load, hm]
    decide +kernel
  have block : (restores x).dev.load (0x10000 + 0x100) 49152 = List.replicate 49152 0 := by
    simp only [Dev.load, hm]
    exact memLoad_zero (by decide +kernel)
  have head : crc32c.feed crc32c.init ((restores x).dev.load 0x10000 32) = 0 := by
    simp only [Dev.load, hm]
    decide +kernel
  have v : (restores x).dev.loadNat 0x10000 8 = 0x10001 := by
    simp only [Dev.loadNat, Dev.load, hm]
    decide +kernel
  have c : (restores x).dev.loadNat (0x10000 + 32) 4 = 0xFFFFFFFF := by
    simp only [Dev.loadNat, Dev.load, hm]
    decide +kernel
  have crc : ∀ a b, crc32c.feed crc32c.init a = 0 → b = List.replicate 49152 0 → crc32c.of (a ++ b ++ [] ++ []) = 0xFFFFFFFF := by
    intro a b ha hb
    rw [CrcPoly.of, List.append_nil, List.append_nil, CrcPoly.feed, List.foldl_append]
    change crc32c.result (crc32c.feed (crc32c.feed crc32c.init a) b) = _
    rw [ha, hb, feed_zero]
    rfl
  simp only [Dev.areaOk, masks, v, c, List.flatMap_nil]
  rw [crc _ _ head block]
  decide +kernel
theorem restores_ready : let x := word 0x79 0 1 0 0 0 0 0 0 0x10000; Ready (restores x) 0 0x79 x (rstrNeeds 0) := by
  intro x
  have ok := area_sound x
  have hp : ((restores x).dev.core 0).part = 0 := by decide +kernel
  have hi : ((restores x).dev.modes 0).isa = 1 := by decide +kernel
  have ha : (restores x).dev.areaAt 0 (Ins.of x) = 0x10000 := by decide +kernel
  have hn : rstrNeeds 0 (restores x).dev (Ins.of x) = { rstrNeeds 0 (restores x).dev (Ins.of x) with
      faults := areaFaults (restores x).dev 0 0x10000 ++ [(false, 0x08)] } := by
    simp only [rstrNeeds, hp, hi, ha, ok, Bool.not_true, Bool.and_false]
  refine ready ?_
  rw [hn]
  simp only [rstrNeeds, ha]
  decide +kernel

/-- A partition 0 that is enabled, owns core 0 and whose current context 3 has a task queued. -/
def starts : Dev :=
  Dev.setTasks { dr [(pPART 0, rPART_CTL.off, 2 ^ 63), (pPART 0, rPART_CORE.at 0, 1)] with parts := [(0, { current := some 3 })] }
    0 3 5 [{ aTask with desc := { aTask.desc with context := 3 } }]

/-- Core 0 with its tile open. -/
def coreOpens (s : State) : State := st (s.dev.setCore 0 { s.dev.core 0 with tileOpen := some 0 })

/-- Meets CoreEventsComplete: SAVE with a tile live, RSTR, and each of the events. -/
theorem witness_CoreEventsComplete :
    (let x := word 0x78 0 1 0 0 0 0 0 0 0x10000; let s := runs x { Live.empty with accLive := [63] }
     Ready s 0 0x78 x (saveNeeds 0) ∧ Direct s.dev (s.dev.areaAt 0 (Ins.of x)) areaBytes ∧
       (∀ n ∈ (s.dev.lv 0).segLive, n < 64) ∧ ∀ t ∈ (s.dev.lv 0).accLive, t < 64) ∧
    (∀ y ∈ [(word 0x78 0 1 0 0 0 0 0 0 0x10000, 0x78, saveNeeds 0), (word 0x79 0 1 0 0 0 0 0 0 0x10000, 0x79, rstrNeeds 0)],
      let d := (coreOpens (runs y.1)).dev; let n := y.2.2 d (Ins.of y.1)
      d.issues 0 y.2.1 y.1 = true ∧ (d.core 0).flagBusy n = false ∧ n.code y.1 = 0 ∧ (d.core 0).tileOpen.isSome = true) ∧
    (let x := word 0x79 0 1 0 0 0 0 0 0 0x10000; Ready (restores x) 0 0x79 x (rstrNeeds 0)) ∧
    (let d := starts; let t := { aTask with desc := { aTask.desc with context := 3 } }
     d.live = true ∧ d.partOn 0 = true ∧ (d.part 0).current = some 3 ∧ (d.part 0).switch = none ∧
       (d.part 0).contained.contains 3 = false ∧ d.idleCore 0 = some 0 ∧ d.nextTask 0 3 = some (5, t) ∧ d.lost t.waits = false ∧ t.saved = none ∧
       t.desc.doneEn = false ∧ t.desc.args.length = 6) ∧
    (let d := (coreWith (fun c => { c with live := { c.live with pc := 0x3FFFFF0 } }) { Dev.reset with tier := mapped }).dev
     d.live = true ∧ (d.core 0).task.isSome = true ∧ (d.lv 0).pc % 16 = 0 ∧ d.missesLine 0 = true ∧
       d.companionOwns (lineAddr (d.lv 0).pc) 4096 = false ∧ d.poisoned (lineAddr (d.lv 0).pc) 4096 = false) ∧
    (let d := (coreWith (fun c => { c with st := .suspended, suspendedOn := [(0, 64)] }) { Dev.reset with tier := mapped }).dev
     d.live = true ∧ (d.core 0).st = .suspended ∧ d.mending (d.core 0).suspendedOn = false ∧ d.lost (d.core 0).suspendedOn = false) ∧
    (let d := (coreWith (fun c => { c with preempt := true, tileOpen := some 0 }) { Dev.reset with ltc := 16001 }).dev; let c := d.core 0
     d.live = true ∧ c.part < 64 ∧ c.preempt = true ∧ (d.modes 0).precise = false ∧ c.forced = false ∧ c.task.isSome = true ∧
       c.tileOpen = some 0 ∧ 0 + 16000 < d.ltc.toNat) ∧
    (let d := (coreWith (fun c => { c with tileOpen := some 0 }) { dr [(pMOD, rMOD_SL.off, 2)] with
       ltc := 16001, pow := { Dev.reset.pow with cclkMHz := 470 } }).dev
     d.live = true ∧ (d.core 0).preempt = false ∧ d.cclkRest 0 = true ∧ (d.core 0).forced = false ∧ (d.core 0).tileOpen = some 0) ∧
    (let d := (coreWith id).dev
     d.writable full (pCORE 0) rCORE_CTL.off false = true ∧ full.width = .full ∧ (d.core 0).st = .running ∧
       d.writable full (pCORE 0) rCORE_TILE_MAX.off false = true) := by
  refine ⟨⟨ready (by decide +kernel), ?_, ?_, ?_⟩, ?_, restores_ready, ?_, ?_, ?_, ?_, ?_, ?_⟩ <;> (try unfold Direct) <;> decide +kernel
/-! ### Witnesses: the module -/

/-- The reset device with another power state. -/
def powered (f : Power → Power) : Dev := { Dev.reset with pow := f Dev.reset.pow }

/-- Meets PowerSequence: locked and unlocked, before, in and after the ramp. -/
theorem witness_PowerSequence :
    (let p := (powered fun p => { p with pwrEn := false, phase := .off }).pow; p.pwrEn = false ∧ p.lockout = false ∧ p.phase = .off) ∧
    (let p := (powered fun p => { p with pwrEn := false, phase := .off, lockout := true }).pow
     p.pwrEn = false ∧ p.lockout = true ∧ 99 < 100 ∧ 100 ≤ 100) ∧
    (let p := (powered fun p => { p with phase := .waiting }).pow; p.phase = .waiting ∧ p.pwrEn = true ∧ 5 ≤ 5) ∧
    ((powered fun p => { p with phase := .ramping }).pow.phase = .ramping ∧ 20 ≤ 20 ∧ 20 ≤ 60 ∧ 20 ≤ 60 ∧ 60 ≤ 60) ∧
    (let p := (powered fun p => { p with reset := some .powerOn }).pow; p.pwrGood = true ∧ p.reset = some .powerOn ∧ p.refclkA = true) ∧
    (powered fun p => { p with phase := .discharging }).pow.phase = .discharging ∧
    (Dev.reset.pow.phase = .good ∧ 459 < 460 ∧ 10 < 11) := by decide

/-- Meets ResetPins: each pin at its filter's limit, and each reset in progress. -/
theorem witness_ResetPins :
    (let p := Dev.reset.pow; p.pwrGood = true ∧ p.modRstN = true ∧ p.warmRstN = true ∧ 1000 ≤ 1000 ∧ 999 < 1000) ∧
    (let p := (powered fun p => { p with reset := some .cold }).pow; p.pwrGood = true ∧ p.reset = some .cold ∧ p.refclkA = true) ∧
    (let p := (powered fun p => { p with reset := some .warm, refclkA := false }).pow
     p.pwrGood = true ∧ p.reset = some .warm ∧ p.warmRstN = true ∧ p.refclkA = false) ∧
    (Dev.reset.writable full pMOD rMOD_RST_CTL.off true = true ∧ (1 : Word).toNat.testBit 0 = true) ∧
    (let p := (powered fun p => { p with reset := some .warm, warmCauses := 4 }).pow
     p.pwrGood = true ∧ p.reset = some .warm ∧ p.warmRstN = true ∧ p.refclkA = true ∧ p.warmCauses.testBit 2 = true) := by decide +kernel

/-- Meets PowerCapAndHeat: temperatures at each limit. -/
theorem witness_PowerCapAndHeat :
    (let d := dr [(pMOD, rMOD_PWR.off, 1)]; d.pow.pwrGood = true ∧ d.fld pMOD rMOD_PWR.off 1 0 = 1) ∧
    (Dev.reset.writable full pMOD rMOD_PWR.off false = true ∧ Dev.reset.pow.pwrbrkN = true ∧ bits (2 : Word).toNat 1 0 ≠ 3) ∧
    ((∀ t ∈ [95, 109], t < 110) ∧ (∃ t ∈ [95, 109], 95 ≤ t) ∧ (∀ t ∈ [92, 20], t ≤ 92) ∧ (∀ t ∈ [92, 20], t < 110) ∧
      (∀ t ∈ [94, 93], t < 95) ∧ (∃ t ∈ [94, 93], 92 < t) ∧ (∃ t ∈ [110], 110 ≤ t)) ∧
    (Dev.reset.pow.refclkB = true ∧ (powered fun p => { p with refclkB := false }).pow.refclkB = false ∧
      Dev.reset.pow.refclkA = true ∧ Dev.reset.live = true) := by decide +kernel

/-- Meets LtcReads, both widths. -/
theorem witness_LtcReads : Dev.reset.writable full pMOD rMOD_LTC.off false = true ∧ full.width = .full ∧
    Dev.reset.writable low pMOD rMOD_LTC.off false = true ∧ low.width = .low := by decide +kernel

/-! ### Witnesses: the tiers -/

/-- HBM on die 0 and the slow tier in service, quotas of 8 frames for partition 0, and a tier map. -/
def tiered (m : Tab TierEntry) (l : List (Nat × Nat × Nat) := []) : Dev :=
  { dr ((pTIER, rTIER_PQ.at 0, 8 + 8 * 2 ^ 16) :: l) with tier := { Tier.reset with map := m, hbmDies := [0], slowIn := true } }

/-- A command word of TIER_CMD for a granule of partition 0, world 1. -/
def tcmd (op gran : Nat) : Word := BitVec.ofNat 64 (op * 2 ^ 60 + gran * 2 ^ 32 + 2 ^ 7)

/-- Granule 49151 mapped. -/
def lastMapped (f : TierEntry → TierEntry) : Tab TierEntry := [(49151, f { valid := true, world := true })]

/-- Meets TierCommandsComplete: each command in order, each refused, one while another is in progress, and UNMAP_DONE. -/
theorem witness_TierCommandsComplete :
    (let d := tiered []; let c := TierCmd.ofWord (tcmd 1 49151).toNat
     d.writable full pTIER rTIER_CMD.off true = true ∧ d.bit pTIER tierSts 8 = false ∧ c.op = 1 ∧ d.mapCode c = 0 ∧
       (d.freeFrame (d.mapTier c)).isSome = true) ∧
    (let d := tiered (lastMapped id); let c := fun op => TierCmd.ofWord (tcmd op 49151).toNat
     d.writable full pTIER rTIER_CMD.off true = true ∧ d.bit pTIER tierSts 8 = false ∧
     ((c 2).op = 2 ∧ d.unmapCode (c 2) = 0) ∧ ((c 3).op = 3 ∧ d.attrCode (c 3) = 0) ∧
     ((c 4).op = 4 ∧ d.moveCode (c 4) = 0 ∧ (d.gran (c 4).gran).moving = false ∧
       (d.freeFrame (!(d.gran (c 4).gran).slow)).isSome = true) ∧ ((c 1).op = 1 ∧ d.mapCode (c 1) = 3)) ∧
    (let d := tiered []; let c := fun op => TierCmd.ofWord (tcmd op 49151).toNat
     d.unmapCode (c 2) = 4 ∧ d.attrCode (c 3) = 4 ∧ d.moveCode (c 4) = 4) ∧
    (let d := tiered [] [(pTIER, tierSts, 256)]; d.writable full pTIER rTIER_CMD.off true = true ∧ d.bit pTIER tierSts 8 = true) ∧
    (let d := tiered (lastMapped id)
     let d := { d with tier := { d.tier with unmapping := some 49151 } }
     d.live = true ∧ d.tier.unmapping = some 49151 ∧ d.readsGran 49151 = false ∧ 49151 ∉ d.tier.waiting) := by decide +kernel

/-- A migration of granule 0 that has ended n passes and has m dirty tiles. -/
def moves (n m : Nat) : Dev :=
  let d := tiered [(0, { valid := true, world := true, state := stCopying })]
  { d with tier := { d.tier with mig := [(0, { pass := n, dirty := List.range m })] } }

/-- Granule 0 in re-fetch with line 0 poisoned; its source record in granule 1 names the replica in granule 2. -/
def mends (kind : Byte) : Dev :=
  let d := tiered [(0, { valid := true, world := true, state := stRefetch }), (1, { valid := true, world := true }),
    (2, { valid := true, world := true })] [(pTIER, rTIER_PSRC.at 0, 0x4000000)]
  { memOn d 0x4000000 [2, 0, kind] with poison := [0] }

/-- Meets TierEventsComplete: the ends of passes with 16 and 17 dirty tiles, before the last pass and at it. -/
theorem witness_TierEventsComplete :
    (let d := tiered [(0, { valid := true, state := stZeroing })]; d.live = true ∧ (d.gran 0).valid = true ∧ (d.gran 0).state = stZeroing) ∧
    (let d := tiered (lastMapped id); let x := d.gran 49151
     x.valid = true ∧ x.state = stStable ∧ x.place = 0 ∧ x.pin = false ∧ d.tier.unmapping ≠ some 49151 ∧ d.roomCode x.part (!x.slow) = 0 ∧
       (d.freeFrame (!x.slow)).isSome = true) ∧
    (∀ n ∈ [0, 6, 7], let d := moves n 17; (d.gran 0).valid = true ∧ (d.gran 0).state = stCopying ∧ 0 ∉ d.tier.waiting ∧
      16 < (d.mig 0).dirty.length ∧ (n < 7 → (d.mig 0).pass + 1 < 8) ∧ (n = 7 → 8 ≤ (d.mig 0).pass + 1) ∧ (d.mig 0).retire = false) ∧
    ((moves 0 16).mig 0).dirty.length ≤ 16 ∧
    (let d := tiered [(0, { valid := true, state := stSwitching })]; let x := d.gran 0
     x.valid = true ∧ x.state = stSwitching ∧ (d.mig 0).retire = false ∧ (d.mig 0).held = [] ∧ 0 ∉ d.tier.waiting) ∧
    Tab.wf (fun _ => ({} : TierEntry)) (moves 0 0).tier.map = true ∧
    (∀ kind ∈ [1, 0], let d := mends kind; let x := d.gran 0
     d.live = true ∧ x.valid = true ∧ x.state = stRefetch ∧ (d.poisonTiles 0).contains 0 = true ∧ d.tier.tried.contains 0 = false ∧
       (d.replicaTile 0 0).isSome = (kind == 1) ∧ (kind = 0 → d.chunkOver 0 = none)) := by
  decide +kernel

/-- Meets TierQuotasAndStreamsComplete: a quota that fits and one that does not, a stream in order and out of order. -/
theorem witness_TierQuotasAndStreamsComplete :
    (let d := tiered (lastMapped id)
     let fits := fun (v : Word) =>
       d.hbmUse 0 - d.stageQuota 0 + bits v.toNat 47 32 ≤ bits v.toNat 15 0 ∧
         d.slowUse 0 ≤ bits v.toNat 31 16 ∧ bits v.toNat 47 32 ≤ bits v.toNat 15 0
     d.writable full pTIER (rTIER_PQ.at 0) false = true ∧ full.width = .full ∧ fits 0x000000000001 ∧ ¬ fits 0) ∧
    (let d := tiered [] [(pPART 63, rPART_EMB.off, 16 * 2 ^ 32), (pTIER, strmCtl 63 3, 2 ^ 63)]
     let new := fun (v : Word) => rSTRM_CTL.write (d.rd pTIER (strmCtl 63 3)) .full v.toNat
     let good : Word := 0x8000222000010000
     d.live = true ∧ d.writable full pTIER (strmCtl 63 3) false = true ∧ (0 : Word).toNat.testBit 63 = false ∧
       good.toNat.testBit 63 = true ∧ d.strmOk 63 (new good) = true ∧
       (0x8000000000000000 : Word).toNat.testBit 63 = true ∧ d.strmOk 63 (new 0x8000000000000000) = false) ∧
    (let d := tiered [] [(pTIER, strmCtl 63 3, 2 ^ 63), (pEMB 0, valOff 0, 5)]
     d.strmOn 63 3 = true ∧ d.emberValue (d.fld pTIER (strmCtl 63 3) 13 0) ≠ (d.stream 63 3).c) ∧
    (let d := tiered []; let d := { d with tier := { d.tier with staged := [(7, ⟨63, false⟩)] } }
     d.live = true ∧ (7, (⟨63, false⟩ : Staged)) ∈ d.tier.staged) ∧
    (Dev.reset.writable full pTIER (strmSts 63 3) false = true ∧ Dev.reset.writable full pTIER rTIER_STAT.off false = true) := by
  decide +kernel
/-! ### Witnesses: the cache manager -/

/-- Registers of a cache manager of partition 0 whose tables stand in granules 0 to 4, with ctl added to CACHE_CTL. -/
def cacheRegs (ctl : Nat) : List (Nat × Nat × Nat) :=
  [(pCACHE 0, rCACHE_GEOM.off, 1 + 2 ^ 8), (pCACHE 0, rCACHE_SEQ.off, 0x400 + 4 * 2 ^ 32), (pCACHE 0, rCACHE_TAIL.off, 0x800),
   (pCACHE 0, rCACHE_LTAB.off, 0x800), (pCACHE 0, rCACHE_POOL.off, 0xC00 + 8 * 2 ^ 32), (pCACHE 0, rCACHE_BANK.off, 0xC00 + 8 * 2 ^ 32),
   (pCACHE 0, rCACHE_PARAM.off, 0xC00 + 0xC00 * 2 ^ 32), (pCACHE 0, rCACHE_CQ.off, 0x1000), (pCACHE 0, rCACHE_CTL.off, 1 + 2 ^ 32 + ctl)]

def fiveMapped : Tab TierEntry := (List.range 5).map fun g => (g, { valid := true, world := true, kind := 2 })

def cacheBase (ctl : Nat) : Dev := tiered fiveMapped (cacheRegs ctl)

/-- The enabled cache manager, with word 0 of the record of sequence 0. -/
def cacheDev (w : Nat) : Dev := memOn (cacheBase (2 ^ 63)) 0x4000000 (natLe 4 w)

/-- The ring holds one entry with this op, for slot 3. -/
def queued (op : Nat) : Dev := regsOn (memOn (cacheDev 0) 0x10000000 (natLe 4 (op + 3 * 2 ^ 8))) [(pCACHE 0, rCACHE_CQ_IDX.off, 1)]

/-- The cache manager with sequence 0 in a state, with a length and a number of pages. -/
def seqDev (st len pages : Nat) : Dev := memOn (cacheBase (2 ^ 63)) 0x4000000 (natLe 4 (st * 2 ^ 28) ++ natLe 4 len ++ natLe 4 pages)

/-- The line at an address held modified by the companion, and poisoned. -/
def owned (d : Dev) (a : Nat) : Dev := { d with vex := { d.vex with filter := [(a / 64, true)] } }
def spoilt (d : Dev) (a : Nat) : Dev := { d with poison := [a / 64] }

theorem memOn_seqAt (d : Dev) (a : Nat) (bs : List Byte) (p q : Nat) : (memOn d a bs).seqAt p q = d.seqAt p q := rfl
theorem memOn_cBase (d : Dev) (a : Nat) (bs : List Byte) (p o : Nat) : (memOn d a bs).cBase p o = d.cBase p o := rfl
theorem memOn_cDim (d : Dev) (a : Nat) (bs : List Byte) (p : Nat) : (memOn d a bs).cDim p = d.cDim p := rfl
theorem memOn_gran (d : Dev) (a : Nat) (bs : List Byte) (g : Nat) : (memOn d a bs).gran g = d.gran g := rfl

theorem memOn_windowAt (d : Dev) (b : Nat) (bs : List Byte) (p a n : Nat) : (memOn d b bs).windowAt p a n = d.windowAt p a n := rfl

/-- Every granule of the device belongs to partition 0, which has no accumulate window. -/
theorem cacheBase_part (c g : Nat) : ((cacheBase c).gran g).part = 0 := by
  show (Tab.get (fun _ => {}) fiveMapped g).part = 0
  simp only [fiveMapped, List.map, Tab.get, List.range, List.range.loop]
  repeat' split
  all_goals rfl

theorem cacheBase_window (a n : Nat) : (cacheBase (2 ^ 63)).windowAt ((cacheBase (2 ^ 63)).gran (a / granBytes)).part a n = none := by
  have h : ∀ w, w < 16 → (cacheBase (2 ^ 63)).winOn 0 w = false := by decide +kernel
  rw [cacheBase_part, Dev.windowAt, List.find?_eq_none]
  intro w hw
  rw [h w (List.mem_range.mp hw)]
  exact Bool.false_ne_true

/-- A record whose page list stands at 0 is sound, whatever else memory holds. -/
theorem record_sound (bs : List Byte) (h : bits ((memOn (cacheBase (2 ^ 63)) 0x4000000 bs).loadNatNew (0x4000000 + 16) 8) 47 0 = 0) :
    RecordSound (memOn (cacheBase (2 ^ 63)) 0x4000000 bs) 0 0 := by
  have hs : (memOn (cacheBase (2 ^ 63)) 0x4000000 bs).seqAt 0 0 = 0x4000000 := by
    rw [memOn_seqAt]
    decide +kernel
  have ht : ∀ t c, (memOn (cacheBase (2 ^ 63)) 0x4000000 bs).tailAddr 0 0 t c = 0x8000000 + (0 + t) * 256 * 64 + c * 4096 := by
    intro t c
    have hb : (memOn (cacheBase (2 ^ 63)) 0x4000000 bs).cBase 0 rCACHE_TAIL.off = 0x8000000 := by
      rw [memOn_cBase]
      decide +kernel
    have hd : (memOn (cacheBase (2 ^ 63)) 0x4000000 bs).cDim 0 = 64 := by
      rw [memOn_cDim]
      decide +kernel
    rw [Dev.tailAddr, hb, hd, Nat.zero_mul]
  have hg : ∀ g ∈ granules 0x4000000 64, ((memOn (cacheBase (2 ^ 63)) 0x4000000 bs).gran g).state ≠ stSwitching := by
    simp only [memOn_gran]
    decide +kernel
  have hw : ∀ a n, (memOn (cacheBase (2 ^ 63)) 0x4000000 bs).windowAt
      ((memOn (cacheBase (2 ^ 63)) 0x4000000 bs).gran (a / granBytes)).part a n = none := cacheBase_window
  refine ⟨⟨?_, ?_, hw _ _⟩, fun i hi => ⟨?_, hw _ _⟩, fun t c _ _ => ⟨?_, hw _ _⟩⟩
  · rw [hs]
    omega
  · rw [hs]
    exact hg
  · rw [Dev.pageEntry, hs, h]
    exact Or.inl (by omega)
  · rw [hs, ht]
    exact Or.inr (by omega)

/-- Meets CacheCommandsComplete: each op, an entry with a reserved field, a length kept, and the two step boundaries. -/
theorem witness_CacheCommandsComplete :
    (∀ op ∈ [1, 2, 3, 4, 5, 6], let d := ((queued op).applyKeeps 0).cqFrees 0 ((queued op).cqCi 0); let i := d.cqCi 0
      (queued op).live = true ∧ (queued op).cqReady 0 op = true ∧ (d.cqArgs 0 i).seq < d.nseq 0 ∧ d.cqBad 0 i = false) ∧
    (∀ op ∈ [1, 2, 3, 4, 5, 6], let e := queued (op + 16); let d := (e.applyKeeps 0).cqFrees 0 (e.cqCi 0); let i := d.cqCi 0
      e.cqReady 0 op = true ∧ (d.cqArgs 0 i).seq < d.nseq 0 ∧ d.cqBad 0 i = true) ∧
    (let d := (cacheDev 0).setPart 0 { (cacheDev 0).part 0 with keeps := [(0, 2 ^ 20 - 1)] }
     (d.part 0).keeps = [(0, 2 ^ 20 - 1)] ∧ 0 < d.nseq 0 ∧ Direct d (d.seqAt 0 0) 64) ∧
    (∀ x ∈ [(0, 0), (1, 1)], let d := seqDev x.1 0 0
     d.cOn 0 = true ∧ d.inTest ukEngine (pCACHE 0) = false ∧ (d.part 0).boundary = false ∧ d.cqCi 0 = d.cqPi 0 ∧
       (d.part 0).frees = [] ∧ (d.part 0).keeps = [] ∧ (d.part 0).awaiting = [] ∧ d.short 0 = x.2) ∧
    (let d := seqDev 1 0 0
     d.lacking 0 = [0] ∧ 0 < d.available 0 ∧ d.seqPages 0 0 < 8192 ∧
       (∀ z, z < d.nseq 0 → Apart (d.pageEntry 0 0 (d.seqPages 0 0)) 4 (d.seqAt 0 z) 64) ∧ RecordSound d 0 0) := by
  refine ⟨by decide +kernel, by decide +kernel, ?_, by decide +kernel, ?_, ?_, ?_, ?_, record_sound _ ?_⟩
  · unfold Direct
    decide +kernel
  · decide +kernel
  · decide +kernel
  · decide +kernel
  · unfold Apart
    decide +kernel
  · decide +kernel

/-- Meets CacheCommandResults: each state of a sequence, prompts that fit the pool of 8 pages and that do not, and reads that
are clear, that wait for the companion, and that are poisoned for good. -/
theorem witness_CacheCommandResults :
    (∀ st, st < 9 → (cacheDev (st * 2 ^ 28)).seqState 0 0 = st) ∧
    (let d := cacheDev 0; d.pagesFor 0 3584 + 1 ≤ d.available 0 ∧ d.available 0 < d.pagesFor 0 3585 + 1 ∧
      d.pagesFor 0 1048575 ≤ 4096 ∧ d.available 0 < 8 + 1 ∧ 7 + 1 ≤ d.available 0) ∧
    (cacheDev (4 * 2 ^ 28)).bit (pCACHE 0) rCACHE_CTL.off 62 = false ∧
    (let d := memOn (cacheDev (4 * 2 ^ 28)) 0x4000008 [8]; d.seqState 0 0 = sqBanked ∧ d.available 0 < d.seqPages 0 0 + 1) ∧
    (∀ st ∈ [1, 6], let d := seqDev st 1 1; let gate := fun (e : Dev) => (e.readGate (e.closeReads 0 0)).2
      gate d = .clear ∧ gate (owned d 0x8000000) = .wait ∧ gate (spoilt d 0x8000000) = .bad) ∧
    (∀ st ∈ [2, 3], let d := seqDev st 1 1; let gate := fun (e : Dev) => (e.readGate (e.reopenReads 0 0)).2
      gate d = .clear ∧ gate (owned d 0xC000000) = .wait ∧ gate (spoilt d 0xC000000) = .bad) ∧
    (∀ st ∈ [1, 2], let d := seqDev st 0 1
      let gate := fun (e : Dev) => (e.readGate (e.closeReads 0 0 ++ (e.seqRefs 0 0).flatMap (e.pageReads 0))).2
      d.closeReads 0 0 = [] ∧ gate d = .clear ∧ gate (owned d 0xC000000) = .wait ∧ gate (spoilt d 0xC000000) = .bad) ∧
    (∀ st ∈ [0, 1, 2, 3, 4, 6], RecordSound (cacheDev (st * 2 ^ 28)) 0 0) := by
  refine ⟨by decide +kernel, by decide +kernel, by decide +kernel, by decide +kernel, by decide +kernel, by decide +kernel,
    by decide +kernel, fun st hst => record_sound _ ?_⟩
  revert st
  decide +kernel

/-- Sequence 0 of one page in a state, with a ship in progress that lacks n transfers, as a device with an identity hears it;
slot 3 of its partition holds epoch 9 as current. -/
def shipping (st n : Nat) : Dev :=
  let got := ([0, 2 ^ 28, 2 ^ 29].reverse.drop n).reverse
  let d := regsOn (seqDev st 0 1) [(pFAB, rFAB_ID.off, 2 ^ 63), (pWGT 0, slotOff 3, 3 * 2 ^ 61 + 9)]
  d.setShip 0 0 { prior := 1, peerDev := 1, peerPart := 0, peerSlot := 0, since := 0, got := got, record := some [],
                  tries := [(1, 3), (2, 4)] }

/-- Meets CacheEventsComplete: each state, an expiry whose time has come, each transfer with good and bad check values, a ship
that is whole, and timeouts. -/
theorem witness_CacheEventsComplete :
    (∀ st ∈ [2, 3, 4, 5, 7, 8], let d := cacheDev (st * 2 ^ 28)
      d.live = true ∧ d.cOn 0 = true ∧ 0 < d.nseq 0 ∧ RecordSound d 0 0 ∧ (d.part 0).boundary = false ∧ d.seqState 0 0 = st ∧
        d.seqExpiry 0 0 ≤ d.ltc.toNat ∧ d.spared 0 0 = false) ∧
    (∀ st ∈ [3, 5], let d := seqDev st 0 1
      d.seqState 0 0 = st ∧ (d.readGate ((d.seqRefs 0 0).flatMap (d.pageReads 0))).2 ≠ .wait) ∧
    (∀ st ∈ [sqShipping, sqArriving], let d := { shipping st 0 with ltc := 2000 }
      d.live = true ∧ d.cOn 0 = true ∧ d.hears = true ∧ 0 < d.nseq 0 ∧ (d.part 0).boundary = false ∧ d.seqState 0 0 = st ∧
      d.engineVisible = true ∧
      ∃ x, d.ship? 0 0 = some x ∧ x.prior < 16 ∧ d.shipWhole 0 0 x = true ∧ x.since + d.shipTo 0 ≤ d.ltc.toNat ∧
        x.since + 2 * d.shipTo 0 ≤ d.ltc.toNat ∧ Tab.get (fun _ => 0) x.tries (ShipItem.key (.tile 0 1 [])) < 4 ∧
        4 ≤ Tab.get (fun _ => 0) x.tries (ShipItem.key (.tile 0 2 []))) ∧
    (let d := shipping sqArriving 3; let a := d.tileAddr 0 (d.pageRef 0 0 0) 0; let b := d.paramAddr 0 (d.pageRef 0 0 0) 0
     0 < d.seqPages 0 0 ∧ 0 < d.cTpp 0 ∧ d.cTile 0 = 65536 ∧ d.cParam 0 = 256 ∧
       d.tierOk 0 (d.partWorld 0) a 65536 = true ∧ Direct d a 65536 ∧ d.tierOk 0 (d.partWorld 0) b 256 = true ∧ Direct d b 256) ∧
    (let d := shipping sqArriving 1
     d.cKv4 0 = false ∧ d.cTpp 0 = 1 ∧ d.cDim 0 = 64 ∧ ¬ (128 = d.cDim 0) ∧ d.slotOf 0 (leNat (([] : List Byte).take 4)) = none ∧
       d.slotOf 0 (leNat (((natLe 12 0 ++ natLe 4 9).drop 12).take 4)) = some 3) := by
  refine ⟨fun st hst => ⟨rfl, ?_, ?_, record_sound _ ?_, rfl, ?_, ?_, ?_⟩, by decide +kernel,
    fun st hst => ⟨rfl, ?_, ?_, ?_, rfl, ?_, ?_, _, rfl, ?_, ?_, ?_, ?_, ?_, ?_⟩, by unfold Direct; decide +kernel, by decide +kernel⟩
  all_goals
    revert st
    decide +kernel

/-- Meets CacheRegistersComplete: sound and unsound tables, all sequences free and one active. -/
theorem witness_CacheRegistersComplete :
    (let d := cacheBase 0; let e := d.store8 full (pCACHE 0) rCACHE_CTL.off rCACHE_CTL 0x8000000100000001
     d.writable full (pCACHE 0) rCACHE_CQ_IDX.off true = true ∧ d.writable full (pCACHE 0) rCACHE_CTL.off false = true ∧
       d.cOn 0 = false ∧ e.cOn 0 = true ∧ e.cacheSound 0 = true) ∧
    (let d := dr []; let e := d.store8 full (pCACHE 0) rCACHE_CTL.off rCACHE_CTL 0x8000000100000001
     d.cOn 0 = false ∧ e.cOn 0 = true ∧ e.cacheSound 0 = false) ∧
    (∀ st ∈ [0, 1], let d := cacheDev (st * 2 ^ 28); let e := d.store8 full (pCACHE 0) rCACHE_CTL.off rCACHE_CTL 0
     d.cOn 0 = true ∧ e.cOn 0 = false ∧ (st = 0 → ∀ q, q < d.nseq 0 → d.seqState 0 q = sqFree) ∧
       (st = 1 → 0 < d.nseq 0 ∧ d.seqState 0 0 ≠ sqFree)) ∧
    Dev.reset.writable full (pCACHE 0) rCACHE_STAT.off false = true := by decide +kernel

/-! ### Witnesses: generation -/

/-- Four request records from granule 1 on; record n has this state, epoch 5, one token to go, temperature and top_p 1. -/
def genDev (n st : Nat) (l : List (Nat × Nat × Nat) := []) : Dev :=
  memOn (tiered fiveMapped ((pGEN 0, rGEN_REQ.off, 0x400 + 4 * 2 ^ 32) :: l)) (0x4000000 + 128 * n)
    (natLe 8 (st * 2 ^ 60 + 5) ++ natLe 16 0 ++ natLe 4 1 ++ natLe 4 0x3F800000 ++ natLe 4 0x3F800000)

/-- Slot 0 of the weights holds epoch 5 as the current one. -/
def epoch5 : List (Nat × Nat × Nat) := [(pWGT 0, slotOff 0, slCurrent * 2 ^ 61 + 5)]

/-- A command word of GEN_CMD. -/
def gcmd (op n : Nat) : Word := BitVec.ofNat 64 (op * 2 ^ 60 + n)

/-- Meets RequestCommandsComplete: the last record in each state, sound and unsound, with and without a current epoch, and
the first number that is no record. -/
theorem witness_RequestCommandsComplete :
    (∀ st ∈ [rqFree, rqRunning, rqFinished, rqCancelled, rqFailed], let d := genDev 3 st epoch5
      d.writable full (pGEN 0) rGEN_CMD.off true = true ∧ 3 < d.nreq 0 ∧ d.nreq 0 ≤ 4 ∧ d.reqState 0 3 = st ∧
        d.reqSound 0 3 = true ∧ d.currentSlot 0 = some 0) ∧
    (let d := genDev 3 rqRunning epoch5; Direct d (d.reqAt 0 3) 128 ∧
      d.slotOf 0 (bits (d.reqWord 0 3) 31 0) = some 0 ∧ d.slotState 0 0 = slCurrent) ∧
    (let d := genDev 2 rqFree; d.reqState 0 3 = rqFree ∧ d.reqSound 0 3 = false ∧ d.reqState 0 2 = rqFree ∧
      d.reqSound 0 2 = true ∧ d.currentSlot 0 = none) ∧
    (∀ op ∈ [1, 2, 3, 4], genOp (gcmd op 3) = op ∧ bits (gcmd op 3).toNat 15 0 = 3 ∧ bits (gcmd op 4).toNat 15 0 = 4) := by
  unfold Direct
  decide +kernel

/-- A descriptor of a step and one row: FP32 logits of 4 tokens in granule 2, its row entry in granule 3, its record at out,
epoch 5; flags are added to word 0. -/
def aRow (flags : Nat := 0) (step : Nat := 1) (out : Nat := 0x10000000) : List Byte :=
  natLe 8 (0x8000000 + flags) ++ natLe 8 (0xC000000 + 2 ^ 48) ++ natLe 8 out ++ natLe 8 (4 + 5 * 2 ^ 32) ++ natLe 8 step ++
    List.replicate 24 0

/-- The Geyser of die 0 with a descriptor queued, or active and worked or held; the request of its row is in state st. -/
def geysers (st : Nat) (f : Submitted → Geyser) (row : List Byte := aRow) : Dev :=
  { genDev 0 st with geysers := [(0, f ⟨0, 0, some row⟩)] }

/-- Row 0 in progress, held or not. -/
def worked (h : Bool) (y : Submitted) : Geyser := { active := some y, held := h, running := true }

/-- Its logits' granule is in re-fetch or stable, and a line of them is poisoned. -/
def poisonLogits (d : Dev) (gs : Nat) : Dev :=
  { d with poison := [0x200000], tier := { d.tier with map := fiveMapped.map fun x => (x.1, if x.1 = 2 then { x.2 with state := gs } else x.2) } }

/-- What the row in progress of die 0 meets. -/
def rowMeets (d : Dev) : RowStart :=
  match (d.geyser 0).active with
  | some y => (d.rowStart 0 y.part (GDesc.ofBytes (d.descBytes y)) (d.geyser 0).row (d.geyser 0).running).2
  | none => .waits false

/-- The row entry of the descriptor names this request and number of draft tokens. -/
def rowNames (d : Dev) (req nd : Nat) : Dev := memOn d 0xC000000 (natLe 4 (req + nd * 2 ^ 16))

/-- Meets GeyserComplete: a sound and an unsound descriptor; rows that go on, that end with each status and that wait, with
and without drafts cut, not held and held; and a finished descriptor whose records are visible and are not. -/
theorem witness_GeyserComplete :
    (let y : Submitted := ⟨0, 0, some (aRow 0)⟩; let d := geysers rqRunning (fun y => { queue := [y] })
     d.live = true ∧ (d.geyser 0).active = none ∧ (d.geyser 0).queue = y :: [] ∧ d.inTest ukEngine (pGEY 0) = false ∧
       d.geyserCode y.part (GDesc.ofBytes (d.descBytes y)) = 0) ∧
    (let y : Submitted := ⟨0, 0, some (aRow (2 ^ 63))⟩; let d := geysers rqRunning (fun y => { queue := [y] }) (aRow (2 ^ 63))
     (d.geyser 0).queue = y :: [] ∧ d.geyserCode y.part (GDesc.ofBytes (d.descBytes y)) ≠ 0 ∧
       d.bit (pGEY 0) rERR_LOG0.off 63 = false) ∧
    (∀ h ∈ [false, true], let d := geysers rqRunning (worked h); let out := 0x10000000
      d.live = true ∧ (d.geyser 0).finished = false ∧ (d.geyser 0).held = h ∧ (GDesc.ofBytes aRow).compl = out ∧ Direct d out 256 ∧
        d.scratchBusy out 256 true = false) ∧
    (let d := geysers rqRunning (worked false); let zeros := List.replicate 4 (FVal.zero false)
     rowMeets d = .goes 0 true zeros ∧ (d.rowEntry (GDesc.ofBytes aRow) 0).nd ≤ 8 ∧ rowMeets (regsOn (rowNames d 0 8) [(pGEN 0, rDAMP_BUDGET.off, 0)]) = .goes 0 true zeros ∧
       rowMeets (regsOn (rowNames d 0 8) [(pGEN 0, rGEN_DRAFT.off, 4), (pGEN 0, rDAMP_BUDGET.off, 15 * 2 ^ 24)]) = .goes 4 true zeros ∧
       rowMeets (rowNames d 4 0) = .ends 6 false ∧ rowMeets (geysers rqFree (worked false)) = .ends 2 false ∧
       rowMeets (geysers rqCancelled (worked false)) = .ends 1 false ∧
       rowMeets (memOn d 0x4000000 (natLe 8 (2 ^ 60 + 6))) = .ends 3 false ∧
       rowMeets (memOn d 0x4000018 (natLe 4 0)) = .ends 8 false ∧
       rowMeets (poisonLogits d stRefetch) = .waits true ∧ rowMeets (poisonLogits d stStable) = .ends 7 false ∧
       rowMeets (rowNames (poisonLogits d stStable) 0 8) = .ends 7 true ∧ rowMeets (owned d 0x8000000) = .waits false) ∧
    (let d := geysers rqRunning (worked false)
     let e := { d with geysers := d.geysers ++ [(7, { queue := [⟨0, 0, some (aRow 0 0)⟩] })] }
     e.earlierRow 0 0 1 0 = true ∧ rowMeets e = .waits false) ∧
    (let d := geysers rqRunning (worked false) (aRow 0 1 (scratchAddr 0 0xFFFF00))
     let e := { d with cores := [(0, { Core.reset with tlds := [⟨0, 0xFFFF00, 256, 0, false, false, false⟩] })] }
     e.scratchBusy (scratchAddr 0 0xFFFF00) 256 true = true) ∧
    (let d := geysers rqRunning (fun y => { active := some y, finished := true }); let g := GDesc.ofBytes aRow
     let e := { d with tier := { d.tier with mig := [(4, { held := [(0x10000000, [1], false)] })] } }
     (d.geyser 0).active = some ⟨0, 0, some aRow⟩ ∧ (d.geyser 0).finished = true ∧ d.rangeVisible g.compl (256 * g.nrows) = true ∧
       e.rangeVisible g.compl (256 * g.nrows) = false) := by
  unfold Direct
  decide +kernel

/-- Meets DamperComplete: a step that has ended, each mode, the highest level, requests running and not, and a step written
while a boundary works and while none does. -/
theorem witness_DamperComplete :
    (let y : DampStep := { k := 7, start := 0, last := 1, ended := some 9 }
     let d := { dr [(pGEN 63, rDAMP_CTL.off, 2 ^ 62 + 2 ^ 32)] with parts := [(63, { damp := [y] })] }
     d.live = true ∧ (d.part 63).damp.find? (fun y => y.k == 7) = some y ∧ y.ended = some 9 ∧
       d.fld (pGEN 63) rDAMP_CTL.off 63 62 = 1 ∧ d.fld (pGEN 63) rDAMP_CTL.off 47 32 * 1000 ≠ 0) ∧
    (∀ r ∈ [rDAMP_CTL.off, rDAMP_STAT.off], Dev.reset.writable full (pGEN 63) r false = true) ∧
    Dev.reset.writable full (pGEN 63) rDAMP_STEP.off true = true ∧ bits (2 ^ 63 : Word).toNat 63 62 ≠ 3 ∧
    (dr [(pGEN 63, rDAMP_CTL.off, 2 ^ 63)]).fld (pGEN 63) rDAMP_CTL.off 63 62 = 2 ∧
    ({ Dev.reset with parts := [(63, { running := 1 })] }.part 63).running ≠ 0 ∧ (Dev.reset.part 63).running = 0 ∧
    ({ Dev.reset with parts := [(63, { boundary := true })] }.part 63).boundary = true ∧ (Dev.reset.part 63).boundary = false := by
  decide +kernel

/-! ### Witnesses: phase counters and the ash recorder -/

/-- The claim register of trace memory held by a kind of holder, for partition 63. -/
def traceHeld (kind : Nat) : Nat × Nat × Nat := (pMOD, rCLAIM.off, 2 ^ 63 + kind * 2 ^ 48 + 63 * 2 ^ 32)

/-- Meets PhaseCountersComplete: agents at work, trace memory free, held by another and held by the trace, a record that
waits, and a generator register that is barred by a group and one that is not. -/
theorem witness_PhaseCountersComplete :
    (let d := { Dev.reset with parts := [(63, { phases := { agents := [(15, 2)] } })] }
     d.writable full (pLRN 63) rLRN_PSTEP.off true = true ∧ Tab.wf (fun _ => 0) (d.part 63).phases.agents = true ∧
       d.phAgents 63 15 ≠ 0) ∧
    (let d := Dev.reset; d.writable full (pLRN 63) rLRN_PTRACE.off false = true ∧ (2 ^ 63 : Word).toNat.testBit 63 = true ∧
      d.bit (pLRN 63) rLRN_PTRACE.off 63 = false ∧ d.held pMOD rCLAIM.off = false) ∧
    (let d := dr [traceHeld ashHolder]; d.bit (pLRN 63) rLRN_PTRACE.off 63 = false ∧ d.held pMOD rCLAIM.off = true) ∧
    (let d := dr [traceHeld traceHolder]; (d.part 63).phases.trace = [] ∧ d.holds pMOD rCLAIM.off traceHolder 63 = true) ∧
    (let r := List.replicate 576 (1 : Byte)
     let d := { tiered [(0, { valid := true, world := true })] with parts := [(0, { phases := { trace := [r] } })] }
     d.live = true ∧ (d.part 0).phases.trace = r :: [] ∧ d.tierOk 0 (d.partWorld 0) 0 r.length = true ∧ Direct d 0 r.length) ∧
    (let d := dr [(pLRN 63, rLRN_ASH_CTL.off, 2 ^ 63 + 15)]
     d.writable full (pLRN 63) (rLRN_GEN.at 15) false = true ∧ (1 : Word).toNat.testBit 0 = true ∧ d.recording 63 15 = true ∧
       d.recording 63 14 = false ∧ d.inWideGroup 63 14 = false) := by
  unfold Direct
  decide +kernel

/-- A recording partition 0 whose area is n times 64 KiB in granule 1; an application record stands at 0. -/
def records (n : Nat) : Dev :=
  memOn (tiered fiveMapped [(pLRN 0, rLRN_ASH_CTL.off, 2 ^ 63), (pLRN 0, rLRN_ASH_BASE.off, 0x400 + n * 2 ^ 32)]) 0
    ([0x80, 0, 1, 0] ++ natLe 4 16)

/-- The gate of the record that stands at 0, over m bytes. -/
def appGate (d : Dev) (m : Nat) : Gate := (d.readGate [(0, m)]).2

/-- Meets AshRecorderComplete: trace memory free and held; a log with room and without, with records waiting before it, and one
whose line the companion holds; no recording; the end of one; and a record that waits for trace memory. -/
theorem witness_AshRecorderComplete :
    (let d := dr [(pLRN 0, rLRN_ASH_BASE.off, 2 ^ 32)]
     d.writable full (pLRN 0) rLRN_ASH_CTL.off false = true ∧ d.bit (pLRN 0) rLRN_ASH_CTL.off 63 = false ∧
       d.bit (pLRN 0) (rLRN_GEN.at 15) 0 = false ∧ d.held pMOD rCLAIM.off = false ∧ 144 ≤ d.ashSize 0) ∧
    (dr [traceHeld traceHolder]).held pMOD rCLAIM.off = true ∧
    (dr [(pLRN 0, rLRN_GEN.at 15, 1)]).bit (pLRN 0) (rLRN_GEN.at 15) 0 = true ∧
    (let d := records 1; d.writable full (pLRN 0) rLRN_ASH_CTL.off false = true ∧ d.bit (pLRN 0) rLRN_ASH_CTL.off 63 = true ∧
      (0 : Word).toNat.testBit 63 = false) ∧
    (let d := records 1; let x := 0; let n := d.loadNatNew (x + 4) 4; let flags := d.loadNatNew (x + 2) 2
     let r := ashRecord (d.loadNatNew x 2) flags (d.part 0).ash.nrec (d.loadNew (x + 16) n)
     d.writable full (pLRN 0) rLRN_ASH_APP.off true = true ∧ (d.part 0).ash.apps = [] ∧ x % 64 = 0 ∧
       d.rangeCode 0 (d.partWorld 0) x 16 = 0 ∧ d.rangeCode 0 (d.partWorld 0) x (16 + n) = 0 ∧ appGate d 16 = .clear ∧
       appGate d (16 + n) = .clear ∧ appGate (owned d 0) 16 = .wait ∧ flags % 2 = 1 ∧ d.bit (pLRN 0) rLRN_ASH_STS.off 1 = false ∧
       (d.part 0).ash.pos + r.length + 64 ≤ d.ashSize 0 ∧ (records 0).ashSize 0 < (d.part 0).ash.pos + r.length + 64) ∧
    (let d := { records 1 with parts := [(0, { ash := { apps := [64] } })] }; (d.part 0).ash.apps ≠ []) ∧
    (let d := tiered fiveMapped
     d.writable full (pLRN 0) rLRN_ASH_APP.off true = true ∧ d.bit (pLRN 0) rLRN_ASH_CTL.off 63 = false) ∧
    (let r : List Byte := [1, 2]
     let d := { records 1 with parts := [(0, { ash := { queue := [r], pos := 2 } })] }
     d.live = true ∧ (d.part 0).phases.trace = [] ∧ (d.part 0).ash.queue = r :: [] ∧
       d.tierOk 0 (d.partWorld 0) 0x4000000 r.length = true ∧ Direct d 0x4000000 r.length) := by
  unfold Direct
  decide +kernel

/-! ### Witnesses: the Stove -/

/-- A shard entry of 4 elements of group 0: g, b and m in granule 1, r in granule 2. -/
def shard (kind solo : Nat) : List Byte :=
  natLe 8 (kind * 2 ^ 12 + solo * 2 ^ 15 + 9 * 2 ^ 16) ++ natLe 8 0 ++ natLe 8 4 ++ natLe 8 0x4000000 ++ natLe 8 0x4010000
    ++ natLe 8 0x8000000 ++ natLe 8 0x4020000 ++ natLe 8 0

/-- Tables in granule 0 with a shard entry and the row of group 0 (size 4); window 15 lies in granule 0, its buffer of 64 FP32
elements in granule 3; fabric port 0 leads to device 9. -/
def stoveDev (kind solo : Nat) (l : List (Nat × Nat × Nat) := []) : Dev :=
  let m : Tab TierEntry := [(0, { valid := true, world := true }),
    (1, { valid := true, world := true, slow := true, place := 2, run := 2 }),
    (2, { valid := true, world := true, slow := true, place := 2, run := 1 }),
    (3, { valid := true, world := true, slow := true, place := 2, run := 3 })]
  let d := tiered m ([(pSTV 0, rSTV_SHARD.off, 1 + 2 ^ 32), (pSTV 0, rSTV_COEF.off, 2), (pSTV 0, rSTV_STAT.off, 3),
    (pSTV 0, 0x208, 1), (pSTV 0, rSTV_WIN_N.at 15, 64), (pSTV 0, rSTV_WIN_BUF.at 15, 0xC000000),
    (pSTV 0, rSTV_WIN.at 15, 2 ^ 63 + 0x40000), (pFAB, rFAB_PORT.at 0, portUp * 2 ^ 48)] ++ l)
  memOn (memOn { d with fab := { d.fab with routes := [(9, 2 ^ 63 + 1)] } } 0x10000 (shard kind solo)) 0x20000
    (List.replicate 32 0 ++ natLe 8 4 ++ [1])

/-- A command word of STV_CMD: entry 0 alone, window 15. -/
def scmd (op : Nat) : Word := BitVec.ofNat 64 (op * 2 ^ 60 + 15 * 2 ^ 52 + (if op = 3 then 0 else 2 ^ 32))

/-- One slab of the 4 elements. -/
def aMirror : MirrorEntry :=
  { srcDev := 9, srcPart := 0, entry := 0, group := 0, first := 0, count := 4, step := 1, slab := 0, isFirst := true, isLast := true, complete := true,
    b := List.replicate 8 1, r := List.replicate 4 1, m := List.replicate 8 1 }

/-- A latched command, its entries and its rows read. -/
def readStove (d : Dev) (op : Nat) (slabs : List MirrorEntry := []) : StoveCmd :=
  d.stoveRows (d.stoveEntries (d.latchStove 0 op (scmd op) slabs))

/-- What the reads of the table of entries and of the rows find. -/
def tableGate (d : Dev) (op : Nat) : Gate := let c := d.latchStove 0 op (scmd op) []; (d.readGate [(c.entryAt 0, 64 * c.count)]).2
def rowsGate (d : Dev) (op : Nat) : Gate :=
  let c := d.latchStove 0 op (scmd op) []
  (d.readGate (((d.stoveEntries c).groups.map fun g => (c.rowAt g, 64)).filter fun r => d.tierOk 0 (d.partWorld 0) r.1 r.2)).2

/-- Meets StoveCommandsComplete, of a written command: each that passes its checks, one whose word fails, one whose entry fails,
tables that wait and that are poisoned for good, and a busy unit. -/
theorem witness_StoveCommandsComplete :
    (∀ op ∈ [1, 2, 3, 4, 5], let v := scmd op; let d := stoveDev kindOwned 0
      d.writable full (pSTV 0) rSTV_CMD.off true = true ∧ stoveOp v = op ∧ d.bit (pSTV 0) stvSts 8 = false ∧
        d.inTest ukEngine (pSTV 0) = false ∧ (d.part 0).heldAdds = [] ∧
        d.stoveForm 0 (d.latchStove 0 op v []) = 0 ∧ (dr []).stoveForm 0 ((dr []).latchStove 0 op v []) ≠ 0) ∧
    (dr [(pSTV 0, stvSts, 256)]).bit (pSTV 0) stvSts 8 = true ∧
    (let v := scmd 3; let d := stoveDev kindOwned 0; let w := bits v.toNat 55 52
     Direct d (d.winBuf 0 w) (d.winN 0 w * d.winWidth 0 w)) ∧
    (∀ op ∈ [1, 2, 4, 5], let d := stoveDev kindOwned 0
      tableGate d op = .clear ∧ tableGate (owned d 0x10000) op = .wait ∧ tableGate (spoilt d 0x10000) op = .bad ∧
        rowsGate d op = .clear ∧ d.stoveCode 0 (readStove d op) = 0 ∧
        (memOn d 0x10000 [1]).stoveCode 0 (readStove (memOn d 0x10000 [1]) op) ≠ 0) ∧
    (let d := stoveDev kindOwned 0; let c := readStove d 5 [aMirror]; let e0 := c.entry 0; let nom := (c.row e0.group).nom
     let h := c.entryAt 0 + 56
     c.entries.length = 1 ∧ e0.kind = kindOwned ∧ e0.solo = false ∧ d.portTo e0.bdev ≠ none ∧
       pulledSlabs e0 nom [aMirror] = some [aMirror] ∧ pulledSlabs e0 nom [] = none ∧ nom = false ∧
       Separate d ([(e0.b, aMirror.b.length), (e0.r, aMirror.r.length), (h, 5), (e0.m, aMirror.m.length)])) := by
  unfold Separate Direct Apart
  decide +kernel

/-- Meets StoveCommandsComplete, of a piece of work: an update, a scan and a mirror of the entry, clear, waiting and lost. -/
theorem witness_StoveCommandsComplete_steps :
    ∀ op ∈ [1, 2, 4], let d := stoveDev kindOwned 0; let c := readStove d op; let e := c.entry c.next
      let r := c.row e.group; let n := min (if op = 1 then r.span else slabElems) e.count; let flag := c.entryAt c.next + 60
      let check := fun (x : Dev) => (x.stoveCheck 0 (e.tensors op r.nom) 0 n).2
      let at_ := if op = 4 then e.b else e.g
      c.op = op ∧ c.next < c.entries.length ∧ c.closed = false ∧ e.kind = kindOwned ∧ slabElems * c.slab < e.count ∧ r.nom = false ∧
        e.solo = false ∧ check d = .clear ∧ check (owned d at_) = .wait ∧ check (spoilt d at_) = .bad 0 ∧
        (d.stoveCheck 0 (e.tensors op r.nom) 0 e.count).2 = .clear ∧
        Separate d ([(flag, 1), (e.b, 2 * n), (e.r, n), (e.m, 2 * n)]) ∧ Apart flag 1 e.g (e.gw * n) := by
  unfold Separate Direct Apart
  decide +kernel

/-- A command of the Stove of partition 0 that is ready, changed by f; a device with an identity. -/
def stoveAt (f : StoveCmd → StoveCmd) (l : List (Nat × Nat × Nat) := []) : Dev :=
  let d := stoveDev kindOwned 0 ((pFAB, rFAB_ID.off, 2 ^ 63) :: l)
  d.setStove 0 (some (f { readStove d 4 with word := BitVec.ofNat 64 (4 * 2 ^ 60 + 2 ^ 32 + 2 ^ 15) }))

/-- A write of granule 3, which switches, is held. -/
def oneHeld (d : Dev) : Dev := { d with tier := { d.tier with mig := [(3, { held := [(0xC000000, [1], false)] })] } }

/-- Meets StoveEventsComplete: the end of a command, visible or not; its mirrors; and the work that goes on. -/
theorem witness_StoveEventsComplete :
    (let d := stoveAt (fun c => { c with finished := true }) [(pEMB 0, cfgOff 0, 0), (pPART 0, rPART_EMB.off, 16 * 2 ^ 32)]
     d.live = true ∧ ((d.stove 0).map StoveCmd.finished) = some true ∧ ((d.stove 0).map fun c => c.word.toNat.testBit 15) = some true ∧
       d.engineVisible = true ∧ (oneHeld d).engineVisible = false ∧ d.ownsEmber 0 0 = true ∧
       d.emberRemote 0 = false ∧ d.emberKind 0 = ebCounter ∧ d.emberValue 0 + 1 < 2 ^ 64) ∧
    (let d := stoveAt fun c => { c with mirrors := [0] }
     ((d.stove 0).map fun c => (c.finished, c.mirrors, c.ready, c.op, decide (c.next + 1 = c.entries.length), decide (c.deadline ≤ d.now))) =
       some (false, [0], true, 4, true, true) ∧ d.inTest ukEngine (pSTV 0) = false ∧ d.hears = true ∧ (d.part 0).heldAdds = []) ∧
    (let d := stoveAt id; ((d.stove 0).map fun c => (c.finished, c.mirrors, c.ready)) = some (false, [], true) ∧ (d.part 0).heldAdds = []) := by
  refine ⟨?_, ?_, ?_⟩ <;> decide +kernel

/-- Meets StoveEventsComplete, of a mirror slab: one that fits a mirror entry, and one of an entry that is owned. -/
theorem witness_StoveEventsComplete_mirrors :
    ∀ kind ∈ [kindMirror, kindOwned], let d := stoveDev kind 0 [(pFAB, rFAB_ID.off, 2 ^ 63)]; let m := aMirror
      let at_ := d.shardAt 0 m.entry; let e0 := ShardEntry.ofBytes (d.loadNew at_ 64)
      let data := [(e0.b, m.b.length), (e0.r, m.r.length), (e0.m, m.m.length)]
      let lies := fun t : Nat × Nat => d.placed t.1 (t.2 * e0.count) t.2 = true ∧ d.tierOk 0 (d.partWorld 0) t.1 (t.2 * e0.count) = true
      d.live = true ∧ d.hears = true ∧ m.entry < d.fld (pSTV 0) rSTV_SHARD.off 47 32 ∧ d.tierOk 0 (d.partWorld 0) at_ 64 = true ∧
        d.poisoned at_ 64 = false ∧ mirrorFits e0 m = (kind == kindMirror) ∧ lies (e0.b, 2) ∧ lies (e0.r, 1) ∧ lies (e0.m, 2) ∧
        (d.part 0).mirrorsDone = [] ∧ d.engineVisible = true ∧ Separate d ((at_ + 56, 5) :: data) := by
  unfold Separate Direct Apart
  decide +kernel

/-- Meets StoveEventsComplete, of a write into a window: the last whole word, one that runs past the end, and odd ones. -/
theorem witness_StoveEventsComplete_windows :
    (let d := stoveDev kindOwned 0; let n := d.winWidth 0 15; let at_ := d.winBuf 0 15 + n * (252 / 4); let hi := d.winBase 0 15 + 256
     d.live = true ∧ d.winOn 0 15 = true ∧ 252 < 4 * d.winN 0 15 ∧ 252 % 4 = 0 ∧ Direct d at_ n ∧ (d.part 0).heldAdds = [] ∧
       d.companionOwns at_ n = false ∧ d.poisoned at_ n = false ∧ 252 + 4 = 4 * d.winN 0 15 ∧ Separate d [(at_, n), (hi, 4)] ∧
       250 % 4 ≠ 0 ∧ 250 + 4 ≤ 4 * d.winN 0 15 ∧ 252 + 3 ≤ 4 * d.winN 0 15 ∧
       d.writable full (pSTV 0) (0x400 + 0x20 * 15) false = true ∧ d.writable full (pSTV 0) (0x400 + 0x20 * 15 + 24) false = true) ∧
    (let d := stoveDev kindOwned 0 [(pSTV 0, rSTV_WIN.at 15, 0)]
     let new := d.store8 full (pSTV 0) (0x400 + 0x20 * 15) rSTV_WIN 0x8000000000040000
     d.winOn 0 15 = false ∧ new.winSound 0 15 = true ∧ (d.store8 full (pSTV 0) (0x400 + 0x20 * 15) rSTV_WIN 1).winSound 0 15 = false) := by
  unfold Separate Direct Apart
  decide +kernel

/-! ### Witnesses: weights -/

/-- Slot 3 of partition 0 in a state, beside the partition's other loading state; registers added. -/
def loads (state : Nat) (w : Weights) (l : List (Nat × Nat × Nat) := []) : Dev :=
  { tiered fiveMapped ((pWGT 0, slotOff 3, state * 2 ^ 61) :: l) with parts := [(0, { weights := w })] }

/-- A command word of WGT_CMD for slot 3 and group 0. -/
def wcmd (op : Nat) (more : Nat := 0) : Word := BitVec.ofNat 64 (op * 2 ^ 60 + 3 * 2 ^ 58 + more)

/-- A manifest at 0x4000000 with one source and one chunk of one tile, for 0x8000000; the connection table at 0xC000000. -/
def manifests (d : Dev) : Dev :=
  let m := [0x5A, 0x53, 0x4D, 0x46] ++ natLe 2 1 ++ natLe 2 0 ++ natLe 4 1 ++ natLe 4 1 ++ natLe 8 0 ++ natLe 2 0 ++ natLe 2 1
    ++ natLe 4 0 ++ natLe 8 65536
  let c := natLe 8 (0x8000000 + 2 ^ 48) ++ natLe 8 0 ++ natLe 2 0 ++ natLe 2 0xFFFF ++ natLe 2 0xFFFF ++ natLe 2 0xFFFF
  memOn (memOn (memOn (memOn d 0x4000000 m) 0x4000102 [1]) 0x4000120 c) 0xC000000 [2, 2]

def manRegs : List (Nat × Nat × Nat) := [(pWGT 0, rWGT_MAN.off, 0x4000000), (pWGT 0, rWGT_CONN.off, 0xC00 + 2 ^ 32)]

/-- What the reads of a verify find. -/
def manGate (d : Dev) : Gate := (d.readGate (d.manifestRange 0 (d.fld (pWGT 0) rWGT_MAN.off 47 0))).2

/-- Meets EpochCommandsComplete: each command where it runs, where it waits, and where the state does not permit it. -/
theorem witness_EpochCommandsComplete :
    (let d := loads slFree {} [(pWGT 0, rWGT_SLOT_NREG.at 3, 2 ^ 32)]; let v := wcmd 1 0x800; let base := bits v.toNat 31 0 * 0x10000
     let d := memOn d base (natLe 8 (2 + 2 ^ 16))
     let n := d.fld (pWGT 0) (rWGT_SLOT_NREG.at 3) 44 32; let es := (List.range n).map fun k => d.loadNat (base + 8 * k) 8
     let rs := es.map fun e => (bits e 15 0, bits e 31 16)
     d.writable full (pWGT 0) rWGT_CMD.off true = true ∧ bits v.toNat 56 42 = 0 ∧ wgtSlot v = 3 ∧ wgtOp v = 1 ∧
       d.bit (pWGT 0) wgtSts 8 = false ∧ d.slotState 0 3 = slFree ∧ n = 1 ∧ d.tierOk 0 (d.partWorld 0) base (8 * n) = true ∧
       rs = [(2, 1)] ∧ (d.gran 2).valid = true ∧ (d.gran 2).part = 0 ∧ (d.readGate [(base, 8 * n)]).2 = .clear ∧
       ((owned d base).readGate [(base, 8 * n)]).2 = .wait ∧
       ∀ j, j < 4 → j ≠ 3 → d.slotState 0 j = slFree) ∧
    (let d := manifests (loads slLoading { localLoad := [3], regions := [(3, [(2, 1)])] } manRegs)
     let at_ := d.fld (pWGT 0) rWGT_MAN.off 47 0; let m := d.manifest at_
     wgtOp (wcmd 2) = 2 ∧ manGate d = .clear ∧ manGate (owned d 0x4000000) = .wait ∧ d.slotState 0 3 = slLoading ∧ (d.weights 0).localLoad.contains 3 = true ∧ d.manifestForm 0 at_ = true ∧ m.part = 0 ∧
       (m.member, m.members) = d.loadGroup 0 3 0 ∧ m.nchunk = 1 ∧
       inRegions (d.regionsOf 0 3) (d.chunk m at_ 0).dest (d.chunk m at_ 0).len = true) ∧
    (let d := loads slLoading {} [(pFAB, gsts 0, gReady * 2 ^ 60)]
     d.slotState 0 3 = slLoading ∧ d.groupState 0 = gReady ∧ (d.group 0).own = 0 ∧ d.bit (pWGT 0) wgtSts 8 = false ∧
       wgtLocal (wcmd 5 (2 ^ 57)) = true ∧ bits (wcmd 5 (2 ^ 57)).toNat 56 42 = 0) ∧
    (∀ failed ∈ [0, 2 ^ 60], let d := loads slLoading { commitSlot := some 3 } [(pWGT 0, slotOff 3, slLoading * 2 ^ 61 + failed)]
      d.slotState 0 3 = slLoading ∧ d.bit (pWGT 0) (slotOff 3) 60 = (failed != 0) ∧ (d.weights 0).localLoad.contains 3 = false ∧
        (d.weights 0).commitSlot = some 3 ∧ (d.weights 0).vote = none) ∧
    (∀ failed ∈ [0, 2 ^ 60], let d := loads slLoading { localLoad := [3] } [(pWGT 0, slotOff 3, slLoading * 2 ^ 61 + failed)]
      d.slotState 0 3 = slLoading ∧ d.bit (pWGT 0) (slotOff 3) 60 = (failed != 0) ∧ (d.weights 0).localLoad.contains 3 = true) ∧
    (∀ st ∈ [slLoading, slVoted], let d := loads st { commitSlot := some 3, vote := some true, groupOf := [(3, 1)] } [(pFAB, gsts 0, gReady * 2 ^ 60 + 2 ^ 54)]
      d.slotState 0 3 = st ∧ (d.weights 0).commitSlot = some 3 ∧ Tab.get (fun _ => 0) (d.weights 0).groupOf 3 = 0 + 1 ∧
        d.groupState 0 ≠ gFree ∧ (d.group 0).part = 0 ∧ d.bit pFAB (gsts 0) 54 = true) ∧
    (∀ op ∈ [1, 2, 3, 5, 6, 7, 8, 9, 10, 11], wgtOp (wcmd op) = op ∧ wgtSlot (wcmd op) = 3 ∧ bits (wcmd op).toNat 56 42 = 0) ∧
    (loads slOld {}).slotState 0 3 ≠ slFree ∧ (loads slOld {}).slotState 0 3 ≠ slLoading := by decide +kernel

/-- A fetch of slot 3 whose chunk 0 is in flight. -/
def fetches (f : Weights → Weights) : Dev :=
  manifests (loads slLoading (f { fetching := some 3, verified := [3], regions := [(3, [(2, 1)])], chunks := [⟨0, 0, 0, 0, 0, true⟩], nextChunk := 1 })
    ((pWGT 0, rWGT_SLOT_MAN.at 3, 0x4000000) :: (pWGT 0, rWGT_CTL.off, 2 ^ 32) :: manRegs))

/-- Slot 3 in a state, its commit opened in group 0 of two members and voted by this one, one round done. -/
def votes (st : Nat) (w : Weights) : Dev :=
  let d := loads st w [(pFAB, gsts 0, gReady * 2 ^ 60), (pFAB, rFAB_ID.off, 2 ^ 63)]
  { d with fab := { d.fab with groups := [(0, { members := [(0, 0, 0), (9, 0, 0)], commits := 1 })] } }

/-- Meets FetchAndVoteComplete: a fetch, an end and a timeout of the last attempt, a destination that is no longer open, and each
way to fail. -/
theorem witness_FetchAndVoteComplete :
    (let d := manifests (loads slLoading { verified := [3] } manRegs); let v := wcmd 3
     d.writable full (pWGT 0) rWGT_CMD.off true = true ∧ bits v.toNat 56 42 = 0 ∧ wgtOp v = 3 ∧ d.bit (pWGT 0) wgtSts 8 = false ∧
       d.slotState 0 (wgtSlot v) = slLoading ∧ (d.weights 0).verified.contains (wgtSlot v) = true ∧ (d.weights 0).held = none) ∧
    (let d := fetches id; let a := d.fetchMan 0; let x := d.chunk (d.manifest a) a 0
     wgtOp (wcmd 4) = 4 ∧ (d.weights 0).fetching = some (wgtSlot (wcmd 4)) ∧ d.live = true ∧ (d.tryOf 0 0).isSome = true ∧
       d.chunkOpen 0 x = true ∧ (d.setWeights 0 { d.weights 0 with regions := [] }).chunkOpen 0 x = false ∧
       x.len = 65536 ∧ d.tierOk 0 (d.partWorld 0) x.dest x.len = true ∧ Direct d x.dest x.len ∧ (d.weights 0).failing = false ∧
       d.tierOk 0 (d.partWorld 0) x.dest 1 = true ∧ Direct d x.dest 1 ∧
       d.maxAttempts 0 ≤ 0 + 1 ∧ 0 + d.fld (pWGT 0) rWGT_CTL.off 47 32 * 1000000 ≤ { d with ltc := 2 ^ 63 }.now) ∧
    (∀ f ∈ [fun w : Weights => { w with aborted := true, chunks := [] }, fun w => { w with failedChunk := some 0, chunks := [] },
        fun w => { w with refused := true, chunks := [], commitSlot := some 3 },
        fun w => { w with refused := true, chunks := [], commitSlot := some 3, vote := some true }],
      let d := fetches f
      d.live = true ∧ (d.weights 0).fetching = some 3 ∧ (d.weights 0).failing = true ∧ (d.weights 0).held = none ∧
        (∀ c ∈ (d.weights 0).chunks, c.inFlight = false) ∧ (d.weights 0).localLoad.contains 3 = false ∧ d.slotState 0 3 = slLoading) := by
  unfold Direct
  decide +kernel

/-- Meets FetchAndVoteComplete, of the vote: a slot that has failed and one that has not, another epoch, each outcome, and a
frozen member. -/
theorem witness_FetchAndVoteComplete_votes :
    (∀ failed ∈ [0, 2 ^ 60], let d := regsOn (votes slLoading {}) [(pWGT 0, slotOff 3, slLoading * 2 ^ 61 + failed)]
      d.live = true ∧ d.hears = true ∧ d.groupState 0 = gReady ∧ d.slotState 0 3 = slLoading ∧ d.epochNow 0 + 1 = 1 ∧
        d.bit (pWGT 0) (slotOff 3) 60 = (failed != 0) ∧ (d.weights 0).localLoad.contains 3 = false) ∧
    (∀ l ∈ [[], [3]], let d := loads slLoading { commitSlot := some 3, localLoad := l }
      (d.weights 0).commitSlot = some 3 ∧ (d.weights 0).vote = none ∧ (d.weights 0).deadline ≤ d.now) ∧
    (∀ y ∈ [true, false], let d := votes slVoted { commitSlot := some 3, vote := some y, voteRound := 1, allYes := y }
      d.live = true ∧ (d.weights 0).commitSlot = some 3 ∧ (d.weights 0).vote = some y ∧ (d.weights 0).frozen = false ∧
        d.voteRounds 0 ≤ (d.weights 0).voteRound) ∧
    (let d := votes slVoted { commitSlot := some 3, vote := some true, frozen := true, voteRound := 1 }; (d.weights 0).frozen = true) ∧
    (let d := votes slVoted { commitSlot := some 3, vote := some true, allYes := true }
     (d.group 0).part = 0 ∧ (d.group 0).votes = [] ∧ (d.weights 0).commitGroup = 0 ∧ (d.weights 0).voteRound + 1 = d.voteRounds 0 ∧
       (d.weights 0).voteRound < d.voteRounds 0) := by
  decide +kernel

theorem load_memOn_same (d : Dev) (a : Nat) (bs : List Byte) : (memOn d a bs).load a bs.length = bs := memLoad_memStore_same _ a bs

theorem load_memOn_other (d : Dev) (a : Nat) (bs : List Byte) (x n : Nat) (h : x + n ≤ a ∨ a + bs.length ≤ x) :
    (memOn d a bs).load x n = d.load x n := by
  show memLoad (memStore d.mem a bs) x n = memLoad d.mem x n
  apply List.ext_getElem
  · simp [memLoad_length]
  · intro i h1 h2
    have hi : i < n := by simpa [memLoad_length] using h1
    rw [memLoad_getElem, memLoad_getElem, memStore_get_other _ _ _ _ (by omega)]

theorem loadNat_memOn_other (d : Dev) (a : Nat) (bs : List Byte) (x n : Nat) (h : x + n ≤ a ∨ a + bs.length ≤ x) :
    (memOn d a bs).loadNat x n = d.loadNat x n := by
  show leNat ((memOn d a bs).load x n) = leNat (d.load x n)
  rw [load_memOn_other d a bs x n h]

/-- Chunk 0 of the manifest at 0x4000000, when the 48 bytes of its digest are written. -/
theorem chunk_memOn_digest (z : Dev) (bs : List Byte) (hn : bs.length = 48) (h1 : z.loadNat (0x4000000 + 8) 4 = 1) :
    (memOn z 0x4000140 bs).chunk ((memOn z 0x4000140 bs).manifest 0x4000000) 0x4000000 0 =
      { z.chunk (z.manifest 0x4000000) 0x4000000 0 with digest := bs } := by
  have hl : ∀ y n, y + n ≤ 0x4000140 ∨ 0x4000170 ≤ y → (memOn z 0x4000140 bs).load y n = z.load y n := fun y n h =>
    load_memOn_other _ _ _ _ _ (by rw [hn]; omega)
  have hN : ∀ y n, y + n ≤ 0x4000140 ∨ 0x4000170 ≤ y → (memOn z 0x4000140 bs).loadNat y n = z.loadNat y n := fun y n h =>
    loadNat_memOn_other _ _ _ _ _ (by rw [hn]; omega)
  have hd : (memOn z 0x4000140 bs).load 0x4000140 48 = bs := by
    have h := load_memOn_same z 0x4000140 bs
    rwa [hn] at h
  have hb : (z.manifest 0x4000000).chunkAt 0x4000000 0 = 0x4000120 := by
    have h : (z.manifest 0x4000000).nsrc = 1 := h1
    simp [Manifest.chunkAt, h]
  have hb' : ((memOn z 0x4000140 bs).manifest 0x4000000).chunkAt 0x4000000 0 = 0x4000120 := by
    have h : ((memOn z 0x4000140 bs).manifest 0x4000000).nsrc = 1 := by
      show (memOn z 0x4000140 bs).loadNat (0x4000000 + 8) 4 = 1
      rw [hN _ _ (by omega), h1]
    simp [Manifest.chunkAt, h]
  simp only [Dev.chunk, hb, hb', hd, Nat.reduceAdd]
  rw [hN _ _ (by omega), hN _ _ (by omega), hN _ _ (by omega), hl _ _ (by omega)]
  simp [List.range_succ, hN]

theorem chunkOpen_memOn (d : Dev) (a : Nat) (bs : List Byte) (p : Nat) (c : Chunk) (e : List Byte) :
    (memOn d a bs).chunkOpen p { c with digest := e } = d.chunkOpen p c := rfl

theorem len_digest (c : Chunk) (e : List Byte) : Chunk.len { c with digest := e } = c.len := rfl

theorem fetchMan_memOn (d : Dev) (a : Nat) (bs : List Byte) (p : Nat) : (memOn d a bs).fetchMan p = d.fetchMan p := rfl

theorem fetches_chunk : (fetches id).fetchMan 0 = 0x4000000 ∧ (fetches id).loadNat (0x4000000 + 8) 4 = 1 ∧
    (fetches id).chunkOpen 0 ((fetches id).chunk ((fetches id).manifest 0x4000000) 0x4000000 0) = true ∧
    ((fetches id).chunk ((fetches id).manifest 0x4000000) 0x4000000 0).len = 65536 := by decide +kernel

/-- Meets FetchAndVoteComplete, of a chunk that arrives: 65,536 bytes whose digest stands in its record. -/
theorem witness_FetchAndVoteComplete_digest (data : List Byte) (h : data.length = 65536) :
    let d := memOn (fetches id) 0x4000140 (Config.sha384 data); let x := d.chunk (d.manifest (d.fetchMan 0)) (d.fetchMan 0) 0
    d.chunkOpen 0 x = true ∧ data.length = x.len ∧ Config.sha384 data = x.digest := by
  have hn : (Config.sha384 data).length = 48 := by simp [Config.sha384, Config.bytes384]
  obtain ⟨ha, h1, ho, hl⟩ := fetches_chunk
  simp only [fetchMan_memOn, ha, chunk_memOn_digest _ _ hn h1, chunkOpen_memOn, len_digest, ho, hl, h, and_self]

/-- Granule 2 in re-fetch with its first tile poisoned: its record names slot 3, whose verified manifest covers the tile. -/
def stored : Dev :=
  let d := manifests (loads slLoading { verified := [3] } ([(pWGT 0, rWGT_SLOT_MAN.at 3, 0x4000000), (pETH 0, rETH_PORT.off, ethUp * 2 ^ 48),
    (pTIER, rTIER_PSRC.at 0, 0x10000)] ++ manRegs))
  let d := memOn d 0x10022 [2, 3]
  { d with poison := [0x200000],
           tier := { d.tier with map := fiveMapped.map fun x => (x.1, if x.1 = 2 then { x.2 with state := stRefetch } else x.2) } }

/-- Meets TierEventsComplete, of a tile asked for from storage: the first attempt starts, or is in progress and was the last. -/
theorem witness_TierEventsComplete_storage :
    (let d := stored; let x := d.gran 2
     d.live = true ∧ x.valid = true ∧ x.state = stRefetch ∧ (d.poisonTiles 2).contains 2048 = true ∧ d.tier.tried.contains 2048 = false ∧
       d.replicaTile 2 0 = none ∧ d.chunkOver 2048 = some (0x4000000, 0) ∧ d.nextAttempt x.part 0x4000000 0 0 = some (0, 0, 0, 0)) ∧
    (let d := { regsOn stored [(pWGT 0, rWGT_CTL.off, 2 ^ 32)] with eth := { stored.eth with refetch := [(2048, ⟨0, 0, 0, 0, 0, true⟩)] } }
     d.refetchTry 2048 = some ⟨0, 0, 0, 0, 0, true⟩ ∧ d.chunkTile 2048 [] = none ∧ d.nextAttempt 0 0x4000000 0 (0 + 1) = none) := by
  decide +kernel

/-- A descriptor of one BF16 record of 32 elements, from granule 1 into FP32 in granule 2; flags are added to word 0. -/
def conv (flags : Nat) : List Byte :=
  natLe 8 (0x4000000 + 2 ^ 48 + flags) ++ natLe 8 0x8000000 ++ natLe 8 0 ++ natLe 4 1 ++ natLe 4 32 ++ natLe 4 32 ++ natLe 4 0
    ++ natLe 4 0 ++ natLe 4 32 ++ natLe 8 0xC000000 ++ natLe 8 0

/-- The Flue of die 0, while slot 3 loads granule 2, or has voted. -/
def flues (f : Submitted → Flue) (flags : Nat := 0) (st : Nat := slLoading) : Dev :=
  { loads st { regions := [(3, [(2, 1)])] } with flues := [(0, f ⟨0, 0, some (conv flags)⟩)] }

/-- Meets FlueComplete: a sound descriptor, one of bad form, and one whose destination is not open; a stopped engine; ends with
and without a status word, whose data are visible and are not; and a group whose destination can be written. -/
theorem witness_FlueComplete :
    (∀ flags ∈ [0, 2 ^ 63], let d := flues (fun y => { queue := [y] }) flags; let y : Submitted := ⟨0, 0, some (conv flags)⟩
      d.live = true ∧ (d.flue 0).active = none ∧ (d.flue 0).queue = y :: [] ∧ d.inTest ukEngine (pFLUE 0) = false ∧
        (d.flueCheck y.part (FDesc.ofBytes (d.descBytes y)) = 0 ↔ flags = 0)) ∧
    (let d := flues (fun y => { queue := [y] }) 0 slVoted; let x := FDesc.ofBytes (conv 0)
     d.flueCheck 0 x = 3 ∧ d.flueOpen 0 x.dst x.dstLen = false) ∧
    (flues (fun y => { active := some y, held := true }) 0).flue 0 = { active := some ⟨0, 0, some (conv 0)⟩, held := true } ∧
    (∀ st ∈ [slLoading, slVoted], let d := flues (fun y => { active := some y, status := 3 }) 0 st; let x := FDesc.ofBytes (conv 0)
     let e := { d with tier := { d.tier with mig := [(2, { held := [(0x8000000, [1], false)] })] } }
     (d.flue 0).active = some ⟨0, 0, some (conv 0)⟩ ∧ (d.flue 0).held = false ∧ d.flueVisible x = true ∧ e.flueVisible x = false ∧
       x.sts ≠ 0 ∧ x.sts % 8 = 0 ∧
       d.rangeCode 0 (d.partWorld 0) x.sts 8 = 0 ∧ Direct d x.sts 8 ∧ (d.flue 0).status ≠ 0 ∧ d.slotState 0 3 = st ∧
       inRegions (d.regionsOf 0 3) x.dst 1 = true) ∧
    (FDesc.ofBytes (natLe 8 0)).sts = 0 ∧
    (let x := FDesc.ofBytes (conv 0); x.recipe = 0 ∧ Direct (flues (fun _ => {}) 0) (x.dst + 0 * Fmt.fp32.recordBytes x.kd) (32 * x.nk / 8)) := by
  unfold Direct
  decide +kernel

/-! ### Witnesses: the fabric -/

/-- A device at SL2 with ID 5, its port 23 up, five granules mapped and registers added. -/
def fabDev (l : List (Nat × Nat × Nat) := []) : Dev :=
  tiered fiveMapped ((pMOD, rMOD_SL.off, 0x32) :: (pFAB, rFAB_ID.off, 2 ^ 63 + 2 ^ 62 + 5) :: (pFAB, rFAB_PORT.at 23, portUp * 2 ^ 48) :: l)

/-- A packet for this device, the first of its flow. -/
def aPacket : Packet :=
  { dst := 5, src := 9, vc := 0, cls := 0, type := tySegment, ver := 1, fseq := 0, group := 0, part := 0, digest := 0, cseq := 0,
    place := 0x4000000, arg := 0, payload := [1] }

/-- Meets OnlyReservedPacketsStop: both reserved types fault, and the highest type that is not reserved does not. -/
theorem witness_OnlyReservedPacketsStop :
    (∀ t ∈ [14, 15], let d := fabDev; let q := { aPacket with type := t }
      d.live = true ∧ d.portState 23 = portUp ∧ d.bit pFAB rFAB_ID.off 63 = true ∧ q.dst = d.id ∧ 14 ≤ q.type ∧
       (BitVec.ofNat 32 (packetCrc q)).toNat = packetCrc q) ∧
    ¬ 14 ≤ ({ aPacket with type := tyAbort }).type := by decide +kernel

/-- A route to device 9 through port 23. -/
def route9 (d : Dev) : Dev := { d with fab := { d.fab with routes := [(9, 2 ^ 63 + 2 ^ 23)] } }

/-- Meets FabricPortsComplete: a port that trains, with and without its clock; one trained and up; sleeping ones; peers of each
kind. -/
theorem witness_FabricPortsComplete :
    (let d := fabDev [(pFAB, rFAB_PORT.at 23, portTraining * 2 ^ 48)]
     d.live = true ∧ 2 ≤ d.fld pMOD rMOD_SL.off 1 0 ∧ d.portState 23 = portTraining ∧ d.pow.refclkB = true ∧ d.widest 23 = some 0 ∧
       { d with pow := { d.pow with refclkB := false } }.pow.refclkB = false) ∧
    (let d := { fabDev with fab := { Fabric.reset with trained := [23], askSleep := [23] } }
     23 ∈ d.fab.trained ∧ d.portState 23 ≠ portAsleep ∧ d.portState 23 = portUp ∧ d.fab.askSleep.contains 23 = true ∧
       d.bit pFAB rFAB_ID.off 63 = true ∧ d.id = 5) ∧
    ((min 2 0 : Nat) < max 1 3 ∧ max 1 1 ≤ (min 2 2 : Nat)) ∧
    (let d := fabDev [(pFAB, rFAB_PORT.at 23, portUp * 2 ^ 48 + 2 * 2 ^ 59)]; d.fld pFAB (rFAB_PORT.at 23) 60 59 = 2 ∧ d.portState 23 = portUp) ∧
    (let d := route9 (fabDev [(pFAB, rFAB_PORT.at 23, portAsleep * 2 ^ 48)])
     let d := { d with fab := { d.fab with asleep := [{ aPacket with dst := 9 }] } }
     d.portState 23 = portAsleep ∧ { aPacket with dst := 9 } ∈ d.fab.asleep ∧ (d.routeOf 9).testBit 63 = true ∧ (d.routeOf 9).testBit 23 = true) ∧
    (let d := fabDev [(pFAB, rFAB_PORT.at 23, portUp * 2 ^ 48 + 2 ^ 59 + 2 * 2 ^ 44)]
     d.portState 23 = portUp ∧ d.fld pFAB (rFAB_PORT.at 23) 45 44 = 2 ∧ d.fld pFAB (rFAB_PORT.at 23) 60 59 = 1) := by decide +kernel

/-- Meets IdentityAndFloodsComplete: with and without a group, at a master and elsewhere. -/
theorem witness_IdentityAndFloodsComplete :
    (let d := fabDev; d.writable full pFAB rFAB_ID.off false = true ∧ d.anyGroup = false) ∧
    (fabDev [(pFAB, gsts 1023, gError * 2 ^ 60)]).anyGroup = true ∧
    (let d := route9 (fabDev [(pFAB, rFAB_STACK.off, 2 ^ 63 + 2 ^ 62 + 7 * 2 ^ 32)])
     let d := { d with fab := { d.fab with stack := [(15, 9 + 1)] } }
     d.live = true ∧ d.bit pFAB rFAB_STACK.off 63 = true ∧ d.bit pFAB rFAB_STACK.off 62 = true ∧ d.bit pFAB rFAB_ID.off 63 = true ∧
       d.pow.pwrGood = true ∧ d.pow.stopped = false ∧ d.floodFrom 7 true = true ∧ d.floodFrom 7 false = false ∧
       d.writable full pFAB rFAB_FLOOD.off true = true ∧ 9 ≠ d.id ∧ 9 ∉ d.fab.lost ∧ d.portTo 9 ≠ none ∧
       Tab.get (fun _ => 0) d.fab.stack 15 ≠ 0 ∧ Tab.get (fun _ => 0) d.fab.stack 0 = 0) ∧
    (bits (1 : Word).toNat 1 0 = 1 ∧ bits (2 : Word).toNat 1 0 = 2) ∧
    (let d := fabDev [(pFAB, rFAB_STACK.off, 7)]; d.floodFrom 7 false = true ∧ d.floodFrom 8 false = false) ∧
    (let d := fabDev [(pFAB, rFAB_RT_ADDR.off, 16383)]
     d.bit pFAB rFAB_STACK.off 63 = false ∧ d.writable full pFAB rFAB_RT_DATA.off false = true ∧ d.fld pFAB rFAB_RT_ADDR.off 13 0 = 16383) := by
  decide +kernel

/-- Meets FlowsComplete: packets in order, early and repeated at each end of the range, a put, and a flow that waits for an
acknowledgement before its last resend and after it. -/
theorem witness_FlowsComplete :
    (let d := fabDev; let f := d.flow 9 0; let q := aPacket
     d.live = true ∧ d.portState 23 = portUp ∧ d.hears = true ∧ (BitVec.ofNat 32 (packetCrc q)).toNat = packetCrc q ∧
       ((0 : BitVec 32).toNat ≠ packetCrc q) ∧ ({ q with dst := 6 }).dst ≠ d.id ∧ q.dst = d.id ∧
       q.type < 14 ∧ q.type ≠ tyHello ∧ q.type ≠ tyAck ∧ q.type ∈ [tyJoin, tyFlood, tyEmber, tySegment, tyMirror, tyAbort] ∧
       f.expect < 2 ^ 32 ∧ q.fseq < 2 ^ 32 ∧ (q.fseq + (2 ^ 32 - f.expect)) % 2 ^ 32 = 0 ∧ f.early = [] ∧
       (∀ n ∈ [1, 2 ^ 31 - 1], 0 < (n + (2 ^ 32 - f.expect)) % 2 ^ 32 ∧ (n + (2 ^ 32 - f.expect)) % 2 ^ 32 < 2 ^ 31) ∧
       2 ^ 31 ≤ (2 ^ 32 - 1 + (2 ^ 32 - f.expect)) % 2 ^ 32 ∧ 2 ^ 31 ≤ (2 ^ 31 + (2 ^ 32 - f.expect)) % 2 ^ 32) ∧
    (let d := fabDev; let q := { aPacket with type := tyPut }; let tgt := bits q.place 47 0; let m := q.payload.length
     d.tierOk q.part (d.partWorld q.part) tgt m = true ∧ Direct d tgt m) ∧
    (∀ r ∈ [7, 8], let d := { fabDev with fab := { Fabric.reset with flows := [(flowKey 9 7, { unacked := [aPacket], resends := r })] } }
      let f := d.flow 9 7; f.unacked ≠ [] ∧ d.retraining 9 = false ∧ f.resends = r) := by
  unfold Direct
  decide +kernel

/-- Group 1023 joins with device 9 since LTC 0, these arrivals heard. -/
def joining (joins : List (Nat × Nat × Nat)) : Dev :=
  { fabDev [(pFAB, gsts 1023, gJoining * 2 ^ 60)] with
    ltc := 2 ^ 48
    fab := { Fabric.reset with groups := [(1023, { members := [(5, 0, 0), (9, 0, 0)], joining := true, joins := joins })] } }

/-- Meets GroupsComplete: a create of one member that meets every check, one that waits for its member list, one of a group that is
not free, and joins heard whole, in part and with another check value. -/
theorem witness_GroupsComplete :
    (let v : Word := BitVec.ofNat 64 (2 ^ 60 + 1023)
     let d := memOn (fabDev [(pFAB, rFAB_GARG0.off, 0x4000000), (pFAB, rFAB_GARG1.off, 0x800 + 15 * 2 ^ 32 + 2 ^ 44)]) 0x4000000 (natLe 4 5)
     let g := bits v.toNat 9 0; let n := d.fld pFAB rFAB_GARG0.off 61 48 + 1; let list := d.fld pFAB rFAB_GARG0.off 47 0
     let part := d.fld pFAB rFAB_GARG1.off 59 54; let nbuf := d.fld pFAB rFAB_GARG1.off 43 32 + 1
     let base := d.fld pFAB rFAB_GARG1.off 31 0 * 0x10000; let dom := d.fld pFAB rFAB_ID.off 57 48; let l := (d.memberList list n).1
     d.writable full pFAB rFAB_GCMD.off true = true ∧ d.bit pFAB gcmdSts 8 = false ∧ bits v.toNat 59 10 = 0 ∧ bits v.toNat 63 60 = 1 ∧
       d.groupState g = gFree ∧ 16 ≤ nbuf ∧ list % 4 = 0 ∧ d.tierOk part (d.partWorld part) list (4 * n) = true ∧
       (d.readGate [(list, 4 * n)]).2 = .clear ∧ ((owned d list).readGate [(list, 4 * n)]).2 = .wait ∧
       (d.memberList list n).2 = false ∧ d.bit pFAB rFAB_ID.off 62 = true ∧ d.hears = true ∧
       l[0]? = some (d.id, dom, part) ∧ (∀ m ∈ l, m.2.1 = dom) ∧ n = 1 ∧
       d.tierOk part (d.partWorld part) base (nbuf * 0x10000) = true) ∧
    (fabDev [(pFAB, gcmdSts, 256)]).bit pFAB gcmdSts 8 = true ∧ (bits (2 ^ 61 : Word).toNat 63 60 = 2) ∧
    (let d := joining []; let x := d.group 1023
     d.live = true ∧ d.groupState 1023 = gJoining ∧ d.groupState 1023 ≠ gFree ∧ x.joining = true ∧ x.joinHeard ≠ barrierRounds x.size ∧
       x.joinStart + d.fld pFAB rFAB_CTL.off 31 16 * 1000 ≤ d.now) ∧
    (let x := (joining [(0, ((joining []).group 1023).listCrc, 1)]).group 1023
     x.joinHeard = barrierRounds x.size ∧ (∀ j ∈ x.joins, j.2.1 = x.listCrc)) ∧
    (let x := (joining [(0, 2 ^ 32, 2)]).group 1023; x.joinHeard = barrierRounds x.size ∧ ∃ j ∈ x.joins, j.2.1 ≠ x.listCrc) := by
  decide +kernel

/-- A descriptor of an operation on group 0 at engine 0: 64 bytes at 0x4000000 to 0x8000000, status at 0xC000000; with a block
table, that stands at 0x64. -/
def collBytes (op : Nat) (table : Bool := false) : List Byte :=
  natLe 8 (op + b2n table * 2 ^ 11) ++ natLe 8 0x4000000 ++ natLe 8 0x8000000 ++ natLe 8 64 ++ natLe 8 0xC000000 ++ List.replicate 24 0

def collDesc (op : Nat) : BDesc :=
  { op := op, fmt := 0, rop := 0, turn := false, tbl := false, phase := 0, group := 0, eng := 0, root := 0, src := 0x4000000,
    dst := 0x8000000, len := 64, sts := 0xC000000, ember := 0 }

/-- A collective of two members' blocks that has started. -/
def aColl (op : Nat) : Collective :=
  { desc := collDesc op, blocks := [(0, 64), (64, 64)], part := 0, cseq := 0, digest := 0, started := true }

/-- It is in progress, changed by f, in a ready group 0 of two with 16 buffers at 0x10000000. -/
def collDev (op : Nat) (f : Collective → Collective := id) : Dev :=
  let g : Group := { members := [(5, 0, 0), (9, 0, 0)], active := [f (aColl op)], bufBase := 0x10000000, nbuf := 16 }
  { fabDev [(pFAB, gsts 0, gReady * 2 ^ 60)] with fab := { Fabric.reset with groups := [(0, g)] } }

/-- A segment of block 0 from a device. -/
def aSeg (digest : Nat) (gather : Bool) (src : Nat := 9) : Segment :=
  { group := 0, cseq := 0, digest := digest, src := src, port := 23, block := 0, seg := 0, gather := gather, data := List.replicate 64 0 }

/-- What a Bellows engine meets at its descriptor and at the block table. -/
def lineGate (d : Dev) (y : Submitted) : Gate := (d.readGate [(y.addr, 64)]).2
def blockGate (d : Dev) (y : Submitted) : Gate := (d.readGate (d.tableOf y.part (d.descBytes y))).2

/-- Meets BellowsComplete, of submissions and descriptors: with and without bytes, a line and a block table that wait or are lost,
and descriptors that fail and pass their checks. -/
theorem witness_BellowsComplete :
    (let d := fabDev; d.writable full pFAB (rFAB_BLW_SUB.at 3) true = true ∧ (d.bellowsQueue 3).length < 64) ∧
    64 ≤ ((fabDev.setBellowsQueue 3 (List.replicate 64 ⟨0, 0, none⟩)).bellowsQueue 3).length ∧
    (let y : Submitted := ⟨2 ^ 47, 0, none⟩; let d := fabDev.setBellowsQueue 0 [y]
     d.live = true ∧ 2 ≤ d.fld pMOD rMOD_SL.off 1 0 ∧ d.inTest ukEngine (pBLW 0) = false ∧ d.busyGroups 0 < 64 ∧
       d.bellowsQueue 0 = y :: [] ∧ y.bytes = none ∧ d.tierOk y.part (d.partWorld y.part) y.addr 64 = false) ∧
    (let y : Submitted := ⟨0x4000000, 0, none⟩; let d := fabDev.setBellowsQueue 0 [y]
     d.tierOk y.part (d.partWorld y.part) y.addr 64 = true ∧ lineGate d y = .clear ∧ lineGate (owned d 0x4000000) y = .wait) ∧
    (let y : Submitted := ⟨0, 0, some (collBytes opAllGather true)⟩; let d := (collDev 1).setBellowsQueue 0 [y]
     blockGate d y = .clear ∧ blockGate (spoilt d 64) y = .bad) ∧
    (∀ op ∈ [0, 1], let y : Submitted := ⟨0, 0, some (collBytes op)⟩; let d := (collDev 1).setBellowsQueue 0 [y]; let bs := d.descBytes y
      let sts := leNat ((bs.drop 32).take 8)
      y.bytes ≠ none ∧ blockGate d y = .clear ∧ sts ≠ 0 ∧ sts % 8 = 0 ∧ d.tierOk y.part (d.partWorld y.part) sts 8 = true ∧ Direct d sts 8 ∧
        (match d.checkDesc 0 y.part bs with | .inl st => op == 0 && st == 1 | .inr _ => op == 1) = true) := by
  unfold Direct
  decide +kernel

/-- Meets BellowsComplete, of segments: of a collective that was aborted, that has completed, that is to come, of another digest,
and that runs, with a slot and without. -/
theorem witness_BellowsComplete_segments :
    (let d := fabDev [(pFAB, gsts 0, gReady * 2 ^ 60)]
     let e := { d with fab := { d.fab with groups := [(0, { bufBase := 0x10000000, nbuf := 16 })] } }
     let z := { d with fab := { d.fab with groups := [(0, { aborts := [(0, 6)] })] } }
     d.live = true ∧ d.hears = true ∧ d.groupState 0 = gReady ∧ (e.group 0).find 0 = none ∧ (e.group 0).aborted 0 = false ∧
       e.completed 0 0 = false ∧ (e.group 0).freeBuffer = some 0 ∧ Direct e ((e.group 0).bufAt 0) (aSeg 0 false).data.length ∧
       (z.group 0).aborted 0 = true ∧ (regsOn e [(pFAB, gsts 0, gReady * 2 ^ 60 + 1)]).completed 0 0 = true) ∧
    (∀ op ∈ [opReduceScatter, opAllGather], ∀ from_ ∈ [9, 8], let d := collDev op; let sg := aSeg 0 (op == opAllGather) from_
      let c := aColl op; let m := (c.segAt 0 sg.block sg.seg).2; let src := (c.segAt c.desc.src sg.block sg.seg).1
      let dst := c.dstAt sg.block sg.seg; let slot := d.slotFor c sg; let x := d.group 0
      let buf := if slot = none then x.freeBuffer.toList.map fun b => (x.bufAt b, m) else []
      (d.group 0).find 0 = some c ∧ c.digest ≠ (aSeg 1 false).digest ∧ c.digest = sg.digest ∧ c.started = true ∧ c.stopped = none ∧
          c.done.contains (segKey sg.block sg.seg sg.gather) = false ∧ sg.data.length = m ∧ 0 < m ∧ Separate d ((dst, m) :: buf) ∧
          (∀ r ∈ buf, Apart r.1 r.2 src m) ∧ x.own = sg.block ∧ (d.readGate [(src, m)]).2 = .clear ∧ m % 4 = 0 ∧
          (slot = none ↔ from_ = 8 ∨ op = opAllGather) ∧ c.desc.op = op) := by
  unfold Separate Direct Apart
  decide +kernel

/-- Meets BellowsComplete, of completions, visible and not, of aborts of a collective in progress and of one to come, of stopped
collectives, of remote embers and of counts. -/
theorem witness_BellowsComplete_ends :
    (let d := collDev opBroadcast fun c => { c with done := [segKey 0 0 true] }
     d.live = true ∧ d.hears = true ∧ d.groupState 0 = gReady ∧ ((d.group 0).active.find? (d.collDone 0)).isSome = true ∧
       Direct d 0xC000000 8 ∧ d.collVisible 0 = true ∧ (oneHeld d).collVisible 0 = false ∧
       ((d.group 0).find 0).isSome = true ∧ (1 : Byte).toNat ≠ 8 ∧
       (d.group 0).find 1 = none ∧ (d.group 0).aborted 1 = false ∧ d.completed 0 1 = false) ∧
    (let d := collDev opBroadcast fun c => { c with stopped := some (0x4000000, 64) }
     let c := { aColl opBroadcast with stopped := some (0x4000000, 64) }
     let gate := fun (e : Dev) => (e.readGate (c.reads 0 2)).2
     (d.group 0).active.filter (·.stopped.isSome) = [c] ∧ (d.group 0).own = 0 ∧ (d.group 0).size = 2 ∧ c.started = true ∧
       gate d = .clear ∧ gate (owned d 0x4000000) = .wait ∧ gate (spoilt d 0x4000000) = .bad) ∧
    (let d := fabDev [(pPART 0, rPART_EMB.off, 16 * 2 ^ 32), (pEMB 0, cfgOff 0, 0), (pEMB 0, cfgOff 1, ebBarrier * 2 ^ 62 + 3),
       (pEMB 0, cfgOff 2, ebEvent * 2 ^ 62), (pEMB 0, cfgOff 4, ebBarrier * 2 ^ 62)]
     d.live = true ∧ d.hears = true ∧ d.ownsEmber 0 16 = false ∧ d.ownsEmber 0 15 = true ∧ d.emberKind 3 = ebOff ∧
       (∀ m ∈ [0, 1, 2], d.ownsEmber 0 m = true ∧ d.emberRemote m = false ∧ d.emberKind m = m) ∧
       d.emberValue 0 + 1 < 2 ^ 64 ∧ d.emberParties 1 ≠ 0 ∧ d.emberKind 4 = ebBarrier ∧ d.emberParties 4 = 0) ∧
    (fabDev.writable full pFAB rFAB_STAT.off false = true ∧ fabDev.writable full pFAB (rFAB_PERR.at 23) false = true) := by
  unfold Direct
  decide +kernel

/-! ### Witnesses: the Vexio Link -/

/-- Port 1 enabled and up at version 2 with feature 0, SL1, five granules mapped; registers added and the link's state changed. -/
def vexDev (f : Vexio → Vexio := id) (l : List (Nat × Nat × Nat) := []) : Dev :=
  let d := tiered fiveMapped ((pMOD, rMOD_SL.off, 0x31) :: (pVEX, rVEX_PORT.at 1, 2 ^ 63 + 2 ^ 61 + vxUp * 2 ^ 48 + 2 * 2 ^ 46 + 1) :: l)
  { d with vex := f d.vex }

/-- Both ports down. -/
def vexDown (f : Vexio → Vexio := id) : Dev := vexDev f [(pVEX, rVEX_PORT.at 1, 2 ^ 63), (pVEX, rVEX_PORT.at 0, 2 ^ 63)]

/-- Nothing is held, and no pop waits with a notice to return. -/
def quiet (d : Dev) : Bool :=
  d.vex.heldReqs.isEmpty && (List.range 64).all fun p => (d.part p).notices.held.isEmpty || (d.part p).notices.oldest.isNone

/-- Meets VexioLinkComplete: an exchange that agrees, with and without the link lost, and ones that do not, on a port that carries
and on one that does not; each state of a port; and a lost link with lines, reads, writes, messages and pops. -/
theorem witness_VexioLinkComplete :
    (let d := vexDev id [(pVEX, rVEX_PORT.at 0, 2 ^ 63)]; let v := d.fld pVEX (rVEX_PORT.at 1)
     d.live = true ∧ d.bit pVEX (rVEX_PORT.at 0) 63 = true ∧ d.pow.refclkB = true ∧ d.vexState 0 ≠ vxAsleep ∧ d.vexCarries 1 = true ∧
       d.vexCarries 0 = false ∧ d.bit pVEX (rVEX_PORT.at 1) 63 = true ∧ d.vexState 1 ≠ vxAsleep ∧
       max 1 1 ≤ min 2 2 ∧ v 47 46 = min 2 2 ∧ v 2 0 = bits (1 : Word).toNat 2 0 ∧ v 47 46 ≠ min 2 1 ∧ ¬ max 1 3 ≤ min 2 4 ∧
       1 ≤ d.fld pMOD rMOD_SL.off 1 0 ∧ d.vex.linkLost = false ∧ quiet d = true) ∧
    (let d := vexDown fun x => { x with linkLost := true }
     let d := regsOn { d with parts := [(0, { notices := { held := [5] } })] } [(pVWQ 0, rVWQ_WQ.at 15, 2 ^ 63)]
     d.vex.linkLost = true ∧ quiet d = true ∧ d.wqOn 0 15 = true ∧ d.vexCarries 1 = false) ∧
    (let d := vexDev; d.live = true ∧ d.vexState 1 = vxUp ∧ d.fld pVEX (rVEX_PORT.at 1) 62 61 = 1 ∧ d.fld pVEX (rVEX_PORT.at 1) 47 46 = 2) ∧
    (let d := vexDev id [(pVEX, rVEX_PORT.at 1, vxAsleep * 2 ^ 48)]; d.vexState 1 = vxAsleep ∧ quiet d = true) ∧
    (vexDev id [(pVEX, rVEX_PORT.at 1, vxIncompatible * 2 ^ 48)]).vexState 1 = vxIncompatible ∧
    (let d := vexDown fun x => { x with lostAt := some 0, filter := [(1, true), (2, false)], reads := [(windowBase, 64), (0x1FFFFFFFFFC0, 64)],
                                        writes := [⟨1, 0, windowBase, [1]⟩], heldOut := [.companionError none 0 1 true], heldReqs := [.pop 0] }
     d.live = true ∧ d.vexCarries 0 = false ∧ d.vexCarries 1 = false ∧ d.vex.lostAt = some 0 ∧ 0 ≤ d.now ∧
       d.vex.filter.filter (·.2) = [(1, true)] ∧ (∀ y ∈ d.vex.reads, windowBase ≤ y.1 ∧ y.1 + y.2 ≤ 0x200000000000) ∧
       (d.vex.reads.map fun y => y.2 / 64 + 2).sum ≤ linkCacheLines) ∧
    (let d := vexDev; d.writable full pVEX (rVEX_VEC.at 511) false = true ∧ d.writable full pVEX rVEX_STS.off false = true) := by
  decide +kernel

/-- Meets CompanionTrafficComplete: the last bytes that are there and the first that are not, under a base of the aperture and
below it; both worlds; coherence; and the window's first and last bytes. -/
theorem witness_CompanionTrafficComplete :
    (let d := vexDown; d.live = true ∧ 1 ≤ d.fld pMOD rMOD_SL.off 1 0 ∧ d.vexUp = false ∧
      d.reached (.read 64 64) = some (.read 64 64) ∧ whereIs 64 ≠ .regs) ∧
    (let d := vexDev id [(pVEX, rVEX_WIN_D.off, 2 ^ 48)]; let a := 0x13FFFFC0; let c := 2 ^ 48 + a
     d.live = true ∧ d.vexUp = true ∧ d.fromCompanion c = some a ∧ d.fromCompanion (2 ^ 48 - 1) = none ∧ c < 2 ^ 64 ∧
       d.rd pVEX rVEX_WIN_D.off + (2 ^ 48 - 1) < 2 ^ 64 ∧ 64 * (c / 64) = c ∧
       d.companionCode true a 64 = 0 ∧ d.scratchBusy a 64 false = false ∧ d.poisoned a 64 = false ∧ d.switching a 64 = none ∧
       Direct d a 64 ∧ d.companionCode true 0x14000000 64 ≠ 0 ∧ whereIs 0x14000000 ≠ .regs ∧ d.companionCode false a 64 ≠ 0 ∧
       d.bit pVEX rERR_LOG0.off 63 = false ∧ d.vexFeature 0 = true ∧ a / 64 * 64 < 0x030000000000 ∧
       (d.vex.filter.filter fun x => x.1 % 2 == a / 64 % 2 && x.1 != a / 64).length < filterSize) ∧
    (let d := vexDev fun x => { x with filter := [(3, true)], written := [200] }
     (3, true) ∈ d.vex.filter ∧ d.vex.heldReqs = [] ∧ Direct d (3 * 64) 64 ∧ 3 * 64 + 8 ∈ d.vex.written ∧
       d.fromCompanion (64 * 3) = some (3 * 64)) ∧
    (let d := vexDev fun x => { x with cached := [0x4000000000] }
     d.reached (.recall 0) = some (.recall 0x4000000000) ∧ (NSet.addRange d.vex.cached 0x4000000000 1).length ≤ linkCacheLines) ∧
    (windowBase ≤ windowBase ∧ windowBase < 0x200000000000 ∧ windowBase ≤ 0x1FFFFFFFFFFF ∧ 0x1FFFFFFFFFFF < 0x200000000000) := by
  unfold Direct
  decide +kernel

/-- Meets CompanionTrafficComplete, of register space: a plain register, a doorbell, a reserved page and VEX_CTL. -/
theorem witness_CompanionTrafficComplete_registers :
    let d := vexDev; let a : Access := ⟨.companion, true, .full⟩; let place := fun page off => 0x0C0000000000 + page * 0x10000 + off
    (∀ x ∈ [(pVEX, rVEX_CTL.off), (pVWQ 63, rVWQ_DB.at 15), (0xFFFF, 0)],
      x.1 < 0x10000 ∧ x.2 < 0x10000 ∧ x.2 % 8 = 0 ∧ d.fromCompanion (place x.1 x.2) = some (place x.1 x.2)) ∧
    ((pageOf pVEX).isSome = true ∧ reservedAt pVEX rVEX_CTL.off = false ∧ windowPage pVEX = false ∧
      ownCommand a pVEX rVEX_CTL.off 0 = false ∧ d.writable a pVEX rVEX_CTL.off false = true) ∧
    pageOf 0xFFFF = none ∧ windowPage 0xFFFF = false := by
  decide +kernel

/-- Queue 15 of partition 0 at granule 1, 16 entries, enabled, pi 2^32 - 1, granted 2 more; registers added. -/
def wqDev (l : List (Nat × Nat × Nat) := []) (n : Notices := {}) : Dev :=
  let d := vexDev id ([(pVWQ 0, rVWQ_WQ.at 15, 2 ^ 63 + 4 * 2 ^ 48 + 0x4000000), (pVWQ 0, rVWQ_DB.at 15, 2 ^ 32 + (2 ^ 32 - 1)),
    (pPART 0, ctxReg 0, 2 ^ 63)] ++ l)
  { d with parts := [(0, { notices := n })] }

/-- An access of the companion. -/
def fromLink : Access := ⟨.companion, true, .full⟩

/-- Meets WorkQueuesComplete: doorbells at each end of the grant, queues on and off, sound and not; accesses of the companion held
by the link and behind what waits; entries for a context on, off and full; pops with a notice, held, and empty; and the second of
two holds that ends first. -/
theorem witness_WorkQueuesComplete :
    (let d := regsOn (wqDev) [(pVEX, rVEX_PORT.at 1, 2 ^ 63)]
     d.reachable (pVWQ 0) = true ∧ d.worldOk fromLink (pVWQ 0) = true ∧ d.classX fromLink = true) ∧
    (let d := wqDev; let e := { d with vex := { d.vex with heldReqs := [.memory true (.read 0 8)] } }
     d.writable fromLink (pVWQ 0) (rVWQ_DB.at 15) true = true ∧ d.classX fromLink = false ∧ d.classX full = false ∧
       (e.vex.heldReqs.any fun y => match y with | .memory _ _ => true | _ => false) = true) ∧
    (let d := wqDev; let pi := d.wqPi 0 15; let ahead := fun n => (n + (2 ^ 32 - pi)) % 2 ^ 32; let room := ahead (d.wqGrant 0 15)
     d.writable full (pVWQ 0) (rVWQ_DB.at 15) true = true ∧ d.wqOn 0 15 = true ∧ d.wqOn 0 14 = false ∧ room = 2 ∧
       (∀ n ∈ [2 ^ 32 - 1, 0, 1], ahead n ≤ room) ∧ ahead 2 ≠ 0 ∧ room < ahead 2 ∧ d.live = true ∧
       d.writable full (pVWQ 0) (rVWQ_WQ.at 15) false = true) ∧
    (let d := wqDev [(pVWQ 0, rVWQ_WQ.at 15, 0)]; let new := fun v => d.store8 full (pVWQ 0) (rVWQ_WQ.at 15) rVWQ_WQ v
     d.wqOn 0 15 = false ∧ (new 0x8004000004000000).wqSound 0 15 = true ∧ (new 0x8003000004000000).wqSound 0 15 = false) ∧
    (∀ cx ∈ [0, 1], let d := memOn (wqDev []) 0x4000008 [BitVec.ofNat 8 cx]
      let at_ := d.wqEntry 0 15; let t := TaskDesc.ofBytes (d.load at_ 64)
      d.wqCi 0 15 ≠ d.wqPi 0 15 ∧ d.companionOwns at_ 64 = false ∧ d.poisoned at_ 64 = false ∧ t.context = cx ∧
        d.ctxOn 0 t.context = (cx == 0) ∧ d.queueFull 0 t.context (d.wqTq 0 15) = false) ∧
    (wqDev [(pPART 0, rPART_TQOCC.at 0, 255)]).queueFull 0 0 0 = true ∧
    (let d := wqDev [] { classes := [(7, [5])] }; (d.part 0).notices.oldest = some (7, 5) ∧
      d.writable full (pVWQ 0) rVWQ_NPOP.off false = true ∧ d.writable low (pVWQ 0) rVWQ_NPOP.off false = true ∧ low.width ≠ .full) ∧
    (let d := wqDev [(pVWQ 0, rVWQ_NCTL.off, 2 ^ 48)]
     (d.part 0).notices.oldest = none ∧ d.fld (pVWQ 0) rVWQ_NCTL.off 63 48 ≠ 0 ∧ d.vexVersion = 2 ∧ (d.part 0).notices.held.length < 16) ∧
    (wqDev.fld (pVWQ 0) rVWQ_NCTL.off 63 48 = 0 ∧ vexDown.vexVersion ≠ 2) ∧
    (let d := wqDev [] { held := [5, 0] }
     d.vexUp = true ∧ (d.part 0).notices.held[1]? = some 0 ∧ 0 ≤ d.now ∧ (d.part 0).notices.held[0]? = some 5 ∧ d.now < 5) := by
  decide +kernel


/-! ### Witnesses: DMA channels, partitions and embers -/

/-- DMA channel c of partition 0 at SL3, with the descriptor bs at ring entry 0, of which granule 0 is mapped. -/
def chDev (c state head tail : Nat) (bs : List Byte := []) (ctl : Nat := 2 ^ 63 + 2 ^ 60) : Dev :=
  memOn { dr [(pMOD, rMOD_SL.off, 3), (pDMA c, chOff c rDMA_CTL, ctl), (pDMA c, chOff c rDMA_STAT, state),
    (pDMA c, chOff c rDMA_IDX, tail + head * 2 ^ 32)] with tier := mapped } 0 bs

/-- A descriptor of 64 bytes from 0x2000 to 0x1000 with this word 5, owned by the channel. -/
def chDesc (w5 : Nat) : List Byte :=
  natLe 8 0x2000 ++ natLe 8 0x1000 ++ natLe 8 (64 + 2 ^ 32) ++ natLe 8 0 ++ natLe 8 0x1122 ++ natLe 8 w5 ++ natLe 8 0 ++ natLe 8 (2 ^ 63)

/-- The channel runs that descriptor. -/
def chRun (c w5 : Nat) (f : DmaRun → DmaRun) (abort : Bool := false) : Dev :=
  (chDev c chRunning 0 1 (chDesc w5)).setChan c { run := some (f ⟨chDesc w5, 0, 0, 64, 0, 0, false, false, false, 0⟩), abort := abort }

/-- A descriptor that fences (bit 10 of word 5) or needs the unit, at the channel's head, is sound. -/
def chSound (d : Dev) (c : Nat) : Bool :=
  let x := DmaDesc.ofBytes (d.load (d.chEntry c 0) 64); x.own && d.dmaCheck c x == 0

/-- Meets DmaChannelsComplete: tails at both ends of the range, each command of the control register in each state it
acts in, and a descriptor that is misplaced, not owned, refused, and sound, with and without a fence and the unit. -/
theorem witness_DmaChannelsComplete :
    (∀ x ∈ [(0, 0), (191, 65530)], let c := x.1; let d := chDev c chIdle x.2 x.2; let dist := fun new => (new + 65536 - d.chTail c) % 65536
      let used := (d.chTail c + 65536 - d.chHead c) % 65536
      d.writable full (pDMA c) (chOff c rDMA_IDX) true = true ∧ dist x.2 = 0 ∧ (dist ((x.2 + 4) % 65536) ≠ 0 ∧
        used + dist ((x.2 + 4) % 65536) ≤ d.chSize c) ∧ d.chSize c < used + dist ((x.2 + 5) % 65536)) ∧
    (∀ st ∈ [chIdle, chStalled, chStopped, chError], let d := chDev 191 st 0 1
      d.writable full (pDMA 191) (chOff 191 rDMA_CTL) false = true ∧ d.chOn 191 = true ∧ writesBit full 0 63 false = true ∧
        (d.chan 191).run = none ∧ d.chState 191 = st ∧ (2 ^ 63 + 2 ^ 62 : Word).toNat.testBit 63 = true ∧
        writesBit full (2 ^ 63 + 2 ^ 62) 62 true = true ∧ (2 ^ 63 + 2 ^ 62 : Word).toNat.testBit 61 = false ∧
        writesBit full (2 ^ 63 + 2 ^ 61) 61 true = true ∧ (2 ^ 63 + 2 ^ 61 : Word).toNat.testBit 62 = false) ∧
    (let d := chDev 0 chDisabled 0 0 [] 0
     d.writable full (pDMA 0) (chOff 0 rDMA_CTL) false = true ∧ d.chOn 0 = false ∧ writesBit full (2 ^ 63) 63 true = true) ∧
    (let d := chRun 0 2 id; d.chOn 0 = true ∧ ((d.chan 0).run).isSome = true) ∧
    (∀ c ∈ [0, 191], let d := chDev c chRunning 0 1 (chDesc 2); let bs := d.load (d.chEntry c 0) 64; let x := DmaDesc.ofBytes bs
      d.live = true ∧ d.chState c = chRunning ∧ d.chServes c = true ∧ d.inTest ukDma c = false ∧ (d.chan c).run = none ∧
        d.chHead c ≠ d.chTail c ∧ d.dmaMay c (d.chEntry c 0) 64 = true ∧ whereIs (d.chEntry c 0) = .tier ∧
        d.dmaHere c (d.chEntry c 0) 64 = (d, true) ∧ d.switching (d.chEntry c 0) 64 = none ∧ x.fence = false ∧ d.poisoned (d.chEntry c 0) 64 = false ∧ x.own = true ∧ d.dmaCheck c x = 0 ∧
        x.mode = mdNone) ∧
    (let d := { chDev 0 chRunning 0 1 (chDesc 2) with tier := Tier.reset }; d.chHead 0 ≠ d.chTail 0 ∧ d.dmaMay 0 (d.chEntry 0 0) 64 = false) ∧
    (let d := chDev 0 chRunning 0 1; d.dmaMay 0 (d.chEntry 0 0) 64 = true ∧ (DmaDesc.ofBytes (d.load (d.chEntry 0 0) 64)).own = false) ∧
    (let d := chDev 0 chRunning 0 1 (chDesc 0); let x := DmaDesc.ofBytes (d.load (d.chEntry 0 0) 64)
     d.dmaMay 0 (d.chEntry 0 0) 64 = true ∧ x.own = true ∧ d.dmaCheck 0 x ≠ 0) ∧
    (let d := { chDev 0 chRunning 0 1 with regs := (regsOn (chDev 0 chRunning 0 1) [(pDMA 0, chOff 0 rDMA_RING, scratchAddr 0 0)]).regs }
     whereIs (d.chEntry 0 0) = .scratch 0) ∧
    (let d := chDev 0 chRunning 0 1 (chDesc (2 + 2 ^ 10)); let e := oneHeld d
     chSound d 0 = true ∧ (DmaDesc.ofBytes (d.load (d.chEntry 0 0) 64)).fence = true ∧ d.dmaVisible 0 = true ∧ e.dmaVisible 0 = false) ∧
    (let d := chDev 0 chRunning 0 1 (chDesc (2 + 16)); let e := regsOn d [(pDMA 0, chClaim 0, 2 ^ 63 + 0xFF * 2 ^ 48)]
     chSound d 0 = true ∧ (DmaDesc.ofBytes (d.load (d.chEntry 0 0) 64)).mode ≠ mdNone ∧ d.held (pDMA 0) (chClaim 0) = false ∧
       e.held (pDMA 0) (chClaim 0) = true ∧ e.holds (pDMA 0) (chClaim 0) dmaHolder 0 = false) := by
  refine ⟨?_, ?_, ?_, ?_, ?_, ?_, ?_, ?_, ?_, ?_, ?_⟩ <;> decide +kernel

/-- Meets DmaDescriptorsComplete: a fill and a copy, the last retry and the end of retries, descriptors finished with each
status and mode, and feeds by a holder and not. -/
theorem witness_DmaDescriptorsComplete :
    (∀ w5 ∈ [opFill, opCopy], let d := chRun 0 w5 id; let x := DmaDesc.ofBytes (chDesc w5); let b := x.burst 0
      d.live = true ∧ (d.chan 0).abort = false ∧ ((d.chan 0).run.map (·.finished)) = some false ∧ x.mode = mdNone ∧ x.op = w5 ∧
        d.burstMay 0 x b true = true ∧ { d with tier := Tier.reset }.burstMay 0 x b true = false ∧
        d.burstReady 0 x b true = (d, true) ∧ Direct d b.2.1 b.2.2 ∧ whereIs b.1 ≠ .companion ∧ d.switching b.1 b.2.2 = none ∧
        d.poisoned b.1 b.2.2 = false) ∧
    (let d := spoilt (chRun 0 opCopy id) 0x2000; let d := { d with tier := { d.tier with left := [0], tried := [0] } }; let x := DmaDesc.ofBytes (chDesc opCopy); let b := x.burst 0
     d.burstMay 0 x b true = true ∧ d.burstReady 0 x b true = (d, true) ∧ d.poisoned b.1 b.2.2 = true ∧ b.2.2 = 64 ∧ b.1 % 64 = 0 ∧
       b.2.1 % 64 = 0) ∧
    (∀ n ∈ [2, 3], ((chRun 0 1 fun r => { r with burstRetries := n }).chan 0).run.map (·.burstRetries) = some n) ∧
    (∀ x ∈ [(0, 0), (5, mdCompute), (6, mdCheck)], let d := chRun 0 (1 + x.2 * 16) fun r => { r with finished := true, status := x.1, pos := 64 }
      d.live = true ∧ ((d.chan 0).run.map fun r => (r.finished, r.wrote)) = some (true, false) ∧ d.dmaVisible 0 = true ∧
        Direct d 48 15 ∧ Direct d 63 1 ∧
        (DmaDesc.ofBytes (chDesc (1 + x.2 * 16))).mode = x.2) ∧
    (∀ h ∈ [0xFF, 1], let d := dr [(pDMA 0, chClaim 0, 2 ^ 63 + h * 2 ^ 48)]
      d.writable full (pDMA 0) (chOff 0 rDMA_CRC_FEED) false = true ∧ (d.softHolds 0 = true ↔ h = 0xFF) ∧
        d.writable full (pDMA 0) (chOff 0 rDMA_CRC_VAL) false = true ∧ full.width = .full ∧
        d.writable full (pDMA 0) (chClaim 0) true = true ∧ (4 : Word).toNat.testBit 2 = true) := by
  unfold Direct
  refine ⟨?_, ?_, ?_, ?_, ?_⟩ <;> decide +kernel

/-- Partition 63 enabled with 16 contexts and core 511, with granule 0, HBM on die 7, and registers added. -/
def partDev (l : List (Nat × Nat × Nat) := []) (on : Nat := 2 ^ 63) : Dev :=
  { dr ([(pPART 63, rPART_CTL.off, on + 15 * 2 ^ 32), (pPART 63, rPART_CORE.at 7, 2 ^ 63), (pPART 63, rPART_EMB.off, 16384 * 2 ^ 32),
      (pTIER, rTIER_PQ.at 63, 17)] ++ l) with
    tier := { Tier.reset with map := [(0, { valid := true, world := true, part := 63 })], hbmDies := [7] } }

/-- Its context c in a state, with one task counted in queue 7. -/
def ctxRegs (c st : Nat) (prio : Nat := 0) : List (Nat × Nat × Nat) :=
  [(pPART 63, ctxReg c, 2 ^ 63 + 2 ^ 48 + st * 2 ^ 56 + prio * 2 ^ 59), (pPART 63, rPART_TQOCC.at c, 2 ^ 56)]

def ctxDev (c st : Nat) (f : Part → Part := id) : Dev := (partDev (ctxRegs c st)).setPart 63 (f {})

/-- Meets PartitionsComplete: enables that pass and that fail a check, disables in every state of the contexts, contexts
created, refused, deleted and changed, with no recording under way, and posts of each kind, one of them to a full queue. -/
theorem witness_PartitionsComplete :
    (let d := partDev [] 0; let v : Word := BitVec.ofNat 64 (2 ^ 63 + 15 * 2 ^ 32)
     d.writable full (pPART 63) rPART_CTL.off false = true ∧ d.partOn 63 = false ∧ writesBit full v 63 true = true ∧
       d.enableCode 63 (bits v.toNat 35 32 + 1) (carriedBits .full v.toNat) = 0 ∧
       (Dev.reset.writable full (pPART 63) rPART_CTL.off false = true ∧ Dev.reset.partOn 63 = false ∧
         Dev.reset.enableCode 63 (bits v.toNat 35 32 + 1) (carriedBits .full v.toNat) ≠ 0)) ∧
    (let d := partDev; d.writable full (pPART 63) rPART_CTL.off false = true ∧ d.partOn 63 = true ∧ writesBit full 0 63 false = true ∧
      ∀ c < 16, d.ctxOn 63 c = false) ∧
    (let d := ctxDev 15 cxIdle; d.partOn 63 = true ∧ ∃ c, c < 16 ∧ d.ctxOn 63 c = true) ∧
    (let d := partDev; d.writable full (pPART 63) (ctxReg 15) false = true ∧ 15 < d.nctx 63 ∧ d.bit (pPART 63) (ctxReg 15) 63 = false ∧
      (∀ isa ∈ [0, 1, 2], let v : Word := BitVec.ofNat 64 (2 ^ 63 + isa * 2 ^ 48); writesBit full v 63 true = true ∧ bits v.toNat 55 48 = isa) ∧
      implVersion < 2 ∧ 1 ≤ implVersion) ∧
    (∀ n ∈ [cxIdle, cxHeld, cxCurrent], let d := ctxDev 15 n
      d.writable full (pPART 63) (ctxReg 15) false = true ∧ 15 < d.nctx 63 ∧ d.bit (pPART 63) (ctxReg 15) 63 = true ∧
        writesBit full 0 63 false = true ∧ d.ctxState 63 15 = n ∧ (2 ^ 63 : Word).toNat.testBit 63 = true ∧ full.width = .full) ∧
    (∀ x ∈ [(cxIdle, 0), (cxIdle, 1), (cxIdle, 2 ^ 26), (cxOff, 0)], let w := 7 * 2 ^ 56 + x.2
      let d := memOn (ctxDev (if x.1 = cxOff then 14 else 15) cxIdle fun p => { p with tposts := [w] }) 8 (natLe 8 15); let at_ := bits w 47 0
      d.writable full (pPART 63) rPART_TPOST.off true = true ∧ d.live = true ∧ (d.part 63).tposts = w :: [] ∧ bits w 58 56 = 7 ∧
       (x.2 ≠ 0 → at_ % 64 ≠ 0 ∨ d.accessCode 63 (d.partWorld 63) at_ 64 ≠ 0) ∧
       (x.2 = 0 → at_ % 64 = 0 ∧ d.accessCode 63 (d.partWorld 63) at_ 64 = 0 ∧ whereIs at_ = .tier ∧ d.companionOwns at_ 64 = false ∧
        d.poisoned at_ 64 = false ∧ (TaskDesc.ofBytes (d.load at_ 64)).context = 15 ∧ d.queueFull 63 15 7 = false ∧
        (d.ctxOn 63 15 = true ↔ x.1 = cxIdle))) ∧
    (regsOn (ctxDev 15 cxIdle) [(pPART 63, rPART_TQOCC.at 15, 255 * 2 ^ 56)]).queueFull 63 15 7 = true ∧
    partDev.bit (pLRN 63) rLRN_ASH_CTL.off 63 = false ∧
    (partDev.writable full (pPART 63) rPART_SW.off false = true ∧ partDev.writable full (pPART 63) rPART_STAT.off false = true) := by
  refine ⟨?_, ?_, ?_, ?_, ?_, ?_, ?_, ?_, ?_⟩ <;> decide +kernel

/-- A task of context 15. -/
def cTask : Task := { aTask with desc := { aTask.desc with context := 15 }, queue := 7 }

/-- Core 511 of that partition. -/
def switchDev (f : Part → Part) (g : Core → Core) (l : List (Nat × Nat × Nat) := []) : Dev :=
  { (partDev (ctxRegs 15 cxReady ++ ctxRegs 14 cxReady 7 ++ l)).setPart 63 (f {}) with
    cores := [(511, g { Core.reset with part := 63, st := .running, task := some cTask })] }

def savedCore : SavedCore :=
  { core := 511, live := .empty, task := some cTask, carry := false, tileStart := .empty, tileOpen := none, ending := false, outs := [],
    mmas := [], tlds := [], wait := none, suspendedOn := [] }

/-- Meets SwitchesComplete: a slice that ends now, no context current with and without a choice, a choice that overtakes,
cores that may rest, all at rest, and restores that pass and fail. -/
theorem witness_SwitchesComplete :
    (let d := switchDev (fun p => { p with current := some 15, sliceEnd := Dev.reset.now }) id
     d.live = true ∧ (d.part 63).current = some 15 ∧ (d.part 63).sliceEnd ≤ d.now ∧ d.partOn 63 = true ∧ (d.part 63).switch = none ∧
       d.choice 63 = some 14 ∧ d.overtakes 63 15 14 = true ∧ d.runnable 63 15 = true) ∧
    (let d := switchDev id id; d.partOn 63 = true ∧ (d.part 63).switch = none ∧ (d.part 63).current = none ∧ d.choice 63 = some 14) ∧
    (let d := partDev; d.live = true ∧ d.partOn 63 = true ∧ (d.part 63).switch = none ∧ (d.part 63).current = none ∧ d.choice 63 = none) ∧
    (let d := switchDev id fun c => { c with preempt := true }; let c := d.core 511
     c.preempt = true ∧ c.atRest = false ∧ c.struck = false ∧ c.begun = false ∧ c.mayRest (d.modes 511).precise = true) ∧
    (let d := switchDev (fun p => { p with switch := some ⟨some 15, some 14, .rest, 0⟩ }) fun c => { c with preempt := true, atRest := true }
     (d.part 63).switch = some ⟨some 15, some 14, .rest, 0⟩ ∧ d.allRest 63 = true) ∧
    (let d := switchDev (fun p => { p with switch := some ⟨none, some 15, .restore, 0⟩, saved := [(15, [savedCore])] }) fun _ => Core.reset
     let saved := Tab.get (fun _ => []) (d.part 63).saved 15
     (d.part 63).switch = some ⟨none, some 15, .restore, 0⟩ ∧ saved = [savedCore] ∧
       (∀ y ∈ saved, y.core < 512 ∧ d.coreRetired y.core = false ∧ d.inTest ukCore y.core = false) ∧
       (saved.map SavedCore.core).Nodup ∧ (∀ y ∈ saved, y.core ∉ ([510] : List Nat)) ∧ (∃ y ∈ saved, y.core ∈ [511])) ∧
    (let d := switchDev (fun p => { p with switch := some ⟨none, some 15, .restore, 0⟩, saved := [(15, [savedCore])] }) (fun _ => Core.reset) [(pERR, 0x400 + 63 * 8, 2 ^ 63)]
     ∃ y ∈ Tab.get (fun _ => []) (d.part 63).saved 15, d.coreRetired y.core = true) ∧
    (savedCore.task = some cTask ∧ cTask.desc.context = 15 ∧ cTask.queue < 8 ∧ cTask.source = none) := by decide +kernel

/-- Partition 63 with ember 16383 of this kind, parties and value. -/
def emberDev (kind parties val : Nat) : Dev :=
  partDev [(pEMB 16383, cfgOff 16383, kind * 2 ^ 62 + parties), (pEMB 16383, valOff 16383, val)]

/-- Meets EmberSignalsComplete: each kind at its limits, each misfit, and an ember elsewhere. -/
theorem witness_EmberSignalsComplete :
    (∀ k ∈ [ebCounter, ebBarrier, ebEvent, ebOff], let d := emberDev k 0xFFFF (2 ^ 64 - 2)
      d.live = true ∧ d.partOn 63 = true ∧ d.ownsEmber 63 16383 = true ∧ d.emberRemote 16383 = false ∧ d.emberKind 16383 = k ∧
        d.emberValue 16383 + (1 : Word).toNat < 2 ^ 64 ∧ 2 ^ 64 ≤ d.emberValue 16383 + (2 : Word).toNat ∧ d.emberParties 16383 ≠ 0 ∧
        d.bit (pEMB 16383) rERR_LOG0.off 63 = false ∧ d.writable full (pEMB 16383) (cfgOff 16383) false = true) ∧
    ebOff ≠ ebCounter ∧ ebOff ≠ ebEvent ∧ ebCounter ≠ ebBarrier ∧ (emberDev ebBarrier 0 0).emberParties 16383 = 0 ∧
    (let d := emberDev ebCounter (2 ^ 61 + 9 * 2 ^ 41) 0; let t := d.fld (pEMB 16383) (cfgOff 16383) 54 41
     t = 9 ∧ (regsOn d [(pFAB, rFAB_ID.off, 2 ^ 63)]).hears = true ∧ t ∉ d.fab.lost ∧ d.live = true ∧ d.partOn 63 = true ∧ d.ownsEmber 63 16383 = true ∧ d.emberRemote 16383 = true) := by
  decide +kernel

/-! ### Witnesses: boot, service levels and errors -/

/-- Fender in this state, with registers written. -/
def fender (f : Fender → Fender) (l : List (Nat × Nat × Nat) := []) : Dev := { dr l with fen := f Dev.reset.fen }

/-- An image that passes every check, of security version 3. -/
def image : ImageCheck := ⟨true, true, 3, true, true, true, true, [], [], []⟩
def badImage : ImageCheck := { image with lmsOk := false }

/-- Meets BootChainComplete: images accepted and not, counters at both limits, keys and targets at their edges, tokens,
requests over both transports, and recovery writes at both ends of copy B. -/
theorem witness_BootChainComplete :
    (∀ n ∈ [0, 32768], let d := fender (fun f => { f with monotonic := n })
      d.live = true ∧ d.fen.fenOk = false ∧ d.inRecovery = false ∧ imageOk d.fen.fused image = true ∧ imageOk d.fen.fused badImage = false ∧
        (d.fen.monotonic < 32768 ↔ n = 0)) ∧
    (let d := fender (fun f => { f with fenOk := true }); d.fen.fenOk = true ∧ d.fen.mgtOk = false ∧ d.inRecovery = false ∧ d.live = true) ∧
    (let d := fender (fun f => { f with fenOk := true, mgtOk := true, debugFuse := true, attAnswer := [1] }) [(pATT, rATT_REQ.off, 2 ^ 63)]
     d.live = true ∧ d.fen.mgtOk = true ∧ d.fen.devOk = false ∧ d.fen.fenOk = true ∧ d.fen.debugFuse = true ∧ d.bit pATT rATT_REQ.off 63 = true) ∧
    (∀ n ∈ [0, 2 ^ 63], let d := dr [(pFEN, rFEN_KEY.at 31, n), (pFEN, (rFEN_KEY_WORD 0).at 31, 0x0300000007000000)]
      d.writable full pFEN (rFEN_KEY.at 31) false = true ∧ writesBit full (2 ^ 63) 63 true = true ∧ (d.bit pFEN (rFEN_KEY.at 31) 63 = false ↔ n = 0) ∧
        d.keyPasses 31 = true) ∧
    (let d := fender (fun f => { f with fused := 3 }) [(pFEN, rFEN_BOOT.off, 5 * 2 ^ 48)]
     d.writable full pFEN rFEN_ARB.off true = true ∧ (d.fen.fused < 5 ∧ 5 ≤ d.fld pFEN rFEN_BOOT.off 55 48) ∧ 3 ≤ d.fen.fused ∧
       d.fld pFEN rFEN_BOOT.off 55 48 < 6) ∧
    (∀ n ∈ [4, 5], let d := fender (fun f => { f with fused := 3, burnTarget := n }) [(pFEN, rFEN_ARB.off, 2 ^ 7)]
      d.live = true ∧ d.bit pFEN rFEN_ARB.off 7 = true ∧ d.fen.fused < d.fen.burnTarget) ∧
    (let d := dr [(pFEN, rFEN_BOOT.off, 2 ^ 32)]
     d.live = true ∧ d.inRecovery = true ∧ (0x02000000 ≤ 0x03DFFFFF ∧ 0x03DFFFFF + 1 ≤ 0x03E00000) ∧ 0x01FFFFFF < 0x02000000 ∧
       0x03E00000 < 0x03E00000 + 1) := by decide +kernel

/-- What bring-up finds: HBM trained on dies 6 and 7, every core of die 6 but nine failing and every core of die 7 good. -/
def findings (ok : Bool) (ms : Nat) : BringUp :=
  ⟨[false, false, false, false, false, false, true, true], [0, 0, 0, 0, 0, 0, BitVec.ofNat 72 (2 ^ 63 - 1), BitVec.ofNat 72 (2 ^ 64 - 1)], ok, ok, ms⟩

def levelDev (n : Nat) : Dev :=
  { dr [(pMOD, rMOD_SL.off, n + 3 * 2 ^ 4 + 7 * 2 ^ 12)] with
    fen := { Dev.reset.fen with devOk := true }, pow := { Dev.reset.pow with cclkMHz := 470 } }

/-- Meets ServiceLevelsComplete: each rise at its bound, with and without what it needs. -/
theorem witness_ServiceLevelsComplete :
    (∀ x ∈ [(0, 1300), (1, 2500), (2, 8000)], let d := levelDev x.1
      d.vex.heldReqs = [] ∧ d.live = true ∧ d.fen.devOk = true ∧ d.level = x.1 ∧ d.level < d.fld pMOD rMOD_SL.off 5 4 ∧
        ∀ ok ∈ [true, false], (findings ok x.2).afterMs ≤ stepBound d.level) ∧
    (let d := levelDev 0; let full := fun r die => decide (64 ≤ (d.goodCores r die).length); let trained := fun r => (List.range 8).filter (hbmTrained r)
     (trained (findings true 0)).find? (full (findings true 0)) = some 7 ∧ trained { findings true 0 with hbmOk := [] } = [] ∧
       (trained { findings true 0 with corePass := [] }).find? (full { findings true 0 with corePass := [] }) = none) ∧
    ((findings true 0).serdesOk = true ∧ (findings false 0).serdesOk = false ∧ (findings true 0).lpddrOk = true ∧ (findings false 0).lpddrOk = false) ∧
    (let d := levelDev 1; d.pow.refclkB = true ∧ d.bit pFAB (rFAB_PORT.at 23) 63 = true ∧ d.portState 23 = portDown ∧
      d.fld pMOD rMOD_SL.off 14 12 = 7 ∧ 63 < (d.goodCores (findings true 2500) 6).length + 1) ∧
    (levelDev 0).writable full pMOD rMOD_SL.off false = true ∧
    (let d := levelDev 2; d.live = true ∧ 2 ≤ d.level ∧ d.pow.cclkMHz = 470 ∧
      ∀ i, i < 64 → (d.core (64 * d.fld pMOD rMOD_SL.off 14 12 + i)).restsForClock = true) := by decide +kernel

def hwError (u : UnitKind) (place n : Nat) : HwError := ⟨u, place, 0, 0x4000000, 63, n⟩

/-- Core 511 runs a task of partition 63, and the threshold for corrected errors is 2. -/
def errDev (carry : Bool) : Dev := switchDev id (fun c => { c with carry := carry }) [(pERR, rERR_CTL.off, 2 + 1000 * 2 ^ 16)]

/-- Meets ErrorClassesComplete: corrected errors below and at the threshold, errors of a core with its carry flag at 0
and 1, of a channel, and of a unit under test. -/
theorem witness_ErrorClassesComplete :
    (∀ c ∈ [true, false], let d := errDev c; let x := hwError .core 511; let k := d.core 511
      d.live = true ∧ d.inTest (unitCode .core) 511 = false ∧ hasTest .core = true ∧
        (d.correctedNow (x 1)).corrected < max 1 (d.fld pERR rERR_CTL.off 15 0) ∧
        max 1 (d.fld pERR rERR_CTL.off 15 0) ≤ (d.correctedNow (x 2)).corrected ∧ whereIs (x 1).addr = .tier ∧
        (d.unit (unitCode .core) 511).transientAt = none ∧ 511 < 512 ∧ k.task = some cTask ∧ k.part < 64 ∧ cTask.desc.context < 16 ∧ cTask.queue < 8 ∧
        k.ending = false ∧ k.committing = [] ∧ k.tlds.any TldOp.old = false ∧ k.carry = c) ∧
    (let d := chRun 191 2 id; d.live = true ∧ d.inTest (unitCode .dmaChannel) 191 = false ∧ (d.chan 191).run.map (·.finished) = some false) ∧
    (let d := Dev.reset.setUnit (unitCode .core) 511 { testing := true }; d.live = true ∧ d.inTest (unitCode .core) 511 = true) ∧
    (Dev.reset.writable full pERR rERR_STAT.off false = true ∧ full.width = .full) := by decide +kernel

/-- Unit u is under test; with own, partition 63 owns every core of die 7. -/
def testDev (u : UnitKind) (place : Nat) (own : Nat) : Dev :=
  (Dev.setUnit (partDev [(pPART 63, rPART_CORE.at 7, own)]) (unitCode u) place { testing := true }).setCore 511 { Core.reset with st := .selfTest }

/-- Meets SelfTestsComplete: units that pass, cores that fail with and without a spare, a row with a spare row, and a
frame whose granule has switched. -/
theorem witness_SelfTestsComplete :
    (∀ x ∈ [(UnitKind.core, 511), (.hbmRow, 5), (.slowRow, 65536), (.segment, 5), (.dmaChannel, 191), (.engine, 5)],
      let d := testDev x.1 x.2 0; d.live = true ∧ d.tested x.1 x.2 = true) ∧
    ((testDev .core 511 0).setSpareCores 7 [71]).spareCores 7 = [71] ∧ ((testDev .core 511 0).setSpareCores 7 [71]).tested .core 511 = true ∧
    (let d := testDev .core 511 (2 ^ 64 - 1); d.tested .core 511 = true ∧ d.spareCores 7 = [] ∧ d.donorCore 511 = none) ∧
    (∀ slow ∈ [true, false], let d := { Dev.reset with tier := { Tier.reset with
        map := [(49151, { valid := true, state := stSwitching, slow := slow, frame := 7, dframe := 9 })],
        mig := [(49151, { retire := true })] } }; let x := d.gran 49151
      d.live = true ∧ x.valid = true ∧ x.state = stSwitching ∧ (d.mig 49151).retire = true ∧ (d.mig 49151).held = [] ∧
        (d.unit 5 (if x.slow then 65536 + x.frame else x.frame)).testing = false) := by decide +kernel

/-! ### Witnesses: registers -/

/-- A Non-secure access. -/
def nonSecure : Access := ⟨.i3c, false, .full⟩

/-- Meets AccessErrorsComplete: a page of the other world, reserved offsets and pages, and widths, with the log of the
page empty and not. -/
theorem witness_AccessErrorsComplete :
    ∀ n ∈ [0, 2 ^ 63], let d := dr [(pERR, rERR_LOG0.off, n), (pMOD, rERR_LOG0.off, n)]
      (d.bit pERR rERR_LOG0.off 63 = false ↔ n = 0) ∧ (d.bit pMOD rERR_LOG0.off 63 = false ↔ n = 0) ∧
      (d.reachable pERR = true ∧ d.arrives nonSecure = true ∧ d.arrives full = true ∧ pERR < 0x1000 ∧ d.worldOk nonSecure pERR = false) ∧
      (pageOf pERR ≠ none ∧ d.reachable pERR = true ∧ d.worldOk full pERR = true ∧ reservedAt pERR (0xFFFF / 8 * 8) = true ∧
        d.blockInReset pERR 0xFFFF = false) ∧
      (pageOf 0xFFF = none ∧ windowPage 0xFFF = false ∧ d.reachable 0xFFF = true) ∧
      (∀ x ∈ [(0x100, 1), (0x100, 2), (0x100, 16), (0x102, 4), (0x104, 8)], ∀ w ∈ [true, false], widthOk pERR x.1 x.2 w = false) := by
  decide +kernel

/-- Meets BlocksAndInterruptsComplete: block resets that run, start and are refused, and worlds of every kind of page. -/
theorem witness_BlocksAndInterruptsComplete :
    (let d := dr [(pCORE 511, rBLK_STS.off, 2), (pETH 1, rETH_PORT.off, 0)]
     pageOf (pCORE 511) = some (.core, 511) ∧ d.writable full (pCORE 511) rBLK_CTL.off true = true ∧ (1 : Word).toNat.testBit 0 = true ∧
       d.bit (pCORE 511) rBLK_STS.off 1 = true ∧ d.live = true ∧ pCORE 511 < 0x1000 ∧ (∀ n < 64, pageOf (pCORE 511) ≠ some (.eth, n)) ∧
       pageOf (pETH 1) = some (.eth, 1) ∧ d.bit (pETH 1) rBLK_STS.off 1 = false ∧ PageKind.breset .eth = true ∧ d.blockAtRest (pETH 1) = true ∧
       d.writable full (pETH 1) rBLK_CTL.off true = true ∧
       pageOf pMOD = some (.mod, 0) ∧ d.bit pMOD rBLK_STS.off 1 = false ∧ PageKind.breset .mod = false) ∧
    (let d := partDev; pageOf (pPART 63) = some (.part, 63) ∧ d.bit (pPART 63) rBLK_STS.off 1 = false ∧ d.blockAtRest (pPART 63) = false ∧
       d.writable full (pPART 63) rINT_SET.off true = true ∧ d.writable full (pPART 63) rINT_EN.off false = true ∧
       d.writable full (pPART 63) rWORLD.off false = true ∧ full.world ≠ some false ∧ full.reaches 0 0 = true ∧ d.partOn 63 = true ∧
       pageOf (pCORE 511) = some (.core, 511) ∧ d.writable full (pCORE 511) rWORLD.off false = true ∧
       (∃ p, p < 64 ∧ d.partOn p = true ∧ d.ownsCore p 511 = true)) ∧
    (let d := dr [(pERR, rWORLD.off, 0)]; d.writable nonSecure pERR rWORLD.off false = true ∧ nonSecure.world = some false) ∧
    (Dev.reset.writable full (pPART 63) rWORLD.off false = true ∧ Dev.reset.partOn 63 = false ∧
      (∀ p, p < 64 → Dev.reset.partOn p = true → Dev.reset.ownsCore p 511 = false)) ∧
    (∀ x ∈ [(pERR, PageKind.err), (pDMA 191, .dma), (pFEN, .fen), (pVWQ 63, .vwq)],
      Dev.reset.writable full x.1 rWORLD.off false = true ∧ (pageOf x.1).map Prod.fst = some x.2) := by decide +kernel

/-- The claim registers of the statement, and a word that claims or releases with rid 0xFFFF. -/
def claimPlaces : List (Nat × Nat) := [(pMOD, rCLAIM.off), (pETH 1, rCLAIM.off), (pMOD, rMOD_TCLM.at 3), (pDMA 191, chClaim 191)]
def claimWord (op : Nat) : Word := BitVec.ofNat 64 (op * 2 ^ 60 + 0xFFFF * 2 ^ 16)

/-- Meets ClaimsComplete: each register free, held by this software, and held by another. -/
theorem witness_ClaimsComplete :
    (claimOp (claimWord 1) = 1 ∧ claimOp (claimWord 2) = 2 ∧ bits (claimWord 2).toNat 31 16 = 0xFFFF) ∧
    (pageOf (pETH 1) ≠ none ∧ (dr [(pETH 1, rETH_PORT.off, 0)]).bit (pETH 1) rETH_PORT.off 63 = false) ∧
    (∀ x ∈ claimPlaces, ∀ rid ∈ [0xFFFF, 1], let free := dr [(pETH 1, rETH_PORT.off, 0)]
      let d := free.wr x.1 x.2 (2 ^ 63 + 0xFF * 2 ^ 48 + rid * 2 ^ 32)
      free.writable full x.1 x.2 true = true ∧ free.held x.1 x.2 = false ∧ d.writable full x.1 x.2 true = true ∧
        d.held x.1 x.2 = true ∧ d.fld x.1 x.2 55 48 = 0xFF ∧ d.fld x.1 x.2 47 32 = rid) := by decide +kernel

/-- Ember 16383 with a configuration: off, a counter, a barrier or an event. -/
def emberReg (kind : Nat) : Dev := dr [(pEMB 16383, cfgOff 16383, kind * 2 ^ 62)]

/-- Plain registers of the pages of the statement, and registers that keep what they hold in this device. -/
def plainPlaces : List (Nat × Nat) :=
  [(pERR, rERR_CTL.off), (pERR, rERR_SPARE.at 7), (pCORE 511, 0x120), (pEMB 16383, valOff 16383), (pETH 1, 0x108), (pDMA 191, chOff 191 rDMA_RING)]
def keptPlaces : List (Nat × Nat) :=
  [(pFEN, (rFEN_KEY_WORD 11).at 31), (pDMA 191, chOff 191 rDMA_RING), (pPART 63, rPART_CORE.at 7), (pCACHE 63, rCACHE_GEOM.off),
   (pATT, rATT_REQ_BUF.at 511)]
def keptDev : Dev :=
  dr [(pFEN, rFEN_KEY.at 31, 2 ^ 63), (pDMA 191, chOff 191 rDMA_CTL, 2 ^ 63), (pPART 63, rPART_CTL.off, 2 ^ 63),
    (pCACHE 63, rCACHE_CTL.off, 2 ^ 63), (pATT, rATT_REQ.off, 2 ^ 63)]

def sound (d : Dev) (x : Nat × Nat) : Bool :=
  (pageOf x.1).isSome && (regAt x.1 x.2).isSome && x.2 % 8 == 0 && decide (0x100 ≤ x.2) && decide (x.2 < 0x10000) && !ownCommand full x.1 x.2 5
    && d.writable full x.1 x.2 (actionAt x.1 x.2)

/-- Meets PlainWritesComplete. -/
theorem witness_PlainWritesComplete :
    (∀ x ∈ plainPlaces, sound Dev.reset x = true) ∧
    (∀ kind ∈ [ebOff, ebCounter, ebBarrier, ebEvent], let d := emberReg kind; sound d (pEMB 16383, valOff 16383) = true ∧
      pageOf (pEMB 16383) = some (.emb, 7) ∧ 7 * 2048 + (valOff 16383 - rEMB_VAL.off) / 16 = 16383 ∧ rEMB_VAL.covers (valOff 16383) = true ∧
      d.emberKind 16383 = kind) ∧ (∀ x ∈ keptPlaces, sound keptDev x = true) ∧
    (rDMA_RING.covers (chOff 191 rDMA_RING) = true ∧ channelAt (pDMA 191) (chOff 191 rDMA_RING) = 191 ∧ Dev.reset.chOn 191 = false ∧ keptDev.chOn 191 = true) ∧
    (0x1000 ≤ (rFEN_KEY_WORD 11).at 31 ∧ keptDev.bit pFEN (rFEN_KEY.at (((rFEN_KEY_WORD 11).at 31 - 0x1000) / 128)) 63 = true ∧
      rPART_CORE.covers (rPART_CORE.at 7) = true ∧ keptDev.partOn 63 = true ∧ keptDev.bit (pCACHE 63) rCACHE_CTL.off 63 = true ∧
      rATT_REQ_BUF.covers (rATT_REQ_BUF.at 511) = true ∧ keptDev.bit pATT rATT_REQ.off 63 = true) := by decide +kernel

/-- Four bytes and their CRC-32, and n + 1 bytes. -/
def crcBytes : List Byte := [1, 2, 3, 4] ++ natLe 4 (crc32.of [1, 2, 3, 4])
def long (n : Nat) : List Byte := List.replicate (n + 1) 0

/-- Meets PortsAndMailboxComplete: a comparator due now and one not due, ports in each state,
frames good, damaged and too long, and a mailbox free and in use. -/
theorem witness_PortsAndMailboxComplete :
    (∀ n ∈ [0, 1], let d := dr [(pMOD, rMOD_TCLM.at 3, 1), (pMOD, rMOD_TCMP.at 3, Dev.reset.now + n)]
      d.writable full pMOD (rMOD_TCLM.at 3) true = true ∧ (1 : Word).toNat.testBit 0 = true ∧ d.pow.pwrGood = true ∧ d.ltcOn = true ∧
        ((d.bit pMOD (rMOD_TCLM.at 3) 0 = true ∧ d.rd pMOD (rMOD_TCMP.at 3) ≤ d.now) ↔ n = 0)) ∧
    (let r := rETH_PORT.off; let c := rCLAIM.off; let v : Word := BitVec.ofNat 64 (2 ^ 63)
     (let d := dr [(pETH 1, r, 0)]; d.writable full (pETH 1) r false = true ∧ v.toNat.testBit 63 = true ∧ d.ethOn 1 = false ∧ d.held (pETH 1) c = false ∧
       (0 : Word).toNat.testBit 63 = false) ∧
     (let d := dr [(pETH 1, r, 0), (pETH 1, c, 2 ^ 63 + 0xFF * 2 ^ 48)]; d.writable full (pETH 1) r false = true ∧ d.held (pETH 1) c = true ∧
       d.holds (pETH 1) c ethHolder 1 = false) ∧
     (let d := dr [(pETH 1, r, 2 ^ 63 + 2 ^ 48), (pETH 1, c, 2 ^ 63 + ethHolder * 2 ^ 48 + 2 ^ 32)]
      d.live = true ∧ d.ethState 1 = 1 ∧ d.ethOn 1 = true ∧ d.pow.refclkB = true) ∧
     (∀ level ∈ [0, 2], ((dr [(pMOD, rMOD_SL.off, level)]).level = level ∧ (dr [(pMOD, rMOD_SL.off, level)]).pow.refclkB = true)) ∧
     (let d := memOn (dr [(pETH 1, r, 2 ^ 63 + ethUp * 2 ^ 48), (pWGT 63, rWGT_CONN.off, 0x400 + 2 ^ 32)]) 0x4000000 [3]
      d.live = true ∧ d.ethState 1 = ethUp ∧ 0 < d.nconn 63 ∧ d.connPort 63 0 = 1) ∧
     (let m := crcBytes; crc32.of (m.take 4) = leNat (m.drop 4) ∧ ¬ crc32.of ((0 :: m).take 5) = leNat ((0 :: m).drop 5) ∧ 4 ≤ m.length ∧
       m.length ≤ 9216) ∧ 9216 ≤ (long 9215).length ∧ 9216 < (long 9216).length) ∧
    (∀ n ∈ [0, 2 ^ 63], let d := { dr [(pATT, rATT_REQ.off, n), (pATT, rATT_RSP.off, n)] with fen := { Dev.reset.fen with mgtOk := true, attAnswer := [1] } }
      d.writable full pATT rATT_REQ.off false = true ∧ d.writable full pATT rATT_RSP.off false = true ∧ (d.bit pATT rATT_REQ.off 63 = false ↔ n = 0) ∧
        d.live = true ∧ d.fen.mgtOk = true ∧ d.fen.attAnswer ≠ [] ∧ (d.bit pATT rATT_RSP.off 63 = false ↔ n = 0) ∧ d.bit pATT rBLK_STS.off 1 = false ∧
        (2 ^ 63 : Word).toNat.testBit 63 = true) ∧
    (1 ≤ (List.replicate 4096 (7 : Byte)).length ∧ (List.replicate 4096 (7 : Byte)).length ≤ 4096) := by decide +kernel

/-- The answer is a next state. -/
def goesOn (o : Host.Outcome State Fault Refusal) : Bool := match o with
  | .next _ => true
  | _ => false

/-- Meets StepKeepsCanonical: memory and a register beside their reset values, and a step that goes on. -/
theorem witness_StepKeepsCanonical :
    let s : State := ⟨[.embCfgWrite full 16383 5], memOn (dr [(pPART 63, rPART_CTL.off, 2 ^ 63)]) 0x4000000 [1, 0, 2]⟩
    MemoryWf s ∧ RegsWf s ∧ goesOn (Machine.step s) = true := by decide +kernel

/-- Meets ControlBlockRoundTrip: the largest program counter and generator, beside generators as Fender filled them. -/
theorem witness_ControlBlockRoundTrip :
    let g : GenState := { key := 2 ^ 64 - 1, counter := 2 ^ 128 - 1, rest := 2 ^ 112 - 1, restBits := 2 ^ 16 - 1 }
    let l : Live := { sr [(63, 2 ^ 64 - 1)] with pc := 2 ^ 64 - 1, gens := [(255, g)] }
    l.pc < 2 ^ 64 ∧ l.gkStep < 2 ^ 64 ∧ l.gkLayer < 2 ^ 64 ∧ l.gkTile < 2 ^ 64 ∧
    (∀ n, n < 256 → (l.gen n).key < 2 ^ 64 ∧ (l.gen n).counter < 2 ^ 128 ∧ (l.gen n).rest < 2 ^ 112 ∧ (l.gen n).restBits < 2 ^ 16) ∧
    (∀ t, t < 64 → l.adds t < 2 ^ 64) := by
  intro g l
  refine ⟨by decide +kernel, by decide +kernel, by decide +kernel, by decide +kernel, fun n _ => ?_, by decide +kernel⟩
  by_cases h : 255 = n
  · subst h
    decide +kernel
  · have e : l.gen n = genDefault l.genBase n := by
      show Tab.get _ [(255, g)] n = _
      simp [Tab.get, h]
    rw [e]
    have b := fun i => (Config.random i).isLt
    simp only [genDefault]
    have h1 := b (l.genBase + 3 * n + 1)
    have h2 := b (l.genBase + 3 * n + 2)
    omega

/-! ### Ill-formed commands: each check refuses one -/

/-- A form, and one that exceeds each of its fields or lengths. -/
def aSlab : MirrorEntry :=
  { srcDev := 0, srcPart := 0, entry := 0, group := 0, first := 0, count := 0, step := 0, slab := 0, isFirst := true, isLast := true, complete := true, b := [], r := [],
    m := [] }

/-- A segment of group 0. -/
def aSegment : Segment :=
  { group := 0, cseq := 0, digest := 0, src := 0, port := 0, block := 0, seg := 0, gather := false, data := [] }

theorem long_length (n : Nat) : (long n).length = n + 1 := List.length_replicate

theorem test_illformed_measurements : Instr.wf (.temperatureRead [50] 400) = false ∧
    Instr.wf (.serviceLevelRise { findings true 0 with hbmOk := [] }) = false ∧
    Instr.wf (.serviceLevelRise { findings true 0 with corePass := [] }) = false := by decide +kernel

theorem test_illformed_refetch : ∀ l : List Byte, 0x400000 < l.length → Instr.wf (.refetchTileDone 0 0 (some (.arrived l))) = false := by
  intro l h
  simp [Instr.wf, ChunkResult.form, atMost]
  omega

theorem test_illformed_tiles : Instr.wf (.stagingReadDone 0 (49152 * 1024)) = false := by decide +kernel

theorem test_illformed_window : Instr.wf (.stoveWindowWrite 0 0 0 [] false) = false ∧
    Instr.wf (.stoveWindowWrite 0 0 0 (long 65536) false) = false := by
  refine ⟨rfl, ?_⟩
  simp [Instr.wf, atMost, long_length]

theorem test_illformed_mirrors : (∀ m ∈ [{ aSlab with srcDev := 2 ^ 14 }, { aSlab with srcPart := 64 }, { aSlab with b := long 65536 }, { aSlab with r := long 65536 }, { aSlab with m := long 65536 }],
    Instr.wf (.pull full 0 0 [m]) = false ∧ Instr.wf (.mirrorReceive 0 m) = false) ∧ Instr.wf (.mirrorAckReceive 0 65536 true) = false := by
  simp [Instr.wf, MirrorEntry.form, atMost, long_length, aSlab]

theorem test_illformed_chunks : Instr.wf (.chunkAttemptEnd 0 (2 ^ 20) (.error [])) = false ∧
    Instr.wf (.chunkAttemptEnd 0 0 (.arrived (long 0x400000))) = false ∧ Instr.wf (.chunkAttemptEnd 0 0 (.error (long 0x400000))) = false ∧
    Instr.wf (.chunkAttemptTimeout 0 ⟨2 ^ 20, []⟩) = false ∧ Instr.wf (.chunkAttemptTimeout 0 ⟨0, long 0x400000⟩) = false := by
  simp [Instr.wf, ChunkResult.form, atMost, long_length]

theorem test_illformed_packets : ∀ q ∈ [{ aPacket with dst := 2 ^ 14 }, { aPacket with src := 2 ^ 14 }, { aPacket with vc := 5 },
    { aPacket with cls := 2 }, { aPacket with type := 16 }, { aPacket with ver := 4 }, { aPacket with fseq := 2 ^ 32 },
    { aPacket with group := 1024 }, { aPacket with part := 64 },
    { aPacket with digest := 2 ^ 16 }, { aPacket with cseq := 2 ^ 32 }, { aPacket with place := 2 ^ 64 }, { aPacket with arg := 2 ^ 32 },
    { aPacket with payload := long 2048 }], Instr.wf (.packetReceive 0 q 0) = false := by decide +kernel

theorem test_illformed_segments : ∀ g ∈ [{ aSegment with cseq := 2 ^ 32 }, { aSegment with digest := 2 ^ 16 }, { aSegment with src := 2 ^ 14 },
    { aSegment with block := 2 ^ 14 }, { aSegment with seg := 2 ^ 24 }, { aSegment with data := long 65536 }],
    Instr.wf (.segmentArrival g) = false := by
  simp [Instr.wf, Segment.form, atMost, long_length, aSegment]

theorem test_illformed_companion : (∀ r ∈ [CompanionReq.read 0 0, .read (2 ^ 64) 1, .write 0 [] false, .share (2 ^ 58), .own (2 ^ 58), .recall (2 ^ 58),
      .writeBack (2 ^ 58) (List.replicate 64 0) false, .writeBack 0 [] false], Instr.wf (.companionRequest true r) = false) ∧
    ∀ r ∈ [CompanionResp.readData 0 [] false, .snoop (2 ^ 42) none false, .snoop 0 (some []) false],
      Instr.wf (.companionResponse r) = false := by decide +kernel

theorem test_illformed_lists : Instr.wf (.dmaCrcFeedWrite full 0 3 0) = false ∧ Instr.wf (.switchRestoreDone 0 [512]) = false := by
  decide +kernel

theorem test_illformed_messages : Instr.wf (.spdmRequest true (long 4096)) = false ∧ Instr.wf (.attResponseReady (long 4096)) = false := by
  simp [Instr.wf, atMost, long_length]

theorem test_illformed_pages : let p := 0x10000
    ∀ c ∈ [Instr.blkCtlReset full p 0, .blockResetDone p, .intSetWrite full p 0, .intEnWrite full p 0, .worldWrite full p 0,
      .softwareClaim full p 0 0, .softwareRelease full p 0 0, .reservedRegisterAccess full p 0, .badWidthAccess full p 0 1 true,
      .registerWrite full p 0 0], c.wf = false := by decide +kernel

theorem test_illformed_offsets : (∀ o ∈ [4, 0x10000], ∀ c ∈ [Instr.softwareClaim full 0 o 0, .softwareRelease full 0 o 0,
      .reservedRegisterAccess full 0 o, .registerWrite full 0 o 0], c.wf = false) ∧
    ∀ c ∈ [Instr.badWidthAccess full 0 0x10000 1 true, .badWidthAccess full 0 0 8 true, .badWidthAccess full 0 4 4 true], c.wf = false := by
  decide +kernel

/-! ### Worked examples of the spec -/

/-- The fields of the word of the transposed product (05_instructions, worked example). -/
theorem test_fields_transposed_product : Ins.of 0x007F10000004000000004055_00B28540 =
    { op := 0x40, d := 5, a := 10, b := 11, c := 0, fa := 5, fb := 5, sub := 0, md := 4, imm := 0x040000 + 0x100000 * 2 ^ 24 + 127 * 2 ^ 48 } := by
  decide +kernel

/-- One running-sum add (04_numerics, worked example): to nearest, and with two random values. -/
theorem test_running_sum : [RMode.rne, .sr 0xA3F1, .sr 0x1234].map (fun m => toF32 (accAdd m (f32 0x3F800000) (.num false 3 1 (-26))).1) =
    [0x3F800000, 0x3F800001, 0x3F800000] := by decide +kernel

/-- The group of 32 values of the worked example of recipes 2 and 4. -/
def aGroup : List FVal := [.num false 15 2 0, .num false 5 1 0, .num false 13 1000 0] ++ List.replicate 29 (.zero false)

/-- Recipes 2 and 4 (04_numerics, worked example): the scale, and the first three bytes. -/
theorem test_recipes : [false, true].map (fun noClip => let q := quantiseGroup layE4m3 noClip aGroup; (q.1, q.2.1.take 3)) =
    [(0x79, [0x7E, 0x7A, 0x35]), (0x7A, [0x77, 0x72, 0x2D])] := by decide +kernel

/-- The check values of R371. -/
theorem test_crc_checks : (List.range 4).map (fun k => let c := crcOf k; c.result (c.feed c.init ("123456789".toList.map fun x => BitVec.ofNat 8 x.toNat))) =
    [0xE3069283, 0xCBF43926, 0x6C40DF5F0B497347, 0x29B1] := by decide +kernel

/-- A rate after one restart (10_stove, worked example): peak 2^-11, lo 2^-14, gamma 0.5, at step 1,300. -/
theorem test_rate_after_restart :
    toF32 (schedRate [0x3A000000 + 0x38800000 * 2 ^ 32, 900 + 100 * 2 ^ 32, 0x3F000000, 6] 0 1300).1 = 0x39500000 := by decide +kernel

/-- The security version that runs after a boot with one fallback (16_security_bringup, worked example). -/
theorem test_boot_with_fallback :
    let d := fender fun f => { f with fused := 12 }
    let d := (((d.runFen { image with svn := 13 } false).runMgt { image with svn := 12 } true).runDev { image with svn := 13 } false)
    pickImage 12 { badImage with svn := 13 } { image with svn := 12 } = some ({ image with svn := 12 }, true) ∧
      d.fld pFEN rFEN_BOOT.off 55 48 = 12 ∧ d.bit pFEN rFEN_BOOT.off 4 = true ∧ d.bit pFEN rFEN_BOOT.off 5 = false := by decide +kernel

/-! ### Single steps of a core -/

/-- Scalar register r of core 0 after one step, and its instruction address. -/
def scalarAfter (c : Instr) (s : State) (r : Nat) : Option (Nat × Nat) :=
  match Machine.step { s with pending := [c] } with
  | .next t => some (((t.dev.core 0).live.s r).toNat, (t.dev.core 0).live.pc)
  | _ => none

/-- SMUL: the high half of -1 times 2, signed and unsigned (R125). -/
theorem test_smul_high : [1, 3].map (fun md => let w := word 0x03 1 2 3 0 0 0 0 md 0
      (scalarAfter (.smul 0 w) (runs w (sr [(2, 2 ^ 64 - 1), (3, 2)])) 1).map Prod.fst) = [some (2 ^ 64 - 1), some 1] := by decide +kernel

/-- SDIV: a quotient and a remainder by 0, and the quotient of -2^63 by -1 (R125). -/
theorem test_sdiv_corners : [(0, 7, 0), (1, 7, 0), (0, 2 ^ 63, 2 ^ 64 - 1)].map (fun x => let w := word 0x04 1 2 3 0 0 0 0 x.1 0
      (scalarAfter (.sdiv 0 w) (runs w (sr [(2, x.2.1), (3, x.2.2)])) 1).map Prod.fst) = [some (2 ^ 64 - 1), some 7, some (2 ^ 63)] := by
  decide +kernel

/-- BR: signed less than, unsigned less than, of -1 and 1, from 32 with the target 16 bytes back (R127). -/
theorem test_br_signs : [3, 5].map (fun c => let w := word 0x08 0 2 3 0 0 0 c 0 (2 ^ 64 - 16)
      let core := { coreOn w { sr [(2, 2 ^ 64 - 1), (3, 1)] with pc := 32 } with ibuf := [⟨0, memStore [] 32 (natLe 16 w.toNat), []⟩] }
      (scalarAfter (.br 0 w) { (runs w) with dev := { (runs w).dev with cores := [(0, core)] } } 1).map Prod.snd) = [some 16, some 48] := by
  decide +kernel

end Sys2Proof.Tests
end

section
/-! SUPPORT. The registers of the state that a power-on reset leaves (R7, R37), read through the register map. -/

namespace Sys2Proof.Machine

/-! ### Where a register of the register map stands -/

/-- An element of an array of registers stands at its offset. -/
theorem Reg.covers_at {r : Reg} {i : Nat} (hs : r.stride ≠ 0) (hi : i < r.count) : r.covers (r.at i) = true := by
  have h : r.stride * i / r.stride = i := Nat.mul_div_cancel_left i (Nat.pos_of_ne_zero hs)
  simp [Reg.covers, Reg.at, hs, h, hi]

/-- Only the first words of a header, up to BLK_CAP, are fixed. -/
theorem fixedWord_none {page off : Nat} (h : 0x10 < off) : fixedWord page off = none := by
  have h0 : off ≠ 0x00 := by omega
  have h1 : off ≠ 0x08 := by omega
  have h2 : off ≠ 0x10 := by omega
  unfold fixedWord
  split
  · rfl
  · simp [h0, h1, h2]

theorem regAt_world {page : Nat} (h : pageOf page ≠ none) : regAt page rWORLD.off = some rWORLD := by
  obtain ⟨⟨k, n⟩, hp⟩ := Option.ne_none_iff_exists'.mp h
  simp only [regAt, hp]
  rfl

theorem pageOf_pEMB {e : Nat} (h : e < 16384) : pageOf (pEMB e) = some (.emb, e / 2048) := by
  have hj : e / 2048 < 8 := by omega
  simp only [pEMB]
  generalize e / 2048 = j at hj
  interval_cases j <;> rfl

theorem regAt_cfgOff {e : Nat} (h : e < 16384) : regAt (pEMB e) (cfgOff e) = some rEMB_CFG := by
  have hc : rEMB_CFG.covers (cfgOff e) = true := Reg.covers_at (by decide) (Nat.mod_lt e (by decide))
  have ho : ¬ cfgOff e < 0x70 := by simp only [cfgOff, Reg.at, rEMB_CFG]; omega
  simp [regAt, pageOf_pEMB h, ho, PageKind.regs, embRegs, hc]

/-- The page of a channel lies among those of the compute dies, or its local number is below 8 (R359). -/
theorem pageOf_pDMA {c : Nat} (h : c < 192) :
    (∃ n, pageOf (pDMA c) = some (.dma, n)) ∧ dmaLocal c < 16 ∧ (pDMA c < 0x48 ∨ dmaLocal c < 8) := by
  have page : ∀ j, j < 16 → ∃ n, pageOf (0x40 + j) = some (.dma, n) := by
    intro j hj
    interval_cases j <;> exact ⟨_, rfl⟩
  by_cases hc : c < 128
  · simp only [pDMA, dmaLocal, hc, if_true]
    exact ⟨page _ (by omega), by omega, by omega⟩
  · simp only [pDMA, dmaLocal, hc, if_false]
    refine ⟨?_, by omega, by omega⟩
    have e : 0x48 + (c - 128) / 8 = 0x40 + (8 + (c - 128) / 8) := by omega
    rw [e]
    exact page _ (by omega)

/-- The offsets of a channel's ring and state registers hold no other register. -/
theorem dmaRegs_find : ∀ r ∈ [rDMA_RING, rDMA_STAT], ∀ j : Fin 16, dmaRegs.find? (·.covers (r.at j)) = some r := by
  decide

theorem regAt_chOff {c : Nat} (h : c < 192) {r : Reg} (hr : r ∈ [rDMA_RING, rDMA_STAT]) :
    regAt (pDMA c) (chOff c r) = some r := by
  obtain ⟨⟨n, hp⟩, hl, hd⟩ := pageOf_pDMA h
  have hb : 0x100 ≤ r.off ∧ r.off ≤ 0x130 ∧ r.stride = 64 := by
    simp only [List.mem_cons, List.not_mem_nil, or_false] at hr
    rcases hr with rfl | rfl <;> decide
  have ho : ¬ chOff c r < 0x70 := by simp only [chOff, Reg.at]; omega
  have hg : ¬ (0x48 ≤ pDMA c ∧ 0x300 ≤ chOff c r) := by simp only [chOff, Reg.at, hb.2.2]; omega
  simp only [regAt, hp, ho, hg, if_false, true_and, PageKind.regs]
  exact dmaRegs_find r hr ⟨dmaLocal c, hl⟩

/-! ### Their values after the reset -/

theorem regReset_regKey {page off : Nat} {r : Reg} (ho : off < 0x10000) (hf : 0x10 < off) (hr : regAt page off = some r) :
    regReset (regKey page off) = BitVec.ofNat 64 r.reset := by
  have hp : regKey page off / 0x10000 = page := by simp only [regKey]; omega
  have hq : regKey page off % 0x10000 = off := by simp only [regKey]; omega
  simp only [regReset, hp, hq, fixedWord_none hf, hr]

/-- After the reset every register but MOD_RST_CAUSE holds its reset value. -/
theorem Dev.rd_reset {page off : Nat} (ho : off < 0x10000) (h : ¬ (page = pMOD ∧ off = rMOD_RST_CAUSE.off)) :
    Dev.reset.rd page off = (regReset (regKey page off)).toNat := by
  have hk : 0x110 ≠ regKey page off := by simp only [regKey, pMOD, rMOD_RST_CAUSE] at h ⊢; omega
  simp [Dev.rd, Dev.reset, Tab.get, hk]

/-- After the reset a field of a register of the register map has the value of the register's reset. -/
theorem Dev.fld_reset {page off : Nat} {r : Reg} (hi lo : Nat) (ho : off < 0x10000) (hf : 0x10 < off)
    (h : page ≠ pMOD ∨ off ≠ rMOD_RST_CAUSE.off) (hr : regAt page off = some r) :
    Dev.reset.fld page off hi lo = bits (r.reset % 2 ^ 64) hi lo := by
  rw [Dev.fld, Dev.rd_reset ho (by tauto), regReset_regKey ho hf hr, BitVec.toNat_ofNat]

theorem Dev.pageWorld_reset {page : Nat} (h : pageOf page ≠ none) : Dev.reset.pageWorld page = true := by
  have hw : Dev.reset.fld page rWORLD.off 0 0 = 1 :=
    Dev.fld_reset 0 0 (by decide) (by decide) (.inr (by decide)) (regAt_world h)
  simp [Dev.pageWorld, Dev.bit, hw]

theorem Dev.emberKind_reset {e : Nat} (h : e < 16384) : Dev.reset.emberKind e = ebOff := by
  have ho : 0x8000 ≤ cfgOff e ∧ cfgOff e < 0x10000 := by simp only [cfgOff, Reg.at, rEMB_CFG]; omega
  exact Dev.fld_reset 63 62 ho.2 (by omega) (.inr (by simp only [rMOD_RST_CAUSE]; omega)) (regAt_cfgOff h)

theorem Dev.fld_reset_chOff {c : Nat} (h : c < 192) {r : Reg} (hr : r ∈ [rDMA_RING, rDMA_STAT]) (hi lo : Nat) :
    Dev.reset.fld (pDMA c) (chOff c r) hi lo = bits (r.reset % 2 ^ 64) hi lo := by
  obtain ⟨-, hl, -⟩ := pageOf_pDMA h
  have ho : 0x100 ≤ chOff c r ∧ chOff c r < 0x10000 := by
    simp only [List.mem_cons, List.not_mem_nil, or_false] at hr
    rcases hr with rfl | rfl <;> simp only [chOff, Reg.at, rDMA_RING, rDMA_STAT] <;> omega
  have hp : pDMA c ≠ pMOD := by simp only [pDMA, pMOD]; split <;> omega
  exact Dev.fld_reset hi lo ho.2 (by omega) (.inl hp) (regAt_chOff h hr)

theorem Dev.chSize_reset {c : Nat} (h : c < 192) : Dev.reset.chSize c = 4 := by
  simp only [Dev.chSize, Dev.fld_reset_chOff h (r := rDMA_RING) (by simp)]
  decide

theorem Dev.chState_reset {c : Nat} (h : c < 192) : Dev.reset.chState c = chDisabled := by
  simp only [Dev.chState, Dev.fld_reset_chOff h (r := rDMA_STAT) (by simp)]
  decide

/-- Settles O58: the register file lists MOD_RST_CAUSE alone, and every other table of the reset state is empty. -/
theorem resetHolds : Obligations.ResetHolds := by
  refine ⟨fun page off ho h => Dev.rd_reset ho h, rfl, fun page h => Dev.pageWorld_reset h, by decide, by decide, rfl, rfl, rfl,
    fun _ => rfl, fun _ => rfl, fun _ => rfl, rfl, fun c => ⟨Dev.chSize_reset c.isLt, Dev.chState_reset c.isLt⟩, by decide,
    fun e => Dev.emberKind_reset e.isLt, rfl, by decide⟩

end Sys2Proof.Machine
end

section
/-! SUPPORT. An instruction that is ready takes its effect at once, and what a write of the scratchpad makes live (R50, R56). -/

namespace Sys2Proof.Machine

open Sys2Proof.Safety

/-! ### Sets of numbers -/

theorem NSet.mem_add {s : NSet} {k x : Nat} : x ∈ s.add k ↔ x = k ∨ x ∈ s := by
  induction s with
  | nil => simp [NSet.add]
  | cons j t ih =>
    simp only [NSet.add]
    split
    · simp
    · split
      · next h => simp [h]
      · simp only [List.mem_cons, ih]; tauto

theorem NSet.mem_addRange {s : NSet} {k n x : Nat} : x ∈ s.addRange k n ↔ x ∈ s ∨ k ≤ x ∧ x < k + n := by
  induction n generalizing s with
  | zero => simp [NSet.addRange]
  | succ n ih =>
    have h : k ≤ x ∧ x < k + (n + 1) ↔ x = k + n ∨ k ≤ x ∧ x < k + n := by omega
    rw [NSet.addRange, ih, NSet.mem_add, h]
    tauto

/-! ### Ready instructions -/

/-- An instruction that is ready takes its effect, after the instruction address has moved on. -/
theorem run_issue_of_ready {s : State} {k op : Nat} {w : BitVec 128} {needs : Dev → Ins → Needs} (eff : Ins → Dev → Dev)
    (h : Ready s k op w needs) : s.run (fun d => d.issue k op w needs eff) =
      .next (on s fun d => eff (Ins.of w) (d.advance k (needs d (Ins.of w)))) := by
  rw [State.run, Dev.issue_clear needs eff h.1 h.2, on]

/-- One whose effect is on the core's own registers retires with it. -/
theorem run_issue_onLv {s : State} {k op : Nat} {w : BitVec 128} {needs : Dev → Ins → Needs} (f : Ins → Dev → Live → Live)
    (h : Ready s k op w needs) : s.run (fun d => d.issue k op w needs fun i d => d.onLv k (f i d)) =
      .next (retire s k (needs s.dev (Ins.of w)) (f (Ins.of w) (s.dev.advance k (needs s.dev (Ins.of w))))) := by
  rw [run_issue_of_ready _ h, on, Dev.onLv_advance]
  rfl

@[simp] theorem Dev.advance_load (d : Dev) (k : Nat) (n : Needs) (a m : Nat) : (d.advance k n).load a m = d.load a m := rfl

@[simp] theorem Dev.advance_sr (d : Dev) (k : Nat) (n : Needs) (r : Nat) : (d.advance k n).sr k r = d.sr k r := by
  simp [Dev.sr, Dev.lv_advance, Live.s]

@[simp] theorem Dev.advance_spAddr (d : Dev) (k : Nat) (n : Needs) (r off : Nat) :
    (d.advance k n).spAddr k r off = d.spAddr k r off := by simp [Dev.spAddr]

/-! ### Stores to the scratchpad -/

theorem Dev.load_storeRaw_other (d : Dev) (a : Nat) (bs : List Byte) (x : Nat) (h : x < a ∨ a + bs.length ≤ x) :
    (d.storeRaw a bs).load x 1 = d.load x 1 := by
  simp only [Dev.load, memLoad, Dev.storeRaw, memStore_get_other _ _ _ _ h]

@[simp] theorem Dev.liveSegs_load (d : Dev) (k off n a m : Nat) : (d.liveSegs k off n).load a m = d.load a m := by
  simp only [Dev.liveSegs]; split <;> rfl

@[simp] theorem Dev.spStore_regs (d : Dev) (k a : Nat) (bs : List Byte) : (d.spStore k a bs).regs = d.regs := by
  simp only [Dev.spStore, Dev.liveSegs]; split <;> rfl

theorem Dev.load_spStore_same (d : Dev) (k a : Nat) (bs : List Byte) :
    (d.spStore k a bs).load (scratchAddr k a) bs.length = bs := by
  simp only [Dev.spStore, Dev.liveSegs_load, Dev.load_storeRaw_same]

theorem Dev.load_spStore_other (d : Dev) (k a : Nat) (bs : List Byte) (x : Nat)
    (h : x < scratchAddr k a ∨ scratchAddr k a + bs.length ≤ x) : (d.spStore k a bs).load x 1 = d.load x 1 := by
  rw [Dev.spStore, Dev.liveSegs_load, Dev.load_storeRaw_other d _ bs x h]

theorem Dev.core_spStore_other (d : Dev) {k j : Nat} (a : Nat) (bs : List Byte) (h : j ≠ k) :
    (d.spStore k a bs).core j = d.core j := by
  simp only [Dev.spStore, Dev.liveSegs]
  split
  · rfl
  · exact Dev.core_setCore_other _ _ _ _ h

/-- Of a core's registers a store changes nothing: the segments from that of its first byte to that of its last become live. -/
theorem Dev.lv_spStore (d : Dev) (k a : Nat) {bs : List Byte} (h : bs.length ≠ 0) :
    (d.spStore k a bs).lv k = { d.lv k with
      segLive := (d.lv k).segLive.addRange (a / 0x40000) ((a + bs.length - 1) / 0x40000 + 1 - a / 0x40000) } := by
  simp [Dev.spStore, Dev.liveSegs, h, Dev.lv]

/-- SST that is ready stores the eight bytes of s[b], after the instruction address has moved on. -/
theorem exec_sst_of_ready {k : Fin 512} {w : BitVec 128} {s : State} (h : Ready s k 0x07 w (sstNeeds k)) :
    exec (.sst k w) s = .next (on s fun d => let i := Ins.of w
      (d.advance k (sstNeeds k d i)).spStore k (d.spAddr k i.a i.imm) (natLe 8 (d.sr k i.b))) := by
  refine (run_issue_of_ready _ h).trans ?_
  simp only [on, Dev.advance_spAddr, Dev.advance_sr]

/-- Settles O6: SLD retires with the number loaded, and SST is a store of eight bytes. -/
theorem scalarMemoryCompletes : Obligations.ScalarMemoryCompletes := by
  intro k w s i l a
  refine ⟨fun h => ?sld, fun h => ?sst⟩
  case sld =>
    refine (run_issue_onLv _ h).trans ?_
    simp only [Dev.spNat, Dev.loadNat, Dev.advance_load, Dev.advance_spAddr]
    rfl
  case sst =>
    let d := s.dev.advance k (sstNeeds k s.dev i)
    let bs := natLe 8 (l.s i.b).toNat
    have hlen : bs.length = 8 := natLe_length _ _
    have hlv : (d.spStore k a bs).lv k = { l with
        pc := (l.pc + 16) % 2 ^ 48, segLive := l.segLive.addRange (a / 0x40000) ((a + 8 - 1) / 0x40000 + 1 - a / 0x40000) } := by
      rw [Dev.lv_spStore d k a (by omega), hlen, Dev.lv_advance]
    have hseg : a / 0x40000 ∈ ((d.spStore k a bs).lv k).segLive := by
      rw [hlv]
      exact NSet.mem_addRange.mpr (.inr (by omega))
    exact ⟨d.spStore k a bs, exec_sst_of_ready h, hlen ▸ Dev.load_spStore_same d k a bs,
      fun x hx => Dev.load_spStore_other d k a bs x (hlen ▸ hx), by rw [hlv], by rw [hlv], by rw [hlv], by rw [hlv], hseg,
      fun j hj => (Dev.core_spStore_other d a bs hj).trans (Dev.core_advance_other _ _ _ _ hj),
      Dev.spStore_regs d k a bs⟩

end Sys2Proof.Machine
end

section
/-! SUPPORT. A write of a register that has no command of its own (R8, R445, R448). -/

namespace Sys2Proof.Machine

open Sys2Proof.Safety

/-- The tier map window holds no page of registers. -/
theorem windowPage_of_pageOf {page : Nat} (h : pageOf page ≠ none) : windowPage page = false := by
  by_contra hw
  simp only [windowPage, Bool.not_eq_false, Bool.and_eq_true, decide_eq_true_eq] at hw
  obtain ⟨h1, h2⟩ := hw
  apply h
  interval_cases page <;> rfl

/-! ### What a plain write does -/

/-- Is a register behind the header of a page one whose plain write no other command shares? The MOD page has a case of its own,
and PART_CTL, LRN_ASH_CTL and the claim registers of the DMA channels are written as their commands write them. -/
def PlainPlace (k : PageKind) (off : Nat) : Prop :=
  k ≠ .mod ∧ (k = .part → off ≠ rPART_CTL.off) ∧ (k = .lrn → off ≠ rLRN_ASH_CTL.off) ∧
    (k = .dma → rDMA_CRC_CLAIM.covers off = false)

/-- A write of such a register that no command of its own takes is the register's plain effect. -/
theorem exec_registerWrite_plain {a : Access} {page off : Nat} {v : Word} {k : PageKind} {n : Nat} {r : Reg} {s : State}
    (hp : pageOf page = some (k, n)) (hr : regAt page off = some r) (hal : off % 8 = 0) (hlo : 0x100 ≤ off) (hhi : off < 0x10000)
    (hown : ownCommand a page off v = false) (hw : s.dev.writable a page off (actionAt page off) = true)
    (hk : PlainPlace k off) : exec (.registerWrite a page off v) s =
      .next (on s fun d => (d.plainEffect a page off r v).emit (.readback 0 false)) := by
  obtain ⟨hmod, hpart, hlrn, hdma⟩ := hk
  have hwin : windowPage page = false := windowPage_of_pageOf (by simp [hp])
  have hclaim : off ≠ rCLAIM.off := by simp only [rCLAIM]; omega
  have h1 : ¬ (off % 8 ≠ 0 ∨ 0x10000 ≤ off) := by omega
  have h2 : ¬ off < 0x70 := by omega
  have h3 : ¬ (k = .part ∧ off = rPART_CTL.off) := fun h => hpart h.1 h.2
  have h4 : ¬ (k = .lrn ∧ off = rLRN_ASH_CTL.off) := fun h => hlrn h.1 h.2
  have h5 : ¬ (k = .dma ∧ rDMA_CRC_CLAIM.covers off = true) := fun h => by simp [hdma h.1] at h
  -- Its last match reaches the common arm because the page is not MOD (hmod, which simp finds in the context).
  change execRegisterWrite a page off v s = _
  simp only [execRegisterWrite, State.run, on, h1, h2, hwin, hown, hclaim, hp, hr, if_false, Bool.false_eq_true, h3, h4, h5,
    Dev.regWrite_writable _ hw]

/-! ### Registers that take what is written -/

/-- Pages whose registers a plain write always reaches. -/
def openPages : List PageKind := [.err, .core, .emb, .eth, .gey, .flue, .blw, .hbm, .sdie]

theorem Reg.covers_iff {r : Reg} {off : Nat} (hs : r.stride ≠ 0) :
    r.covers off = true ↔ r.off ≤ off ∧ (off - r.off) % r.stride = 0 ∧ (off - r.off) / r.stride < r.count := by
  simp [Reg.covers, hs]

/-- A ring register of a DMA channel is no claim register. -/
theorem not_covers_crcClaim_of_ring {off : Nat} (h : rDMA_RING.covers off = true) : rDMA_CRC_CLAIM.covers off = false := by
  by_contra hc
  rw [Bool.not_eq_false, Reg.covers_iff (by decide)] at hc
  rw [Reg.covers_iff (by decide)] at h
  simp only [rDMA_RING, rDMA_CRC_CLAIM] at h hc
  omega

/-- A register's bits that an ember's kind keeps are those of a word (R6). -/
theorem emberBits_lt (kind : Nat) {v : Nat} (h : v < 2 ^ 64) : emberBits kind v < 2 ^ 64 := by
  unfold emberBits
  split
  · exact putBits_lt _ _ _ _ _ (by decide) (by decide) h
  · split <;> omega

theorem Dev.wr_wr (d : Dev) (page off u v : Nat) : (d.wr page off u).wr page off v = d.wr page off v := by simp [Dev.wr]

theorem Dev.wr_mod (d : Dev) (page off v : Nat) : d.wr page off (v % 2 ^ 64) = d.wr page off v := by
  have h : BitVec.ofNat 64 (v % 2 ^ 64) = BitVec.ofNat 64 v := BitVec.eq_of_toNat_eq (by simp)
  rw [Dev.wr, Dev.wr, h]

/-- What a plain write leaves in a register that takes it: each field as its access code gives, and of an ember's value the bits
that its kind has (R6, R8). -/
def Dev.plainValue (d : Dev) (a : Access) (page off : Nat) (k : PageKind) (n : Nat) (r : Reg) (v : Word) : Nat :=
  let x := r.write (d.rd page off) a.width v.toNat % 2 ^ 64
  if k = .emb ∧ rEMB_VAL.covers off = true then emberBits (d.emberKind (n * 2048 + (off - rEMB_VAL.off) / 16)) x else x

theorem Dev.plainValue_lt (d : Dev) (a : Access) (page off : Nat) (k : PageKind) (n : Nat) (r : Reg) (v : Word) :
    d.plainValue a page off k n r v < 2 ^ 64 := by
  have hx : r.write (d.rd page off) a.width v.toNat % 2 ^ 64 < 2 ^ 64 := Nat.mod_lt _ (by decide)
  unfold Dev.plainValue
  split
  · exact emberBits_lt _ hx
  · exact hx

/-- Beside the embers, a register of such a page has no effect but to take its fields. -/
theorem Dev.plainEffect_open {d : Dev} {a : Access} {page off : Nat} {k : PageKind} {n : Nat} {r : Reg} {v : Word}
    (hp : pageOf page = some (k, n)) (hk : k ∈ openPages) (he : k ≠ .emb) :
    d.plainEffect a page off r v = d.store8 a page off r v := by
  simp only [Dev.plainEffect, hp]
  fin_cases hk
  exacts [rfl, rfl, absurd rfl he, rfl, rfl, rfl, rfl, rfl, rfl]

theorem Dev.plainEffect_stored {d : Dev} {a : Access} {page off : Nat} {k : PageKind} {n : Nat} {r : Reg} {v : Word}
    (hp : pageOf page = some (k, n))
    (hk : k ∈ openPages ∨ k = .dma ∧ rDMA_RING.covers off = true ∧ d.chOn (channelAt page off) = false) :
    d.plainEffect a page off r v = d.wr page off (d.plainValue a page off k n r v) := by
  have hput : d.store8 a page off r v = d.wr page off (r.write (d.rd page off) a.width v.toNat % 2 ^ 64) :=
    (Dev.wr_mod _ _ _ _).symm
  by_cases he : k = .emb
  · subst he
    by_cases hc : rEMB_VAL.covers off = true
    · simp [Dev.plainEffect, Dev.plainValue, hp, hput, hc, Dev.wr_wr]
    · simp [Dev.plainEffect, Dev.plainValue, hp, hput, hc]
  · simp only [Dev.plainValue, he, false_and, if_false, ← hput]
    rcases hk with hk | ⟨rfl, hc, ho⟩
    · exact Dev.plainEffect_open hp hk he
    · simp [Dev.plainEffect, hp, ho]

/-! ### Registers that are closed -/

/-- A register that keeps what it holds: a key word of a locked slot, the ring of an enabled channel, the core set of an enabled
partition, a register of an enabled cache manager, the request buffer while a request waits. -/
def Dev.Closed (d : Dev) (k : PageKind) (page off n : Nat) : Prop :=
  k = .fen ∧ 0x1000 ≤ off ∧ d.bit pFEN (rFEN_KEY.at ((off - 0x1000) / 128)) 63 = true ∨
  k = .dma ∧ rDMA_RING.covers off = true ∧ d.chOn (channelAt page off) = true ∨
  k = .part ∧ rPART_CORE.covers off = true ∧ d.partOn n = true ∨
  k = .cache ∧ d.bit (pCACHE n) rCACHE_CTL.off 63 = true ∨
  k = .att ∧ rATT_REQ_BUF.covers off = true ∧ d.bit pATT rATT_REQ.off 63 = true

theorem Dev.plainEffect_closed {d : Dev} {a : Access} {page off : Nat} {k : PageKind} {n : Nat} {r : Reg} {v : Word}
    (hp : pageOf page = some (k, n)) (hk : d.Closed k page off n) : d.plainEffect a page off r v = d := by
  rcases hk with ⟨rfl, hlo, hl⟩ | ⟨rfl, hc, ho⟩ | ⟨rfl, hc, ho⟩ | ⟨rfl, ho⟩ | ⟨rfl, hc, ho⟩
  · simp [Dev.plainEffect, hp, hlo, hl]
  · simp [Dev.plainEffect, hp, hc, ho]
  · simp [Dev.plainEffect, hp, hc, ho]
  · simp [Dev.plainEffect, hp, ho]
  · simp [Dev.plainEffect, hp, hc, ho]

theorem plainPlace_of_open {k : PageKind} (off : Nat) (h : k ∈ openPages) : PlainPlace k off := by
  fin_cases h <;> simp [PlainPlace]

theorem plainPlace_ring {off : Nat} (h : rDMA_RING.covers off = true) : PlainPlace .dma off := by
  simp [PlainPlace, not_covers_crcClaim_of_ring h]

theorem Dev.Closed.plainPlace {d : Dev} {k : PageKind} {page off n : Nat} (h : d.Closed k page off n) : PlainPlace k off := by
  rcases h with ⟨rfl, -⟩ | ⟨rfl, hc, -⟩ | ⟨rfl, hc, -⟩ | ⟨rfl, -⟩ | ⟨rfl, -⟩
  · simp [PlainPlace]
  · exact plainPlace_ring hc
  · have ho : off ≠ rPART_CTL.off := by
      rw [Reg.covers_iff (by decide)] at hc
      simp only [rPART_CORE, rPART_CTL] at hc ⊢
      omega
    simp [PlainPlace, ho]
  · simp [PlainPlace]
  · simp [PlainPlace]

/-- Settles O56: the write is the plain effect of its register, which stores the value where the register takes it and is
nothing where the register is closed. -/
theorem plainWritesComplete : Obligations.PlainWritesComplete := by
  intro a page off v k n r s d hp hr hal hlo hhi hown hw
  refine ⟨fun hk => ?stored, fun hk => ?closed⟩
  case stored =>
    have hplace : PlainPlace k off := by
      rcases hk with hk | ⟨rfl, hc, -⟩
      · exact plainPlace_of_open off hk
      · exact plainPlace_ring hc
    refine ⟨(d.wr page off (d.plainValue a page off k n r v)).emit (.readback 0 false), ?_, rfl, ?_, fun q o _ ho hne => ?_⟩
    · rw [exec_registerWrite_plain hp hr hal hlo hhi hown hw hplace, on, Dev.plainEffect_stored hp hk]
    · exact (Dev.rd_wr_same d page off _).trans (Nat.mod_eq_of_lt (d.plainValue_lt a page off k n r v))
    · exact Dev.rd_wr_other d page off _ q o (regKey_ne ho hhi hne)
  case closed =>
    rw [exec_registerWrite_plain hp hr hal hlo hhi hown hw (Dev.Closed.plainPlace hk), on, Dev.plainEffect_closed hp hk, on]

end Sys2Proof.Machine
end

section
/-! SUPPORT. Scalar instructions retire with the value of their table, and how far a read of the Local Time Counter lags
(R46, R124 to R128). -/

namespace Sys2Proof.Machine

open Sys2Proof.Safety

/-- How far the copy that core k reads lags behind the Local Time Counter, in nanoseconds (R46; log entry 14). -/
def Dev.ltcLag (d : Dev) (k : Nat) : Nat :=
  (Config.freeValue d.fresh).toNat % (min 12 (d.ltc - (d.core k).ltcSeen).toNat + 1)

/-- What core k reads of the Local Time Counter. -/
def Dev.ltcCopy (d : Dev) (k : Nat) : Word := d.ltc - BitVec.ofNat 64 (d.ltcLag k)

theorem Dev.readLtc_eq (d : Dev) (k : Nat) : d.readLtc k =
    (({ d with fresh := d.fresh + 1 }).setCore k { d.core k with ltcSeen := d.ltcCopy k }, d.ltcCopy k) := rfl

theorem Dev.ltcLag_le (d : Dev) (k : Nat) : d.ltcLag k ≤ min 12 (d.ltc - (d.core k).ltcSeen).toNat :=
  Nat.le_of_lt_succ (Nat.mod_lt _ (Nat.succ_pos _))

theorem Dev.ltcCopy_behind (d : Dev) (k : Nat) : (d.ltc - d.ltcCopy k).toNat ≤ 12 := by
  have h := (d.ltcLag_le k).trans (Nat.min_le_left _ _)
  simp only [Dev.ltcCopy]
  bv_omega

/-- A core never reads less than it last read (R46). -/
theorem Dev.ltcCopy_ahead (d : Dev) (k : Nat) :
    (d.ltcCopy k - (d.core k).ltcSeen).toNat ≤ (d.ltc - (d.core k).ltcSeen).toNat := by
  have h := (d.ltcLag_le k).trans (Nat.min_le_right _ _)
  simp only [Dev.ltcCopy]
  bv_omega

@[simp] theorem Dev.advance_ltcCopy (d : Dev) (k : Nat) (n : Needs) : (d.advance k n).ltcCopy k = d.ltcCopy k := by
  simp only [Dev.ltcCopy, Dev.ltcLag, Dev.advance, Dev.core_setCore_same, Dev.setCore_ltc, Dev.setCore_fresh]

/-- Moving on and reading the Local Time Counter can change places. -/
theorem Dev.readLtc_advance (d : Dev) (k : Nat) (n : Needs) :
    (d.advance k n).readLtc k = ((d.readLtc k).1.advance k n, d.ltcCopy k) := by
  rw [Dev.readLtc_eq, Dev.advance_ltcCopy, Dev.readLtc_eq]
  simp [Dev.advance, Dev.setCore, Dev.core, Core.carries, Dev.now]

/-- RDLTC that is ready retires with what it reads, on the state in which the core remembers that value. -/
theorem exec_rdltc_of_ready {k : Fin 512} {w : BitVec 128} {s : State} (h : Ready s k 0x0A w rdltcNeeds) :
    exec (.rdltc k w) s = .next (retire (on s fun d => (d.readLtc k).1) k (rdltcNeeds s.dev (Ins.of w)) fun m =>
      m.setS (Ins.of w).d (s.dev.ltcCopy k)) := by
  refine (run_issue_of_ready _ h).trans ?_
  simp only [on, retire, Dev.readLtc_advance, Dev.onLv_advance]

/-- NOP that is ready moves on. -/
theorem exec_nop_of_ready {k : Fin 512} {w : BitVec 128} {s : State} (h : Ready s k 0x0F w nopNeeds) :
    exec (.nop k w) s = .next (retire s k (nopNeeds s.dev (Ins.of w)) fun m => m) :=
  run_issue_of_ready _ h

/-- Changes of a core's registers that agree wherever the instruction address stands retire alike. -/
theorem retire_congr {s : State} {k : Nat} {f g : Live → Live} (n : Needs)
    (h : ∀ pc, f { s.dev.lv k with pc := pc } = g { s.dev.lv k with pc := pc }) : retire s k n f = retire s k n g := by
  have hk := h (((s.dev.core k).live.pc + 16) % 2 ^ 48)
  simp only [Dev.lv] at hk
  simp only [retire, hk]

/-- An instruction that is ready and writes one scalar register with what it computes from the core's registers. -/
theorem run_issue_setS {s : State} {k op : Nat} {w : BitVec 128} {needs : Dev → Ins → Needs} {val : Ins → Live → Word}
    (h : Ready s k op w needs) (hval : ∀ i l pc, val i { l with pc := pc } = val i l) :
    s.run (fun d => d.issue k op w needs fun i d => d.onLv k fun l => l.setS i.d (val i l)) =
      .next (retire s k (needs s.dev (Ins.of w)) fun m => m.setS (Ins.of w).d (val (Ins.of w) (s.dev.lv k))) :=
  (run_issue_onLv (fun i _ l => l.setS i.d (val i l)) h).trans
    (congrArg _ (retire_congr _ fun pc => by simp only [hval]))

/-- Settles O5: the instructions on registers retire with the value of their table, and RDLTC with its copy of the counter. -/
theorem scalarCompletes : Obligations.ScalarCompletes := by
  intro k w s i l
  refine ⟨fun h => ?sop, fun h => ?sopi, fun h => ?smul, fun h => ?sdiv, fun h => ?sli, fun h => ?rdltc, exec_nop_of_ready⟩
  case sop => exact run_issue_setS (val := fun i l => scalarOp i.sub (l.s i.a) (l.s i.b)) h fun _ _ _ => rfl
  case sopi => exact run_issue_setS (val := fun i l => scalarOp i.sub (l.s i.a) (BitVec.ofNat 64 i.imm)) h fun _ _ _ => rfl
  case smul => exact run_issue_setS (val := fun i l => mulOp (i.mod 0) (i.mod 1) (l.s i.a) (l.s i.b)) h fun _ _ _ => rfl
  case sdiv => exact run_issue_setS (val := fun i l => divOp (i.mod 0) (i.mod 1) (l.s i.a) (l.s i.b)) h fun _ _ _ => rfl
  case sli => exact run_issue_setS (val := fun i _ => BitVec.ofNat 64 i.imm) h fun _ _ _ => rfl
  case rdltc => exact ⟨s.dev.ltcCopy k, s.dev.ltcCopy_behind k, s.dev.ltcCopy_ahead k, exec_rdltc_of_ready h⟩

end Sys2Proof.Machine
end

section
/-! SUPPORT. Reads of the Local Time Counter (R46, R47). -/

namespace Sys2Proof.Machine

open Sys2Proof.Safety

/-- A read that reaches its register, of a value and with an effect that the device gives (R8). -/
theorem run_regReadOf {s : State} {a : Access} {page off : Nat} {r : Reg} (v : Dev → Nat) (eff : Dev → Dev → Dev)
    (h : s.dev.writable a page off false = true) : s.run (fun d => d.regReadOf a page off r (v d) (eff d)) =
      .next (on s fun d => (eff d (d.wr page off (r.afterRead (d.rd page off) a.width))).emit
        (.readback (BitVec.ofNat 64 (a.width.view (v d))) false)) := by
  simp only [State.run, on, Dev.regReadOf_ok _ h]

/-- What an access of the counter latches: one of the low half, the high half of the value (R47). -/
def Dev.latchLtc (e : Dev) (w : Width) (t : Word) : Dev :=
  if w = .low then e.setFld pMOD rMOD_LTC_HI.off 31 0 (t.toNat / 2 ^ 32) else e

theorem exec_modLtcRead_of_writable {a : Access} {s : State} (h : s.dev.writable a pMOD rMOD_LTC.off false = true) :
    exec (.modLtcRead a) s = .next (on s fun d =>
      ((d.wr pMOD rMOD_LTC.off (rMOD_LTC.afterRead (d.rd pMOD rMOD_LTC.off) a.width)).latchLtc a.width d.ltc).emit
        (.readback (BitVec.ofNat 64 (a.width.view d.ltc.toNat)) false)) :=
  run_regReadOf (r := rMOD_LTC) (fun d => d.ltc.toNat) (fun d e => e.latchLtc a.width d.ltc) h

/-- Settles O18: a read of the counter is a register read, which latches the high half when it is of the low half. -/
theorem ltcReads : Obligations.LtcReads := by
  intro a s h
  refine ⟨fun hw => ⟨_, exec_modLtcRead_of_writable h, ?full⟩, fun hw => ⟨_, exec_modLtcRead_of_writable h, ?low⟩⟩
  case full =>
    simp only [hw, Width.view, Dev.latchLtc, reduceCtorEq, if_false, BitVec.ofNat_toNat, BitVec.setWidth_eq]
    exact ⟨rfl, rfl⟩
  case low =>
    have hhi : s.dev.ltc.toNat / 2 ^ 32 < 2 ^ 32 := by have := s.dev.ltc.isLt; omega
    simp only [hw, Width.view, Dev.latchLtc, if_true]
    refine ⟨rfl, ?_, rfl⟩
    rw [Dev.emit_fld, Dev.fld_setFld_same _ _ _ _ _ _ (by decide) (by decide)]
    exact Nat.mod_eq_of_lt hhi

end Sys2Proof.Machine
end

section
/-! SUPPORT. What the device does inside leaves its pins, rails, clocks and resets as they are: messages to the companion, stores,
error records, loads, and links that go down. -/

namespace Sys2Proof.Machine

/-- What every application leaves, all of them leave. -/
theorem Dev.each_keeps {α β : Type} (g : Dev → β) {l : List α} {f : α → Dev → Dev}
    (h : ∀ x ∈ l, ∀ e, g (f x e) = g e) (d : Dev) : g (d.each l f) = g d := by
  induction l generalizing d with
  | nil => rfl
  | cons x l ih => exact (ih (fun y hy => h y (by simp [hy])) (f x d)).trans (h x (by simp) d)

theorem Dev.each_pow {α : Type} {l : List α} {f : α → Dev → Dev} (h : ∀ x e, (f x e).pow = e.pow) (d : Dev) :
    (d.each l f).pow = d.pow := Dev.each_keeps Dev.pow (fun x _ => h x) d

/-! ### Messages and interrupts -/

@[simp] theorem Dev.linkSend_pow (d : Dev) (o : Out) : (d.linkSend o).pow = d.pow := by
  unfold Dev.linkSend
  split
  · split <;> rfl
  · rfl

@[simp] theorem Dev.toCompanion_pow (d : Dev) (o : Out) : (d.toCompanion o).pow = d.pow := by
  unfold Dev.toCompanion; split <;> simp

@[simp] theorem Dev.vector_pow (d : Dev) (i : Nat) : (d.vector i).pow = d.pow := by
  unfold Dev.vector; split <;> simp

@[simp] theorem Dev.route_pow (d : Dev) (page : Nat) : (d.route page).pow = d.pow := by
  unfold Dev.route; dsimp only; split <;> simp

@[simp] theorem Dev.raiseInt_pow (d : Dev) (page n : Nat) : (d.raiseInt page n).pow = d.pow := by
  unfold Dev.raiseInt; dsimp only; split <;> simp

@[simp] theorem Dev.event_pow (d : Dev) (page : Nat) : (d.event page).pow = d.pow := Dev.raiseInt_pow _ _ _

/-! ### Phases of a partition -/

@[simp] theorem Dev.phCount_pow (d : Dev) (p off hi lo n : Nat) : (d.phCount p off hi lo n).pow = d.pow := by
  unfold Dev.phCount; dsimp only; split <;> simp

@[simp] theorem Dev.phSync_pow (d : Dev) (p : Nat) : (d.phSync p).pow = d.pow := by
  unfold Dev.phSync
  split
  · rfl
  · exact Dev.each_pow (fun x e => by split <;> simp) d

@[simp] theorem Dev.phEnd_pow (d : Dev) (p n : Nat) : (d.phEnd p n).pow = d.pow := Dev.phSync_pow d p

/-! ### Stores -/

@[simp] theorem Dev.settle_pow (d : Dev) (g : Nat) : (d.settle g).pow = d.pow := by
  unfold Dev.settle; dsimp only; split <;> simp

@[simp] theorem Dev.invalidate_pow (d : Dev) (a n : Nat) : (d.invalidate a n).pow = d.pow := by
  unfold Dev.invalidate
  dsimp only
  split
  · rfl
  · exact Dev.each_pow (fun _ e => e.toCompanion_pow _) _

@[simp] theorem Dev.dropStaged_pow (d : Dev) (a n : Nat) : (d.dropStaged a n).pow = d.pow := by
  unfold Dev.dropStaged; split <;> rfl

@[simp] theorem Dev.markDirty_pow (d : Dev) (a n : Nat) : (d.markDirty a n).pow = d.pow :=
  Dev.each_pow (fun t e => by dsimp only; split <;> rfl) d

@[simp] theorem Dev.warm_pow (d : Dev) (a n : Nat) : (d.warm a n).pow = d.pow :=
  Dev.each_pow (fun g e => by dsimp only; split <;> simp) d

@[simp] theorem Dev.liveSegs_pow (d : Dev) (k off n : Nat) : (d.liveSegs k off n).pow = d.pow := by
  unfold Dev.liveSegs; split <;> simp

@[simp] theorem Dev.addPoison_pow (d : Dev) (a n : Nat) : (d.addPoison a n).pow = d.pow := rfl
@[simp] theorem Dev.renewConns_pow (d : Dev) (a n : Nat) : (d.renewConns a n).pow = d.pow := rfl
@[simp] theorem Dev.hold_pow (d : Dev) (g a : Nat) (bs : List Byte) (bad : Bool) : (d.hold g a bs bad).pow = d.pow := rfl

@[simp] theorem Dev.storeGran_pow (d : Dev) (a : Nat) (bs : List Byte) (bad : Bool) : (d.storeGran a bs bad).pow = d.pow := by
  unfold Dev.storeGran
  dsimp only
  split
  · simp
  · split <;> simp

@[simp] theorem Dev.storeScratch_pow (d : Dev) (a : Nat) (bs : List Byte) (bad : Bool) : (d.storeScratch a bs bad).pow = d.pow := by
  unfold Dev.storeScratch; dsimp only; split <;> simp

@[simp] theorem Dev.store_pow (d : Dev) (a : Nat) (bs : List Byte) : (d.store a bs).pow = d.pow := by
  unfold Dev.store Dev.storeBad
  dsimp only
  split
  · exact Dev.each_pow (fun _ e => e.storeGran_pow _ _ _) d
  · exact Dev.each_pow (fun _ e => e.storeScratch_pow _ _ _) d
  · rfl

/-! ### Error records -/

@[simp] theorem Dev.free_pow (d : Dev) : d.free.1.pow = d.pow := rfl
@[simp] theorem Dev.ringSettle_pow (d : Dev) : d.ringSettle.pow = d.pow := rfl
@[simp] theorem Dev.setWaiting_pow (d : Dev) (l : List Bool) : (d.setWaiting l).pow = d.pow := rfl

@[simp] theorem Dev.record_pow (d : Dev) (e : HwError) (cls verdict : Nat) (pending : Bool) :
    (d.record e cls verdict pending).1.pow = d.pow := by
  unfold Dev.record
  dsimp only
  split
  · rfl
  · split
    · simp
    · split <;> simp

@[simp] theorem Dev.recordOnly_pow (d : Dev) (e : HwError) (cls : Nat) : (d.recordOnly e cls).pow = d.pow := by
  simp [Dev.recordOnly]

/-! ### Links -/

@[simp] theorem Dev.clearPeer_pow (d : Dev) (n : Nat) : (d.clearPeer n).pow = d.pow := rfl

@[simp] theorem Dev.linksDown_pow (d : Dev) : d.linksDown.pow = d.pow := by
  unfold Dev.linksDown
  dsimp only
  exact (Dev.each_pow (fun _ _ => Dev.setFld_pow _ _ _ _ _ _) _).trans (Dev.each_pow (fun n e => by simp) d)

@[simp] theorem Dev.stackSync_pow (d : Dev) : d.stackSync.pow = d.pow := by
  unfold Dev.stackSync; split <;> simp

@[simp] theorem Dev.fabPortDown_pow (d : Dev) (n : Nat) : (d.fabPortDown n).pow = d.pow := by
  simp [Dev.fabPortDown]

@[simp] theorem Dev.noCarrier_pow (d : Dev) : d.noCarrier.pow = d.pow := by
  unfold Dev.noCarrier; split <;> rfl

@[simp] theorem Dev.vexPortDown_pow (d : Dev) (n : Nat) : (d.vexPortDown n).pow = d.pow := by
  simp [Dev.vexPortDown]

/-- A fatal error stops the device and lowers ALERT_N (R426). -/
theorem Dev.fatal_pow (d : Dev) (e : HwError) : (d.fatal e).pow = { d.pow with stopped := true, alertN := false } := by
  simp [Dev.fatal]

/-! ### Loads and re-fetches -/

@[simp] theorem Dev.setWeights_pow (d : Dev) (p : Nat) (w : Weights) : (d.setWeights p w).pow = d.pow := rfl
@[simp] theorem Dev.wgtEnd_pow (d : Dev) (p r : Nat) : (d.wgtEnd p r).pow = d.pow := rfl
@[simp] theorem Dev.emitRead_pow (d : Dev) (p a c src conn : Nat) : (d.emitRead p a c src conn).pow = d.pow := rfl
@[simp] theorem Dev.dropRefetch_pow (d : Dev) (t : Nat) : (d.dropRefetch t).pow = d.pow := rfl

@[simp] theorem Dev.tryChunk_pow (d : Dev) (p c k : Nat) : (d.tryChunk p c k).pow = d.pow := by
  unfold Dev.tryChunk
  dsimp only
  split
  · simp
  · split <;> simp

@[simp] theorem Dev.pump_pow (d : Dev) (p n : Nat) : (d.pump p n).pow = d.pow := by
  induction n generalizing d with
  | zero => rfl
  | succ n ih =>
    unfold Dev.pump
    dsimp only
    split
    · rfl
    · split
      · split <;> simp [ih]
      · split <;> simp [ih]

@[simp] theorem Dev.fetchSettle_pow (d : Dev) (p : Nat) : (d.fetchSettle p).pow = d.pow := by
  unfold Dev.fetchSettle; dsimp only; split <;> simp

@[simp] theorem Dev.failAttempt_pow (d : Dev) (p : Nat) (c : ChunkTry) : (d.failAttempt p c).pow = d.pow := by
  unfold Dev.failAttempt; dsimp only; split <;> simp

@[simp] theorem Dev.leavePoisoned_pow (d : Dev) (tiles : List Nat) : (d.leavePoisoned tiles).pow = d.pow :=
  Dev.each_pow (fun t e => by dsimp only; split <;> rfl) d

@[simp] theorem Dev.failTile_pow (d : Dev) (t : Nat) : (d.failTile t).pow = d.pow := by
  simp [Dev.failTile]

@[simp] theorem Dev.tryRefetch_pow (d : Dev) (t k : Nat) : (d.tryRefetch t k).pow = d.pow := by
  unfold Dev.tryRefetch
  dsimp only
  split
  · simp
  · split <;> simp

@[simp] theorem Dev.failPort_pow (d : Dev) (port : Nat) (conn : Option (Nat × Nat)) : (d.failPort port conn).pow = d.pow :=
  (Dev.each_pow (fun _ _ => Dev.each_pow (fun c e => e.failAttempt_pow _ c) _) _).trans
    (Dev.each_pow (fun x e => by dsimp only; split <;> simp) d)

@[simp] theorem Dev.retrain_pow (d : Dev) : d.retrain.pow = d.pow := by
  unfold Dev.retrain
  dsimp only
  split
  · rfl
  · split
    · exact Dev.each_pow (fun n x => by split <;> rfl) d
    · rw [Dev.each_pow (fun n x => by split <;> rfl), Dev.each_pow (fun n x => by split <;> rfl)]
      exact Dev.each_pow (fun n x => by split <;> rfl) d

end Sys2Proof.Machine
end

section
/-! SUPPORT. The power cap, the causes of a reset and its end, and the sequence of the rails (R33 to R39, R45, R460). -/

namespace Sys2Proof.Machine

open Sys2Proof.Safety

/-! ### Events that occur under a condition -/

/-- An event whose condition holds takes its effect; `hc` is the meaning that exec gives the command. -/
theorem exec_if_pos {c : Instr} {s : State} {q : Dev → Prop} {dec : DecidablePred q} {f : Dev → Dev}
    (hc : exec c s = s.run fun d => if q d then f d else d) (hq : q s.dev) : exec c s = .next (on s f) := by
  rw [hc, State.run, if_pos hq, on]

theorem runs_if_pos {c : Instr} {s : State} {q : Dev → Prop} {dec : DecidablePred q} {f : Dev → Dev} {P : Dev → Prop}
    (hc : exec c s = s.run fun d => if q d then f d else d) (hq : q s.dev) (hp : P (f s.dev)) : Runs c s P :=
  ⟨f s.dev, exec_if_pos hc hq, hp⟩

theorem runs_if_neg {c : Instr} {s : State} {q : Dev → Prop} {dec : DecidablePred q} {f : Dev → Dev} {P : Dev → Prop}
    (hc : exec c s = s.run fun d => if q d then d else f d) (hq : ¬ q s.dev) (hp : P (f s.dev)) : Runs c s P :=
  ⟨f s.dev, by rw [hc, State.run, if_neg hq], hp⟩

/-! ### Bits of a register -/

theorem Dev.bit_eq_testBit (d : Dev) (page off b : Nat) : d.bit page off b = (d.rd page off).testBit b := by
  simp only [Dev.bit, Dev.fld, bits, Nat.testBit_eq_decide_div_mod_eq, Nat.shiftRight_eq_div_pow, Nat.add_sub_cancel_left, pow_one]
  rfl

/-! ### The cap that applies -/

/-- The cap in watts that a value of MOD_PWR.cap names (R33). -/
def capOf : Nat → Nat
  | 0 => 3400
  | 1 => 2600
  | _ => 2000

theorem capOf_eq (c : Nat) : capOf c = if c = 0 then 3400 else if c = 1 then 2600 else 2000 := by
  match c with
  | 0 => rfl
  | 1 => rfl
  | _ + 2 => rfl

/-- The cap by the brake pin and MOD_PWR.cap (R33). -/
def Dev.capNow (d : Dev) : Nat := if !d.pow.pwrbrkN then 2000 else capOf (d.fld pMOD rMOD_PWR.off 1 0)

theorem Dev.capNow_unbraked {d : Dev} (h : d.pow.pwrbrkN = true) : d.capNow = capOf (d.fld pMOD rMOD_PWR.off 1 0) := by
  simp [Dev.capNow, h]

theorem Dev.applyCap_eq (d : Dev) : d.applyCap =
    Dev.powerSync { d with pow := { d.pow with capWatts := d.capNow, capGate := decide (d.capNow < d.pow.watts) } } := rfl

theorem Dev.applyCap_pow (d : Dev) :
    d.applyCap.pow = { d.pow with capWatts := d.capNow, capGate := decide (d.capNow < d.pow.watts) } := rfl

theorem Dev.applyCap_rd_other (d : Dev) {page off : Nat} (h : regKey page off ≠ regKey pMOD rMOD_PWR.off) :
    d.applyCap.rd page off = d.rd page off := by
  rw [Dev.applyCap_eq, Dev.powerSync, Dev.setBit, Dev.setBit, Dev.rd_setFld_other _ _ _ _ _ _ _ _ h,
    Dev.rd_setFld_other _ _ _ _ _ _ _ _ h]
  rfl

/-- MOD_PWR.cap stays as it is. -/
theorem Dev.applyCap_cap (d : Dev) : d.applyCap.fld pMOD rMOD_PWR.off 1 0 = d.fld pMOD rMOD_PWR.off 1 0 := by
  rw [Dev.applyCap_eq, Dev.powerSync, Dev.fld_setBit_field _ _ _ _ _ _ _ (by decide) (by decide),
    Dev.fld_setBit_field _ _ _ _ _ _ _ (by decide) (by decide)]
  rfl

/-- MOD_PWR.throttled shows whether a gate stands (R32, R41). -/
theorem Dev.applyCap_throttled (d : Dev) :
    d.applyCap.bit pMOD rMOD_PWR.off 8 = (d.pow.thermGate || decide (d.capNow < d.pow.watts)) := by
  rw [Dev.applyCap_eq, Dev.powerSync, Dev.bit_setBit_same _ _ _ _ _ (by decide)]

/-! ### The end of a reset -/

/-- The causes recorded are those recorded before and those given. -/
theorem Dev.bit_noteCause (d : Dev) (c : Nat) {b : Nat} (hb : b < 64) : (d.noteCause c).bit pMOD rMOD_RST_CAUSE.off b =
    (d.bit pMOD rMOD_RST_CAUSE.off b || c.testBit b) := by
  rw [Dev.bit_eq_testBit, Dev.bit_eq_testBit, Dev.noteCause, Dev.rd_wr_same, Nat.testBit_mod_two_pow, Nat.testBit_or]
  simp [hb]

theorem Dev.noteCause_rd_other (d : Dev) (c : Nat) {page off : Nat} (h : regKey page off ≠ regKey pMOD rMOD_RST_CAUSE.off) :
    (d.noteCause c).rd page off = d.rd page off := Dev.rd_wr_other _ _ _ _ _ _ h

theorem Dev.clockFault_of_refclkA {d : Dev} (h : d.pow.refclkA = true) : d.clockFault = d := by simp [Dev.clockFault, h]

/-- With REFCLK_A there, a power-on or cold reset ends with SLOT_ID sampled, the LTC counting and the causes recorded. -/
theorem Dev.release_of_refclkA {d : Dev} (slot cause : Nat) (h : d.pow.refclkA = true) : d.release slot cause =
    Dev.noteCause { d with ltcOn := true, pow := { d.pow with reset := none, modRstN := true, slotId := slot, warmCauses := 0 } }
      (cause ||| d.pow.warmCauses) := Dev.clockFault_of_refclkA h

/-- What such an end of a reset leaves, the cap applied (R30, R45). -/
structure Released (d e : Dev) (slot cause : Nat) : Prop where
  reset : e.pow.reset = none
  modRstN : e.pow.modRstN = true
  slotId : e.pow.slotId = slot
  ltcOn : e.ltcOn = true
  ltc : e.ltc = d.ltc
  memory : SameMemory d e
  causes : ∀ b, b < 64 → cause.testBit b = true → e.bit pMOD rMOD_RST_CAUSE.off b = true

theorem Dev.released {d : Dev} (slot cause : Nat) (h : d.pow.refclkA = true) :
    Released d (d.release slot cause).applyCap slot cause := by
  rw [Dev.release_of_refclkA slot cause h]
  refine ⟨rfl, rfl, rfl, rfl, rfl, ⟨rfl, rfl⟩, fun b hb hc => ?_⟩
  rw [Dev.bit_eq_testBit, Dev.applyCap_rd_other _ (by decide), ← Dev.bit_eq_testBit, Dev.bit_noteCause _ _ hb]
  simp [hc]

/-! ### Power-up and power-down -/

/-- What a power-down leaves of the pins, and that it keeps the fuses. -/
theorem Dev.powerDown_pow (d : Dev) (lock : Bool) : (d.powerDown lock).pow =
    { d.pow with cclkMHz := 470, stopped := !d.pow.thermTripN, pwrGood := false, phase := .discharging, reset := none,
                 lockout := d.pow.lockout || lock } := rfl

theorem exec_pwrEnFall_of_good {s : State} (h : s.dev.pow.phase = .good) : exec .pwrEnFall s = .next (on s fun d =>
    Dev.powerDown { d with pow := { d.pow with pwrEn := false, thermTripN := true, alertN := true } } false) := by
  change execPwrEnFall s = _
  simp only [execPwrEnFall, State.run, on, h]

theorem exec_pwrEnFall_of_ramping {s : State} (h : s.dev.pow.phase = .ramping) : exec .pwrEnFall s = .next (on s fun d =>
    Dev.powerDown { d with pow := { d.pow with pwrEn := false } } true) := by
  change execPwrEnFall s = _
  simp only [execPwrEnFall, State.run, on, h]

theorem exec_pwrEnFall_of_waiting {s : State} (h : s.dev.pow.phase = .waiting) : exec .pwrEnFall s = .next (on s fun d =>
    { d with pow := { s.dev.pow with pwrEn := false, phase := .off } }) := by
  change execPwrEnFall s = _
  simp only [execPwrEnFall, State.run, on, h]

/-- Settles O15: each event of the sequence is one update of the power state, a reset of the device, or the end of one. -/
theorem powerSequence : Obligations.PowerSequence := by
  intro s n p
  refine ⟨fun h => ?rise, fun h he hn => ?ramp, fun h hlo hhi => ?good, fun slot hg hr hc => ?release, fun h => ?fall,
    exec_pwrEnFall_of_waiting, fun h => ?discharged, fun us hn hus h => ?brownOut⟩
  case rise =>
    refine runs_if_neg (Eq.refl (execPwrEnRise n s)) (Bool.eq_false_iff.mp h)
      ⟨rfl, rfl, fun hl hp => ?free, fun hl hn => ?kept, fun hn => ?long⟩
    case free => simp [show s.dev.pow.lockout = false from hl, show s.dev.pow.phase = .off from hp]
    case kept => simp [show s.dev.pow.lockout = true from hl, hn, p]
    case long => simp [hn]
  case ramp => exact (exec_if_pos (c := .railRampStart n) (Eq.refl (execRailRampStart n s)) ⟨h, he, hn⟩).trans rfl
  case good => exact runs_if_pos (Eq.refl (execPwrGoodRise n s)) ⟨h, hlo, hhi⟩ ⟨rfl, rfl, rfl, rfl, rfl, rfl, rfl, rfl, rfl⟩
  case release =>
    have hend := Dev.released slot.val causePowerOn hc
    exact runs_if_pos (Eq.refl (execPowerOnResetEnd slot s)) ⟨hg, hr⟩
      ⟨hend.reset, hend.modRstN, hend.slotId, hend.ltcOn, hend.ltc, hend.causes 0 (by decide) rfl, hend.memory⟩
  case fall =>
    rcases h with h | h
    · exact ⟨_, exec_pwrEnFall_of_good h, rfl, rfl, rfl, fun _ => rfl, by simp [Dev.powerDown_pow, h, p], rfl⟩
    · exact ⟨_, exec_pwrEnFall_of_ramping h, rfl, rfl, rfl, fun hg => by simp [h] at hg, by simp [Dev.powerDown_pow, h, p], rfl⟩
  case discharged =>
    refine (exec_if_pos (c := .railsDischarged) (Eq.refl (execRailsDischarged s)) h).trans ?_
    simp [on, p]
  case brownOut =>
    exact runs_if_pos (Eq.refl (execBrownOut n us s)) ⟨hn, hus, .inl h⟩ ⟨rfl, rfl, by simp [Dev.powerDown_pow], rfl⟩

end Sys2Proof.Machine
end

section
/-! SUPPORT. The power cap and the brake, the temperatures, and the loss of a reference clock (R32, R33, R41, R42). -/

namespace Sys2Proof.Machine

open Sys2Proof.Safety

/-! ### The brake and the cap -/

theorem exec_pwrbrkNFall_of_pwrGood {s : State} (h : s.dev.pow.pwrGood = true) : exec .pwrbrkNFall s =
    .next (on s fun d => Dev.applyCap { d with pow := { d.pow with pwrbrkN := false } }) := by
  change execPwrbrkNFall s = _
  simp only [execPwrbrkNFall, State.run, on, h, if_true]

theorem exec_pwrbrkNRise_of_pwrGood {s : State} (h : s.dev.pow.pwrGood = true) : exec .pwrbrkNRise s =
    .next (on s fun d => Dev.applyCap { d with pow := { d.pow with pwrbrkN := true } }) := by
  change execPwrbrkNRise s = _
  simp only [execPwrbrkNRise, State.run, on, h, if_true]

theorem exec_modPwrCapWrite_of_writable {a : Access} {v : Word} {s : State}
    (h : s.dev.writable a pMOD rMOD_PWR.off false = true) (hv : bits v.toNat 1 0 ≠ 3) : exec (.modPwrCapWrite a v) s =
      .next (on s fun d => (d.store8 a pMOD rMOD_PWR.off rMOD_PWR v).applyCap.emit (.readback 0 false)) := by
  change execModPwrCapWrite a v s = _
  simp only [execModPwrCapWrite, State.run, on, Dev.regWrite_writable _ h, hv, if_false]

/-- A field of a number is one of the number cut to a word. -/
theorem bits_mod_word (v hi lo : Nat) (h : hi < 64) : bits (v % 2 ^ 64) hi lo = bits v hi lo := by
  apply Nat.eq_of_testBit_eq
  intro i
  rw [testBit_bits, testBit_bits, Nat.testBit_mod_two_pow]
  by_cases hi' : i < hi + 1 - lo
  · simp [hi', show lo + i < 64 by omega]
  · simp [hi']

/-- A full write of MOD_PWR stores its cap. -/
theorem Dev.store8_cap (d : Dev) {a : Access} (v : Word) (h : a.width = .full) :
    (d.store8 a pMOD rMOD_PWR.off rMOD_PWR v).fld pMOD rMOD_PWR.off 1 0 = bits v.toNat 1 0 := by
  rw [Dev.store8, Dev.fld, Dev.rd_wr_same, bits_mod_word _ _ _ (by decide), h]
  simp only [Reg.write, rMOD_PWR, List.foldl_cons, List.foldl_nil, Field.within, if_true]
  rw [bits_putBits_same _ _ _ _ (by decide)]
  exact Nat.mod_eq_of_lt (bits_lt _ _ _)

/-! ### The temperatures -/

theorem foldl_max_le {l : List Nat} {a n : Nat} : l.foldl max a ≤ n ↔ a ≤ n ∧ ∀ t ∈ l, t ≤ n := by
  induction l generalizing a with
  | nil => simp
  | cons x l ih => simp [ih, and_assoc]

/-- The temperature of the hottest die. -/
def hottest (temps : List Nat) : Nat := temps.foldl max 0

theorem hottest_le {temps : List Nat} {n : Nat} : hottest temps ≤ n ↔ ∀ t ∈ temps, t ≤ n := by
  simp [hottest, foldl_max_le]

theorem hottest_lt {temps : List Nat} {n : Nat} : hottest temps < n + 1 ↔ ∀ t ∈ temps, t < n + 1 := by
  simp only [Nat.lt_succ_iff, hottest_le]

theorem lt_hottest {temps : List Nat} {n : Nat} : n < hottest temps ↔ ∃ t ∈ temps, n < t := by
  rw [← Nat.not_le, hottest_le]
  simp

theorem thermalGate_hot {was : Bool} {t : Nat} (h : 95 ≤ t) : thermalGate was t = true := by simp [thermalGate, h]

theorem thermalGate_cold {was : Bool} {t : Nat} (h : t ≤ 92) : thermalGate was t = false := by
  simp [thermalGate, h, show t < 95 by omega]

/-- Between its limits the gate stays as it was. -/
theorem thermalGate_between {was : Bool} {t : Nat} (hlo : 92 < t) (hhi : t < 95) : thermalGate was t = was := by
  simp [thermalGate, hlo, Nat.not_le.mpr hhi]

/-- The reading taken: MOD_PWR.tj_max, the power and the gate of temperature, with the cap applied to them. -/
def Dev.takeReading (d : Dev) (temps : List Nat) (watts : Nat) : Dev :=
  let e := d.setFld pMOD rMOD_PWR.off 23 16 (min 255 (hottest temps))
  Dev.applyCap { e with pow := { d.pow with watts := watts, thermGate := thermalGate d.pow.thermGate (hottest temps) } }

theorem exec_temperatureRead_cool {temps : List Nat} {watts : Nat} {s : State} (hg : s.dev.pow.pwrGood = true)
    (h : hottest temps < 110) : exec (.temperatureRead temps watts) s = .next (on s fun d => d.takeReading temps watts) := by
  change execTemperatureRead temps watts s = _
  have h' : ¬ 110 ≤ temps.foldl max 0 := Nat.not_le.mpr h
  simp only [execTemperatureRead, State.run, on, hg, if_true, h', if_false]
  rfl

theorem exec_temperatureRead_trip {temps : List Nat} {watts : Nat} {s : State} (hg : s.dev.pow.pwrGood = true)
    (h : 110 ≤ hottest temps) :
    exec (.temperatureRead temps watts) s = .next (on s fun d => (d.takeReading temps watts).thermTrip) := by
  change execTemperatureRead temps watts s = _
  have h' : 110 ≤ temps.foldl max 0 := h
  simp only [execTemperatureRead, State.run, on, hg, if_true, h']
  rfl

/-- A trip lowers THERM_TRIP_N and stops the device. -/
theorem Dev.thermTrip_pow (d : Dev) : d.thermTrip.pow = { d.pow with thermTripN := false, stopped := true } := by
  unfold Dev.thermTrip
  dsimp only
  rw [Dev.each_pow (fun n e => Dev.setFld_pow _ _ _ _ _ _), Dev.linksDown_pow]

/-! ### The reference clocks -/

/-- Without REFCLK_A a device that is powered and out of reset stops, whatever it was (R42). -/
theorem Dev.clockFault_stops {d : Dev} (hg : d.pow.pwrGood = true) (hr : d.pow.reset = none) (ha : d.pow.refclkA = false) :
    d.clockFault.pow = { d.pow with stopped := true, alertN := d.pow.stopped && d.pow.alertN } := by
  unfold Dev.clockFault
  cases hs : d.pow.stopped
  · simp [Dev.live, hg, hr, ha, hs, Dev.fatal_pow]
  · simp [Dev.live, hs]
    simp [← hs]

theorem exec_refclkBLoss_refclkB {s : State} (h : s.dev.pow.refclkB = true) :
    Runs .refclkBLoss s fun e => e.pow.refclkB = false := by
  refine ⟨_, rfl, ?_⟩
  dsimp only
  rw [if_pos h]
  split
  · rw [Dev.each_pow (fun n e => by simp), Dev.each_pow (fun n e => e.vexPortDown_pow n),
      Dev.each_pow (fun n e => e.fabPortDown_pow n)]
  · rfl

theorem exec_refclkBReturn_refclkB {s : State} (h : s.dev.pow.refclkB = false) :
    Runs .refclkBReturn s fun e => e.pow.refclkB = true := by
  refine ⟨_, rfl, ?_⟩
  dsimp only
  rw [if_neg (by simp [h])]
  split
  · rw [Dev.retrain_pow]
  · rfl

theorem Dev.not_live_of_stopped {d : Dev} (h : d.pow.stopped = true) : d.live = false := by simp [Dev.live, h]

theorem Dev.live_iff {d : Dev} : d.live = true ↔ d.pow.pwrGood = true ∧ d.pow.reset = none ∧ d.pow.stopped = false := by
  simp [Dev.live, and_assoc]

theorem exec_refclkALoss_stops {s : State} (h : s.dev.pow.refclkA = true) (hl : s.dev.live = true) :
    Runs .refclkALoss s fun e => e.pow.refclkA = false ∧ e.pow.stopped = true ∧ e.live = false := by
  obtain ⟨hg, hr, -⟩ := Dev.live_iff.mp hl
  have hpow := Dev.clockFault_stops (d := { s.dev with pow := { s.dev.pow with refclkA := false } }) hg hr rfl
  refine ⟨_, exec_if_pos (Eq.refl (execRefclkALoss s)) h, ?_, ?_, Dev.not_live_of_stopped ?_⟩
  all_goals rw [hpow]

/-- Settles O17: the cap is applied to each change of the pin, the register and the readings, and a fault of REFCLK_A is fatal. -/
theorem powerCapAndHeat : Obligations.PowerCapAndHeat := by
  intro s p
  refine ⟨fun hg => ⟨_, exec_pwrbrkNFall_of_pwrGood hg, ?fall⟩, fun hg hc => ⟨_, exec_pwrbrkNRise_of_pwrGood hg, ?rise⟩,
    fun a v hw hf hb hv => ⟨_, exec_modPwrCapWrite_of_writable hw hv, ?write⟩, fun temps watts hg ht => ?cool,
    fun temps watts hg ht => ?trip, exec_refclkBLoss_refclkB, exec_refclkBReturn_refclkB, exec_refclkALoss_stops⟩
  case fall =>
    exact ⟨rfl, rfl, rfl, Dev.applyCap_throttled _, ⟨rfl, rfl⟩, rfl⟩
  case rise =>
    have hcap : Dev.capNow { s.dev with pow := { s.dev.pow with pwrbrkN := true } } = 2600 := by
      rw [Dev.capNow_unbraked rfl]
      exact congrArg capOf hc
    refine ⟨rfl, hcap, ?_, ⟨rfl, rfl⟩, rfl⟩
    rw [Dev.applyCap_pow, hcap]
  case write =>
    have hfld := Dev.store8_cap s.dev v hf
    have hcap := Dev.capNow_unbraked (d := s.dev.store8 a pMOD rMOD_PWR.off rMOD_PWR v) hb
    rw [hfld, capOf_eq] at hcap
    exact ⟨(Dev.applyCap_cap _).trans hfld, hcap, ⟨rfl, rfl⟩, rfl⟩
  case cool =>
    have hmax : hottest temps < 110 := hottest_lt.mpr ht
    refine ⟨_, exec_temperatureRead_cool hg hmax, rfl, rfl, rfl, fun hot => thermalGate_hot ?_, fun cold => thermalGate_cold ?_,
      fun below above => thermalGate_between ?_ ?_, Dev.applyCap_throttled _, ⟨rfl, rfl⟩, rfl⟩
    · exact lt_hottest.mpr hot
    · exact hottest_le.mpr cold
    · exact lt_hottest.mpr above
    · exact hottest_lt.mpr below
  case trip =>
    have hmax : 110 ≤ hottest temps := lt_hottest.mpr ht
    refine ⟨_, exec_temperatureRead_trip hg hmax, ?_, ?_, Dev.not_live_of_stopped ?_⟩
    all_goals rw [Dev.thermTrip_pow]

end Sys2Proof.Machine
end

section
/-! SUPPORT. Cold and warm resets: what each leaves, and its triggers and its end (R37 to R39, R45). -/

namespace Sys2Proof.Machine

open Sys2Proof.Safety

/-! ### Tables cut and built by key -/

/-- A key that is not listed has its default. -/
theorem Tab.get_of_not_listed {α : Type} (f : Nat → α) {t : Tab α} {k : Nat} (h : k ∉ t.map Prod.fst) :
    Tab.get f t k = f k := by
  induction t with
  | nil => rfl
  | cons x t ih =>
    obtain ⟨j, v⟩ := x
    simp only [List.map_cons, List.mem_cons, not_or] at h
    rw [Tab.get, if_neg (Ne.symm h.1), ih h.2]

theorem Tab.get_filter {α : Type} (f : Nat → α) (q : Nat → Bool) (t : Tab α) (k : Nat) :
    Tab.get f (t.filter fun x => q x.1) k = if q k = true then Tab.get f t k else f k := by
  induction t with
  | nil => simp [Tab.get]
  | cons x t ih =>
    obtain ⟨j, v⟩ := x
    by_cases hj : j = k
    · subst hj
      cases hq : q j <;> simp [Tab.get, hq, ih]
    · cases hq : q j <;> simp [Tab.get, hq, hj, ih]

/-- Every listed key of one table set, in another, to what a function gives for it. -/
theorem Tab.get_foldl_set {α β : Type} [DecidableEq β] (f g : Nat → β) (l : Tab α) (t : Tab β) (k : Nat) :
    Tab.get f (l.foldl (fun t x => Tab.set f t x.1 (g x.1)) t) k = if k ∈ l.map Prod.fst then g k else Tab.get f t k := by
  induction l generalizing t with
  | nil => simp
  | cons x l ih =>
    rw [List.foldl_cons, ih, Tab.get_set]
    by_cases hk : k = x.1
    · simp [hk]
    · simp only [List.map_cons, List.mem_cons, hk, false_or, if_false]

/-! ### What a warm reset leaves -/

/-- The device as a warm reset leaves it but for the claims and the level of the MOD page. -/
def Dev.warmBase (d : Dev) : Dev :=
  let seen := fun (t : Tab Core) (x : Nat × Core) =>
    Tab.set (fun _ => Core.reset) t x.1 { Core.reset with ltcSeen := (d.core x.1).ltcSeen }
  { d.reinit with ltc := d.ltc, ltcOn := d.ltcOn, cores := d.cores.foldl seen [],
                  regs := d.regs.filter fun (x : Nat × Word) => x.1 < 0x10000,
                  fen := { d.fen.kept with debug := d.fen.unlockPending } }

theorem Dev.reinitWarm_eq (d : Dev) : d.reinitWarm =
    ((d.warmBase.dropClaim pMOD rCLAIM.off).each (List.range 4) fun n x => x.dropClaim pMOD (rMOD_TCLM.at n)).setFld pMOD
      rMOD_SL.off 1 0 0 := rfl

/-- Applications that change registers alone change, one after another, registers alone. -/
theorem Dev.each_regs {α : Type} {l : List α} {f : α → Dev → Dev} (h : ∀ x e, f x e = { e with regs := (f x e).regs })
    (d : Dev) : d.each l f = { d with regs := (d.each l f).regs } := by
  induction l generalizing d with
  | nil => rfl
  | cons x l ih =>
    have hx := congrArg (fun e : Dev => { e with regs := ((f x d).each l f).regs }) (h x d)
    exact (ih (f x d)).trans hx

/-- Claims and the level are registers. -/
theorem Dev.reinitWarm_frame (d : Dev) : d.reinitWarm = { d.warmBase with regs := d.reinitWarm.regs } := by
  have hclaims := Dev.each_regs (l := List.range 4) (f := fun n x => x.dropClaim pMOD (rMOD_TCLM.at n)) (fun _ _ => rfl)
    (d.warmBase.dropClaim pMOD rCLAIM.off)
  rw [Dev.reinitWarm_eq, hclaims]
  rfl

theorem Dev.dropClaim_rd_other (d : Dev) {page off pg o : Nat} (h : regKey pg o ≠ regKey page off) :
    (d.dropClaim page off).rd pg o = d.rd pg o := by
  simp only [Dev.dropClaim, Dev.setBit, Dev.rd_setFld_other _ _ _ _ _ _ _ _ h]

/-- The registers of the MOD page that a warm reset does not keep as they are: the level and the claims. -/
def warmChanged (off : Nat) : Prop := off = rMOD_SL.off ∨ off = rCLAIM.off ∨ ∃ i, i < 4 ∧ off = rMOD_TCLM.at i

theorem Dev.rd_warmBase (d : Dev) {page off : Nat} (ho : off < 0x10000) : d.warmBase.rd page off =
    if page = pMOD then d.rd page off else (regReset (regKey page off)).toNat := by
  have hkey : regKey page off < 0x10000 ↔ page = pMOD := by simp only [regKey, pMOD]; omega
  have hget := Tab.get_filter regReset (fun x => decide (x < 0x10000)) d.regs (regKey page off)
  simp only [decide_eq_true_eq, hkey] at hget
  rw [Dev.rd, show d.warmBase.regs = d.regs.filter fun x => decide (x.1 < 0x10000) from rfl, hget]
  split
  · rfl
  · rfl

/-- Beside the level and the claims, a warm reset keeps the registers of the MOD page and no other. -/
theorem Dev.rd_reinitWarm (d : Dev) {page off : Nat} (ho : off < 0x10000) (h : page = pMOD → ¬ warmChanged off) :
    d.reinitWarm.rd page off = if page = pMOD then d.rd page off else (regReset (regKey page off)).toNat := by
  have hne {x : Nat} (hx : x < 0x10000) (hc : off = x → warmChanged off) : regKey page off ≠ regKey pMOD x :=
    regKey_ne ho hx (by tauto)
  rw [Dev.reinitWarm_eq, Dev.rd_setFld_other _ _ _ _ _ _ _ _ (hne (by decide) .inl),
    Dev.each_keeps (fun e => e.rd page off) fun i hi e => ?_, Dev.dropClaim_rd_other _ (hne (by decide) fun he => .inr (.inl he)),
    Dev.rd_warmBase d ho]
  have hi4 : i < 4 := List.mem_range.mp hi
  exact Dev.dropClaim_rd_other _ (hne (by simp only [Reg.at, rMOD_TCLM]; omega) fun he => .inr (.inr ⟨i, hi4, he⟩))

theorem Dev.core_reinitWarm (d : Dev) (k : Nat) : d.reinitWarm.core k = { Core.reset with ltcSeen := (d.core k).ltcSeen } := by
  have hget := Tab.get_foldl_set (fun _ => Core.reset) (fun j => { Core.reset with ltcSeen := (d.core j).ltcSeen }) d.cores [] k
  rw [Dev.reinitWarm_frame]
  refine Eq.trans hget ?_
  split
  · rfl
  · next hk => rw [Dev.core, Tab.get_of_not_listed _ hk]; rfl

/-! ### Its triggers and its end -/

theorem exec_modRstCtlWarm_of_writable {a : Access} {v : Word} {s : State}
    (h : s.dev.writable a pMOD rMOD_RST_CTL.off true = true) (hv : v.toNat.testBit 0 = true) : exec (.modRstCtlWarm a v) s =
      .next (on s fun d => (d.warmTrigger causeReg).emit (.readback 0 false)) := by
  change execModRstCtlWarm a v s = _
  simp only [execModRstCtlWarm, State.run, on, Dev.regWrite_writable _ h, hv, if_true]

/-- A low level that is too short for the filter changes nothing (R38). -/
theorem exec_shortPulse {s : State} {n : Nat} (h : n < 1000) :
    exec (.coldReset n) s = .next s ∧ exec (.warmRstNAssert n) s = .next s := by
  have hn : ¬ 1000 ≤ n := Nat.not_le.mpr h
  change execColdReset n s = _ ∧ execWarmRstNAssert n s = _
  simp only [execColdReset, execWarmRstNAssert, State.run, hn, and_false, if_false, and_self]

/-- The end of a warm reset, but for a fault of REFCLK_A: its causes are recorded. -/
def Dev.warmEnd (d : Dev) : Dev :=
  Dev.noteCause { d.reinitWarm with pow := { d.reinitWarm.pow with reset := none, warmCauses := 0 } } d.pow.warmCauses

theorem Dev.warmEnd_frame (d : Dev) : d.warmEnd = { d.warmBase with
    regs := d.warmEnd.regs, pow := { d.reinit.pow with reset := none, warmCauses := 0 } } := by
  rw [Dev.warmEnd, Dev.reinitWarm_frame]
  rfl

theorem Dev.warmEnd_pow (d : Dev) : d.warmEnd.pow = { d.reinit.pow with reset := none, warmCauses := 0 } :=
  congrArg Dev.pow d.warmEnd_frame

theorem Dev.core_warmEnd (d : Dev) (k : Nat) : d.warmEnd.core k = { Core.reset with ltcSeen := (d.core k).ltcSeen } := by
  rw [Dev.warmEnd, Dev.noteCause, Dev.wr_core]
  exact d.core_reinitWarm k

/-- The causes of a warm reset are recorded. -/
theorem Dev.warmEnd_causes (d : Dev) {b : Nat} (hb : b < 64) (hc : d.pow.warmCauses.testBit b = true) :
    d.warmEnd.bit pMOD rMOD_RST_CAUSE.off b = true := by
  rw [Dev.warmEnd, Dev.bit_noteCause _ _ hb, hc, Bool.or_true]

theorem exec_warmResetDone_of_ended {s : State} (hg : s.dev.pow.pwrGood = true) (hr : s.dev.pow.reset = some .warm)
    (hw : s.dev.pow.warmRstN = true) : exec .warmResetDone s = .next (on s fun d => d.warmEnd.clockFault) :=
  exec_if_pos (Eq.refl (execWarmResetDone s)) ⟨hg, hr, hw⟩

theorem Dev.rd_warmEnd (d : Dev) {page off : Nat} (ho : off < 0x10000) (hc : page = pMOD → off ≠ rMOD_RST_CAUSE.off)
    (h : page = pMOD → ¬ warmChanged off) :
    d.warmEnd.rd page off = if page = pMOD then d.rd page off else (regReset (regKey page off)).toNat := by
  have hne : regKey page off ≠ regKey pMOD rMOD_RST_CAUSE.off := regKey_ne ho (by decide) (by tauto)
  exact (Dev.noteCause_rd_other _ _ hne).trans (d.rd_reinitWarm ho h)

/-- The device is at SL0. -/
theorem Dev.warmEnd_level (d : Dev) : d.warmEnd.fld pMOD rMOD_SL.off 1 0 = 0 := by
  have hlevel : d.reinitWarm.fld pMOD rMOD_SL.off 1 0 = 0 := by
    rw [Dev.reinitWarm_eq, Dev.fld_setFld_same _ _ _ _ _ _ (by decide) (by decide), Nat.zero_mod]
  rw [Dev.fld, Dev.warmEnd, Dev.noteCause_rd_other _ _ (by decide)]
  exact hlevel

/-- Settles O16: a cold reset is a reset of the device, a warm trigger changes the power state, and a warm reset keeps what its end
shows. -/
theorem resetPins : Obligations.ResetPins := by
  intro s n p
  refine ⟨fun hg hp hn => ?cold, exec_shortPulse, fun slot hg hr ha => ?release, fun hg hp hn => ?pin, rfl,
    fun a v hw hv => exec_modRstCtlWarm_of_writable hw hv, fun hg hr hw ha => ?lost, fun hg hr hw ha => ?done⟩
  case cold =>
    exact runs_if_pos (Eq.refl (execColdReset n s)) ⟨hg, hp, hn⟩ ⟨rfl, rfl, rfl, rfl, rfl, rfl, rfl, rfl, rfl, rfl⟩
  case release =>
    have hend := Dev.released slot.val causeCold ha
    exact runs_if_pos (Eq.refl (execColdResetRelease slot s)) ⟨hg, hr⟩
      ⟨hend.reset, hend.modRstN, hend.slotId, hend.ltcOn, hend.ltc, hend.causes 1 (by decide) rfl⟩
  case pin =>
    exact runs_if_pos (Eq.refl (execWarmRstNAssert n s)) ⟨hg, hp, hn⟩ ⟨rfl, rfl, rfl, rfl⟩
  case lost =>
    have hpow := Dev.clockFault_stops (d := s.dev.warmEnd) (by rw [Dev.warmEnd_pow]; exact hg) (by rw [Dev.warmEnd_pow])
      (by rw [Dev.warmEnd_pow]; exact ha)
    refine ⟨_, exec_warmResetDone_of_ended hg hr hw, ?_, ?_⟩
    · rw [hpow, Dev.warmEnd_pow]
    · rw [hpow]
  case done =>
    have hclock : s.dev.warmEnd.clockFault = s.dev.warmEnd := Dev.clockFault_of_refclkA (by rw [Dev.warmEnd_pow]; exact ha)
    have hexec : exec .warmResetDone s = .next (on s Dev.warmEnd) := by
      rw [exec_warmResetDone_of_ended hg hr hw, on, hclock, on]
    have hframe := s.dev.warmEnd_frame
    refine ⟨s.dev.warmEnd, hexec, congrArg (·.pow.reset) hframe, congrArg (·.ltc) hframe, congrArg (·.ltcOn) hframe,
      congrArg (·.fen.fused) hframe, congrArg (·.mem) hframe, s.dev.core_warmEnd, congrArg (·.parts) hframe,
      congrArg (·.tier) hframe, s.dev.warmEnd_level, fun b hb hc => s.dev.warmEnd_causes (by omega) hc,
      fun page off hpage ho => ?_, fun off ho hcause hsl hclaim htclm => ?_⟩
    · have hmod : page ≠ pMOD := Nat.ne_of_gt hpage
      rw [Dev.rd_warmEnd _ ho (absurd · hmod) (absurd · hmod), if_neg hmod]
    · have hkept : ¬ warmChanged off := by
        rintro (h | h | ⟨i, hi, h⟩)
        exacts [hsl h, hclaim h, htclm i hi h]
      rw [Dev.rd_warmEnd _ ho (fun _ => hcause) (fun _ => hkept), if_pos rfl]

end Sys2Proof.Machine
end

section
/-! SUPPORT. The control block of a save area: where its parts stand, and what reading it back gives (R78, R158, R160). -/

namespace Sys2Proof.Machine

/-! ### Bytes that stand at an offset -/

/-- The bytes of a part stand at an offset of a list of bytes. -/
def StandsAt (bs : List Byte) (off : Nat) (part : List Byte) : Prop := part <+: bs.drop off

theorem StandsAt.self (bs : List Byte) : StandsAt bs 0 bs := List.prefix_refl bs

/-- Each of two parts in a row stands at its own offset. -/
theorem StandsAt.append {bs p q : List Byte} {off : Nat} (h : StandsAt bs off (p ++ q)) :
    StandsAt bs off p ∧ StandsAt bs (off + p.length) q := by
  obtain ⟨t, ht⟩ := h
  refine ⟨⟨q ++ t, by rw [← ht, List.append_assoc]⟩, ⟨t, ?_⟩⟩
  rw [← List.drop_drop, ← ht, List.append_assoc, List.drop_left]

theorem flatMap_length_const {α : Type} {l : List α} {f : α → List Byte} {w : Nat} (hw : ∀ x, (f x).length = w) :
    (l.flatMap f).length = w * l.length := by
  simp [List.length_flatMap, hw, Nat.mul_comm]

/-- Field r of a row of fields of one width stands r widths on. -/
theorem StandsAt.field {bs : List Byte} {off n w r : Nat} {f : Nat → List Byte} (h : StandsAt bs off ((List.range n).flatMap f))
    (hw : ∀ i, (f i).length = w) (hr : r < n) : StandsAt bs (off + w * r) (f r) := by
  obtain ⟨m, rfl⟩ : ∃ m, n = r + (1 + m) := ⟨n - (r + 1), by omega⟩
  rw [List.range_add, List.flatMap_append] at h
  have hrest := h.append.2
  rw [flatMap_length_const hw, List.length_range, List.range_add, List.map_append, List.flatMap_append] at hrest
  simpa using hrest.append.1

theorem StandsAt.take {bs part : List Byte} {off : Nat} (h : StandsAt bs off part) : (bs.drop off).take part.length = part :=
  (List.prefix_iff_eq_take.mp h).symm

/-- A number that stands at an offset is read there, to its width. -/
theorem StandsAt.numAt {bs : List Byte} {off n v : Nat} (h : StandsAt bs off (natLe n v)) (hv : v < 256 ^ n) :
    numAt bs off n = v := by
  have ht := h.take
  rw [natLe_length] at ht
  rw [Machine.numAt, ht, leNat_natLe, Nat.mod_eq_of_lt hv]

/-! ### One generator -/

theorem genBytes_length (g : GenState) : (genBytes g).length = 40 := by simp [genBytes, natLe_length]

theorem genOf_eq (bs : List Byte) : genOf bs = ⟨numAt bs 0 8, numAt bs 8 16, numAt bs 24 14, numAt bs 38 2⟩ := rfl

/-- A generator whose values fit their fields is read back from its bytes. -/
theorem genOf_genBytes {g : GenState} (hkey : g.key < 2 ^ 64) (hcounter : g.counter < 2 ^ 128) (hrest : g.rest < 2 ^ 112)
    (hbits : g.restBits < 2 ^ 16) : genOf (genBytes g) = g := by
  have h := StandsAt.self (genBytes g)
  obtain ⟨h, h3⟩ := StandsAt.append h
  obtain ⟨h, h2⟩ := h.append
  obtain ⟨h0, h1⟩ := h.append
  simp only [List.length_append, natLe_length] at h1 h2 h3
  rw [genOf_eq, h0.numAt hkey, h1.numAt hcounter, h2.numAt hrest, h3.numAt hbits]

/-! ### Flags -/

theorem NFlags.toNat_lt (f : NFlags) : f.toNat < 16 := by
  obtain ⟨a, b, c, d⟩ := f
  cases a <;> cases b <;> cases c <;> cases d <;> decide

theorem NFlags.ofNat_toNat (f : NFlags) : NFlags.ofNat f.toNat = f := by
  obtain ⟨a, b, c, d⟩ := f
  cases a <;> cases b <;> cases c <;> cases d <;> rfl

/-! ### Where the parts of a control block stand -/

/-- The parts of the control block of a live state, in bytes where they stand (log entry 16). -/
structure BlockParts (bs : List Byte) (l : Live) : Prop where
  sregs : ∀ r, r < 64 → StandsAt bs (8 * r) (natLe 8 (l.s r).toNat)
  lanes : ∀ n, n < 4096 → StandsAt bs (512 + 4 * n) (natLe 4 (l.lane 0 n).toNat)
  gens : ∀ n, n < 256 → StandsAt bs (16896 + 40 * n) (genBytes (l.gen n))
  pc : StandsAt bs 34816 (natLe 8 l.pc)
  gkStep : StandsAt bs 34824 (natLe 8 l.gkStep)
  gkLayer : StandsAt bs 34832 (natLe 8 l.gkLayer)
  gkTile : StandsAt bs 34840 (natLe 8 l.gkTile)
  flags : StandsAt bs 34848 (natLe 8 l.flags.toNat)
  adds : ∀ t, t < 64 → StandsAt bs (34856 + 8 * t) (natLe 8 (l.adds t))

theorem controlBlock_parts (l : Live) : BlockParts (controlBlock l) l := by
  have h := StandsAt.self (controlBlock l)
  obtain ⟨h, -⟩ := StandsAt.append h
  obtain ⟨hhead, htail⟩ := h.append
  obtain ⟨h, -⟩ := hhead.append
  obtain ⟨h, hgens⟩ := h.append
  obtain ⟨hsregs, hlanes⟩ := h.append
  obtain ⟨h, hadds⟩ := htail.append
  obtain ⟨h, hflags⟩ := h.append
  obtain ⟨h, htile⟩ := h.append
  obtain ⟨h, hlayer⟩ := h.append
  obtain ⟨hpc, hstep⟩ := h.append
  simp only [List.length_append, natLe_length, flatMap_length_const fun r => natLe_length 8 (l.s r).toNat,
    flatMap_length_const fun n => natLe_length 4 (l.lane 0 n).toNat, flatMap_length_const fun n => genBytes_length (l.gen n),
    List.length_range, List.length_replicate, Nat.reduceMul, Nat.reduceAdd, Nat.zero_add] at hlanes hgens hpc hstep hlayer htile hflags hadds
  exact {
    sregs := fun r hr => by simpa using hsregs.field (fun _ => natLe_length _ _) hr
    lanes := fun n hn => hlanes.field (fun _ => natLe_length _ _) hn
    gens := fun n hn => hgens.field (fun _ => genBytes_length _) hn
    pc := hpc, gkStep := hstep, gkLayer := hlayer, gkTile := htile, flags := hflags
    adds := fun t ht => hadds.field (fun _ => natLe_length _ _) ht }

theorem controlBlock_length (l : Live) : (controlBlock l).length = 49152 := by
  simp only [controlBlock, List.length_append, natLe_length, flatMap_length_const fun r => natLe_length 8 (l.s r).toNat,
    flatMap_length_const fun n => natLe_length 4 (l.lane 0 n).toNat, flatMap_length_const fun n => genBytes_length (l.gen n),
    flatMap_length_const fun t => natLe_length 8 (l.adds t), List.length_range, List.length_replicate]

/-! ### Tables filled from a range of keys -/

/-- The table with keys 0 to n - 1 set to what a function gives for them. -/
def Tab.fill {α : Type} [DecidableEq α] (f : Nat → α) (t : Tab α) (v : Nat → α) (n : Nat) : Tab α :=
  (List.range n).foldl (fun t k => Tab.set f t k (v k)) t

theorem Tab.fill_succ {α : Type} [DecidableEq α] (f : Nat → α) (t : Tab α) (v : Nat → α) (n : Nat) :
    Tab.fill f t v (n + 1) = Tab.set f (Tab.fill f t v n) n (v n) := by
  simp only [Tab.fill, List.range_succ, List.foldl_append, List.foldl_cons, List.foldl_nil]

theorem Tab.get_fill {α : Type} [DecidableEq α] (f : Nat → α) (t : Tab α) (v : Nat → α) {n k : Nat} (h : k < n) :
    Tab.get f (Tab.fill f t v n) k = v k := by
  induction n with
  | zero => omega
  | succ n ih =>
    rw [Tab.fill_succ, Tab.get_set]
    split
    · next he => rw [he]
    · exact ih (by omega)

theorem Live.foldl_setS (l : Live) (v : Nat → Word) {n : Nat} {r : Nat} (hr : r < n) (h0 : v 0 = 0) :
    ((List.range n).foldl (fun l r => l.setS r (v r)) l).s r = v r := by
  induction n with
  | zero => omega
  | succ n ih =>
    rw [List.range_succ, List.foldl_append, List.foldl_cons, List.foldl_nil]
    by_cases hn : r = n
    · subst hn
      by_cases hz : r = 0
      · rw [hz, h0]; rfl
      · exact Live.s_setS_same _ _ _ hz
    · rw [Live.s_setS_other _ _ _ _ hn]
      exact ih (by omega)

theorem Live.foldl_setS_frame (l : Live) (v : Nat → Word) (rs : List Nat) :
    rs.foldl (fun l r => l.setS r (v r)) l = { l with sregs := (rs.foldl (fun l r => l.setS r (v r)) l).sregs } := by
  induction rs generalizing l with
  | nil => rfl
  | cons r rs ih =>
    rw [List.foldl_cons]
    refine (ih _).trans ?_
    simp only [Live.setS]
    split <;> rfl

theorem Live.foldl_setGen (l : Live) (v : Nat → GenState) (n : Nat) :
    (List.range n).foldl (fun l k => l.setGen k (v k)) l = { l with gens := Tab.fill (genDefault l.genBase) l.gens v n } := by
  induction n with
  | zero => rfl
  | succ n ih => rw [List.range_succ, List.foldl_append, List.foldl_cons, List.foldl_nil, ih, Tab.fill_succ]; rfl

theorem Live.foldl_setAdds (l : Live) (v : Nat → Nat) (n : Nat) :
    (List.range n).foldl (fun l k => l.setAdds k (v k)) l = { l with addCnt := Tab.fill (fun _ => 0) l.addCnt v n } := by
  induction n with
  | zero => rfl
  | succ n ih => rw [List.range_succ, List.foldl_append, List.foldl_cons, List.foldl_nil, ih, Tab.fill_succ]; rfl

/-! ### Reading a control block -/

/-- The scalar registers of a control block, over those of a live state. -/
def blockSregs (bs : List Byte) (l : Live) : Live :=
  (List.range 64).foldl (fun l r => l.setS r (BitVec.ofNat 64 (numAt bs (8 * r) 8))) l

/-- Reading a control block replaces what the block holds and nothing else. -/
theorem ofControlBlock_eq (bs : List Byte) (l : Live) : ofControlBlock bs l = { l with
    sregs := (blockSregs bs l).sregs
    vregs := Tab.setRow (fun _ => 0) [] 0 ((List.range 4096).map fun n => BitVec.ofNat 32 (numAt bs (512 + 4 * n) 4))
    gens := Tab.fill (genDefault l.genBase) l.gens (fun n => genOf ((bs.drop (16896 + 40 * n)).take 40)) 256
    pc := numAt bs 34816 8, gkStep := numAt bs 34824 8, gkLayer := numAt bs 34832 8, gkTile := numAt bs 34840 8
    flags := .ofNat (numAt bs 34848 8)
    addCnt := Tab.fill (fun _ => 0) l.addCnt (fun n => numAt bs (34856 + 8 * n) 8) 64 } := by
  simp only [ofControlBlock, Live.foldl_setAdds, Live.foldl_setGen, Nat.reduceAdd]
  rw [Live.foldl_setS_frame, blockSregs]

theorem blockSregs_s {bs : List Byte} {x : Live} (h : BlockParts bs x) (l : Live) {r : Nat} (hr : r < 64) :
    (blockSregs bs l).s r = x.s r := by
  have hv : ∀ q, q < 64 → BitVec.ofNat 64 (numAt bs (8 * q) 8) = x.s q := fun q hq => by
    rw [(h.sregs q hq).numAt (x.s q).isLt, BitVec.ofNat_toNat, BitVec.setWidth_eq]
  have h0 := (hv 0 (by decide)).trans x.s_zero
  rw [blockSregs, Live.foldl_setS l (fun q => BitVec.ofNat 64 (numAt bs (8 * q) 8)) hr h0, hv r hr]

theorem Live.gen_ofControlBlock (bs : List Byte) (l : Live) {n : Nat} (hn : n < 256) :
    (ofControlBlock bs l).gen n = genOf ((bs.drop (16896 + 40 * n)).take 40) := by
  rw [ofControlBlock_eq, Live.gen, Tab.get_fill _ _ _ hn]

theorem Live.adds_ofControlBlock (bs : List Byte) (l : Live) {t : Nat} (ht : t < 64) :
    (ofControlBlock bs l).adds t = numAt bs (34856 + 8 * t) 8 := by
  rw [ofControlBlock_eq, Live.adds, Tab.get_fill _ _ _ ht]

theorem Live.lane_ofControlBlock (bs : List Byte) (l : Live) {r j : Nat} (hr : r < 32) (hj : j < 128) :
    (ofControlBlock bs l).lane r j = BitVec.ofNat 32 (numAt bs (512 + 4 * (r * 128 + j)) 4) := by
  rw [ofControlBlock_eq, Live.lane, Tab.get_setRow, dif_pos]
  · simp only [List.getElem_map, List.getElem_range, Nat.sub_zero]
  · simp only [List.length_map, List.length_range]
    omega

theorem Live.s_ofControlBlock (bs : List Byte) (l : Live) (r : Nat) : (ofControlBlock bs l).s r = (blockSregs bs l).s r := by
  rw [ofControlBlock_eq]
  rfl

/-- Settles O60: every part stands in the block where its reader looks for it. -/
theorem controlBlockRoundTrip : Obligations.ControlBlockRoundTrip := by
  intro l base hpc hstep hlayer htile hgens hadds m
  have h := controlBlock_parts l
  have hm : m = _ := ofControlBlock_eq (controlBlock l) base
  have hflags : l.flags.toNat < 256 ^ 8 := lt_trans l.flags.toNat_lt (by decide)
  refine ⟨controlBlock_length l, fun r hr => ?sregs, fun r j hr hj => ?lanes, fun n hn => ?gens, ?pc, ?gkStep, ?gkLayer, ?gkTile,
    ?flags, fun t ht => ?adds, by simp only [hm],
    by simp only [hm], by simp only [hm], by simp only [hm]⟩
  case sregs => exact (Live.s_ofControlBlock _ _ r).trans (blockSregs_s h base hr)
  case lanes =>
    rw [Live.lane_ofControlBlock _ _ hr hj, (h.lanes (r * 128 + j) (by omega)).numAt (BitVec.isLt _)]
    simp [Live.lane]
  case gens =>
    obtain ⟨hkey, hcounter, hrest, hbits⟩ := hgens n hn
    have ht := (h.gens n hn).take
    rw [genBytes_length] at ht
    rw [Live.gen_ofControlBlock _ _ hn, ht, genOf_genBytes hkey hcounter hrest hbits]
  case pc => exact Eq.trans (by simp only [hm]) (h.pc.numAt hpc)
  case gkStep => exact Eq.trans (by simp only [hm]) (h.gkStep.numAt hstep)
  case gkLayer => exact Eq.trans (by simp only [hm]) (h.gkLayer.numAt hlayer)
  case gkTile => exact Eq.trans (by simp only [hm]) (h.gkTile.numAt htile)
  case flags => simp only [hm, h.flags.numAt hflags, NFlags.ofNat_toNat]
  case adds => rw [Live.adds_ofControlBlock _ _ ht, (h.adds t ht).numAt (hadds t ht)]

end Sys2Proof.Machine
end

section
/-! SUPPORT. What the matrix instruction and the drain leave (R60, R66, R111, R129 to R135, R152). -/

namespace Sys2Proof.Machine

open Sys2Proof.Safety

/-! ### Moving on -/

/-- A core written after it has moved on. -/
@[simp] theorem Dev.setCore_advance (d : Dev) (k : Nat) (n : Needs) (c : Core) : (d.advance k n).setCore k c = d.setCore k c := by
  rw [Dev.advance, Dev.setCore_setCore]

theorem Dev.mmas_advance (d : Dev) (k : Nat) (n : Needs) : ((d.advance k n).core k).mmas = (d.core k).mmas := by
  rw [Dev.advance, Dev.core_setCore_same]

/-! ### Operands in the scratchpad -/

@[simp] theorem Dev.advance_mmaOf (d : Dev) (k : Nat) (n : Needs) (i : Ins) : (d.advance k n).mmaOf k i = d.mmaOf k i := by
  simp only [Dev.mmaOf, Dev.advance_sr, Dev.advance_spAddr]

@[simp] theorem Dev.advance_modes (d : Dev) (k : Nat) (n : Needs) : (d.advance k n).modes k = d.modes k := by
  simp only [Dev.modes, Dev.advance, Dev.core_setCore_same]

/-- Of the device a block sum reads the bytes of its operands alone. -/
theorem Mma.blockSumAt_of_mem (x : Mma) {d e : Dev} (h : e.mem = d.mem) (k : Nat) : x.blockSumAt e k = x.blockSumAt d k := by
  funext i j blk
  simp only [Mma.blockSumAt, Operand.elem, Operand.scale, Dev.recElem, Dev.recScale, Dev.spNat, Dev.loadNat, Dev.load, h]

theorem Mma.run_of_mem (x : Mma) {d e : Dev} (h : e.mem = d.mem) (k : Nat) (m : Admit) (l : Live) :
    x.run e k m l = x.run d k m l := by
  have hcolumn : x.column e k m l = x.column d k m l := by
    funext n j
    simp only [Mma.column, Mma.element, x.blockSumAt_of_mem h k]
  simp only [Mma.run, hcolumn]

/-- The add counter of the tile after the instruction (R111). -/
theorem Mma.adds_run (x : Mma) (d : Dev) (k : Nat) (m : Admit) (l : Live) :
    (x.run d k m l).adds x.tile = (if x.ovw then 0 else l.adds x.tile) + x.kb := by
  simp only [Mma.run, Live.adds, Live.setAdds, Tab.get_set_same]

/-- MMA that is ready leaves the live state of its run, after the instruction address has moved on, and is in flight. -/
theorem exec_mma_of_ready {k : Fin 512} {w : BitVec 128} {s : State} (h : Ready s k 0x40 w (mmaNeeds k)) :
    exec (.mma k w) s = .next (on s fun d => let i := Ins.of w; let x := d.mmaOf k i
      let c := (d.advance k (mmaNeeds k d i)).core k
      d.setCore k { c with live := x.run d k (d.modes k) c.live
                           mmas := c.mmas ++ [⟨i.d, (x.a.runs ++ x.b.runs).flatMap fun r => spSegs r.1 r.2⟩] }) := by
  refine (run_issue_of_ready _ h).trans ?_
  simp only [on, Dev.onLv, Dev.setLv, Dev.lv, Dev.advance_mmaOf, Dev.advance_modes, Mma.run_of_mem _ (Dev.advance_mem _ _ _),
    Dev.core_setCore_same, Dev.setCore_setCore, Dev.setCore_advance]

theorem exec_mmaDone_of_live {k : Fin 512} {s : State} {m : MmaOp} {rest : List MmaOp} (hl : s.dev.live = true)
    (h : (s.dev.core k).mmas = m :: rest) :
    exec (.mmaDone k) s = .next (on s fun d => d.setCore k { d.core k with mmas := rest }) := by
  change execMmaDone k s = _
  rw [execMmaDone, State.run, Dev.when_true _ hl (by simp [h]), on, h, List.tail_cons]

/-! ### A write of the scratchpad -/

/-- A write of the core to its scratchpad changes of its live state the live segments alone. -/
theorem Dev.lv_spStore_frame (d : Dev) (k a : Nat) (bs : List Byte) :
    (d.spStore k a bs).lv k = { d.lv k with segLive := ((d.spStore k a bs).lv k).segLive } := by
  by_cases h : bs.length = 0
  · simp only [Dev.spStore, Dev.liveSegs, h, if_true]; rfl
  · rw [Dev.lv_spStore d k a h]

/-! ### The drain -/

@[simp] theorem Dev.advance_drnOut (d : Dev) (k : Nat) (n : Needs) (i : Ins) : (d.advance k n).drnOut k i = d.drnOut k i := by
  simp only [Dev.drnOut, Dev.advance_spAddr]

theorem Live.accAt_pc (l : Live) (pc t i j : Nat) : Live.accAt { l with pc := pc } t i j = l.accAt t i j := rfl

@[simp] theorem Dev.advance_drain (d : Dev) (k : Nat) (n : Needs) (i : Ins) : (d.advance k n).drain k i = d.drain k i := by
  have hint : (d.advance k n).drnInt k i = d.drnInt k i := by
    funext f
    simp only [Dev.drnInt, Dev.lv_advance]
    rfl
  have hvalue : (d.advance k n).drnValue k i = d.drnValue k i := by
    funext b row col
    simp only [Dev.drnValue, Dev.lv_advance, Live.accAt_pc, Dev.drnSecond, Dev.advance_spAddr, Dev.recValue, Dev.recElem,
      Dev.recScale, Dev.spNat, Dev.loadNat, Dev.advance_load]
  simp only [Dev.drain, hint, hvalue, Dev.lv_advance, Live.accAt_pc]

/-- The release of a tile leaves it with add counter 0, reading zeros (R66, R111). -/
theorem Live.adds_releaseTile (l : Live) (t : Nat) : (l.releaseTile t).adds t = 0 := by
  simp only [Live.adds, Live.releaseTile, Tab.get_set_same]

theorem Live.tileLive_releaseTile (l : Live) (t n : Nat) : (l.releaseTile t).tileLive n = (l.tileLive n && decide (n ≠ t)) := by
  simp [Live.tileLive, Live.releaseTile, NSet.del]

theorem Live.accAt_of_not_live {l : Live} {t : Nat} (h : l.tileLive t = false) (i j : Nat) : l.accAt t i j = 0 := by
  simp [Live.accAt, h]

/-- What a drain does to the core's registers: its flags are set, and its tile is released where it says so. -/
def drnLive (i : Ins) (g : NFlags) (l : Live) : Live := if i.mod 2 then (l.flag g).releaseTile i.a else l.flag g

/-- DRN that is ready stores its records, after the instruction address has moved on. -/
theorem exec_drn_of_ready {k : Fin 512} {w : BitVec 128} {s : State} (h : Ready s k 0x50 w (drnNeeds k)) :
    exec (.drn k w) s = .next (on s fun d => let i := Ins.of w; let r := d.drain k i
      ((d.advance k (drnNeeds k d i)).spStore k (d.drnOut k i) r.1).onLv k (drnLive i r.2)) := by
  refine (run_issue_of_ready _ h).trans ?_
  simp only [on, Dev.advance_drain, Dev.advance_drnOut]
  rfl

theorem drnLive_flags (i : Ins) (g : NFlags) (l : Live) : (drnLive i g l).flags = l.flags.or g := by
  unfold drnLive; split <;> rfl

/-- Settles O10: MMA is its run on the core's registers, and DRN a store of its records with what it does to the tile. -/
theorem matrixComplete : Obligations.MatrixComplete := by
  intro k w s i l
  refine ⟨fun h => ⟨_, exec_mma_of_ready h, ?_⟩, fun hl m rest hm => exec_mmaDone_of_live hl hm, fun h => ?_⟩
  · have hc := s.dev.lv_advance k (mmaNeeds k s.dev (Ins.of w))
    simp only [Dev.lv] at hc
    simp only [OnlyCore, Dev.lv, Dev.core_setCore_same, hc, Dev.mmas_advance, true_and]
    exact ⟨rfl, rfl, Mma.adds_run _ _ _ _ _⟩
  · let d := s.dev.advance k (drnNeeds k s.dev i)
    let r := s.dev.drain k i
    let e := d.spStore k (s.dev.drnOut k i) r.1
    have hlv : e.lv k = { l with pc := (l.pc + 16) % 2 ^ 48, segLive := (e.lv k).segLive } := by
      rw [Dev.lv_spStore_frame, Dev.lv_advance]
    refine ⟨e.onLv k (drnLive i r.2), exec_drn_of_ready h, Dev.load_spStore_same d k _ r.1,
      fun x hx => Dev.load_spStore_other d k _ r.1 x hx, ?flags, Dev.spStore_regs d k _ r.1, fun j hj => ?cores,
      fun hrel => ?released, fun hrel => ?kept⟩
    case flags => rw [Dev.lv_onLv, drnLive_flags, hlv]
    case cores =>
      rw [Dev.core_onLv_other _ _ _ _ hj, Dev.core_spStore_other _ _ _ hj, Dev.core_advance_other _ _ _ _ hj]
    case released =>
      rw [Dev.lv_onLv, drnLive, if_pos hrel]
      exact ⟨Live.adds_releaseTile _ _, fun m n => Live.accAt_of_not_live (by simp [Live.tileLive_releaseTile]) m n⟩
    case kept =>
      rw [Dev.lv_onLv, drnLive, if_neg (by simp [hrel]), hlv]
      exact ⟨rfl, rfl⟩

end Sys2Proof.Machine
end

section
/-! SUPPORT. A transfer whose destination is no scratchpad address: why MovementComplete fails (R149, R346). -/

namespace Sys2Proof.Machine

open Sys2Proof.Safety

/-- A transfer of one byte of the companion window whose destination offset, counted from the scratchpad of core 0, is that very
byte: TLD faults on such an offset (R119), but MovementComplete bounds no transfer in flight. -/
def selfTransfer : TldOp :=
  { src := windowBase, dst := windowBase - scratchBase, count := 1, flagReg := 0, shadow := false, mayShadow := false, old := false }

/-- Core 0 with that transfer in flight, its line of the window here with the byte 1. -/
def selfTransferState : State :=
  let task : Task := ⟨⟨0, false, 0, 0, 0, []⟩, 0, none, {}, none, []⟩
  { pending := [], dev := { Dev.reset with
      cores := [(0, { Core.reset with st := .running, task := some task, tlds := [selfTransfer] })]
      mem := [(windowBase, 1)]
      vex := { Dev.reset.vex with cached := [windowBase / 64] } } }

/-- The byte at an address that an outcome leaves. -/
def byteAfter (a : Nat) : Host.Outcome State Fault Refusal → Option (List Byte)
  | .next t => some (t.dev.load a 1)
  | _ => none

/-- Once the transfer has landed, its line leaves the link cache with the byte (R346). -/
theorem selfTransfer_lands : byteAfter (scratchAddr 0 selfTransfer.dst) (exec (.tldComplete 0) selfTransferState) = some [0] := by
  decide +kernel

/-- Refutes O12: TLD_COMPLETE of a transfer from the companion window whose destination is its own source, which the statement does
not rule out, leaves 0 there and not the byte 1 of the source, because the line read is dropped from the link cache. -/
theorem not_movementComplete : ¬ Obligations.MovementComplete := by
  intro h
  obtain ⟨-, -, -, -, -, -, hland, -⟩ := h 0 0 selfTransferState
  obtain ⟨e, hrun, hload, -⟩ := hland selfTransfer [] (by decide) (by decide) (by decide) (by decide) (by decide) (by decide)
    (by decide +kernel) (by decide +kernel) (by decide)
  have hsrc : selfTransferState.dev.load selfTransfer.src selfTransfer.count = [1] := by decide +kernel
  have hzero := selfTransfer_lands
  rw [hrun] at hzero
  rw [hsrc] at hload
  exact absurd (hload.symm.trans (Option.some.inj hzero)) (by decide)

end Sys2Proof.Machine
end

section
/-! SUPPORT. The ends of tiles and tasks, waits, signals and generator keys (R73 to R75, R155 to R157, R395). -/

namespace Sys2Proof.Machine

open Sys2Proof.Safety

/-! ### A notice leaves the cores as they are -/

@[simp] theorem Dev.linkSend_cores (d : Dev) (o : Out) : (d.linkSend o).cores = d.cores := by
  unfold Dev.linkSend
  split
  · split <;> rfl
  · rfl

@[simp] theorem Dev.toCompanion_cores (d : Dev) (o : Out) : (d.toCompanion o).cores = d.cores := by
  unfold Dev.toCompanion; split <;> simp

@[simp] theorem Dev.vector_cores (d : Dev) (i : Nat) : (d.vector i).cores = d.cores := by
  unfold Dev.vector; split <;> simp

@[simp] theorem Dev.creditWrite_cores (d : Dev) (p q : Nat) : (d.creditWrite p q).cores = d.cores := Dev.toCompanion_cores _ _

@[simp] theorem Dev.regrant1_cores (d : Dev) (p q : Nat) : (d.regrant1 p q).cores = d.cores := by
  unfold Dev.regrant1
  dsimp only
  split
  · rfl
  · split <;> split <;> simp [Dev.setNotices]

@[simp] theorem Dev.regrant_cores (d : Dev) (p : Nat) : (d.regrant p).cores = d.cores :=
  Dev.each_keeps Dev.cores (fun q _ e => e.regrant1_cores p q) d

@[simp] theorem Dev.noticeIrq_cores (d : Dev) (p : Nat) : (d.noticeIrq p).cores = d.cores := by
  unfold Dev.noticeIrq
  dsimp only
  split <;> split <;> simp [Dev.setNotices]

@[simp] theorem Dev.appendNotice_cores (d : Dev) (p : Nat) (t : TaskSource) (status : Nat) :
    (d.appendNotice p t status).cores = d.cores := by
  unfold Dev.appendNotice
  dsimp only
  split
  · exact Dev.regrant_cores _ _
  · exact Dev.noticeIrq_cores _ _

@[simp] theorem Dev.noticeFor_cores (d : Dev) (p : Nat) (source : Option TaskSource) (status : Nat) :
    (d.noticeFor p source status).cores = d.cores := by
  unfold Dev.noticeFor
  split
  · split
    · exact Dev.appendNotice_cores _ _ _ _
    · rfl
  · rfl

/-- A core is read from the table of cores alone. -/
theorem Dev.core_of_cores {d e : Dev} (h : e.cores = d.cores) (k : Nat) : e.core k = d.core k := by rw [Dev.core, Dev.core, h]

/-! ### The end of a tile -/

/-- The core after the end of its tile (R74, R75). -/
theorem Dev.core_tileEnd (d : Dev) (k : Nat) : (d.tileEnd k).core k = { d.core k with
    committing := (d.core k).committing ++ (d.core k).outs, outs := [], carry := false, forced := false, tileOpen := none
    tileStart := d.lv k, tlds := (d.core k).tlds.map fun t => { t with old := true } } :=
  Dev.core_setCore_same _ _ _

theorem Dev.core_tileEnd_other (d : Dev) {k j : Nat} (h : j ≠ k) : (d.tileEnd k).core j = d.core j := by
  refine (Dev.core_setCore_other _ _ _ _ h).trans ?_
  split <;> split <;> rfl

/-- The end of a tile writes registers and its core. -/
theorem Dev.tileEnd_sameMemory (d : Dev) (k : Nat) : SameMemory d (d.tileEnd k) := by
  unfold Dev.tileEnd SameMemory
  dsimp only
  split <;> split <;> exact ⟨rfl, rfl⟩

theorem Dev.lv_tileEnd (d : Dev) (k : Nat) : (d.tileEnd k).lv k = d.lv k := by rw [Dev.lv, Dev.core_tileEnd, Dev.lv]

/-- What moving on leaves in the core: the open tile and the address are new, `carry` may rise. -/
theorem Dev.core_advance (d : Dev) (k : Nat) (n : Needs) : (d.advance k n).core k = { d.core k with
    begun := false, tileOpen := some ((d.core k).tileOpen.getD d.now), carry := (d.core k).carry || (d.core k).carries n
    live := { d.lv k with pc := ((d.lv k).pc + 16) % 2 ^ 48 } } :=
  Dev.core_setCore_same _ _ _

theorem exec_tend_of_ready {k : Fin 512} {w : BitVec 128} {s : State} (h : Ready s k 0x70 w tendNeeds) :
    exec (.tend k w) s = .next (on s fun d => (d.advance k (tendNeeds d (Ins.of w))).tileEnd k) :=
  run_issue_of_ready _ h

/-- END ends the tile as TEND does, and marks the task as ending. -/
theorem exec_endTask_of_ready {k : Fin 512} {w : BitVec 128} {s : State} (h : Ready s k 0x71 w (endNeeds k)) :
    exec (.endTask k w) s = .next (on s fun d => let e := (d.advance k (endNeeds k d (Ins.of w))).tileEnd k
      e.setCore k { e.core k with ending := true }) :=
  run_issue_of_ready _ h

/-! ### Waits and signals -/

@[simp] theorem Dev.advance_emberOf (d : Dev) (k : Nat) (n : Needs) (i : Ins) : (d.advance k n).emberOf k i = d.emberOf k i := by
  simp only [Dev.emberOf, Dev.advance_sr]

@[simp] theorem Dev.advance_waitFits (d : Dev) (k : Nat) (n : Needs) (e cond : Nat) :
    (d.advance k n).waitFits e cond = d.waitFits e cond := rfl

/-- EWAIT on an ember that its condition does not fit retires with 2. -/
theorem exec_ewait_of_misfit {k : Fin 512} {w : BitVec 128} {s : State} (h : Ready s k 0x72 w (ewaitNeeds k))
    (hfit : s.dev.waitFits (s.dev.emberOf k (Ins.of w)) (Ins.of w).sub = false) :
    exec (.ewait k w) s = .next (retire s k (ewaitNeeds k s.dev (Ins.of w)) fun m => m.setS (Ins.of w).d 2) := by
  refine (run_issue_of_ready _ h).trans ?_
  simp only [on, retire, Dev.advance_emberOf, Dev.advance_waitFits, hfit, Bool.not_false, if_true, Dev.onLv_advance]

/-- The wait that EWAIT starts. -/
def Dev.waitOf (d : Dev) (k : Nat) (i : Ins) : EWait :=
  { ember := d.emberOf k i, cond := i.sub, operand := d.sr k i.b
    deadline := if d.sr k i.c = 0 then none else some (d.now + d.sr k i.c), dest := i.d }

/-- On an ember that EWAIT fits the core waits, after the instruction address has moved on. -/
theorem exec_ewait_of_fit {k : Fin 512} {w : BitVec 128} {s : State} (h : Ready s k 0x72 w (ewaitNeeds k))
    (hfit : s.dev.waitFits (s.dev.emberOf k (Ins.of w)) (Ins.of w).sub = true) :
    exec (.ewait k w) s = .next (on s fun d => let i := Ins.of w
      d.setCore k { (d.advance k (ewaitNeeds k d i)).core k with wait := some (d.waitOf k i) }) := by
  refine (run_issue_of_ready _ h).trans ?_
  simp only [on, Dev.advance_emberOf, Dev.advance_waitFits, hfit, Bool.not_true, Bool.false_eq_true, if_false, Dev.advance_sr,
    Dev.setCore_advance]
  rfl

/-- ESIG that is ready adds its output, after the instruction address has moved on. -/
theorem exec_esig_of_ready {k : Fin 512} {w : BitVec 128} {s : State} (h : Ready s k 0x73 w (esigNeeds k)) :
    exec (.esig k w) s = .next (on s fun d => let i := Ins.of w; let c := (d.advance k (esigNeeds k d i)).core k
      d.setCore k { c with outs := c.outs ++ [.esig (d.emberOf k i) (esigOp i.sub ((d.lv k).s i.b))] }) := by
  refine (run_issue_of_ready _ h).trans ?_
  simp only [on, Dev.addOut, Dev.advance_emberOf, Dev.lv_advance, Dev.setCore_advance]
  rfl

theorem Dev.endWait_eq (d : Dev) (k : Nat) (x : EWait) (v : Word) :
    d.endWait k x v = d.setCore k { d.core k with wait := none, live := (d.lv k).setS x.dest v } := by
  simp only [Dev.endWait, Dev.onLv, Dev.setLv, Dev.lv, Dev.core_setCore_same, Dev.setCore_setCore]

theorem exec_ewaitSatisfied_of_met {k : Fin 512} {s : State} {x : EWait} (hl : s.dev.live = true)
    (hw : (s.dev.core k).wait = some x) (hwork : (s.dev.core k).working = true)
    (hmet : s.dev.waitMet x.ember x.cond x.operand = true) :
    exec (.ewaitSatisfied k) s = .next (on s fun d => d.endWait k x 0) := by
  change execEwaitSatisfied k s = _
  simp only [execEwaitSatisfied, State.run, on, hw, hwork, hmet, Bool.and_self, Dev.when_true _ hl rfl]

/-- A wait whose deadline has come while it is not met ends with 1 and is counted (R395). -/
theorem exec_ewaitTimeout_of_due {k : Fin 512} {s : State} {x : EWait} {t : Nat} (hl : s.dev.live = true)
    (hw : (s.dev.core k).wait = some x) (hwork : (s.dev.core k).working = true) (hd : x.deadline = some t)
    (ht : t ≤ s.dev.ltc.toNat) (hmet : s.dev.waitMet x.ember x.cond x.operand = false) :
    exec (.ewaitTimeout k) s = .next (on s fun d => (d.endWait k x 1).count (pPART (d.core k).part) rPART_STAT.off 63 32 1) := by
  change execEwaitTimeout k s = _
  have hdue : decide (t ≤ s.dev.now) = true := decide_eq_true ht
  simp only [execEwaitTimeout, State.run, on, hw, hd, hwork, hmet, hdue, Bool.not_false, Bool.and_self, Dev.when_true _ hl rfl]

theorem satAdd_one {ceil a : Nat} (h : a ≤ ceil) : satAdd ceil a 1 = min ceil (a + 1) := by
  unfold satAdd; split <;> omega

/-- A saturating count of one field, counted once more. -/
theorem Dev.fld_count_one (d : Dev) (page off hi lo : Nat) (h : lo ≤ hi) (h64 : hi < 64) :
    (d.count page off hi lo 1).fld page off hi lo = min (2 ^ (hi + 1 - lo) - 1) (d.fld page off hi lo + 1) := by
  have hv : d.fld page off hi lo < 2 ^ (hi + 1 - lo) := bits_lt _ _ _
  rw [Dev.count, Dev.fld_setFld_same _ _ _ _ _ _ h h64, satAdd_one (by omega), Nat.mod_eq_of_lt (by omega)]

/-! ### The end of a task -/

/-- A core that gives up its task holds none, and nothing of it is live. -/
theorem Dev.core_vacate (d : Dev) (k : Nat) : ((d.vacate k).core k).task = none ∧ ((d.vacate k).core k).ending = false ∧
    (d.vacate k).lv k = .empty := by
  simp only [Dev.lv, Dev.vacate, Dev.core_setCore_same, and_self]

theorem exec_taskEnd_of_over {k : Fin 512} {s : State} {t : Task} (hl : s.dev.live = true) (ht : (s.dev.core k).task = some t)
    (ho : s.dev.taskOver k = true) : exec (.taskEnd k) s = .next (on s fun d => d.endTask k t) := by
  change execTaskEnd k s = _
  simp only [execTaskEnd, State.run, on, Dev.when_true _ hl ho, ht]

/-- The end of a task gives up its core. -/
theorem Dev.core_endTask (d : Dev) (k : Nat) (t : Task) : ((d.endTask k t).core k).task = none ∧
    ((d.endTask k t).core k).ending = false ∧ (d.endTask k t).lv k = .empty := by
  unfold Dev.lv Dev.endTask
  dsimp only
  rw [Dev.core_of_cores (Dev.noticeFor_cores _ _ _ _)]
  exact Dev.core_vacate _ _

/-- Settles O13: each instruction is its effect after the address has moved on, and each event its effect when it occurs. -/
theorem taskFlowComplete : Obligations.TaskFlowComplete := by
  intro k w s i l c
  refine ⟨fun h => ⟨_, exec_tend_of_ready h, ?tend⟩, fun h => ⟨_, exec_endTask_of_ready h, ?endTask⟩, exec_ewait_of_misfit,
    fun h hfit => ⟨_, exec_ewait_of_fit h hfit, ?ewait⟩, fun h => ⟨_, exec_esig_of_ready h, ?esig⟩, fun h => ?gkey,
    fun x hl hw hwork hmet => ?satisfied, fun x t hl hw hwork hd ht hmet => ⟨_, exec_ewaitTimeout_of_due hl hw hwork hd ht hmet, ?timeout⟩,
    fun t hl ht ho _ => ⟨_, exec_taskEnd_of_over hl ht ho, ?taskEnd⟩⟩
  case tend =>
    have hc := (s.dev.advance k (tendNeeds s.dev (Ins.of w))).core_tileEnd k
    have hm := (s.dev.advance k (tendNeeds s.dev (Ins.of w))).tileEnd_sameMemory k
    have hlv := (s.dev.advance k (tendNeeds s.dev (Ins.of w))).lv_tileEnd k
    simp only [Dev.core_advance, Dev.lv_advance] at hc hlv
    simp only [hc, hlv, true_and]
    exact ⟨rfl, rfl, rfl, hm, fun j hj => (Dev.core_tileEnd_other _ hj).trans (Dev.core_advance_other _ _ _ _ hj)⟩
  case endTask =>
    have hc := (s.dev.advance k (endNeeds k s.dev (Ins.of w))).core_tileEnd k
    have hm := (s.dev.advance k (endNeeds k s.dev (Ins.of w))).tileEnd_sameMemory k
    simp only [Dev.core_advance] at hc
    simp only [Dev.core_setCore_same, hc, true_and]
    exact ⟨rfl, hm, fun j hj => (Dev.core_setCore_other _ _ _ _ hj).trans
      ((Dev.core_tileEnd_other _ hj).trans (Dev.core_advance_other _ _ _ _ hj))⟩
  case ewait =>
    have hc : (l.s i.c).toNat = 0 ↔ l.s i.c = 0 := BitVec.toNat_inj (y := 0)
    simp only [OnlyCore, Dev.lv, Dev.core_setCore_same, Dev.core_advance, Dev.waitOf, true_and]
    exact ⟨rfl, by rw [← if_congr hc rfl rfl]; rfl⟩
  case esig =>
    simp only [OnlyCore, Dev.lv, Dev.core_setCore_same, Dev.core_advance, true_and]
    exact ⟨rfl, rfl⟩
  case gkey =>
    refine (run_issue_onLv _ h).trans ?_
    exact congrArg _ (retire_congr _ fun pc => rfl)
  case satisfied =>
    rw [exec_ewaitSatisfied_of_met hl hw hwork hmet, on, Dev.endWait_eq, on]
  case timeout =>
    have hcore : (s.dev.endWait k x 1).core k = { c with wait := none, live := l.setS x.dest 1 } := by
      rw [Dev.endWait_eq, Dev.core_setCore_same]
    exact ⟨hcore, ⟨rfl, rfl⟩, Dev.fld_count_one (s.dev.endWait k x 1) _ _ 63 32 (by decide) (by decide)⟩
  case taskEnd =>
    obtain ⟨htask, hending, hlv⟩ := s.dev.core_endTask k t
    exact ⟨htask, hending, by rw [hlv]; rfl, by rw [hlv]; rfl⟩

end Sys2Proof.Machine
end

section
/-! SUPPORT. SAVE of a tile whose number lies beyond the 64 of a core: why CoreEventsComplete fails (R66, R158). -/

namespace Sys2Proof.Machine

open Sys2Proof.Safety

/-! ### What SAVE writes -/

/-- The first 256 bytes of a save area of core k: the head, the check value and zeros (R158, R159). -/
def Dev.saveHeader (d : Dev) (k : Nat) : List Byte :=
  let l := d.lv k
  let cx := match (d.core k).task with | some t => t.desc.context | none => 0
  let head := areaHead (d.modes k).isa (d.core k).part cx l
  head ++ natLe 4 (crc32c.of (head ++ controlBlock l ++ (l.accLive.flatMap (tileBytesOf l)) ++
    l.segLive.flatMap fun n => d.spLoad k (n * 0x40000) 0x40000)) ++ List.replicate 220 0

/-- The device with the header and the control block of core k written. -/
def Dev.saveBlocks (d : Dev) (k : Nat) (i : Ins) : Dev :=
  (d.put (d.areaAt k i) (d.saveHeader k) false).put (d.areaAt k i + 0x100) (controlBlock (d.lv k)) false

/-- SAVE that is ready writes the header and the control block, each live tile and each live segment, after the instruction
address has moved on. -/
theorem exec_save_of_ready {k : Fin 512} {w : BitVec 128} {s : State} (h : Ready s k 0x78 w (saveNeeds k)) :
    exec (.save k w) s = .next (on s fun d => let i := Ins.of w; let d := d.advance k (saveNeeds k d i); let l := d.lv k
      let a := d.areaAt k i
      ((d.saveBlocks k i).each l.accLive fun t e => e.put (a + tileSlot t) (tileBytesOf l t) false).each l.segLive
        fun n e => e.putLines (scratchAddr k (n * 0x40000)) (a + segSlot n) 0x40000) :=
  run_issue_of_ready _ h

/-- SAVE of a core with one live tile and no live segment writes, behind the control block, that tile alone. -/
theorem exec_save_of_one_tile {k : Fin 512} {w : BitVec 128} {s : State} (h : Ready s k 0x78 w (saveNeeds k)) {t : Nat}
    (hacc : (s.dev.lv k).accLive = [t]) (hseg : (s.dev.lv k).segLive = []) :
    exec (.save k w) s = .next (on s fun d => let i := Ins.of w; let d := d.advance k (saveNeeds k d i)
      (d.saveBlocks k i).put (d.areaAt k i + tileSlot t) (tileBytesOf (d.lv k) t) false) := by
  rw [exec_save_of_ready h]
  simp only [on, Dev.lv_advance, hacc, hseg, Dev.each, List.foldl_cons, List.foldl_nil]

/-- A write to the scratchpad of one core makes its first segment live there (R56). -/
theorem Dev.put_scratch_live (d : Dev) {a j : Nat} {bs : List Byte} (hs : whereIs a = .scratch j)
    (hp : pieces scratchBytes a bs.length = [(a, bs.length)]) (hlen : bs.length ≠ 0) :
    a % scratchBytes / 0x40000 ∈ ((d.put a bs false).lv (windowCore a)).segLive := by
  have hne : (whereIs a == .tier) = false := by rw [hs]; rfl
  have hput : d.put a bs false = (d.storeRaw a bs).liveSegs (windowCore a) (a % scratchBytes) bs.length := by
    rw [Dev.put, Dev.putIn, hne, if_neg Bool.false_ne_true]
    dsimp only
    rw [Dev.storeBad, hs]
    dsimp only
    rw [hp]
    simp only [Dev.each, Dev.storeScratch, List.foldl_cons, List.foldl_nil, Nat.sub_self, List.drop_zero, List.take_length,
      Bool.false_eq_true, if_false]
  rw [hput, Dev.liveSegs, if_neg hlen, Dev.lv, Dev.core_setCore_same]
  exact NSet.mem_addRange.mpr (.inr (by omega))

theorem tileBytesOf_length (l : Live) (t : Nat) : (tileBytesOf l t).length = 65536 := by
  have hrow : ∀ r, ((l.accRow t r).flatMap fun x => natLe 4 x.toNat).length = 512 := fun r => by
    rw [flatMap_length_const fun x : Lane => natLe_length 4 x.toNat, Live.accRow, List.length_map, List.length_range]
  rw [tileBytesOf, flatMap_length_const hrow, List.length_range]

/-! ### A live tile that is no tile of a core -/

/-- SAVE to the area at 0x10000. -/
def saveWord : BitVec 128 := BitVec.ofNat 128 (0x78 + 0x10000 * 2 ^ 64)

/-- A number whose place in that area (R158), which has room for tiles 0 to 63, is the first byte of the scratchpad of core 0. -/
def farTile : Nat := 0x7FFFFFE

/-- Core 0 about to execute that SAVE, with that tile live and no segment. -/
def farTileState : State :=
  let task : Task := ⟨⟨0, false, 0, 0, 0, []⟩, 0, none, {}, none, []⟩
  { pending := [], dev := { Dev.reset with
      tier := { Tier.reset with map := [(0, { valid := true, world := true })] }
      cores := [(0, { Core.reset with st := .running, task := some task, live := { Live.empty with accLive := [farTile] }
                                      ibuf := [⟨0, memStore [] 0 (natLe 16 saveWord.toNat), []⟩] })] } }

theorem farTileState_ready : Ready farTileState 0 0x78 saveWord (saveNeeds 0) := by
  constructor <;> decide +kernel

/-- The device as the SAVE finds it. -/
def farTileDev : Dev := farTileState.dev.advance 0 (saveNeeds 0 farTileState.dev (Ins.of saveWord))

/-- SAVE of that state writes the bytes of the tile to the scratchpad of the core, whose segment 0 becomes live. -/
theorem farTile_save : ∃ e : Dev, exec (.save 0 saveWord) farTileState = .next { farTileState with dev := e } ∧ 0 ∈ (e.lv 0).segLive := by
  refine ⟨_, exec_save_of_one_tile farTileState_ready (t := farTile) (by decide) (by decide), ?_⟩
  have harea : farTileDev.areaAt 0 (Ins.of saveWord) = 0x10000 := by decide +kernel
  have hcore : windowCore (0x10000 + tileSlot farTile) = 0 := by decide
  have hlive := Dev.put_scratch_live (farTileDev.saveBlocks 0 (Ins.of saveWord)) (a := 0x10000 + tileSlot farTile) (j := 0)
    (bs := tileBytesOf (farTileDev.lv 0) farTile) (by decide) (by rw [tileBytesOf_length]; decide +kernel)
    (by rw [tileBytesOf_length]; decide)
  rw [hcore, ← harea] at hlive
  exact hlive

/-- Refutes O14: its first clause does not say, as its second does, that the live tiles are numbered below 64; SAVE of a live tile
0x7FFFFFE writes the tile's bytes past its area, to the core's own scratchpad, and the live state gains a segment. -/
theorem not_coreEventsComplete : ¬ Obligations.CoreEventsComplete := by
  intro h
  obtain ⟨hsave, -⟩ := h 0 saveWord farTileState
  obtain ⟨e, hrun, hlv⟩ := hsave farTileState_ready
  obtain ⟨e', hrun', hlive⟩ := farTile_save
  have hnone : (e.lv 0).segLive = [] := (congrArg Live.segLive hlv).trans (by decide)
  rw [hrun] at hrun'
  injection hrun' with hstate
  injection hstate with _ hdev
  rw [← hdev, hnone] at hlive
  exact List.not_mem_nil hlive

end Sys2Proof.Machine
end

section
/-! SUPPORT. What the attention instructions leave: the rows of ASTEP and ANORM, and the cache blocks of KVQ and KVD
(R107, R145 to R148). -/

namespace Sys2Proof.Machine

open Sys2Proof.Safety

/-! ### Stores of the scratchpad, one after another -/

/-- A memory after n runs of bytes were stored, run p at a p. -/
def storeRuns (m : Tab Byte) (a : Nat → Nat) (bs : Nat → List Byte) : Nat → Tab Byte
  | 0 => m
  | n + 1 => memStore (storeRuns m a bs n) (a n) (bs n)

theorem memLoad_congr {m m' : Tab Byte} {a n : Nat}
    (h : ∀ x, a ≤ x → x < a + n → Tab.get (fun _ => 0) m x = Tab.get (fun _ => 0) m' x) : memLoad m a n = memLoad m' a n := by
  apply List.ext_getElem (by simp only [memLoad_length])
  intro j h1 h2
  have hj : j < n := memLoad_length m a n ▸ h1
  rw [memLoad_getElem, memLoad_getElem, h (a + j) (by omega) (by omega)]

theorem storeRuns_get_other (m : Tab Byte) {a : Nat → Nat} {bs : Nat → List Byte} {n x : Nat}
    (h : ∀ p, p < n → x < a p ∨ a p + (bs p).length ≤ x) :
    Tab.get (fun _ => 0) (storeRuns m a bs n) x = Tab.get (fun _ => 0) m x := by
  induction n with
  | zero => rfl
  | succ n ih => rw [storeRuns, memStore_get_other _ _ _ _ (h n (by omega)), ih fun p hp => h p (by omega)]

/-- Runs of which each ends where a later one may begin all read back. -/
theorem memLoad_storeRuns (m : Tab Byte) {a : Nat → Nat} {bs : Nat → List Byte} {n p : Nat}
    (h : ∀ p q, p < q → q < n → a p + (bs p).length ≤ a q) (hp : p < n) :
    memLoad (storeRuns m a bs n) (a p) (bs p).length = bs p := by
  induction n with
  | zero => omega
  | succ n ih =>
    rcases Nat.lt_succ_iff_lt_or_eq.mp hp with hlt | rfl
    · have hend := h p n hlt (by omega)
      exact (memLoad_congr fun x _ hx => memStore_get_other _ _ _ _ (by omega)).trans (ih (fun p q hpq hq => h p q hpq (by omega)) hlt)
    · exact memLoad_memStore_same _ _ _

@[simp] theorem Dev.spStore_mem (d : Dev) (k a : Nat) (bs : List Byte) :
    (d.spStore k a bs).mem = memStore d.mem (scratchAddr k a) bs := by
  simp only [Dev.spStore, Dev.liveSegs]; split <;> rfl

/-- Core k stored n runs of bytes, run p at the offset off p of its scratchpad; beside them and its own state nothing that a
register or another core holds differs. -/
structure StoredRuns (k : Nat) (off : Nat → Nat) (bs : Nat → List Byte) (n : Nat) (d e : Dev) : Prop where
  mem : e.mem = storeRuns d.mem (fun p => scratchAddr k (off p)) bs n
  regs : e.regs = d.regs
  cores : ∀ j, j ≠ k → e.core j = d.core j

theorem StoredRuns.zero (k : Nat) (off : Nat → Nat) (bs : Nat → List Byte) (d : Dev) : StoredRuns k off bs 0 d d :=
  ⟨rfl, rfl, fun _ _ => rfl⟩

theorem StoredRuns.succ {k : Nat} {off : Nat → Nat} {bs : Nat → List Byte} {n : Nat} {d e : Dev} (h : StoredRuns k off bs n d e)
    (f : Live → Live) : StoredRuns k off bs (n + 1) d ((e.spStore k (off n) (bs n)).onLv k f) where
  mem := by rw [Dev.onLv_mem, Dev.spStore_mem, h.mem, storeRuns]
  regs := by rw [Dev.onLv_regs, Dev.spStore_regs, h.regs]
  cores j hj := by rw [Dev.core_onLv_other _ _ _ _ hj, Dev.core_spStore_other _ _ _ hj, h.cores j hj]

theorem StoredRuns.load_other {k : Nat} {off : Nat → Nat} {bs : Nat → List Byte} {n : Nat} {d e : Dev}
    (h : StoredRuns k off bs n d e) {x : Nat}
    (hx : ∀ p, p < n → x < scratchAddr k (off p) ∨ scratchAddr k (off p) + (bs p).length ≤ x) : e.load x 1 = d.load x 1 := by
  simp only [Dev.load, memLoad, h.mem, storeRuns_get_other d.mem hx]

theorem StoredRuns.load_run {k : Nat} {off : Nat → Nat} {bs : Nat → List Byte} {n : Nat} {d e : Dev}
    (h : StoredRuns k off bs n d e)
    (hs : ∀ p q, p < q → q < n → scratchAddr k (off p) + (bs p).length ≤ scratchAddr k (off q)) {p : Nat} (hp : p < n) :
    e.load (scratchAddr k (off p)) (bs p).length = bs p := by
  rw [Dev.load, h.mem]
  exact memLoad_storeRuns d.mem hs hp

theorem Dev.each_range_succ (d : Dev) (n : Nat) (f : Nat → Dev → Dev) :
    d.each (List.range (n + 1)) f = f n (d.each (List.range n) f) := by
  simp only [Dev.each, List.range_succ, List.foldl_append, List.foldl_cons, List.foldl_nil]

/-- A scratchpad address hangs on the scalar registers alone (R119). -/
theorem Dev.spAddr_of_sregs {d e : Dev} {k : Nat} (h : (e.lv k).sregs = (d.lv k).sregs) (r off : Nat) :
    e.spAddr k r off = d.spAddr k r off := by
  simp only [Dev.spAddr, Dev.sr, Live.s, h]

/-! ### The length of a record -/

theorem packRecord_length (f : Fmt) (elems scales : List Nat) :
    (packRecord f elems scales).length = elems.length * f.elemBits / 8 + scales.length := by
  simp only [packRecord, List.length_append, natLe_length, List.length_map]

theorem quantiseGroup_length (f : FLayout) (noClip : Bool) (v : List FVal) : (quantiseGroup f noClip v).2.1.length = v.length := by
  unfold quantiseGroup
  split <;> simp only [List.length_map]

theorem eachF_length {α β : Type} (l : List α) (f : α → β × NFlags) : (eachF l f).1.length = l.length := by
  rw [eachF_fst, List.length_map]

/-- The record of a row of 128 values has the length of its format (R89). -/
theorem encodeRow_length (f : Fmt) {row : List FVal} (h : row.length = 128) : (encodeRow f row).1.length = f.rec128 := by
  unfold encodeRow Fmt.rec128 Fmt.recordBytes
  split
  · have hlen : (quantiseRow f row).1.1.length = 128 ∧ (quantiseRow f row).1.2.length = 4 := by
      simp [quantiseRow, mapF, eachF_fst, h, List.range_succ, quantiseGroup_length]
    simp only [mapF, packRecord_length, hlen]
  · simp only [mapF, packRecord_length, eachF_length, h, List.length_nil]

/-! ### The row operation of ASTEP -/

theorem astepRow_p_length {scores : List FVal} {vis : List Bool} (hs : scores.length = 128) (hv : vis.length = 128)
    (sc mx den : FVal) (out : List FVal) : (astepRow scores vis sc mx den out).1.p.length = 128 := by
  unfold astepRow
  dsimp only
  split
  · exact List.length_replicate
  · simp only [eachF_length, List.length_zip, hs, hv, Nat.min_self]

theorem astepRow_out_length {scores : List FVal} {vis : List Bool} {sc mx den : FVal} {out o : List FVal}
    (h : (astepRow scores vis sc mx den out).1.out = some o) : o.length = out.length := by
  unfold astepRow at h
  dsimp only at h
  split at h
  · cases h
  · dsimp only at h
    split at h
    · cases h
      exact eachF_length _ _
    · cases h

/-- A row of which nothing is visible so far writes no lane (R145). -/
theorem astepRow_den_of_mx {scores : List FVal} {vis : List Bool} {sc mx den : FVal} {out : List FVal}
    (h : (astepRow scores vis sc mx den out).1.mx = none) : (astepRow scores vis sc mx den out).1.den = none := by
  unfold astepRow at h ⊢
  dsimp only at h ⊢
  split at h
  next hinf => rw [if_pos hinf]
  next => cases h

/-! ### Lane n of every vector register and row n of every tile -/

theorem Live.lane_setLane (l : Live) {r j q n : Nat} (v : Lane) (hj : j < 128) (hn : n < 128) :
    (l.setLane r j v).lane q n = if q = r ∧ n = j then v else l.lane q n := by
  have hkey : q * 128 + n = r * 128 + j ↔ q = r ∧ n = j := by omega
  simp only [Live.lane, Live.setLane, Tab.get_set, hkey]

theorem Live.tileLive_setAccRow (l : Live) (t i u : Nat) (row : List Lane) (isInt : Bool) :
    (l.setAccRow t i row isInt).tileLive u = (decide (u = t) || l.tileLive u) := by
  simp only [Live.tileLive, Live.setAccRow, List.contains_eq_mem, NSet.mem_add, Bool.decide_or]

theorem accKey_apart {t u m n j x : Nat} (hn : n < 128) (hm : m < 128) (hj : j < 128) (h : u ≠ t ∨ n ≠ m)
    (hx : x < 128) : accKey u n + j ≠ accKey t m + x := by
  unfold accKey
  omega

/-- A row written is the row that reads back (R66). -/
theorem Live.accRow_setAccRow_same (l : Live) (t m : Nat) {row : List Lane} (isInt : Bool) (h : row.length = 128) :
    (l.setAccRow t m row isInt).accRow t m = row := by
  apply List.ext_getElem (by simp [Live.accRow, h])
  intro j h1 h2
  have hx : accKey t m ≤ accKey t m + j ∧ accKey t m + j - accKey t m < (row.take 128).length := by
    rw [List.length_take]; omega
  simp only [Live.accRow, List.getElem_map, List.getElem_range, Live.accAt, Live.tileLive_setAccRow, decide_true, Bool.true_or,
    if_true]
  simp only [Live.setAccRow, Tab.get_setRow]
  rw [dif_pos hx]
  simp only [List.getElem_take, Nat.add_sub_cancel_left]

/-- An element of another row, also of a tile that was not live: it read zero, and reads zero once the tile is live (R66). -/
theorem Live.accAt_setAccRow_other (l : Live) {t u m n j : Nat} (row : List Lane) (isInt : Bool) (hm : m < 128) (hn : n < 128)
    (hj : j < 128) (h : u ≠ t ∨ n ≠ m) : (l.setAccRow t m row isInt).accAt u n j = l.accAt u n j := by
  have hout : ¬ (accKey t m ≤ accKey u n + j ∧ accKey u n + j - accKey t m < (row.take 128).length) := by
    rintro ⟨hle, hlt⟩
    rw [List.length_take] at hlt
    exact accKey_apart hn hm hj h (x := accKey u n + j - accKey t m) (by omega) (by omega)
  simp only [Live.accAt, Live.tileLive_setAccRow]
  simp only [Live.setAccRow, Tab.get_setRow, dif_neg hout]
  by_cases hu : u = t
  · subst hu
    cases hlive : l.tileLive u
    · have hin : accKey u 0 ≤ accKey u n + j ∧ accKey u n + j < accKey (u + 1) 0 := by unfold accKey; omega
      simp [Tab.get_clear, hin]
    · simp
  · have hout' : ¬ (accKey t 0 ≤ accKey u n + j ∧ accKey u n + j < accKey (t + 1) 0) := by unfold accKey; omega
    cases hlive : l.tileLive t <;> simp [hu, Tab.get_clear, hout']

/-- Lane n of every vector register and row n of every tile are as before. -/
structure SameRow (n : Nat) (l x : Live) : Prop where
  lane : ∀ r, x.lane r n = l.lane r n
  acc : ∀ t, x.accRow t n = l.accRow t n

theorem SameRow.refl (n : Nat) (l : Live) : SameRow n l l := ⟨fun _ => rfl, fun _ => rfl⟩

theorem SameRow.trans {n : Nat} {l x y : Live} (h : SameRow n l x) (g : SameRow n x y) : SameRow n l y :=
  ⟨fun r => (g.lane r).trans (h.lane r), fun t => (g.acc t).trans (h.acc t)⟩

theorem sameRow_setLane (l : Live) {r j n : Nat} (v : Lane) (hj : j < 128) (hn : n < 128) (h : n ≠ j) :
    SameRow n l (l.setLane r j v) :=
  ⟨fun q => by rw [Live.lane_setLane l v hj hn, if_neg (by tauto)], fun _ => rfl⟩

theorem sameRow_setAccRow (l : Live) {t m n : Nat} (row : List Lane) (isInt : Bool) (hm : m < 128) (hn : n < 128) (h : n ≠ m) :
    SameRow n l (l.setAccRow t m row isInt) :=
  ⟨fun _ => rfl, fun _ => List.map_congr_left fun _ hj =>
    Live.accAt_setAccRow_other l row isInt hm hn (List.mem_range.mp hj) (.inr h)⟩

theorem sameRow_pc (n : Nat) (l : Live) (pc : Nat) : SameRow n l { l with pc := pc } := ⟨fun _ => rfl, fun _ => rfl⟩

theorem sameRow_flag (n : Nat) (l : Live) (g : NFlags) : SameRow n l (l.flag g) := ⟨fun _ => rfl, fun _ => rfl⟩

theorem sameRow_spStore (n : Nat) (d : Dev) (k a : Nat) (bs : List Byte) : SameRow n (d.lv k) ((d.spStore k a bs).lv k) := by
  rw [Dev.lv_spStore_frame]
  exact ⟨fun _ => rfl, fun _ => rfl⟩

theorem sregs_spStore (d : Dev) (k a : Nat) (bs : List Byte) : ((d.spStore k a bs).lv k).sregs = (d.lv k).sregs := by
  rw [Dev.lv_spStore_frame]

/-! ### One row of ASTEP -/

/-- Does a row whose last visible position is lim see column j, where the low half of q is the position of column 0 (R145)? -/
def astepSees (q : Nat) (lim : Int) (j : Nat) : Bool := decide (signed 32 (bits q 31 0) + (j : Int) ≤ lim)

/-- What the row operation of R145 gives for row n of a core's registers. -/
def astepRowOf (l : Live) (i : Ins) (n : Nat) : AStepRow × NFlags :=
  let q := (l.s (asQ i)).toNat
  astepRow ((l.accRow i.a n).map f32) ((List.range 128).map (astepSees q (l.lane (asL i) n).toInt)) (f32c (bits q 63 32))
    (f32 (l.lane i.b n)) (f32 (l.lane i.c n)) ((l.accRow i.d n).map f32)

/-- The row operation looks at its own row and the scalar registers alone. -/
theorem astepRowOf_of_sameRow {l x : Live} {n : Nat} (i : Ins) (h : SameRow n l x) (hs : x.sregs = l.sregs) :
    astepRowOf x i n = astepRowOf l i n := by
  simp only [astepRowOf, Live.s, hs, h.lane, h.acc]

theorem astepRowOf_p_length (l : Live) (i : Ins) (n : Nat) : (astepRowOf l i n).1.p.length = 128 :=
  astepRow_p_length (by simp [Live.accRow]) (by simp) _ _ _ _

theorem astepRowOf_out_length {l : Live} {i : Ins} {n : Nat} {o : List FVal} (h : (astepRowOf l i n).1.out = some o) :
    o.length = 128 := by
  rw [astepRow_out_length h]
  simp [Live.accRow]

/-- An output row written where one is given. -/
def Live.putOut (l : Live) (t n : Nat) (out : Option (List FVal)) : Live :=
  match out with
  | some row => l.setAccRow t n (row.map toF32) false
  | none => l

/-- What a row of ASTEP writes into the registers. -/
def Live.putRow (l : Live) (i : Ins) (n : Nat) (r : AStepRow) : Live :=
  ((l.putOut i.d n r.out).putLane i.c n r.den).putLane i.b n r.mx

/-- A map over numbers read as integers. -/
theorem map_lifted {β : Type} (f : Int → β) (l : List Nat) : (List.map f do let a ← l; pure (a : Int)) = l.map fun j : Nat => f j := by
  simp only [List.bind_eq_flatMap, List.pure_def, ← List.map_eq_flatMap, List.map_map, Function.comp_def]

theorem Dev.astepAt_eq (d : Dev) (k : Nat) (i : Ins) (f : Fmt) (n : Nat) : d.astepAt k i f n =
    (d.spStore k (d.asOut k i + n * f.rec128) (encodeRow f (astepRowOf (d.lv k) i n).1.p).1).onLv k fun l =>
      ((l.putRow i n (astepRowOf (d.lv k) i n).1).flag (astepRowOf (d.lv k) i n).2).flag
        (encodeRow f (astepRowOf (d.lv k) i n).1.p).2 := by
  simp only [Dev.astepAt, map_lifted]
  rfl

@[simp] theorem Live.putOut_lane (l : Live) (t n : Nat) (out : Option (List FVal)) (r j : Nat) :
    (l.putOut t n out).lane r j = l.lane r j := by
  cases out <;> rfl

@[simp] theorem Live.putLane_accRow (l : Live) (r j : Nat) (v : Option FVal) (t n : Nat) :
    (l.putLane r j v).accRow t n = l.accRow t n := by
  cases v <;> rfl

theorem Live.putLane_lane_other (l : Live) {r q n : Nat} (v : Option FVal) (hn : n < 128) (h : q ≠ r) :
    (l.putLane r n v).lane q n = l.lane q n := by
  cases v with
  | none => rfl
  | some x => exact (Live.lane_setLane l _ hn hn).trans (if_neg (by tauto))

theorem Live.putLane_lane_some (l : Live) (r : Nat) {n : Nat} (x : FVal) (hn : n < 128) :
    (l.putLane r n (some x)).lane r n = toF32 x :=
  (Live.lane_setLane l _ hn hn).trans (if_pos ⟨rfl, rfl⟩)

theorem Live.putRow_sregs (l : Live) (i : Ins) (n : Nat) (r : AStepRow) : (l.putRow i n r).sregs = l.sregs := by
  obtain ⟨p, mx, den, out⟩ := r
  cases mx <;> cases den <;> cases out <;> rfl

/-- Every other row keeps its lanes and its rows of tiles. -/
theorem sameRow_putRow (l : Live) (i : Ins) (r : AStepRow) {m n : Nat} (hm : m < 128) (hn : n < 128) (h : n ≠ m) :
    SameRow n l (l.putRow i m r) := by
  have hlane (x : Live) (q : Nat) (v : Option FVal) : SameRow n x (x.putLane q m v) := by
    cases v with
    | none => exact SameRow.refl n x
    | some y => exact sameRow_setLane x _ hm hn h
  have hout : SameRow n l (l.putOut i.d m r.out) := by
    cases r.out with
    | none => exact SameRow.refl n l
    | some o => exact sameRow_setAccRow l _ _ hm hn h
  exact (hout.trans (hlane _ _ _)).trans (hlane _ _ _)

/-- The registers x hold in row n what the row operation r writes, and what it does not write as it stood in l. -/
structure RowMade (i : Ins) (n : Nat) (r : AStepRow) (l x : Live) : Prop where
  mx : ∀ v, r.mx = some v → x.lane i.b n = toF32 v
  den : ∀ v, r.den = some v → i.b ≠ i.c → x.lane i.c n = toF32 v
  lanesKept : r.mx = none → x.lane i.b n = l.lane i.b n ∧ x.lane i.c n = l.lane i.c n
  out : ∀ o, r.out = some o → x.accRow i.d n = o.map toF32
  outKept : r.out = none → x.accRow i.d n = l.accRow i.d n

theorem RowMade.of_sameRow {i : Ins} {n : Nat} {r : AStepRow} {l x y : Live} (h : RowMade i n r l x) (g : SameRow n x y) :
    RowMade i n r l y := by
  obtain ⟨hmx, hden, hlanes, hout, hkept⟩ := h
  constructor <;> simpa only [g.lane, g.acc]

theorem RowMade.from_sameRow {i : Ins} {n : Nat} {r : AStepRow} {l x y : Live} (h : RowMade i n r x y) (g : SameRow n l x) :
    RowMade i n r l y := by
  obtain ⟨hmx, hden, hlanes, hout, hkept⟩ := h
  simp only [g.lane, g.acc] at hlanes hkept
  exact ⟨hmx, hden, hlanes, hout, hkept⟩

theorem rowMade_putRow (l : Live) (i : Ins) {n : Nat} {r : AStepRow} (hn : n < 128) (hout : ∀ o, r.out = some o → o.length = 128)
    (hden : r.mx = none → r.den = none) : RowMade i n r l (l.putRow i n r) where
  mx v hv := by
    rw [Live.putRow, hv]
    exact Live.putLane_lane_some _ _ v hn
  den v hv hbc := by
    rw [Live.putRow, Live.putLane_lane_other _ _ hn hbc.symm, hv]
    exact Live.putLane_lane_some _ _ v hn
  lanesKept hm := by
    rw [Live.putRow, hm, hden hm]
    exact ⟨Live.putOut_lane _ _ _ _ _ _, Live.putOut_lane _ _ _ _ _ _⟩
  out o ho := by
    rw [Live.putRow, Live.putLane_accRow, Live.putLane_accRow, ho]
    exact Live.accRow_setAccRow_same _ _ _ _ (by rw [List.length_map, hout o ho])
  outKept ho := by
    rw [Live.putRow, Live.putLane_accRow, Live.putLane_accRow, ho]
    rfl

/-! ### The rows of ASTEP, one after another -/

/-- The records that ASTEP makes of the rows as they stand in l. -/
def astepRecord (l : Live) (i : Ins) (f : Fmt) (n : Nat) : List Byte := (encodeRow f (astepRowOf l i n).1.p).1

/-- The device e after rows 0 to m - 1 of ASTEP on d: they are made, their records stored, and the rows after them as before. -/
structure AStepDone (k : Nat) (i : Ins) (f : Fmt) (m : Nat) (d e : Dev) : Prop where
  stored : StoredRuns k (fun n => d.asOut k i + n * f.rec128) (astepRecord (d.lv k) i f) m d e
  sregs : (e.lv k).sregs = (d.lv k).sregs
  made : ∀ n, n < m → RowMade i n (astepRowOf (d.lv k) i n).1 (d.lv k) (e.lv k)
  later : ∀ n, m ≤ n → n < 128 → SameRow n (d.lv k) (e.lv k)

theorem AStepDone.succ {k : Nat} {i : Ins} {f : Fmt} {m : Nat} {d e : Dev} (h : AStepDone k i f m d e) (hm : m < 128) :
    AStepDone k i f (m + 1) d (e.astepAt k i f m) := by
  have hrow : astepRowOf (e.lv k) i m = astepRowOf (d.lv k) i m := astepRowOf_of_sameRow i (h.later m le_rfl hm) h.sregs
  have hout : e.asOut k i = d.asOut k i := Dev.spAddr_of_sregs h.sregs _ _
  rw [Dev.astepAt_eq, hrow, hout]
  let r := astepRowOf (d.lv k) i m
  let x := (e.spStore k (d.asOut k i + m * f.rec128) (encodeRow f r.1.p).1).lv k
  have hstored (n : Nat) : SameRow n (e.lv k) x := sameRow_spStore n e k _ _
  have hflags (n : Nat) : SameRow n (x.putRow i m r.1) (((x.putRow i m r.1).flag r.2).flag (encodeRow f r.1.p).2) :=
    (sameRow_flag n _ _).trans (sameRow_flag n _ _)
  have hother (n : Nat) (hn : n < 128) (hne : n ≠ m) : SameRow n (e.lv k) _ :=
    ((hstored n).trans (sameRow_putRow x i r.1 hm hn hne)).trans (hflags n)
  refine ⟨h.stored.succ _, ?sregs, fun n hn => ?made, fun n hn hn' => ?later⟩
  case sregs =>
    rw [Dev.lv_onLv]
    exact (Live.putRow_sregs x i m r.1).trans ((sregs_spStore e k _ _).trans h.sregs)
  case made =>
    rw [Dev.lv_onLv]
    rcases Nat.lt_succ_iff_lt_or_eq.mp hn with hlt | rfl
    · exact (h.made n hlt).of_sameRow (hother n (by omega) (by omega))
    · have hput : RowMade i n r.1 x (x.putRow i n r.1) :=
        rowMade_putRow x i hm (fun o ho => astepRowOf_out_length ho) fun ho => astepRow_den_of_mx ho
      exact (hput.of_sameRow (hflags n)).from_sameRow ((h.later n le_rfl hm).trans (hstored n))
  case later =>
    rw [Dev.lv_onLv]
    exact (h.later n (by omega) hn').trans (hother n hn' (by omega))

theorem astepDone_each (d : Dev) (k : Nat) (i : Ins) (f : Fmt) {m : Nat} (hm : m ≤ 128) :
    AStepDone k i f m d (d.each (List.range m) fun n e => e.astepAt k i f n) := by
  induction m with
  | zero => exact ⟨StoredRuns.zero k _ _ d, rfl, fun n hn => absurd hn (by omega), fun n _ _ => SameRow.refl n _⟩
  | succ m ih =>
    rw [Dev.each_range_succ]
    exact (ih (by omega)).succ (by omega)

theorem asRows_le (i : Ins) : asRows i ≤ 128 := bits_lt i.imm 41 35

/-- A record of ASTEP ends where a later one may begin. -/
theorem astepRecord_end (l : Live) (i : Ins) (f : Fmt) (k out : Nat) {p q : Nat} (h : p < q) :
    scratchAddr k (out + p * f.rec128) + (astepRecord l i f p).length ≤ scratchAddr k (out + q * f.rec128) := by
  have hlen : (astepRecord l i f p).length = f.rec128 := encodeRow_length f (astepRowOf_p_length l i p)
  have hmul : (p + 1) * f.rec128 ≤ q * f.rec128 := Nat.mul_le_mul_right _ h
  rw [hlen]
  rw [Nat.succ_mul] at hmul
  unfold scratchAddr
  omega

theorem AStepDone.load_record {k : Nat} {i : Ins} {f : Fmt} {m : Nat} {d e : Dev} (h : AStepDone k i f m d e) {n : Nat} (hn : n < m) :
    e.load (scratchAddr k (d.asOut k i + n * f.rec128)) (astepRecord (d.lv k) i f n).length = astepRecord (d.lv k) i f n :=
  h.stored.load_run (fun _ _ hpq _ => astepRecord_end _ _ _ _ _ hpq) hn

/-- A byte before the first record or after the last is as before. -/
theorem AStepDone.load_other {k : Nat} {i : Ins} {f : Fmt} {m : Nat} {d e : Dev} (h : AStepDone k i f m d e) {x : Nat}
    (hx : x < scratchAddr k (d.asOut k i + 0 * f.rec128) ∨ scratchAddr k (d.asOut k i + m * f.rec128) ≤ x) :
    e.load x 1 = d.load x 1 := by
  refine h.stored.load_other fun p hp => ?_
  have hlast := astepRecord_end (d.lv k) i f k (d.asOut k i) hp
  have hfirst : scratchAddr k (d.asOut k i + 0 * f.rec128) ≤ scratchAddr k (d.asOut k i + p * f.rec128) := by
    unfold scratchAddr; omega
  exact hx.imp (lt_of_lt_of_le · hfirst) (le_trans hlast)

theorem exec_astep_of_ready {k : Fin 512} {w : BitVec 128} {s : State} {f : Fmt} (h : Ready s k 0x48 w (astepNeeds k))
    (hf : recFmt (Ins.of w).fb = some f) :
    exec (.astep k w) s = .next (on s fun d => let i := Ins.of w
      (d.advance k (astepNeeds k d i)).each (List.range (asRows i)) fun n e => e.astepAt k i f n) := by
  refine (run_issue_of_ready _ h).trans ?_
  rw [hf, Option.getD_some]

/-- After ASTEP, with the registers as they stood before the instruction address moved on. -/
theorem astepDone_of_advance (d : Dev) (k : Nat) (n : Needs) (i : Ins) (f : Fmt) :
    AStepDone k i f (asRows i) d ((d.advance k n).each (List.range (asRows i)) fun n e => e.astepAt k i f n) := by
  obtain ⟨⟨hmem, hregs, hcores⟩, hsregs, hmade, hlater⟩ := astepDone_each (d.advance k n) k i f (asRows_le i)
  have hout : (d.advance k n).asOut k i = d.asOut k i := Dev.advance_spAddr d k n _ _
  rw [Dev.lv_advance] at hmem hsregs hmade hlater
  rw [hout] at hmem
  exact ⟨⟨hmem, hregs, fun j hj => (hcores j hj).trans (Dev.core_advance_other _ _ _ _ hj)⟩, hsregs,
    fun m hm => (hmade m hm).from_sameRow (sameRow_pc m _ _), fun m hm hm' => (sameRow_pc m _ _).trans (hlater m hm hm')⟩

/-! ### The fields of a word that an instruction does not use -/

/-- A bit outside the fields cleared stays. -/
theorem testBit_clearSpans {l : List Span} {b : Nat} (h : ∀ r ∈ l, r.2 ≤ r.1 ∧ (b < r.2 ∨ r.1 < b)) (v : Nat) :
    (l.foldl (fun v r => putBits v r.1 r.2 0) v).testBit b = v.testBit b := by
  induction l generalizing v with
  | nil => rfl
  | cons r rs ih =>
    obtain ⟨hr, hb⟩ := h r List.mem_cons_self
    rw [List.foldl_cons, ih fun q hq => h q (List.mem_cons_of_mem _ hq), testBit_putBits _ _ _ _ _ hr, if_neg (by omega)]

/-- Where no unused bit is set, a bit outside the opcode and the fields used is 0 (R116). -/
theorem testBit_of_unused {w : BitVec 128} {used : List Span} (hu : unusedSet w used = false) {b : Nat}
    (h : ∀ r ∈ (7, 0) :: used, r.2 ≤ r.1 ∧ (b < r.2 ∨ r.1 < b)) : w.toNat.testBit b = false := by
  rw [← testBit_clearSpans h]
  simp only [unusedSet, bne_eq_false_iff_eq] at hu
  rw [hu, Nat.zero_testBit]

theorem foldl_min_ne_zero {l : List Nat} {a : Nat} (ha : a ≠ 0) (h : ∀ c ∈ l, c ≠ 0) : l.foldl min a ≠ 0 := by
  induction l generalizing a with
  | nil => exact ha
  | cons c cs ih =>
    have hc := h c List.mem_cons_self
    exact ih (by omega) fun x hx => h x (List.mem_cons_of_mem _ hx)

/-- Among conditions with codes that are not 0, the lowest code is 0 only where none of them holds (R121). -/
theorem not_of_lowestCode_eq_zero {l : List (Bool × Nat)} (hl : ∀ p ∈ l, p.2 ≠ 0) (h : lowestCode l = 0) :
    ∀ p ∈ l, p.1 = false := by
  intro p hp
  by_contra ht
  have hmem : p.2 ∈ (l.filter Prod.fst).map Prod.snd :=
    List.mem_map_of_mem (List.mem_filter.mpr ⟨hp, by simpa using ht⟩)
  have hne : ∀ c ∈ (l.filter Prod.fst).map Prod.snd, c ≠ 0 := fun c hc => by
    obtain ⟨q, hq, rfl⟩ := List.mem_map.mp hc
    exact hl q (List.mem_filter.mp hq).1
  unfold lowestCode at h
  split at h
  next hnil => rw [hnil] at hmem; cases hmem
  next c cs hcons =>
    rw [hcons] at hne
    exact foldl_min_ne_zero (hne c List.mem_cons_self) (fun x hx => hne x (List.mem_cons_of_mem _ hx)) h

theorem code_eq_zero_of_ready {s : State} {k op : Nat} {w : BitVec 128} {needs : Dev → Ins → Needs} (h : Ready s k op w needs) :
    (needs s.dev (Ins.of w)).code w = 0 := by
  have hc := h.2
  simp only [Dev.clear, Bool.and_eq_true, beq_iff_eq] at hc
  obtain ⟨⟨⟨⟨⟨-, hcode⟩, -⟩, -⟩, -⟩, -⟩ := hc
  exact hcode

/-- An instruction that is ready has no unused bit set (R116). -/
theorem unused_of_ready {s : State} {k op : Nat} {w : BitVec 128} {needs : Dev → Ins → Needs} (h : Ready s k op w needs)
    (hf : ∀ p ∈ (needs s.dev (Ins.of w)).faults, p.2 ≠ 0)
    (hff : ∀ p ∈ (needs s.dev (Ins.of w)).fmtFaults, p.2 ≠ 0) : unusedSet w (needs s.dev (Ins.of w)).used = false := by
  have hcode := code_eq_zero_of_ready h
  generalize needs s.dev (Ins.of w) = n at *
  refine not_of_lowestCode_eq_zero (fun p hp => ?_) hcode (unusedSet w n.used, 0x02) (by simp)
  simp only [List.cons_append, List.mem_cons, List.mem_append] at hp
  rcases hp with rfl | hp | hp
  · simp
  · exact hf p hp
  · split at hp
    · exact hff p hp
    · simp [List.mem_singleton.mp hp]

/-- The last row of an ANORM that is ready is a row of a tile (R146). -/
theorem imm_lt_of_anorm_ready {k : Fin 512} {w : BitVec 128} {s : State} (h : Ready s k 0x49 w (anormNeeds k)) :
    (Ins.of w).imm < 128 := by
  have hunused : unusedSet w [uD, uC, uImm 6 0] = false := unused_of_ready h (by simp [anormNeeds]) (by simp [anormNeeds])
  have himm : bits w.toNat 127 64 < 2 ^ 7 := by
    refine Nat.lt_pow_two_of_testBit _ fun b hb => ?_
    rw [testBit_bits, testBit_of_unused hunused, Bool.and_false]
    simp only [uD, uC, uImm, List.mem_cons, List.not_mem_nil, or_false, forall_eq_or_imp, forall_eq]
    omega
  norm_num at himm
  exact himm

/-! ### The rows of ANORM -/

/-- ANORM of row n of a core's registers. -/
def Live.anormAt (l : Live) (i : Ins) (n : Nat) : Live :=
  let r := anormRow (l.accRow i.d n) (l.lane i.c n)
  (l.setAccRow i.d n r.1 false).flag r.2

theorem anormRow_length (row : List Lane) (den : Lane) : (anormRow row den).1.length = row.length := by
  unfold anormRow
  split
  · exact List.length_map _
  · exact eachF_length _ _

/-- Rows 0 to m - 1 of the tile are normalised, and every row after them is as before. -/
theorem anormAt_rows (l : Live) (i : Ins) {m : Nat} (hm : m ≤ 128) :
    let x := (List.range m).foldl (fun l n => l.anormAt i n) l
    (∀ n, n < m → x.accRow i.d n = (anormRow (l.accRow i.d n) (l.lane i.c n)).1) ∧ ∀ n, m ≤ n → n < 128 → SameRow n l x := by
  induction m with
  | zero => exact ⟨fun n hn => absurd hn (by omega), fun n _ _ => SameRow.refl n l⟩
  | succ m ih =>
    obtain ⟨hdone, hlater⟩ := ih (by omega)
    simp only [List.range_succ, List.foldl_append, List.foldl_cons, List.foldl_nil]
    generalize (List.range m).foldl (fun l n => l.anormAt i n) l = x at hdone hlater
    have hother (n : Nat) (hn : n < 128) (hne : n ≠ m) : SameRow n x (x.anormAt i m) :=
      (sameRow_setAccRow x _ false hm hn hne).trans (sameRow_flag n _ _)
    refine ⟨fun n hn => ?_, fun n hn hn' => (hlater n (by omega) hn').trans (hother n hn' (by omega))⟩
    rcases Nat.lt_succ_iff_lt_or_eq.mp hn with hlt | rfl
    · rw [(hother n (by omega) (by omega)).acc, hdone n hlt]
    · have hrow := hlater n le_rfl hm
      rw [← hrow.acc, ← hrow.lane]
      exact Live.accRow_setAccRow_same x i.d n false (by rw [anormRow_length]; simp [Live.accRow])

theorem onlyCore_onLv_advance (d : Dev) (k : Nat) (n : Needs) (f : Live → Live) : OnlyCore k d ((d.advance k n).onLv k f) := by
  rw [OnlyCore, Dev.onLv_advance, Dev.core_setCore_same]

theorem exec_anorm_of_ready {k : Fin 512} {w : BitVec 128} {s : State} (h : Ready s k 0x49 w (anormNeeds k)) :
    exec (.anorm k w) s = .next (on s fun d => let i := Ins.of w
      (d.advance k (anormNeeds k d i)).onLv k fun l => (List.range (i.imm + 1)).foldl (fun l n => l.anormAt i n) l) :=
  run_issue_of_ready _ h

/-! ### KVQ -/

@[simp] theorem Dev.advance_spNat (d : Dev) (k : Nat) (n : Needs) (a m : Nat) : (d.advance k n).spNat k a m = d.spNat k a m := rfl

@[simp] theorem Dev.advance_spLoad (d : Dev) (k : Nat) (n : Needs) (a m : Nat) : (d.advance k n).spLoad k a m = d.spLoad k a m := rfl

@[simp] theorem Dev.advance_kvqValues (d : Dev) (k : Nat) (n : Needs) (i : Ins) :
    (d.advance k n).kvqValues k i = d.kvqValues k i := by
  simp only [Dev.kvqValues, Dev.kvqSrc, Dev.advance_spAddr, Dev.advance_sr, Dev.advance_spNat, Dev.advance_spLoad]

@[simp] theorem Dev.advance_kvqDst (d : Dev) (k : Nat) (n : Needs) (i : Ins) : (d.advance k n).kvqDst k i = d.kvqDst k i :=
  Dev.advance_spAddr _ _ _ _ _

/-- The flags of a KVQ whose source is a cache block (R97, R147). -/
def Dev.kvqMade (d : Dev) (k : Nat) (i : Ins) : NFlags :=
  if i.mod 0 then zeroInf (d.spNat k (d.spAddr k i.c 0) 4) ((d.kvqValues k i).filterMap fun x => x) else {}

/-- The block and the parameter word of a KVQ, stored. -/
def Dev.kvqStore (d : Dev) (k : Nat) (i : Ins) (b : CacheBlock) : Dev :=
  (d.spStore k (d.kvqDst k i) (b.bytes (i.fb == 11))).spStore k (d.spAddr k i.b 0) (natLe 4 b.param)

@[simp] theorem Dev.kvqStore_mem (d : Dev) (k : Nat) (i : Ins) (b : CacheBlock) : (d.kvqStore k i b).mem =
    memStore (memStore d.mem (scratchAddr k (d.kvqDst k i)) (b.bytes (i.fb == 11))) (scratchAddr k (d.spAddr k i.b 0))
      (natLe 4 b.param) := by
  rw [Dev.kvqStore, Dev.spStore_mem, Dev.spStore_mem]

@[simp] theorem Dev.kvqStore_regs (d : Dev) (k : Nat) (i : Ins) (b : CacheBlock) : (d.kvqStore k i b).regs = d.regs := by
  rw [Dev.kvqStore, Dev.spStore_regs, Dev.spStore_regs]

theorem Dev.core_kvqStore_other (d : Dev) {k j : Nat} (i : Ins) (b : CacheBlock) (h : j ≠ k) :
    (d.kvqStore k i b).core j = d.core j := by
  rw [Dev.kvqStore, Dev.core_spStore_other _ _ _ h, Dev.core_spStore_other _ _ _ h]

theorem Dev.lv_kvqStore (d : Dev) (k : Nat) (i : Ins) (b : CacheBlock) :
    (d.kvqStore k i b).lv k = { d.lv k with segLive := ((d.kvqStore k i b).lv k).segLive } := by
  rw [Dev.kvqStore, Dev.lv_spStore_frame, Dev.lv_spStore_frame]

theorem exec_kvq_of_ready {k : Fin 512} {w : BitVec 128} {s : State} (h : Ready s k 0x4A w (kvqNeeds k)) :
    exec (.kvq k w) s = .next (on s fun d => let i := Ins.of w
      let q := quantiseBlock (i.fb == 11) (d.kvqValues k i)
      ((d.advance k (kvqNeeds k d i)).kvqStore k i q.1).onLv k fun l => (l.flag q.2).flag (d.kvqMade k i)) := by
  refine (run_issue_of_ready _ h).trans ?_
  simp only [on, Dev.kvqStore, Dev.kvqMade, Dev.advance_kvqValues, Dev.advance_spAddr, Dev.advance_spNat]

@[simp] theorem NFlags.or_none (g : NFlags) : g.or {} = g := by
  simp only [NFlags.or, Bool.or_false]

/-! ### KVD -/

/-- Run p of a KVD, with its flags. -/
def Dev.kvdRunOf (d : Dev) (k : Nat) (i : Ins) (f : Fmt) (p : Nat) : List Byte × NFlags :=
  kvdRun f (i.fa == 11) (d.spNat k (d.spAddr k i.b 0) 4) (d.spLoad k (d.spAddr k i.a 0) (kvBytes (i.fa == 11))) p

@[simp] theorem Dev.advance_kvdRunOf (d : Dev) (k : Nat) (n : Needs) (i : Ins) (f : Fmt) (p : Nat) :
    (d.advance k n).kvdRunOf k i f p = d.kvdRunOf k i f p := by
  simp only [Dev.kvdRunOf, Dev.advance_spAddr, Dev.advance_spNat, Dev.advance_spLoad]

theorem exec_kvd_of_ready {k : Fin 512} {w : BitVec 128} {s : State} {f : Fmt} (h : Ready s k 0x4B w (kvdNeeds k))
    (hf : kvdFmt (Ins.of w).fb = some f) :
    exec (.kvd k w) s = .next (on s fun d => let i := Ins.of w
      let x := d.advance k (kvdNeeds k d i)
      x.each (List.range 64) fun p e =>
        (e.spStore k (e.kvdDst k i p) (x.kvdRunOf k i f p).1).onLv k fun l => l.flag (x.kvdRunOf k i f p).2) := by
  refine (run_issue_of_ready _ h).trans ?_
  simp only [Dev.kvdRunOf, hf, Option.getD_some]

/-- Runs 0 to n - 1 of a KVD are stored, and the registers it names are as before. -/
theorem storedRuns_kvd (d : Dev) (k : Nat) (i : Ins) (r : Nat → List Byte × NFlags) (n : Nat) :
    let e := d.each (List.range n) fun p e => (e.spStore k (e.kvdDst k i p) (r p).1).onLv k fun l => l.flag (r p).2
    StoredRuns k (d.kvdDst k i) (fun p => (r p).1) n d e ∧ (e.lv k).sregs = (d.lv k).sregs ∧ (e.lv k).vregs = (d.lv k).vregs := by
  induction n with
  | zero => exact ⟨StoredRuns.zero k _ _ d, rfl, rfl⟩
  | succ n ih =>
    obtain ⟨hstored, hsregs, hvregs⟩ := ih
    rw [Dev.each_range_succ]
    generalize d.each (List.range n) _ = e at hstored hsregs hvregs
    have hdst : e.kvdDst k i n = d.kvdDst k i n := by rw [Dev.kvdDst, Dev.spAddr_of_sregs hsregs, Dev.kvdDst]
    rw [hdst]
    refine ⟨hstored.succ _, ?_, ?_⟩ <;> rw [Dev.lv_onLv, Dev.lv_spStore_frame]
    · exact hsregs
    · exact hvregs

/-- Settles O11: each row and each run is made from what stood before the instruction, for no row looks at another and no run
at what the runs before it wrote. -/
theorem attentionComplete : Obligations.AttentionComplete := by
  intro k w s i l
  refine ⟨fun h f hf => ⟨_, exec_astep_of_ready h hf, ?astep⟩, fun h => ⟨_, exec_anorm_of_ready h, ?anorm⟩,
    fun h => ⟨_, exec_kvq_of_ready h, ?kvq⟩, fun h f hf => ⟨_, exec_kvd_of_ready h hf, ?kvd⟩⟩
  case astep =>
    have hdone := astepDone_of_advance s.dev k (astepNeeds k s.dev i) i f
    refine ⟨fun n hn => ?row, fun n hn hn' => ?later, fun x hx => hdone.load_other hx, hdone.sregs, hdone.stored.regs,
      hdone.stored.cores⟩
    case row =>
      obtain ⟨hmx, hden, hlanes, hout, hkept⟩ := hdone.made n hn
      exact ⟨hdone.load_record hn, hmx, hden, hlanes, hout, hkept⟩
    case later => exact ⟨(hdone.later n hn hn').acc _, (hdone.later n hn hn').lane _, (hdone.later n hn hn').lane _⟩
  case anorm =>
    have himm := imm_lt_of_anorm_ready h
    obtain ⟨hdone, hlater⟩ := anormAt_rows ((s.dev.advance k (anormNeeds k s.dev i)).lv k) i (m := i.imm + 1) himm
    refine ⟨onlyCore_onLv_advance _ _ _ _, fun n hn => ?done, fun n hn hn' => ?later⟩
    case done =>
      rw [Dev.lv_onLv, hdone n (by omega), Dev.lv_advance]
      rfl
    case later =>
      rw [Dev.lv_onLv, (hlater n (by omega) hn').acc, Dev.lv_advance]
      rfl
  case kvq =>
    let q := quantiseBlock (i.fb == 11) (s.dev.kvqValues k i)
    let y := (s.dev.advance k (kvqNeeds k s.dev i)).kvqStore k i q.1
    have hlv : y.lv k = { l with pc := (l.pc + 16) % 2 ^ 48, segLive := (y.lv k).segLive } := by
      rw [Dev.lv_kvqStore, Dev.lv_advance]
    have hmem : y.mem = memStore (memStore s.dev.mem (scratchAddr k (s.dev.kvqDst k i)) (q.1.bytes (i.fb == 11)))
        (scratchAddr k (s.dev.spAddr k i.b 0)) (natLe 4 q.1.param) := by
      rw [Dev.kvqStore_mem, Dev.advance_mem, Dev.advance_kvqDst, Dev.advance_spAddr]
    refine ⟨hmem, fun hm => ?flags, ?sregs, ?vregs, Dev.kvqStore_regs _ _ _ _, fun j hj => ?cores⟩
    case flags =>
      have hmade : s.dev.kvqMade k i = {} := by simp [Dev.kvqMade, hm]
      rw [Dev.lv_onLv, hmade, hlv]
      exact NFlags.or_none _
    case sregs => rw [Dev.lv_onLv, hlv]; rfl
    case vregs => rw [Dev.lv_onLv, hlv]; rfl
    case cores =>
      rw [Dev.core_onLv_other _ _ _ _ hj, Dev.core_kvqStore_other _ _ _ hj, Dev.core_advance_other _ _ _ _ hj]
  case kvd =>
    obtain ⟨⟨hmem, hregs, hcores⟩, hsregs, hvregs⟩ := storedRuns_kvd (s.dev.advance k (kvdNeeds k s.dev i)) k i
      ((s.dev.advance k (kvdNeeds k s.dev i)).kvdRunOf k i f) 64
    have hstored : StoredRuns k (s.dev.kvdDst k i) (fun p => (s.dev.kvdRunOf k i f p).1) 64 s.dev _ :=
      ⟨by simpa [Dev.kvdDst] using hmem, hregs, fun j hj => (hcores j hj).trans (Dev.core_advance_other _ _ _ _ hj)⟩
    rw [Dev.lv_advance] at hsregs hvregs
    exact ⟨fun x hx => hstored.load_other hx, fun hs p hp => hstored.load_run hs hp, hsregs, hvregs, hregs, hstored.cores⟩

end Sys2Proof.Machine
end

section
/-! SUPPORT. The tables of the scalar operations, said of the operands' unsigned and two's-complement values (R124, R125). -/

namespace Sys2Proof.Machine

theorem boolWord_decide (p : Prop) [Decidable p] : boolWord (decide p) = if p then 1 else 0 := by
  simp only [boolWord, decide_eq_true_eq]

/-! ### Shifts, comparisons, the lesser and the greater (R124) -/

theorem toInt_sshiftRight_eq_div (x : Word) (n : Nat) : (x.sshiftRight n).toInt = x.toInt / 2 ^ n := by
  rw [BitVec.toInt_sshiftRight, Int.shiftRight_eq_div_pow, Nat.cast_pow, Nat.cast_ofNat]

/-- The lesser of two words as signed numbers. -/
theorem toInt_ite_slt (x y : Word) : (if x.slt y then x else y).toInt = min x.toInt y.toInt := by
  simp only [BitVec.slt_iff_toInt_lt]
  split
  · next h => rw [min_eq_left h.le]
  · next h => rw [min_eq_right (not_lt.mp h)]

/-- The greater of two words as signed numbers. -/
theorem toInt_ite_slt_swap (x y : Word) : (if x.slt y then y else x).toInt = max x.toInt y.toInt := by
  simp only [BitVec.slt_iff_toInt_lt]
  split
  · next h => rw [max_eq_right h.le]
  · next h => rw [max_eq_left (not_lt.mp h)]

/-! ### The halves of a product (R125) -/

/-- The high half of a signed product is in the range of a word. -/
theorem toInt_mulOp_signed_high (x y : Word) : (mulOp true false x y).toInt = x.toInt * y.toInt / 2 ^ 64 := by
  have hlo : -2 ^ (64 * 2 - 2) ≤ x.toInt * y.toInt := BitVec.le_toInt_mul_toInt
  have hhi : x.toInt * y.toInt ≤ 2 ^ (64 * 2 - 2) := BitVec.toInt_mul_toInt_le
  exact BitVec.toInt_ofInt_eq_self (by decide) (by omega) (by omega)

theorem toNat_mulOp_unsigned_high (x y : Word) : (mulOp true true x y).toNat = x.toNat * y.toNat / 2 ^ 64 := by
  have hlt : x.toNat * y.toNat < 2 ^ 64 * 2 ^ 64 := Nat.mul_lt_mul'' x.isLt y.isLt
  exact (BitVec.toNat_ofNat _ _).trans (Nat.mod_eq_of_lt (Nat.div_lt_of_lt_mul hlt))

/-! ### Quotients and remainders (R125) -/

theorem divOp_zero (rem uns : Bool) (x : Word) : divOp rem uns x 0 = if rem then x else BitVec.allOnes 64 := rfl

theorem divOp_unsigned {x y : Word} (rem : Bool) (h : y ≠ 0) :
    divOp rem true x y = BitVec.ofNat 64 (if rem then x.toNat % y.toNat else x.toNat / y.toNat) := by
  rw [divOp, if_neg h, if_pos rfl]

theorem toNat_divOp_unsigned {x y : Word} (h : y ≠ 0) :
    (divOp false true x y).toNat = x.toNat / y.toNat ∧ (divOp true true x y).toNat = x.toNat % y.toNat := by
  rw [divOp_unsigned false h, divOp_unsigned true h, BitVec.toNat_ofNat, BitVec.toNat_ofNat]
  exact ⟨Nat.mod_eq_of_lt ((Nat.div_le_self _ _).trans_lt x.isLt), Nat.mod_eq_of_lt ((Nat.mod_le _ _).trans_lt x.isLt)⟩

/-- The signed quotient is that of the library's division, whose one overflow is the corner of R125. -/
theorem divOp_quotient {x y : Word} (h : y ≠ 0) : divOp false false x y = x.sdiv y := by
  rw [divOp, if_neg h, ← BitVec.toInt_inj, BitVec.toInt_sdiv]
  exact BitVec.toInt_ofInt _

theorem toInt_divOp_remainder {x y : Word} (h : y ≠ 0) : (divOp true false x y).toInt = x.toInt.tmod y.toInt := by
  have hsrem : divOp true false x y = BitVec.ofInt 64 (x.srem y).toInt := by
    rw [divOp, if_neg h, BitVec.toInt_srem]; rfl
  rw [hsrem, BitVec.ofInt_toInt, BitVec.toInt_srem]

/-- The corner of R125 in the operands' values. -/
theorem toInt_corner_iff (x y : Word) : x.toInt = -2 ^ 63 ∧ y.toInt = -1 ↔ x = BitVec.intMin 64 ∧ y = -1#64 :=
  and_congr (BitVec.toInt_inj (y := BitVec.intMin 64)) (BitVec.toInt_inj (y := -1#64))

theorem toInt_divOp_quotient {x y : Word} (h : y ≠ 0) (hc : ¬ (x.toInt = -2 ^ 63 ∧ y.toInt = -1)) :
    (divOp false false x y).toInt = x.toInt.tdiv y.toInt := by
  rw [divOp_quotient h]
  exact BitVec.toInt_sdiv_of_ne_or_ne _ _ (not_and_or.mp ((toInt_corner_iff x y).not.mp hc))

/-- Settles O4: each operation of the table is the arithmetic it names. -/
theorem scalarTables : Obligations.ScalarTables := by
  intro x y
  refine ⟨BitVec.toNat_add x y, ?sub, fun _ => BitVec.getLsbD_and, fun _ => BitVec.getLsbD_or, fun _ => BitVec.getLsbD_xor, ?shl,
    toInt_sshiftRight_eq_div _ _, ?shr, ?slt, ?ult, ?eq, toInt_ite_slt x y, toInt_ite_slt_swap x y, fun _ => BitVec.toNat_mul x y,
    toInt_mulOp_signed_high x y, toNat_mulOp_unsigned_high x y, toNat_divOp_unsigned,
    fun h hc => ⟨toInt_divOp_quotient h hc, toInt_divOp_remainder h⟩, ?corner, ?zero⟩
  case sub => rw [Nat.add_comm]; exact BitVec.toNat_sub x y
  case shl => exact (BitVec.toNat_shiftLeft).trans (by rw [Nat.shiftLeft_eq])
  case shr => exact (BitVec.toNat_ushiftRight _ _).trans (Nat.shiftRight_eq_div_pow _ _)
  case slt => exact (congrArg boolWord BitVec.slt_eq_decide).trans (boolWord_decide _)
  case ult => exact (congrArg boolWord BitVec.ult_eq_decide).trans (boolWord_decide _)
  case eq => exact boolWord_decide _
  case corner =>
    intro hc
    obtain ⟨rfl, rfl⟩ := (toInt_corner_iff x y).mp hc
    exact ⟨by decide, by decide⟩
  case zero =>
    rintro u rfl
    exact ⟨divOp_zero false u x, divOp_zero true u x⟩

end Sys2Proof.Machine
end

section
/-! SUPPORT. The conditions of BR, where BR and JMP continue, and their fault codes (R121, R127). -/

namespace Sys2Proof.Machine

open Sys2Proof.Safety

/-! ### Conditions -/

theorem branchCond_eq (x y : Word) : branchCond 1 x y = true ↔ x = y := beq_iff_eq
theorem branchCond_ne (x y : Word) : branchCond 2 x y = true ↔ x ≠ y := bne_iff_ne
theorem branchCond_slt (x y : Word) : branchCond 3 x y = true ↔ x.toInt < y.toInt := BitVec.slt_iff_toInt_lt
theorem branchCond_ult (x y : Word) : branchCond 5 x y = true ↔ x.toNat < y.toNat := BitVec.ult_iff_toNat_lt

theorem branchCond_sge (x y : Word) : branchCond 4 x y = true ↔ y.toInt ≤ x.toInt := by
  change (!x.slt y) = true ↔ _
  rw [Bool.not_eq_true', ← Bool.not_eq_true, BitVec.slt_iff_toInt_lt, not_lt]

theorem branchCond_uge (x y : Word) : branchCond 6 x y = true ↔ y.toNat ≤ x.toNat := by
  change (!x.ult y) = true ↔ _
  rw [Bool.not_eq_true', ← Bool.not_eq_true, BitVec.ult_iff_toNat_lt, not_lt]

/-! ### Where the core continues -/

/-- The registers of core k once the instruction address has moved on to the next instruction. -/
def Dev.lvNext (d : Dev) (k : Nat) : Live := { d.lv k with pc := ((d.lv k).pc + 16) % 2 ^ 48 }

theorem Dev.lv_advance_eq_next (d : Dev) (k : Nat) (n : Needs) : (d.advance k n).lv k = d.lvNext k := Dev.lv_advance d k n

/-- What matters of a change of a core's registers is what it does once the instruction address has moved on. -/
theorem retire_congr_next {s : State} {k : Nat} {f g : Live → Live} (n : Needs)
    (h : f (s.dev.lvNext k) = g (s.dev.lvNext k)) : retire s k n f = retire s k n g := by
  simp only [Dev.lvNext, Dev.lv] at h
  simp only [retire, h]

/-- The branch counts from its own address, 16 bytes before the next (R127). -/
theorem branchTarget_next (pc imm : Nat) : branchTarget ((pc + 16) % 2 ^ 48 + 2 ^ 48 - 16) imm = (pc + imm) % 2 ^ 48 := by
  simp only [branchTarget]
  omega

theorem exec_br_of_ready {k : Fin 512} {w : BitVec 128} {s : State} (h : Ready s k 0x08 w (brNeeds k)) :
    let i := Ins.of w; let l := s.dev.lv k
    exec (.br k w) s = .next (retire s k (brNeeds k s.dev i) fun m =>
      if branchCond i.sub (l.s i.a) (l.s i.b) then { m with pc := (l.pc + i.imm) % 2 ^ 48 } else m) := by
  refine (run_issue_onLv _ h).trans (congrArg _ (retire_congr_next _ ?_))
  dsimp only [Dev.lvNext]
  rw [branchTarget_next]
  rfl

theorem exec_jmp_of_ready {k : Fin 512} {w : BitVec 128} {s : State} (h : Ready s k 0x09 w (jmpNeeds k)) :
    let i := Ins.of w; let l := s.dev.lv k
    exec (.jmp k w) s = .next (retire s k (jmpNeeds k s.dev i) fun m =>
      { m.setS i.d (BitVec.ofNat 64 ((l.pc + 16) % 2 ^ 48)) with pc := ((l.s i.a).toNat + i.imm) % 2 ^ 48 }) :=
  (run_issue_onLv _ h).trans (congrArg _ (retire_congr_next _ rfl))

/-! ### Fault codes -/

theorem Dev.badTarget_iff (d : Dev) (k a : Nat) : d.badTarget k a = true ↔
    a % 16 ≠ 0 ∨ d.tierOk (d.core k).part (d.partWorld (d.core k).part) a 16 = false := by
  simp only [Dev.badTarget, Bool.or_eq_true, bne_iff_ne, Bool.not_eq_true']

/-- The code of an instruction of which no field is wrong and no format is read. -/
theorem Needs.code_of_fields {n : Needs} {w : BitVec 128} (hu : unusedSet w n.used = false) (hf : n.formats = true)
    (hff : n.fmtFaults = []) : n.code w = lowestCode n.faults := by
  simp [Needs.code, lowestCode, hu, hf, hff]

/-- One condition, with a code that is not 0. -/
theorem lowestCode_single (p : Bool) {c : Nat} (hc : c ≠ 0) : lowestCode [(p, c)] = c ↔ p = true := by
  cases p <;> simp [lowestCode, hc.symm]

/-- Of a list, a condition that does not hold counts for nothing. -/
theorem lowestCode_cons_false (c : Nat) (l : List (Bool × Nat)) : lowestCode ((false, c) :: l) = lowestCode l := rfl

theorem br_code_reserved {k : Nat} {d : Dev} {i : Ins} {w : BitVec 128} (hsub : 7 ≤ i.sub)
    (hu : unusedSet w (brNeeds k d i).used = false) : (brNeeds k d i).code w = 0x02 := by
  have hlt : ¬ i.sub < 7 := not_lt.mpr hsub
  rw [Needs.code_of_fields hu rfl rfl]
  simp [brNeeds, lowestCode, hsub, hlt]

theorem br_code_target {k : Nat} {d : Dev} {i : Ins} {w : BitVec 128} (hsub : i.sub < 7)
    (hu : unusedSet w (brNeeds k d i).used = false) : (brNeeds k d i).code w = 0x07 ↔
      branchCond i.sub ((d.lv k).s i.a) ((d.lv k).s i.b) = true ∧ d.badTarget k (branchTarget (d.lv k).pc i.imm) = true := by
  have hge : decide (7 ≤ i.sub) = false := decide_eq_false (not_le.mpr hsub)
  rw [Needs.code_of_fields hu rfl rfl, brNeeds, hge, lowestCode_cons_false, lowestCode_single _ (by decide)]
  simp only [hsub, decide_true, Bool.true_and, Bool.and_eq_true]

theorem jmp_code_target {k : Nat} {d : Dev} {i : Ins} {w : BitVec 128} (hu : unusedSet w (jmpNeeds k d i).used = false) :
    (jmpNeeds k d i).code w = 0x07 ↔ d.badTarget k (d.devAddr k i.a i.imm) = true := by
  rw [Needs.code_of_fields hu rfl rfl, jmpNeeds, lowestCode_single _ (by decide)]

/-- Settles O7: BR and JMP retire with their target, and fault where it is bad. -/
theorem branchesComplete : Obligations.BranchesComplete := by
  refine ⟨fun x y => ⟨rfl, branchCond_eq x y, branchCond_ne x y, branchCond_slt x y, branchCond_sge x y, branchCond_ult x y,
    branchCond_uge x y⟩, fun k w s => ⟨exec_br_of_ready, exec_jmp_of_ready, br_code_reserved, fun hsub hu => ?_, fun hu => ?_⟩⟩
  · exact (br_code_target hsub hu).trans (and_congr_right fun _ => Dev.badTarget_iff _ _ _)
  · exact (jmp_code_target hu).trans (Dev.badTarget_iff _ _ _)

end Sys2Proof.Machine
end

section
/-! SUPPORT. Vector instructions that work lane by lane: what they write and what they leave (R68, R136 to R144). -/

namespace Sys2Proof.Machine

open Sys2Proof.Safety

/-! ### An effect on the registers of one core -/

theorem Dev.lv_onLv_advance (d : Dev) (k : Nat) (n : Needs) (f : Live → Live) :
    ((d.advance k n).onLv k f).lv k = f (d.lvNext k) := by
  rw [Dev.lv_onLv, Dev.lv_advance_eq_next]

theorem Dev.core_onLv_advance (d : Dev) (k : Nat) (n : Needs) (f : Live → Live) : ((d.advance k n).onLv k f).core k =
    { d.core k with begun := false, tileOpen := some ((d.core k).tileOpen.getD d.now),
                    carry := (d.core k).carry || (d.core k).carries n, live := f (d.lvNext k) } := by
  rw [Dev.onLv_advance, Dev.core_setCore_same, Dev.lvNext, Dev.lv]

/-- A write of lanes changes the vector registers and the sticky flags alone. -/
theorem Live.lanes_frame (l : Live) (r : Nat) (f : Nat → Lane × NFlags) :
    l.lanes r f = { l with vregs := (l.lanes r f).vregs, flags := l.flags.or (eachF (List.range 128) f).2 } := by
  simp only [Live.lanes, Live.flag, Live.setV]

/-- An effect on the registers that is a write of lanes leaves what an instruction on lanes leaves. -/
theorem writesLanes_onLv_advance {s : State} {k r : Nat} {n : Needs} {eff : Live → Live} {f : Nat → Lane × NFlags}
    (h : eff (s.dev.lvNext k) = (s.dev.lvNext k).lanes r f) : WritesLanes s k r f ((s.dev.advance k n).onLv k eff) := by
  let e := (s.dev.advance k n).onLv k eff
  have hcore : e.core k = _ := Dev.core_onLv_advance _ _ _ _
  have hlv : e.lv k = (s.dev.lvNext k).lanes r f := (Dev.lv_onLv_advance _ _ _ _).trans h
  change WritesLanes s k r f e
  refine ⟨onlyCore_onLv_advance _ _ _ _, ?core, fun j hj => ?lane, fun q j hq hj => ?other, ?rest⟩
  case core => rw [hlv, hcore, h]
  case lane => rw [hlv, Live.lane_lanes_same _ _ _ _ hj]
  case other =>
    rw [hlv, Live.lane_lanes_other _ _ _ _ _ hj hq]
    rfl
  case rest =>
    rw [hlv, Live.lanes_frame]
    simp only [Dev.lvNext]

/-! ### What a lane is made of -/

/-- An element of a record hangs on the bytes of memory alone. -/
@[simp] theorem Dev.advance_loadLane (d : Dev) (k : Nat) (n : Needs) (a : Nat) (f : Fmt) (j : Nat) :
    (d.advance k n).loadLane k a f j = d.loadLane k a f j := rfl

theorem eachF_pure_flags {α β : Type} (l : List α) (f : α → β) : (eachF l fun a => (f a, {})).2 = {} := by
  induction l with
  | nil => rfl
  | cons a t ih => exact (congrArg (NFlags.or {}) ih).trans (NFlags.or_none {})

/-- Lanes that set no flag are a register written. -/
theorem Live.lanes_pure (l : Live) (r : Nat) (f : Nat → Lane) :
    (l.lanes r fun j => (f j, {})) = l.setV r ((List.range 128).map f) := by
  simp only [Live.lanes, eachF_fst, eachF_pure_flags, Live.flag, NFlags.or_none]

theorem selectLane_eq (c x y : Lane) : pureLane (if c != 0 then x else y) = (if c = 0 then y else x, {}) := by
  by_cases h : c = 0 <;> simp [pureLane, h]

/-- Settles O8: each of these is a write of lanes, made of the registers and the memory as they stand before it. -/
theorem vectorLanesComplete : Obligations.VectorLanesComplete := by
  intro k w s i l
  refine ⟨fun h => ?vop, fun h => ?vfma, fun h => ?vcmp, fun h => ?vsel, fun h => ?vfn, fun h fa fb hfa hfb => ?vcvt,
    fun h f hf => ?vld, fun h hkeyed => ?vrnd⟩
  case vop => exact ⟨_, run_issue_of_ready _ h, writesLanes_onLv_advance rfl⟩
  case vfma => exact ⟨_, run_issue_of_ready _ h, writesLanes_onLv_advance rfl⟩
  case vcmp => exact ⟨_, run_issue_of_ready _ h, writesLanes_onLv_advance rfl⟩
  case vsel =>
    refine ⟨_, run_issue_of_ready _ h, writesLanes_onLv_advance ?_⟩
    simp only [selectLane_eq]
    rfl
  case vfn => exact ⟨_, run_issue_of_ready _ h, writesLanes_onLv_advance rfl⟩
  case vcvt =>
    refine ⟨_, run_issue_of_ready _ h, writesLanes_onLv_advance ?_⟩
    simp only [i] at hfa hfb
    simp only [hfa, hfb, Option.getD_some]
    rfl
  case vld =>
    refine ⟨_, run_issue_of_ready _ h, writesLanes_onLv_advance ?_⟩
    simp only [i] at hf
    simp only [hf, Option.getD_some, Dev.advance_loadLane, Dev.advance_spAddr]
    rfl
  case vrnd =>
    refine ⟨_, run_issue_of_ready _ h, writesLanes_onLv_advance ?_⟩
    simp only [Dev.advance_modes, hkeyed, Bool.false_eq_true, if_false, Live.lanes_pure]
    rfl

end Sys2Proof.Machine
end

section
/-! SUPPORT. Reductions, moves between the register files, rows of tiles, records stored and free-running draws (R66, R69, R112,
R141 to R144). -/

namespace Sys2Proof.Machine

open Sys2Proof.Safety

/-! ### Rows of registers and tiles -/

/-- A vector register written with 128 equal lanes. -/
theorem Live.lane_setV_replicate (l : Live) (r : Nat) (v : Lane) {j : Nat} (hj : j < 128) :
    (l.setV r (List.replicate 128 v)).lane r j = v := by
  rw [Live.lane_setV_same _ _ _ _ hj (by simpa using hj), List.getElem_replicate]

theorem Live.lane_flag (l : Live) (g : NFlags) (r j : Nat) : (l.flag g).lane r j = l.lane r j := rfl

theorem Live.lane_setV_map (l : Live) (r : Nat) (f : Nat → Lane) {j : Nat} (hj : j < 128) :
    (l.setV r ((List.range 128).map f)).lane r j = f j := by
  rw [Live.lane_setV_same _ _ _ _ hj (by simpa using hj), List.getElem_map, List.getElem_range]

/-- One lane written is read back, whatever its number. -/
theorem Live.lane_setLane_same (l : Live) (r j : Nat) (v : Lane) : (l.setLane r j v).lane r j = v := Tab.get_set_same _ _ _ _

theorem Live.lane_setLane_same_register (l : Live) (r : Nat) {j n : Nat} (v : Lane) (h : n ≠ j) :
    (l.setLane r j v).lane r n = l.lane r n := Tab.get_set_other _ _ _ (by omega)

theorem NSet.contains_del_same (s : NSet) (k : Nat) : (s.del k).contains k = false := by simp [NSet.del]

theorem NSet.contains_add_same (s : NSet) (k : Nat) : (s.add k).contains k = true := by simp [NSet.mem_add]

/-- A row written gives the tile its kind (R143). -/
theorem Live.tileInt_setAccRow_same (l : Live) (t m : Nat) (row : List Lane) (isInt : Bool) :
    (l.setAccRow t m row isInt).tileInt t = isInt := by
  cases isInt
  · exact NSet.contains_del_same _ _
  · exact NSet.contains_add_same _ _

theorem Live.tileLive_setAccRow_same (l : Live) (t m : Nat) (row : List Lane) (isInt : Bool) :
    (l.setAccRow t m row isInt).tileLive t = true := by
  simp [Live.tileLive_setAccRow]

/-- The row of a vector register written into a tile, element by element. -/
theorem Live.accAt_setAccRow_vrow (l : Live) (t m q : Nat) (isInt : Bool) {j : Nat} (hj : j < 128) :
    (l.setAccRow t m (l.vrow q) isInt).accAt t m j = l.lane q j := by
  have hrow := Live.accRow_setAccRow_same l t m isInt (row := l.vrow q) (by simp [Live.vrow])
  exact List.map_inj_left.mp hrow j (List.mem_range.mpr hj)

theorem Dev.lvNext_vrow (d : Dev) (k r : Nat) : (d.lvNext k).vrow r = (d.lv k).vrow r := rfl

/-! ### Free-running draws -/

theorem Live.gen_setGen (l : Live) (n : Nat) (g : GenState) (j : Nat) : (l.setGen n g).gen j = if j = n then g else l.gen j :=
  Tab.get_set _ _ _ _ _

/-- Lane j of register r takes the next 32 bits of generator j (R112, R144). -/
def Live.drawLane (r : Nat) (l : Live) (j : Nat) : Live :=
  (l.setGen j ((l.gen j).draw 32).2).setLane r j (BitVec.ofNat 32 ((l.gen j).draw 32).1)

theorem Live.gen_drawLane (r : Nat) (l : Live) (n j : Nat) :
    (l.drawLane r n).gen j = if j = n then ((l.gen n).draw 32).2 else l.gen j :=
  Live.gen_setGen l n ((l.gen n).draw 32).2 j

/-- The registers x are l after the first n lanes of register r were drawn. -/
structure Drawn (r n : Nat) (l x : Live) : Prop where
  lane : ∀ j, j < n → x.lane r j = BitVec.ofNat 32 ((l.gen j).draw 32).1
  gen : ∀ j, j < n → x.gen j = ((l.gen j).draw 32).2
  later : ∀ j, n ≤ j → x.gen j = l.gen j

theorem Drawn.succ {r n : Nat} {l x : Live} (h : Drawn r n l x) : Drawn r (n + 1) l (x.drawLane r n) where
  lane j hj := by
    rcases Nat.lt_succ_iff_lt_or_eq.mp hj with hlt | rfl
    · exact (Live.lane_setLane_same_register _ _ _ hlt.ne).trans (h.lane j hlt)
    · rw [Live.drawLane, Live.lane_setLane_same, h.later j le_rfl]
  gen j hj := by
    rcases Nat.lt_succ_iff_lt_or_eq.mp hj with hlt | rfl
    · rw [Live.gen_drawLane, if_neg hlt.ne, h.gen j hlt]
    · rw [Live.gen_drawLane, if_pos rfl, h.later j le_rfl]
  later j hj := by rw [Live.gen_drawLane, if_neg (by omega), h.later j (by omega)]

theorem drawn_foldl (r n : Nat) (l : Live) : Drawn r n l ((List.range n).foldl (Live.drawLane r) l) := by
  induction n with
  | zero => exact ⟨fun _ hj => absurd hj (Nat.not_lt_zero _), fun _ hj => absurd hj (Nat.not_lt_zero _), fun _ _ => rfl⟩
  | succ n ih =>
    rw [List.range_succ, List.foldl_append]
    exact ih.succ

/-! ### The instructions -/

/-- What VMVS does to the core's registers (R141). -/
def vmvsLive (i : Ins) (l : Live) : Live :=
  match i.sub with
  | 0 => l.setS i.d ((l.lane i.a i.imm).setWidth 64)
  | 1 => l.setV i.d (List.replicate 128 (l.sLane i.a))
  | _ => l.setLane i.d i.imm (l.sLane i.a)

theorem vmvsLive_toScalar {i : Ins} (h : i.sub = 0) (l : Live) : vmvsLive i l = l.setS i.d ((l.lane i.a i.imm).setWidth 64) := by
  simp only [vmvsLive, h]

theorem vmvsLive_toAll {i : Ins} (h : i.sub = 1) (l : Live) : vmvsLive i l = l.setV i.d (List.replicate 128 (l.sLane i.a)) := by
  simp only [vmvsLive, h]

theorem vmvsLive_toOne {i : Ins} (h : i.sub = 2) (l : Live) : vmvsLive i l = l.setLane i.d i.imm (l.sLane i.a) := by
  simp only [vmvsLive, h]

theorem exec_vmvs_of_ready {k : Fin 512} {w : BitVec 128} {s : State} (h : Ready s k 0x27 w vmvsNeeds) :
    exec (.vmvs k w) s = .next (on s fun d => (d.advance k (vmvsNeeds d (Ins.of w))).onLv k (vmvsLive (Ins.of w))) :=
  run_issue_of_ready _ h

/-- VST that is ready stores its record, after the instruction address has moved on. -/
theorem exec_vst_of_ready {k : Fin 512} {w : BitVec 128} {s : State} {f : Fmt} (hf : recFmt (Ins.of w).fb = some f)
    (h : Ready s k 0x29 w (vstNeeds k)) : exec (.vst k w) s = .next (on s fun d => let i := Ins.of w
      let r := storeRow f (i.mod 0) ((d.lv k).vrow i.a)
      ((d.advance k (vstNeeds k d i)).spStore k (d.spAddr k i.b i.imm) r.1).onLv k fun l => l.flag r.2) := by
  refine (run_issue_of_ready _ h).trans ?_
  simp only [on, hf, Option.getD_some, Dev.advance_spAddr, Dev.lv_advance]
  rfl

/-- VRND in the free-running mode draws its lanes, after the instruction address has moved on. -/
theorem exec_vrnd_of_freeRunning {k : Fin 512} {w : BitVec 128} {s : State} (hfree : (s.dev.modes k).freeRunning = true)
    (h : Ready s k 0x2C w (vrndNeeds k)) : exec (.vrnd k w) s = .next (on s fun d =>
      (d.advance k (vrndNeeds k d (Ins.of w))).onLv k fun l => (List.range 128).foldl (Live.drawLane (Ins.of w).d) l) := by
  refine (run_issue_of_ready _ h).trans ?_
  simp only [on, Dev.advance_modes, hfree, if_true]
  rfl

/-- Settles O9: each of these is one write of the core's registers, and VST a store of its record. -/
theorem vectorMovesComplete : Obligations.VectorMovesComplete := by
  intro k w s i l
  refine ⟨fun h => ?vred, fun h => ?vmvs, fun h f hf => ?vst, fun h => ?vacr, fun h => ?vacw, fun h hfree => ?vrnd⟩
  case vred =>
    refine ⟨_, run_issue_of_ready _ h, onlyCore_onLv_advance _ _ _ _, fun j hj => ?_⟩
    simp only [Dev.lv_onLv_advance, Dev.lvNext_vrow, Live.lane_flag, Live.lane_setV_replicate _ _ _ hj, i, l]
  case vmvs =>
    refine ⟨_, exec_vmvs_of_ready h, onlyCore_onLv_advance _ _ _ _, ?_⟩
    rw [Dev.lv_onLv_advance]
    refine ⟨fun hsub hd => ?toScalar, fun hsub hd => ?toZero, fun hsub j hj => ?toAll, fun hsub => ?toOne⟩
    case toScalar =>
      rw [vmvsLive_toScalar hsub, Live.s_setS_same _ _ _ hd, BitVec.toNat_setWidth_of_le (by decide)]
      rfl
    case toZero =>
      rw [vmvsLive_toScalar hsub, hd, Live.setS_zero]
      rfl
    case toAll =>
      rw [vmvsLive_toAll hsub]
      exact Live.lane_setV_replicate _ _ _ hj
    case toOne =>
      rw [vmvsLive_toOne hsub]
      exact ⟨Live.lane_setLane_same _ _ _ _, fun j hj => Live.lane_setLane_same_register _ _ _ hj⟩
  case vst =>
    let d := s.dev.advance k (vstNeeds k s.dev i)
    let r := storeRow f (i.mod 0) (l.vrow i.a)
    let a := s.dev.spAddr k i.b i.imm
    refine ⟨(d.spStore k a r.1).onLv k fun m => m.flag r.2, exec_vst_of_ready hf h, Dev.load_spStore_same d k a r.1,
      fun x hx => Dev.load_spStore_other d k a r.1 x hx, ?flags, Dev.spStore_regs d k a r.1, fun j hj => ?cores⟩
    case flags =>
      rw [Dev.lv_onLv, Dev.lv_spStore_frame, Dev.lv_advance]
      rfl
    case cores =>
      rw [Dev.core_onLv_other _ _ _ _ hj, Dev.core_spStore_other _ _ _ hj, Dev.core_advance_other _ _ _ _ hj]
  case vacr =>
    refine ⟨_, run_issue_of_ready _ h, onlyCore_onLv_advance _ _ _ _, fun j hj => ?_⟩
    rw [Dev.lv_onLv_advance, Dev.accRowOf, Dev.advance_spAddr]
    exact Live.lane_setV_map _ _ _ hj
  case vacw =>
    refine ⟨_, run_issue_of_ready _ h, onlyCore_onLv_advance _ _ _ _, ?_⟩
    rw [Dev.lv_onLv_advance, Dev.accRowOf, Dev.advance_spAddr]
    exact ⟨Live.tileLive_setAccRow_same _ _ _ _ _, Live.tileInt_setAccRow_same _ _ _ _ _,
      fun j hj => Live.accAt_setAccRow_vrow _ _ _ _ _ hj⟩
  case vrnd =>
    refine ⟨_, exec_vrnd_of_freeRunning hfree h, onlyCore_onLv_advance _ _ _ _, fun j hj => ?_⟩
    rw [Dev.lv_onLv_advance]
    have hdrawn := drawn_foldl i.d 128 (s.dev.lvNext k)
    exact ⟨hdrawn.lane j hj, hdrawn.gen j hj⟩

end Sys2Proof.Machine
end

section
/-! SUPPORT. What the upkeep of the tiers leaves as it is: frames given out and back, phase accounts, messages to the companion,
re-fetch and staging (R176 to R187). -/

namespace Sys2Proof.Machine

open Sys2Proof.Safety

/-! ### Upkeep -/

/-- Upkeep of the tiers: no byte of memory, no poison, no core, engine or link differs, the streams stand where they stood, and of
the TIER page's registers only the counts of TIER_STAT may differ. -/
structure Upkeep (d e : Dev) : Prop where
  frame : e = { d with regs := e.regs, tier := e.tier, parts := e.parts, vex := e.vex, out := e.out }
  streams : e.tier.streams = d.tier.streams
  rd : ∀ off, off < 0x10000 → off ≠ rTIER_STAT.off → e.rd pTIER off = d.rd pTIER off

theorem Upkeep.refl (d : Dev) : Upkeep d d := ⟨rfl, rfl, fun _ _ _ => rfl⟩

theorem Upkeep.trans {d e f : Dev} (h : Upkeep d e) (k : Upkeep e f) : Upkeep d f where
  frame := k.frame.trans (congrArg
    (fun x : Dev => { x with regs := f.regs, tier := f.tier, parts := f.parts, vex := f.vex, out := f.out }) h.frame)
  streams := k.streams.trans h.streams
  rd off ho hs := (k.rd off ho hs).trans (h.rd off ho hs)

theorem Upkeep.each {α : Type} {l : List α} {f : α → Dev → Dev} (h : ∀ x e, Upkeep e (f x e)) (d : Dev) :
    Upkeep d (d.each l f) := by
  induction l generalizing d with
  | nil => exact .refl d
  | cons x l ih => exact (h x d).trans (ih (f x d))

theorem Upkeep.mem {d e : Dev} (h : Upkeep d e) : e.mem = d.mem := congrArg (·.mem) h.frame
theorem Upkeep.poison {d e : Dev} (h : Upkeep d e) : e.poison = d.poison := congrArg (·.poison) h.frame
theorem Upkeep.cores {d e : Dev} (h : Upkeep d e) : e.cores = d.cores := congrArg (·.cores) h.frame
theorem Upkeep.eth {d e : Dev} (h : Upkeep d e) : e.eth = d.eth := congrArg (·.eth) h.frame
theorem Upkeep.sameMemory {d e : Dev} (h : Upkeep d e) : SameMemory d e := ⟨h.mem, h.poison⟩

theorem Upkeep.load {d e : Dev} (h : Upkeep d e) (a n : Nat) : e.load a n = d.load a n := by rw [Dev.load, Dev.load, h.mem]

/-! ### Registers -/

/-- A register beyond the TIER page, or TIER_STAT, is no register that upkeep keeps. -/
theorem Upkeep.setFld (d : Dev) {page off : Nat} (hi lo n : Nat)
    (h : ∀ o, o < 0x10000 → o ≠ rTIER_STAT.off → regKey pTIER o ≠ regKey page off) : Upkeep d (d.setFld page off hi lo n) :=
  ⟨rfl, rfl, fun o ho hs => Dev.rd_setFld_other _ _ _ _ _ _ _ _ (h o ho hs)⟩

/-- The count of granules that wait for a destination stands on another page. -/
theorem Upkeep.setFret (d : Dev) (n : Nat) : Upkeep d (d.setFld pERR rERR_FRET.off 31 16 n) :=
  .setFld d 31 16 n fun _ ho _ => regKey_ne ho (by decide) (.inl (by decide))

/-- A page of a partition's learning registers lies above every page up to those of the generators. -/
theorem regKey_ne_pLRN {page off : Nat} (hp : page < 0x1C0) (ho : off < 0x10000) (p o : Nat) :
    regKey page off ≠ regKey (pLRN p) o := by
  simp only [regKey, pLRN]; omega

/-! ### Phase accounts -/

theorem Dev.phCount_rd (d : Dev) {page off : Nat} (hp : page < 0x1C0) (ho : off < 0x10000) (p o hi lo n : Nat) :
    (d.phCount p o hi lo n).rd page off = d.rd page off := by
  have hne := regKey_ne_pLRN hp ho p
  unfold Dev.phCount
  dsimp only
  split
  · exact Dev.rd_setFld_other _ _ _ _ _ _ _ _ (hne _)
  · exact (Dev.rd_setFld_other _ _ _ _ _ _ _ _ (hne _)).trans (Dev.rd_setFld_other _ _ _ _ _ _ _ _ (hne _))

theorem Upkeep.phCount (d : Dev) (p o hi lo n : Nat) : Upkeep d (d.phCount p o hi lo n) where
  frame := by unfold Dev.phCount; dsimp only; split <;> rfl
  streams := by unfold Dev.phCount; dsimp only; split <;> rfl
  rd _ ho _ := d.phCount_rd (by decide) ho _ _ _ _ _

/-- The accounts of a partition are its own, and registers of its learning page. -/
theorem Upkeep.setPart (d : Dev) (p : Nat) (x : Part) : Upkeep d (d.setPart p x) := ⟨rfl, rfl, fun _ _ _ => rfl⟩

theorem Dev.phSync_rd (d : Dev) {page off : Nat} (hp : page < 0x1C0) (ho : off < 0x10000) (p : Nat) :
    (d.phSync p).rd page off = d.rd page off := by
  unfold Dev.phSync
  split
  · rfl
  · refine Dev.each_keeps (fun e => e.rd page off) (fun x _ e => ?_) d
    split
    · rfl
    · exact (Dev.phCount_rd _ hp ho _ _ _ _ _).trans (Dev.phCount_rd _ hp ho _ _ _ _ _)

theorem Upkeep.phSync (d : Dev) (p : Nat) : Upkeep d (d.phSync p) := by
  unfold Dev.phSync
  split
  · exact .refl d
  · refine (Upkeep.each (fun x e => ?_) d).trans (Upkeep.setPart _ _ _)
    split
    · exact .refl e
    · exact (Upkeep.phCount _ _ _ _ _ _).trans (Upkeep.phCount _ _ _ _ _ _)

theorem Dev.phSync_tier (d : Dev) (p : Nat) : (d.phSync p).tier = d.tier := by
  unfold Dev.phSync
  split
  · rfl
  · refine Dev.each_keeps Dev.tier (fun x _ e => ?_) d
    split
    · rfl
    · unfold Dev.phCount; dsimp only; split <;> split <;> rfl

theorem Upkeep.phStart (d : Dev) (p n : Nat) : Upkeep d (d.phStart p n) := (Upkeep.phSync d p).trans (Upkeep.setPart _ _ _)
theorem Upkeep.phEnd (d : Dev) (p n : Nat) : Upkeep d (d.phEnd p n) := (Upkeep.phSync d p).trans (Upkeep.setPart _ _ _)

/-! ### Messages to the companion -/

theorem Dev.toCompanion_frame (d : Dev) (o : Out) :
    d.toCompanion o = { d with vex := (d.toCompanion o).vex, out := (d.toCompanion o).out } := by
  unfold Dev.toCompanion Dev.linkSend
  split
  · split
    · split <;> rfl
    · rfl
  · rfl

theorem Dev.toCompanion_tier (d : Dev) (o : Out) : (d.toCompanion o).tier = d.tier := by rw [d.toCompanion_frame o]

theorem Upkeep.toCompanion (d : Dev) (o : Out) : Upkeep d (d.toCompanion o) where
  frame := congrArg (fun e : Dev => { e with regs := (d.toCompanion o).regs, tier := (d.toCompanion o).tier,
                                             parts := (d.toCompanion o).parts }) (d.toCompanion_frame o)
  streams := congrArg (·.tier.streams) (d.toCompanion_frame o)
  rd off _ _ := congrArg (·.rd pTIER off) (d.toCompanion_frame o)

theorem Upkeep.snoop (d : Dev) (a n : Nat) : Upkeep d (d.snoop a n) := Upkeep.each (fun _ e => .toCompanion e _) d

theorem Dev.invalidate_tier (d : Dev) (a n : Nat) : (d.invalidate a n).tier = d.tier := by
  unfold Dev.invalidate
  dsimp only
  split
  · rfl
  · exact Dev.each_keeps Dev.tier (fun _ _ e => e.toCompanion_tier _) _

theorem Upkeep.invalidate (d : Dev) (a n : Nat) : Upkeep d (d.invalidate a n) := by
  unfold Dev.invalidate
  dsimp only
  split
  · exact .refl d
  · refine Upkeep.trans ?_ (Upkeep.each (fun _ e => .toCompanion e _) _)
    exact ⟨rfl, rfl, fun _ _ _ => rfl⟩

/-! ### The tier map and the frames -/

theorem Upkeep.setGran (d : Dev) (g : Nat) (x : TierEntry) : Upkeep d (d.setGran g x) := ⟨rfl, rfl, fun _ _ _ => rfl⟩
theorem Upkeep.setMig (d : Dev) (g : Nat) (m : Migration) : Upkeep d (d.setMig g m) := ⟨rfl, rfl, fun _ _ _ => rfl⟩
theorem Upkeep.setStage (d : Dev) (p : Nat) (l : NSet) : Upkeep d (d.setStage p l) := ⟨rfl, rfl, fun _ _ _ => rfl⟩
theorem Upkeep.unstage (d : Dev) (l : List Nat) : Upkeep d (d.unstage l) := ⟨rfl, rfl, fun _ _ _ => rfl⟩

@[simp] theorem Dev.gran_setMig (d : Dev) (g : Nat) (m : Migration) (h : Nat) : (d.setMig g m).gran h = d.gran h := rfl
@[simp] theorem Dev.mig_setMig (d : Dev) (g : Nat) (m : Migration) : (d.setMig g m).mig g = m := by simp [Dev.mig, Dev.setMig]
@[simp] theorem Dev.mig_setGran (d : Dev) (g : Nat) (x : TierEntry) (h : Nat) : (d.setGran g x).mig h = d.mig h := rfl

@[simp] theorem Dev.gran_useFrame (d : Dev) (slow : Bool) (f g : Nat) : (d.useFrame slow f).gran g = d.gran g := by
  cases slow <;> rfl

theorem Upkeep.useFrame (d : Dev) (slow : Bool) (f : Nat) : Upkeep d (d.useFrame slow f) := by
  cases slow <;> exact ⟨rfl, rfl, fun _ _ _ => rfl⟩

theorem Upkeep.unuseFrame (d : Dev) (slow : Bool) (f : Nat) : Upkeep d (d.unuseFrame slow f) := by
  cases slow <;> exact ⟨rfl, rfl, fun _ _ _ => rfl⟩

/-! ### A frame that becomes free -/

/-- The oldest granule that waits for a destination takes the frame (R436). -/
def Dev.grant (d : Dev) (g : Nat) (rest : List Nat) (slow : Bool) (f : Nat) : Dev :=
  (Dev.setGran { d with tier := { d.tier with waiting := rest } } g { d.gran g with dslow := slow, dframe := f }).setFld
    pERR rERR_FRET.off 31 16 rest.length

/-- A frame that becomes free is out of use, or goes to a granule that waits or to a stage cache below its quota. -/
theorem Dev.giveBack_cases (d : Dev) (slow : Bool) (f : Nat) :
    d.giveBack slow f = d.unuseFrame slow f ∨
    (∃ g rest, d.tier.waiting = g :: rest ∧ d.giveBack slow f = d.grant g rest slow f) ∨
    ∃ p, (d.stageOf p).length < d.stageQuota p ∧ d.giveBack slow f = d.setStage p ((d.stageOf p).add f) := by
  unfold Dev.giveBack
  by_cases hgone : (if slow then d.tier.slowGone else d.tier.hbmGone).contains f = true
  · exact .inl (if_pos hgone)
  · rw [if_neg hgone]
    split
    · next g rest hw => exact .inr (.inl ⟨g, rest, hw, rfl⟩)
    · cases slow
      · simp only [Bool.false_eq_true, if_false]
        split
        · next p hp => exact .inr (.inr ⟨p, by simpa using List.find?_some hp, rfl⟩)
        · exact .inl rfl
      · exact .inl rfl

theorem Upkeep.grant (d : Dev) (g : Nat) (rest : List Nat) (slow : Bool) (f : Nat) : Upkeep d (d.grant g rest slow f) := by
  refine Upkeep.trans ?_ (Upkeep.setFret _ rest.length)
  exact ⟨rfl, rfl, fun _ _ _ => rfl⟩

theorem Upkeep.giveBack (d : Dev) (slow : Bool) (f : Nat) : Upkeep d (d.giveBack slow f) := by
  rcases d.giveBack_cases slow f with h | ⟨g, rest, -, h⟩ | ⟨p, -, h⟩ <;> rw [h]
  · exact .unuseFrame d slow f
  · exact .grant d g rest slow f
  · exact .setStage d p _

theorem Dev.rd_giveBack (d : Dev) (slow : Bool) (f : Nat) {page off : Nat} (hp : page ≠ pERR) (ho : off < 0x10000) :
    (d.giveBack slow f).rd page off = d.rd page off := by
  rcases d.giveBack_cases slow f with h | ⟨g, rest, -, h⟩ | ⟨p, -, h⟩ <;> rw [h]
  · cases slow <;> rfl
  · exact Dev.rd_setFld_other _ _ _ _ _ _ _ _ (regKey_ne ho (by decide) (.inl hp))
  · rfl

/-- A granule that waits for no destination keeps its entry. -/
theorem Dev.gran_giveBack (d : Dev) (slow : Bool) (f : Nat) {g : Nat} (h : g ∉ d.tier.waiting) :
    (d.giveBack slow f).gran g = d.gran g := by
  rcases d.giveBack_cases slow f with e | ⟨j, rest, hw, e⟩ | ⟨p, -, e⟩ <;> rw [e]
  · cases slow <;> rfl
  · exact Dev.gran_setGran_other _ _ _ _ fun hg => h (by simp [hw, hg])
  · rfl

theorem Dev.giveBack_unmapping (d : Dev) (slow : Bool) (f : Nat) : (d.giveBack slow f).tier.unmapping = d.tier.unmapping := by
  rcases d.giveBack_cases slow f with e | ⟨j, rest, hw, e⟩ | ⟨p, -, e⟩ <;> rw [e]
  · cases slow <;> rfl
  · rfl
  · rfl

/-- No granule begins to wait. -/
theorem Dev.giveBack_waiting (d : Dev) (slow : Bool) (f : Nat) {g : Nat} (h : g ∉ d.tier.waiting) :
    g ∉ (d.giveBack slow f).tier.waiting := by
  rcases d.giveBack_cases slow f with e | ⟨j, rest, hw, e⟩ | ⟨p, -, e⟩ <;> rw [e]
  · cases slow <;> exact h
  · exact fun hg => h (by rw [hw]; exact List.mem_cons_of_mem _ hg)
  · exact h

/-! ### A migration that is abandoned -/

theorem Dev.abandonMove_of_moving {d : Dev} {g : Nat} (hw : g ∉ d.tier.waiting) (hm : (d.gran g).moving = true) : d.abandonMove g =
    ((d.setGran g { d.gran g with state := stStable, dslow := false, dframe := 0 }).setMig g {}).giveBack (d.gran g).dslow
      (d.gran g).dframe := by
  simp [Dev.abandonMove, hw, hm]

theorem Upkeep.abandonMove (d : Dev) (g : Nat) : Upkeep d (d.abandonMove g) := by
  unfold Dev.abandonMove
  dsimp only
  split
  · refine Upkeep.trans ?_ (Upkeep.setFret _ _)
    exact ⟨rfl, rfl, fun _ _ _ => rfl⟩
  · split
    · refine Upkeep.trans ?_ (Upkeep.giveBack _ _ _)
      exact (Upkeep.setGran _ _ _).trans (Upkeep.setMig _ _ _)
    · exact .refl d

/-- A granule whose migration is abandoned waits for no destination. -/
theorem Dev.abandonMove_waiting (d : Dev) (g : Nat) : g ∉ (d.abandonMove g).tier.waiting := by
  unfold Dev.abandonMove
  dsimp only
  split
  · show g ∉ d.tier.waiting.filter (· != g)
    simp
  · next h =>
    have hg : g ∉ d.tier.waiting := by simpa using h
    split
    · exact Dev.giveBack_waiting _ _ _ hg
    · exact hg

end Sys2Proof.Machine
end

section
/-! SUPPORT. The commands of TIER_CMD (R166 to R172). -/

namespace Sys2Proof.Machine

open Sys2Proof.Safety

/-- A command that takes an effect completes with what the effect leaves. -/
theorem runs_of_next {c : Instr} {s : State} {f : Dev → Dev} {P : Dev → Prop} (h : exec c s = .next (on s f)) (hp : P (f s.dev)) :
    Runs c s P := ⟨f s.dev, h, hp⟩

/-! ### How a command is taken and ends -/

@[simp] theorem Dev.tierEnd_gran (d : Dev) (r g : Nat) : (d.tierEnd r).gran g = d.gran g := rfl
@[simp] theorem Dev.tierEnd_load (d : Dev) (r a n : Nat) : (d.tierEnd r).load a n = d.load a n := rfl

theorem Dev.tierEnd_done (d : Dev) : (d.tierEnd 0).fld pTIER tierSts 7 0 = 0 := by
  rw [Dev.tierEnd, Dev.fld_setBit_field _ _ _ _ _ _ _ (by decide) (by decide),
    Dev.fld_setFld_same _ _ _ _ _ _ (by decide) (by decide), Nat.zero_mod]

theorem Dev.tierEnd_free (d : Dev) (r : Nat) : (d.tierEnd r).bit pTIER tierSts 8 = false :=
  Dev.bit_setBit_same _ _ _ _ _ (by decide)

section
variable {s : State} {a : Access} {op k : Nat} {code : Dev → Nat} {work : Dev → Dev}

/-- What TIER_CMD does with a command word of op k, whose refusal a code gives. -/
def runTierCmd (a : Access) (op k : Nat) (code : Dev → Nat) (work : Dev → Dev) (s : State) : Host.Outcome State Fault Refusal :=
  s.run fun d => if op != k then d
    else d.tierCommand a fun d => if code d != 0 then d.tierEnd (code d) else work d

/-- A command in order, written while the engine is free, does its work. -/
theorem runTierCmd_accepted (hw : s.dev.writable a pTIER rTIER_CMD.off true = true) (hb : s.dev.bit pTIER tierSts 8 = false)
    (hop : op = k) (hc : code s.dev = 0) :
    runTierCmd a op k code work s = .next (on s fun d => (work d).emit (.readback 0 false)) := by
  simp [runTierCmd, State.run, on, Dev.tierCommand, Dev.regWrite_writable _ hw, hb, hop, hc]

/-- One that is refused only reports why. -/
theorem runTierCmd_refused {r : Nat} (hw : s.dev.writable a pTIER rTIER_CMD.off true = true)
    (hb : s.dev.bit pTIER tierSts 8 = false) (hop : op = k) (hc : code s.dev = r) (hr : r ≠ 0) :
    runTierCmd a op k code work s = .next (on s fun d => (d.tierEnd r).emit (.readback 0 false)) := by
  simp [runTierCmd, State.run, on, Dev.tierCommand, Dev.regWrite_writable _ hw, hb, hop, hc, hr]

/-- One written while another is in progress is lost (R168). -/
theorem runTierCmd_lost (hw : s.dev.writable a pTIER rTIER_CMD.off true = true) (hb : s.dev.bit pTIER tierSts 8 = true)
    (hop : op = k) :
    runTierCmd a op k code work s = .next (on s fun d => (d.setBit pTIER tierSts 9 true).emit (.readback 0 false)) := by
  simp [runTierCmd, State.run, on, Dev.tierCommand, Dev.regWrite_writable _ hw, hb, hop]

end

/-! ### The four commands -/

/-- What UNMAP in order leaves: the migration abandoned, the writes that were held done, and the granule being unmapped. -/
def Dev.beginUnmap (d : Dev) (g : Nat) : Dev :=
  let e := (d.abandonMove g).releaseHeld (d.mig g).held
  Dev.setBit { e with tier := { e.tier with unmapping := some g } } pTIER tierSts 8 true

/-- The entry with the fields that SET_ATTRIBUTES stores. -/
def TierEntry.withAttrs (x : TierEntry) (c : TierCmd) : TierEntry :=
  { x with kind := c.kind, place := c.place, pin := c.pin, shadow := c.shadow, sgran := c.sgran, shalf := c.shalf }

/-- The entry that MAP writes: the fields of the command, in a frame. -/
def TierCmd.mapped (c : TierCmd) (slow : Bool) (f : Nat) : TierEntry :=
  { valid := true, state := stZeroing, world := c.world, part := c.part, pin := c.pin, run := c.run, kind := c.kind,
    place := c.place, slow := slow, frame := f, shadow := c.shadow, sgran := c.sgran, shalf := c.shalf }

section
variable (a : Access) (v : Word) (s : State)

theorem exec_map : exec (.map a v) s = runTierCmd a (TierCmd.ofWord v.toNat).op 1 (·.mapCode (TierCmd.ofWord v.toNat))
    (fun d => (d.mapGran (TierCmd.ofWord v.toNat)).tierEnd 0) s := rfl

theorem exec_unmap : exec (.unmap a v) s = runTierCmd a (TierCmd.ofWord v.toNat).op 2 (·.unmapCode (TierCmd.ofWord v.toNat))
    (fun d => d.beginUnmap (TierCmd.ofWord v.toNat).gran) s := rfl

theorem exec_setAttributes : exec (.setAttributes a v) s =
    runTierCmd a (TierCmd.ofWord v.toNat).op 3 (·.attrCode (TierCmd.ofWord v.toNat))
      (fun d => let c := TierCmd.ofWord v.toNat; (d.setGran c.gran ((d.gran c.gran).withAttrs c)).tierEnd 0) s := rfl

theorem exec_move : exec (.move a v) s = runTierCmd a (TierCmd.ofWord v.toNat).op 4 (·.moveCode (TierCmd.ofWord v.toNat))
    (fun d => let c := TierCmd.ofWord v.toNat
      if (d.gran c.gran).moving then d.tierEnd 0 else (d.startMove c.gran).tierEnd 0) s := rfl

end

/-! ### MAP -/

/-- Every byte of a wiped granule reads 0 (R171). -/
theorem Dev.load_wipeGran (d : Dev) (g x : Nat) : (d.wipeGran g).load x 1 = if x / granBytes = g then [0] else d.load x 1 := by
  have hin : g * granBytes ≤ x ∧ x < g * granBytes + granBytes ↔ x / granBytes = g := by simp only [granBytes]; omega
  simp only [Dev.load, memLoad, Dev.wipeGran, Tab.get_clear, hin]
  split <;> rfl

@[simp] theorem Dev.wipeGran_gran (d : Dev) (g h : Nat) : (d.wipeGran g).gran h = d.gran h := rfl

theorem Dev.mapGran_of_free {d : Dev} {c : TierCmd} {f : Nat} (hf : d.freeFrame (d.mapTier c) = some f) :
    d.mapGran c = ((d.useFrame (d.mapTier c) f).wipeGran c.gran).setGran c.gran (c.mapped (d.mapTier c) f) := by
  simp only [Dev.mapGran, hf]
  rfl

theorem Dev.load_mapGran {d : Dev} {c : TierCmd} {f : Nat} (hf : d.freeFrame (d.mapTier c) = some f) (x : Nat) :
    (d.mapGran c).load x 1 = if x / granBytes = c.gran then [0] else d.load x 1 := by
  rw [Dev.mapGran_of_free hf, Dev.setGran_load, Dev.load_wipeGran, (Upkeep.useFrame d _ f).load]

theorem Dev.mapGran_cores (d : Dev) (c : TierCmd) : (d.mapGran c).cores = d.cores := by
  unfold Dev.mapGran
  dsimp only
  split
  · rfl
  · exact (Upkeep.useFrame d _ _).cores

/-! ### MOVE -/

/-- The entry of a granule that copies to a frame of the other tier. -/
def TierEntry.copyingTo (x : TierEntry) (f : Nat) : TierEntry := { x with state := stCopying, dslow := !x.slow, dframe := f }

theorem Dev.startMove_of_free {d : Dev} {g f : Nat} (hf : d.freeFrame (!(d.gran g).slow) = some f) : d.startMove g =
    ((d.useFrame (!(d.gran g).slow) f).setMig g {}).setGran g ((d.gran g).copyingTo f) := by
  simp only [Dev.startMove, hf]
  rfl

/-- What the start of a move leaves (R172). -/
structure MoveStarted (d e : Dev) (g f : Nat) : Prop where
  gran : e.gran g = (d.gran g).copyingTo f
  mig : e.mig g = {}
  others : ∀ h, h ≠ g → e.gran h = d.gran h
  regs : e.regs = d.regs
  upkeep : Upkeep d e

theorem Dev.startMove_starts {d : Dev} {g f : Nat} (hf : d.freeFrame (!(d.gran g).slow) = some f) :
    MoveStarted d (d.startMove g) g f := by
  rw [Dev.startMove_of_free hf]
  refine ⟨Dev.gran_setGran_same _ _ _, by simp, fun h hh => ?_, ?_, ?_⟩
  · rw [Dev.gran_setGran_other _ _ _ _ hh, Dev.gran_setMig, Dev.gran_useFrame]
  · cases (d.gran g).slow <;> rfl
  · exact ((Upkeep.useFrame d _ f).trans (.setMig _ g _)).trans (.setGran _ g _)

/-! ### UNMAP_DONE -/

/-- The granule's migration abandoned, its lines given up by the companion, its bytes gone and its entry cleared. -/
def Dev.cleared (d : Dev) (g : Nat) : Dev :=
  let e := ((d.abandonMove g).invalidate (g * granBytes) granBytes).wipeGran g
  Dev.setGran { e with tier := { e.tier with unmapping := none } } g {}

theorem exec_unmapDone_of_done {s : State} {g : Nat} (hl : s.dev.live = true) (hg : s.dev.tier.unmapping = some g)
    (hr : s.dev.readsGran g = false) : exec .unmapDone s = .next (on s fun d =>
      ((d.cleared g).giveBack (d.gran g).slow (d.gran g).frame).tierEnd 0) := by
  change execUnmapDone s = _
  simp only [execUnmapDone, State.run, on, hg]
  rw [Dev.when_true _ hl (by rw [hr]; rfl)]
  rfl

theorem Dev.load_cleared (d : Dev) (g x : Nat) : (d.cleared g).load x 1 = if x / granBytes = g then [0] else d.load x 1 := by
  refine (Dev.load_wipeGran _ g x).trans ?_
  rw [((Upkeep.abandonMove d g).trans (Upkeep.invalidate _ _ _)).load]

theorem Dev.cleared_waiting (d : Dev) (g : Nat) : g ∉ (d.cleared g).tier.waiting := by
  have htier := (d.abandonMove g).invalidate_tier (g * granBytes) granBytes
  show g ∉ ((d.abandonMove g).invalidate (g * granBytes) granBytes).tier.waiting
  rw [htier]
  exact d.abandonMove_waiting g

/-- Settles O19: each command is an update of its granule's entry, or a report. -/
theorem tierCommandsComplete : Obligations.TierCommandsComplete := by
  intro a v s c
  refine ⟨fun hw hb => ⟨fun hop hc f hf => ?map, fun hop hc => ?unmap, fun hop hc => ?attributes, fun hop hc hm f hf => ?move,
    fun i r hr hi => ?refused⟩, fun hw hb i hi => ?lost, fun g hl hg hr => ?done⟩
  case map =>
    refine runs_of_next ((exec_map a v s).trans (runTierCmd_accepted hw hb hop hc))
      ⟨?_, fun x hx => ?_, fun x hx => ?_, fun g hg => ?_, Dev.tierEnd_done (s.dev.mapGran c), Dev.tierEnd_free (s.dev.mapGran c) 0,
        s.dev.mapGran_cores c⟩
    · rw [Dev.emit_gran, Dev.tierEnd_gran, Dev.mapGran_of_free hf, Dev.gran_setGran_same]
      rfl
    · rw [Dev.emit_load, Dev.tierEnd_load, Dev.load_mapGran hf, if_pos hx]
    · rw [Dev.emit_load, Dev.tierEnd_load, Dev.load_mapGran hf, if_neg hx]
    · rw [Dev.emit_gran, Dev.tierEnd_gran, Dev.mapGran_of_free hf, Dev.gran_setGran_other _ _ _ _ hg, Dev.wipeGran_gran,
        Dev.gran_useFrame]
  case unmap =>
    exact runs_of_next ((exec_unmap a v s).trans (runTierCmd_accepted hw hb hop hc))
      ⟨rfl, Dev.bit_setBit_same _ _ _ _ _ (by decide)⟩
  case attributes => exact (exec_setAttributes a v s).trans (runTierCmd_accepted hw hb hop hc)
  case move =>
    have hstart := Dev.startMove_starts hf
    refine ⟨((s.dev.startMove c.gran).tierEnd 0).emit (.readback 0 false), ?_, hstart.gran, hstart.others,
      Dev.tierEnd_done _, hstart.upkeep.sameMemory, hstart.upkeep.cores⟩
    refine (exec_move a v s).trans ((runTierCmd_accepted hw hb hop hc).trans ?_)
    have hm' : (s.dev.gran (TierCmd.ofWord v.toNat).gran).moving = false := hm
    simp only [on, hm', Bool.false_eq_true, if_false]
    rfl
  case refused =>
    rcases hi with ⟨rfl, hop, hc⟩ | ⟨rfl, hop, hc⟩ | ⟨rfl, hop, hc⟩ | ⟨rfl, hop, hc⟩
    · exact (exec_map a v s).trans (runTierCmd_refused hw hb hop hc hr)
    · exact (exec_unmap a v s).trans (runTierCmd_refused hw hb hop hc hr)
    · exact (exec_setAttributes a v s).trans (runTierCmd_refused hw hb hop hc hr)
    · exact (exec_move a v s).trans (runTierCmd_refused hw hb hop hc hr)
  case lost =>
    rcases hi with ⟨rfl, hop⟩ | ⟨rfl, hop⟩ | ⟨rfl, hop⟩ | ⟨rfl, hop⟩
    · exact (exec_map a v s).trans (runTierCmd_lost hw hb hop)
    · exact (exec_unmap a v s).trans (runTierCmd_lost hw hb hop)
    · exact (exec_setAttributes a v s).trans (runTierCmd_lost hw hb hop)
    · exact (exec_move a v s).trans (runTierCmd_lost hw hb hop)
  case done =>
    have hfree := Upkeep.giveBack (s.dev.cleared g) (s.dev.gran g).slow (s.dev.gran g).frame
    refine runs_of_next (exec_unmapDone_of_done hl hg hr) ⟨?_, Dev.giveBack_unmapping _ _ _, fun x hx => ?_, fun x hx => ?_,
      Dev.tierEnd_done _, Dev.tierEnd_free _ _⟩
    · rw [Dev.tierEnd_gran, Dev.gran_giveBack _ _ _ (s.dev.cleared_waiting g)]
      exact Dev.gran_setGran_same _ _ _
    · rw [Dev.tierEnd_load, hfree.load, Dev.load_cleared, if_pos hx]
    · rw [Dev.tierEnd_load, hfree.load, Dev.load_cleared, if_neg hx]

end Sys2Proof.Machine
end

section
/-! SUPPORT. What the tier engine does on its own: zeroing, migrations, heat and re-fetch (R166, R171 to R173, R179 to R181). -/

namespace Sys2Proof.Machine

open Sys2Proof.Safety

/-! ### Events of the tier engine -/

/-- An event inside a live device whose condition holds takes its effect. -/
theorem run_when_true {s : State} {q : Dev → Bool} {f : Dev → Dev → Dev} (hl : s.dev.live = true) (hq : q s.dev = true) :
    s.run (fun d => d.when (q d) (f d)) = .next (on s fun d => f d d) := by
  rw [State.run, Dev.when_true _ hl hq, on]

section
variable {s : State} {g : Fin 49152}

theorem exec_zeroingDone_of_zeroing (hl : s.dev.live = true) (hv : (s.dev.gran g).valid = true)
    (hs : (s.dev.gran g).state = stZeroing) :
    exec (.zeroingDone g) s = .next (on s fun d => d.setGran g { d.gran g with state := stStable }) := by
  change execZeroingDone g s = _
  dsimp only [execZeroingDone]
  exact run_when_true hl (by simp [hv, hs])

theorem exec_migrationStart_of_free_to_move (hl : s.dev.live = true) (hv : (s.dev.gran g).valid = true)
    (hs : (s.dev.gran g).state = stStable) (hp : (s.dev.gran g).place = 0) (hpin : (s.dev.gran g).pin = false)
    (hu : s.dev.tier.unmapping ≠ some g.val) (hr : s.dev.roomCode (s.dev.gran g).part (!(s.dev.gran g).slow) = 0) :
    exec (.migrationStart g) s = .next (on s fun d => d.startMove g) := by
  change execMigrationStart g s = _
  dsimp only [execMigrationStart]
  exact run_when_true hl (by simp [hv, hs, hp, hpin, hu, hr])

/-- What the end of a pass leads to (R172). -/
def Dev.endPass (d : Dev) (g : Nat) : Dev :=
  let m := d.mig g
  if m.dirty.length ≤ 16 then d.enterSwitching g
  else if m.pass + 1 < 8 then d.setMig g { m with pass := m.pass + 1, dirty := [] }
  else if m.retire then d.enterSwitching g
  else (d.abandonMove g).count pTIER rTIER_STAT.off 47 40 1

theorem exec_migrationPassEnd_of_copying (hl : s.dev.live = true) (hv : (s.dev.gran g).valid = true)
    (hs : (s.dev.gran g).state = stCopying ∨ (s.dev.gran g).state = stRetiring) (hw : g.val ∉ s.dev.tier.waiting) :
    exec (.migrationPassEnd g) s = .next (on s fun d => d.endPass g) := by
  change execMigrationPassEnd g s = _
  dsimp only [execMigrationPassEnd]
  exact run_when_true hl (by rcases hs with hs | hs <;> simp [hv, hs, hw])

theorem exec_migrationSwitchDone_of_switching (hl : s.dev.live = true) (hv : (s.dev.gran g).valid = true)
    (hs : (s.dev.gran g).state = stSwitching) (hr : (s.dev.mig g).retire = false) :
    exec (.migrationSwitchDone g) s = .next (on s fun d =>
      ((d.switchOver g).giveBack (d.gran g).slow (d.gran g).frame).count pTIER rTIER_STAT.off 63 48 1) := by
  change execMigrationSwitchDone g s = _
  dsimp only [execMigrationSwitchDone]
  exact run_when_true hl (by simp [hv, hs, hr])

end

/-! ### The end of a migration -/

theorem TierEntry.moving_of_copies {x : TierEntry} (hv : x.valid = true) (hs : x.state = stCopying ∨ x.state = stRetiring) :
    x.moving = true := by
  rcases hs with hs | hs <;> simp [TierEntry.moving, hv, hs]

/-- A granule that copies returns to stable in its own frame when its migration is abandoned (R172). -/
theorem Dev.gran_abandonMove {d : Dev} {g : Nat} (hw : g ∉ d.tier.waiting) (hm : (d.gran g).moving = true) :
    (d.abandonMove g).gran g = { d.gran g with state := stStable, dslow := false, dframe := 0 } := by
  rw [Dev.abandonMove_of_moving hw hm]
  refine (Dev.gran_giveBack _ _ _ ?_).trans (Dev.gran_setGran_same d g _)
  exact hw

theorem Dev.rd_abandonMove {d : Dev} {g : Nat} (hw : g ∉ d.tier.waiting) (hm : (d.gran g).moving = true) {off : Nat}
    (ho : off < 0x10000) : (d.abandonMove g).rd pTIER off = d.rd pTIER off := by
  rw [Dev.abandonMove_of_moving hw hm, Dev.rd_giveBack _ _ _ (by decide) ho]
  rfl

/-- The switch of a granule with no write held: its entry rewritten, its staged copies dropped. -/
theorem Dev.switchOver_of_none_held {d : Dev} {g : Nat} (hh : (d.mig g).held = []) : d.switchOver g =
    let e := (d.setGran g { d.gran g with state := stStable, slow := (d.gran g).dslow, frame := (d.gran g).dframe,
                                          dslow := false, dframe := 0 }).setMig g {}
    { e with tier := { e.tier with staged := Tab.clear e.tier.staged (g * 1024) ((g + 1) * 1024) } } := by
  rw [Dev.switchOver, hh]
  rfl

/-! ### Heat -/

/-- The value listed at a key is the value at it. -/
theorem Tab.get_of_listed {α : Type} [DecidableEq α] {f : Nat → α} {t : Tab α} (hwf : Tab.wf f t = true) {x : Nat × α}
    (hx : x ∈ t) : Tab.get f t x.1 = x.2 := by
  induction t with
  | nil => cases hx
  | cons y t ih =>
    obtain ⟨-, hlt, ht⟩ := Tab.wf_cons.mp hwf
    rcases List.mem_cons.mp hx with rfl | hx
    · exact if_pos rfl
    · exact (if_neg (Nat.ne_of_lt (hlt x hx))).trans (ih ht hx)

/-- The entry with its heat halved. -/
def TierEntry.cooled (x : TierEntry) : TierEntry := { x with heat := x.heat / 2 }

theorem Dev.gran_each_setGran (d : Dev) (l : Tab TierEntry) (v : Nat → TierEntry) (h : Nat) :
    (d.each l fun x e => e.setGran x.1 (v x.1)).gran h = if h ∈ l.map Prod.fst then v h else d.gran h := by
  have hmap : (d.each l fun x e => e.setGran x.1 (v x.1)).tier.map =
      l.foldl (fun t x => Tab.set (fun _ => {}) t x.1 (v x.1)) d.tier.map := by
    induction l generalizing d with
    | nil => rfl
    | cons x l ih => exact ih _
  rw [Dev.gran, hmap]
  exact Tab.get_foldl_set _ v l d.tier.map h

/-- Every entry listed once, cooling the listed ones cools the whole map: an entry that is not listed has no heat. -/
theorem Dev.gran_cool_each {d : Dev} (hwf : Tab.wf (fun _ => ({} : TierEntry)) d.tier.map = true) (h : Nat) :
    (d.each d.tier.map fun (x : Nat × TierEntry) e => e.setGran x.1 x.2.cooled).gran h = (d.gran h).cooled := by
  have hvalue : (d.each d.tier.map fun (x : Nat × TierEntry) e => e.setGran x.1 x.2.cooled) =
      d.each d.tier.map fun x e => e.setGran x.1 (d.gran x.1).cooled :=
    List.foldl_ext _ _ _ fun e x hx => congrArg (fun y => e.setGran x.1 (TierEntry.cooled y)) (Tab.get_of_listed hwf hx).symm
  rw [hvalue, Dev.gran_each_setGran d d.tier.map fun n => (d.gran n).cooled]
  split
  · rfl
  · next hh => rw [Dev.gran, Tab.get_of_not_listed _ hh]; rfl

theorem exec_heatHalve_of_live {s : State} (hl : s.dev.live = true) : exec .heatHalve s =
    .next (on s fun d => d.each d.tier.map fun (x : Nat × TierEntry) e => e.setGran x.1 x.2.cooled) := by
  change execHeatHalve s = _
  dsimp only [execHeatHalve]
  exact run_when_true hl rfl

/-! ### A tile that a good copy mends -/

/-- Steps that each take a line of their own out of the poison take all of their lines out of it. -/
theorem Dev.each_clears {f : Nat → Dev → Dev} (hf : ∀ x e l, l ∈ (f x e).poison → l ∈ e.poison ∧ l ≠ x) {ls : List Nat} {d : Dev}
    {l : Nat} (h : l ∈ (d.each ls f).poison) : l ∈ d.poison ∧ l ∉ ls := by
  induction ls generalizing d with
  | nil => exact ⟨h, List.not_mem_nil⟩
  | cons x ls ih =>
    obtain ⟨hx, hls⟩ := ih h
    obtain ⟨hd, hne⟩ := hf x d l hx
    exact ⟨hd, by simp [hne, hls]⟩

/-- A line written whole loses its poison (R178). -/
theorem Dev.storeRaw_line_poison {d : Dev} {x l : Nat} {bs : List Byte} (hb : bs.length = 64)
    (h : l ∈ (d.storeRaw (64 * x) bs).poison) : l ∈ d.poison ∧ l ≠ x := by
  simp only [Dev.storeRaw, NSet.clear, hb, List.mem_filter, Bool.or_eq_true, decide_eq_true_eq] at h
  exact ⟨h.1, by omega⟩

@[simp] theorem Dev.dropStaged_poison (d : Dev) (a n : Nat) : (d.dropStaged a n).poison = d.poison := by
  unfold Dev.dropStaged; split <;> rfl

@[simp] theorem Dev.dropStaged_regs (d : Dev) (a n : Nat) : (d.dropStaged a n).regs = d.regs := by
  unfold Dev.dropStaged; split <;> rfl

theorem Dev.mendTile_poison {d : Dev} {t l : Nat} {bs : List Byte} (hb : bs.length = tileBytes) (hl : l / 1024 = t) :
    l ∉ (d.mendTile t bs).poison := by
  have hpart (x : Nat) : ((bs.drop (64 * (x % 1024))).take 64).length = 64 := by
    simp only [List.length_take, List.length_drop, hb, tileBytes]
    omega
  intro h
  rw [Dev.mendTile, Dev.dropStaged_poison] at h
  obtain ⟨hp, hn⟩ := Dev.each_clears (fun x _ _ hy => Dev.storeRaw_line_poison (hpart x) hy) h
  exact hn (by simp [hp, hl])

theorem Dev.mendTile_regs (d : Dev) (t : Nat) (bs : List Byte) : (d.mendTile t bs).regs = d.regs := by
  rw [Dev.mendTile, Dev.dropStaged_regs]
  exact Dev.each_keeps Dev.regs (fun x _ e => Dev.storeRaw_regs e _ _) d

/-! ### A granule that leaves re-fetch -/

theorem Dev.phEnd_tier (d : Dev) (p n : Nat) : (d.phEnd p n).tier = d.tier := d.phSync_tier p

theorem Dev.settle_tried (d : Dev) (g : Nat) : (d.settle g).tier.tried = d.tier.tried := by
  unfold Dev.settle
  dsimp only
  split
  · rw [Dev.phEnd_tier]; rfl
  · rfl

theorem Dev.settle_left (d : Dev) (g : Nat) : (d.settle g).tier.left = d.tier.left := by
  unfold Dev.settle
  dsimp only
  split
  · rw [Dev.phEnd_tier]; rfl
  · rfl

theorem Upkeep.settle (d : Dev) (g : Nat) : Upkeep d (d.settle g) := by
  unfold Dev.settle
  dsimp only
  split
  · exact (Upkeep.setGran _ _ _).trans (Upkeep.phEnd _ _ _)
  · exact .refl d

theorem Dev.rd_settle (d : Dev) (g : Nat) {page off : Nat} (hp : page < 0x1C0) (ho : off < 0x10000) :
    (d.settle g).rd page off = d.rd page off := by
  unfold Dev.settle
  dsimp only
  split
  · exact Dev.phSync_rd _ hp ho _
  · rfl

/-! ### The attempts on a tile -/

theorem Dev.refetchTry_of_eth {d e : Dev} (h : e.eth = d.eth) (t : Nat) : e.refetchTry t = d.refetchTry t := by
  rw [Dev.refetchTry, Dev.refetchTry, h]

theorem Dev.refetchTry_dropRefetch (d : Dev) (t : Nat) : (d.dropRefetch t).refetchTry t = none := by
  simp [Dev.refetchTry, Dev.dropRefetch, Tab.drop]

/-- An entry put in place of any other of its key is the one found. -/
theorem Tab.find?_insert {α : Type} {t : Tab α} {k : Nat} (v : α) (h : ∀ p ∈ t, p.1 ≠ k) :
    (t.insert k v).find? (fun x => x.1 == k) = some (k, v) := by
  induction t with
  | nil => simp [Tab.insert]
  | cons p t ih =>
    have hp : p.1 ≠ k := h p (by simp)
    unfold Tab.insert
    split
    · simp
    · rw [List.find?_cons_of_neg (by simpa using hp)]
      exact ih fun q hq => h q (by simp [hq])

/-! ### A tile that no source gives -/

theorem Upkeep.leavePoisoned (d : Dev) (ts : List Nat) : Upkeep d (d.leavePoisoned ts) := by
  refine Upkeep.each (fun t e => ?_) d
  split
  · exact .refl e
  · refine Upkeep.trans ?_ (Upkeep.setFld _ _ _ _ fun o ho hs => regKey_ne ho (by decide) (.inr hs))
    exact ⟨rfl, rfl, fun _ _ _ => rfl⟩

theorem Dev.leavePoisoned_tried (d : Dev) (ts : List Nat) : (d.leavePoisoned ts).tier.tried = d.tier.tried :=
  Dev.each_keeps (·.tier.tried) (fun t _ e => by dsimp only; split <;> rfl) d

/-- The tile counts as left poisoned. -/
theorem Dev.mem_left_leavePoisoned (d : Dev) (t : Nat) : t ∈ (d.leavePoisoned [t]).tier.left := by
  simp only [Dev.leavePoisoned, Dev.each, List.foldl_cons, List.foldl_nil]
  split
  · next h => simpa using h
  · exact NSet.mem_add.mpr (.inl rfl)

/-- What a tile that has failed at every source leaves (R181). -/
structure TileFailed (d e : Dev) (t : Nat) : Prop where
  tried : t ∈ e.tier.tried
  left : t ∈ e.tier.left
  noTry : e.refetchTry t = none
  memory : SameMemory d e

theorem Dev.failTile_fails (d : Dev) (t : Nat) : TileFailed d (d.failTile t) t := by
  let d1 := Dev.dropRefetch { d with tier := { d.tier with tried := d.tier.tried.add t } } t
  have hkeep : Upkeep d1 (d.failTile t) := (Upkeep.leavePoisoned d1 [t]).trans (.settle _ _)
  refine ⟨?_, ?_, ?_, hkeep.sameMemory⟩
  · rw [Dev.failTile, Dev.settle_tried, Dev.leavePoisoned_tried]
    exact NSet.mem_add.mpr (.inl rfl)
  · rw [Dev.failTile, Dev.settle_left]
    exact d1.mem_left_leavePoisoned t
  · rw [Dev.refetchTry_of_eth hkeep.eth]
    exact Dev.refetchTry_dropRefetch _ t

/-- Without an attempt left, the tile fails. -/
theorem Dev.tryRefetch_of_no_source {d : Dev} {t k : Nat}
    (h : ∀ a c, d.chunkOver t = some (a, c) → d.nextAttempt (d.gran (t / 1024)).part a c k = none) :
    d.tryRefetch t k = d.failTile t := by
  unfold Dev.tryRefetch
  dsimp only
  split
  · rfl
  · next a c hc => rw [h a c hc]

/-- An attempt on a tile in place of any other. -/
def Dev.noteTry (d : Dev) (t : Nat) (x : ChunkTry) : Dev :=
  { d with eth := { d.eth with refetch := (d.eth.refetch.drop t).insert t x } }

theorem Dev.refetchTry_noteTry (d : Dev) (t : Nat) (x : ChunkTry) : (d.noteTry t x).refetchTry t = some x := by
  have hfind := Tab.find?_insert x (t := d.eth.refetch.drop t) (k := t) fun p hp => (Tab.mem_drop.mp hp).2
  simp only [Dev.refetchTry, Dev.noteTry, hfind, Option.map_some]

/-- An attempt that can be made starts at once (R299). -/
theorem Dev.tryRefetch_of_attempt {d : Dev} {t k a c j src conn port : Nat} (hc : d.chunkOver t = some (a, c))
    (hn : d.nextAttempt (d.gran (t / 1024)).part a c k = some (j, src, conn, port)) : d.tryRefetch t k =
      (d.noteTry t { chunk := c, attempts := j, source := src, port := port, start := d.now, inFlight := true }).emitRead
        (d.gran (t / 1024)).part a c src conn := by
  simp only [Dev.tryRefetch, hc, hn]
  rfl

/-! ### The end of an attempt -/

/-- A good copy of tile t of granule g has come: its poison goes, its attempt ends and it counts as re-fetched (R180). -/
def Dev.goodTile (d : Dev) (g t : Nat) (bs : List Byte) : Dev :=
  (((d.mendTile t bs).dropRefetch t).count pTIER rTIER_STAT.off 39 24 1).settle g

/-- What a good copy of a tile leaves. -/
structure TileMended (d e : Dev) (t : Nat) : Prop where
  poison : ∀ l, l / 1024 = t → l ∉ e.poison
  noTry : e.refetchTry t = none
  count : e.fld pTIER rTIER_STAT.off 39 24 = min 65535 (d.fld pTIER rTIER_STAT.off 39 24 + 1)

theorem Dev.goodTile_mends (d : Dev) (g : Nat) {t : Nat} {bs : List Byte} (hb : bs.length = tileBytes) :
    TileMended d (d.goodTile g t bs) t := by
  have hkeep := Upkeep.settle (((d.mendTile t bs).dropRefetch t).count pTIER rTIER_STAT.off 39 24 1) g
  refine ⟨fun l hl => ?_, ?_, ?_⟩
  · rw [Dev.goodTile, hkeep.poison]
    exact Dev.mendTile_poison hb hl
  · rw [Dev.goodTile, Dev.refetchTry_of_eth hkeep.eth]
    exact Dev.refetchTry_dropRefetch (d.mendTile t bs) t
  · have hold : ((d.mendTile t bs).dropRefetch t).fld pTIER rTIER_STAT.off 39 24 = d.fld pTIER rTIER_STAT.off 39 24 := by
      show bits (Tab.get regReset (d.mendTile t bs).regs _).toNat 39 24 = _
      rw [Dev.mendTile_regs]
      rfl
    rw [Dev.goodTile, Dev.fld, Dev.rd_settle _ _ (by decide) (by decide), ← Dev.fld,
      Dev.fld_count_one _ _ _ _ _ (by decide) (by decide), hold]
    rfl

theorem Dev.replicaTile_length {d : Dev} {g t : Nat} {bs : List Byte} (h : d.replicaTile g t = some bs) :
    bs.length = tileBytes := by
  unfold Dev.replicaTile at h
  dsimp only at h
  split at h
  · split at h
    · obtain rfl := Option.some.inj h
      exact memLoad_length _ _ _
    · cases h
  · cases h

/-- The chunk named for a tile covers all of it. -/
theorem Dev.chunkOver_covers {d : Dev} {t a c : Nat} (h : d.chunkOver t = some (a, c)) :
    let x := d.chunk (d.manifest a) a c
    x.dest ≤ t * tileBytes ∧ (t + 1) * tileBytes ≤ x.dest + x.len := by
  unfold Dev.chunkOver at h
  dsimp only at h
  split at h
  · cases h
  · split at h
    · cases h
    · obtain ⟨c', hfind, heq⟩ := Option.map_eq_some_iff.mp h
      obtain ⟨rfl, rfl⟩ := Prod.mk.inj heq
      simpa using List.find?_some hfind

theorem Dev.chunkTile_length {d : Dev} {t : Nat} {data bs : List Byte} (h : d.chunkTile t data = some bs) :
    bs.length = tileBytes := by
  unfold Dev.chunkTile at h
  split at h
  · cases h
  · next a c hc =>
    obtain ⟨hlo, hhi⟩ := Dev.chunkOver_covers hc
    dsimp only at h
    split at h
    · next hdata =>
      simp only [Bool.and_eq_true, beq_iff_eq] at hdata
      obtain rfl := Option.some.inj h
      simp only [List.length_take, List.length_drop, hdata.1]
      simp only [tileBytes] at hlo hhi ⊢
      omega
    · cases h

section
variable {s : State} {g : Fin 49152} {t : Fin 1024}

/-- The device is live, granule g is in re-fetch, and its tile t is poisoned and not yet given up. -/
def Mending (d : Dev) (g : Fin 49152) (t : Fin 1024) : Prop :=
  d.live = true ∧ (d.gran g).valid = true ∧ (d.gran g).state = stRefetch ∧
    (d.poisonTiles g).contains (g.val * 1024 + t.val) = true ∧ d.tier.tried.contains (g.val * 1024 + t.val) = false

/-- What the end of an attempt on tile t of granule g leads to. -/
def Dev.endTileAttempt (d : Dev) (g t : Nat) (chunk : Option ChunkResult) : Dev :=
  let n := g * 1024 + t
  match chunk, d.refetchTry n with
  | none, _ =>
    match d.replicaTile g t with
    | some bs => d.goodTile g n bs
    | none => d.tryRefetch n 0
  | some (.arrived data), some x =>
    match d.chunkTile n data with
    | some bs => d.goodTile g n bs
    | none => d.tryRefetch n (x.attempts + 1)
  | some (.error _), some x => d.tryRefetch n (x.attempts + 1)
  | some _, none => d

section
variable {d : Dev} {g t : Nat} {data bs : List Byte} {x : ChunkTry}

/-- A tile whose replica can be read is mended from it. -/
theorem Dev.endTileAttempt_replica (hb : d.replicaTile g t = some bs) :
    d.endTileAttempt g t none = d.goodTile g (g * 1024 + t) bs := by simp only [Dev.endTileAttempt, hb]

/-- Without a replica a source is tried, from the first attempt on. -/
theorem Dev.endTileAttempt_no_replica (hb : d.replicaTile g t = none) :
    d.endTileAttempt g t none = d.tryRefetch (g * 1024 + t) 0 := by simp only [Dev.endTileAttempt, hb]

/-- A chunk that agrees with its digest mends the tile. -/
theorem Dev.endTileAttempt_chunk (hx : d.refetchTry (g * 1024 + t) = some x) (hb : d.chunkTile (g * 1024 + t) data = some bs) :
    d.endTileAttempt g t (some (.arrived data)) = d.goodTile g (g * 1024 + t) bs := by simp only [Dev.endTileAttempt, hx, hb]

/-- After one that does not the next attempt follows. -/
theorem Dev.endTileAttempt_no_chunk (hx : d.refetchTry (g * 1024 + t) = some x) (hb : d.chunkTile (g * 1024 + t) data = none) :
    d.endTileAttempt g t (some (.arrived data)) = d.tryRefetch (g * 1024 + t) (x.attempts + 1) := by
  simp only [Dev.endTileAttempt, hx, hb]

end

theorem exec_refetchTileDone_of_mending (chunk : Option ChunkResult) (h : Mending s.dev g t) :
    exec (.refetchTileDone g t chunk) s = .next (on s fun d => d.endTileAttempt g t chunk) := by
  obtain ⟨hl, hv, hs, hp, ht⟩ := h
  change execRefetchTileDone g t chunk s = _
  dsimp only [execRefetchTileDone]
  exact run_when_true hl (by simp only [hv, hs, hp, ht]; rfl)

end

/-- Settles O20: the passes of a migration by the number of dirty tiles, and a re-fetch by what its sources give. -/
theorem tierEventsComplete : Obligations.TierEventsComplete := by
  intro g s hl x m
  refine ⟨fun hv hs => exec_zeroingDone_of_zeroing hl hv hs, fun f hv hs hp hpin hu hr hf => ?start, fun hv hs hw => ?pass,
    fun hv hs hr hh hw => ?switch, fun hwf => ?heat, fun t => ?refetch⟩
  case start =>
    have hstart := Dev.startMove_starts hf
    exact runs_of_next (exec_migrationStart_of_free_to_move hl hv hs hp hpin hu hr)
      ⟨hstart.gran, hstart.mig, hstart.regs, hstart.others, hstart.upkeep.sameMemory⟩
  case pass =>
    have hexec := exec_migrationPassEnd_of_copying hl hv hs hw
    refine ⟨fun hd => ?few, fun hd hp => ?again, fun hd hp hr => ?abandon⟩
    case few =>
      refine hexec.trans ?_
      rw [on, Dev.endPass, if_pos hd]
      rfl
    case again =>
      refine hexec.trans ?_
      rw [on, Dev.endPass, if_neg (Nat.not_le.mpr hd), if_pos hp]
      rfl
    case abandon =>
      have hend : s.dev.endPass g = (s.dev.abandonMove g).count pTIER rTIER_STAT.off 47 40 1 := by
        rw [Dev.endPass, if_neg (Nat.not_le.mpr hd), if_neg (Nat.not_lt.mpr hp), if_neg (by rw [hr]; decide)]
      have hmove := TierEntry.moving_of_copies hv hs
      have hgran := Dev.gran_abandonMove hw hmove
      refine runs_of_next hexec ?_
      rw [hend, Dev.count_gran, hgran, Dev.fld_count_one _ _ _ _ _ (by decide) (by decide), Dev.fld,
        Dev.rd_abandonMove hw hmove (by decide)]
      exact ⟨rfl, rfl, rfl, rfl, (Upkeep.abandonMove s.dev g).sameMemory⟩
  case switch =>
    have hover := Dev.switchOver_of_none_held hh
    refine runs_of_next (exec_migrationSwitchDone_of_switching hl hv hs hr) ?_
    rw [Dev.count_gran, Dev.fld_count_one _ _ _ _ _ (by decide) (by decide), Dev.fld, Dev.rd_giveBack _ _ _ (by decide) (by decide),
      Dev.gran_giveBack _ _ _ (by rw [hover]; exact hw), hover]
    exact ⟨Dev.gran_setGran_same _ _ _, rfl, (Upkeep.giveBack _ _ _).sameMemory⟩
  case heat =>
    have hregs := Dev.each_keeps Dev.regs (l := s.dev.tier.map)
      (f := fun (x : Nat × TierEntry) e => e.setGran x.1 x.2.cooled) (fun _ _ _ => rfl) s.dev
    exact runs_of_next (exec_heatHalve_of_live hl)
      ⟨Dev.gran_cool_each hwf, hregs, (Upkeep.each (fun (x : Nat × TierEntry) e => .setGran e x.1 x.2.cooled) s.dev).sameMemory⟩
  case refetch =>
    intro n mended hv hs hpoison htried
    have hexec := fun chunk => exec_refetchTileDone_of_mending (t := t) chunk ⟨hl, hv, hs, hpoison, htried⟩
    have hgran : n / 1024 = g := by simp only [n]; omega
    have hgood {bs : List Byte} (hb : bs.length = tileBytes) : mended (s.dev.goodTile g n bs) :=
      have hmends := s.dev.goodTile_mends g hb
      ⟨hmends.poison, hmends.noTry, hmends.count⟩
    refine ⟨fun bs hb => runs_of_next (hexec none) ?replica, fun hb hc => runs_of_next (hexec none) ?unsourced,
      fun a c k src conn port hb hc hn => runs_of_next (hexec none) ?ask, fun data k hk =>
        ⟨fun bs hb => runs_of_next (hexec _) ?chunk, fun hb hn => runs_of_next (hexec _) ?last⟩⟩
    case replica =>
      rw [Dev.endTileAttempt_replica hb]
      exact hgood (Dev.replicaTile_length hb)
    case unsourced =>
      have hfail := s.dev.failTile_fails n
      have hnone : ∀ a c, s.dev.chunkOver n ≠ some (a, c) := by simp [hc]
      rw [Dev.endTileAttempt_no_replica hb, Dev.tryRefetch_of_no_source fun a c h => absurd h (hnone a c)]
      exact ⟨hfail.tried, hfail.left, hfail.memory.2, hfail.memory⟩
    case ask =>
      rw [Dev.endTileAttempt_no_replica hb, Dev.tryRefetch_of_attempt hc (by rw [hgran]; exact hn), hgran]
      exact ⟨Dev.refetchTry_noteTry _ _ _, rfl, rfl, rfl, rfl, rfl⟩
    case chunk =>
      rw [Dev.endTileAttempt_chunk hk hb]
      exact hgood (Dev.chunkTile_length hb)
    case last =>
      have hfail := s.dev.failTile_fails n
      rw [Dev.endTileAttempt_no_chunk hk hb, Dev.tryRefetch_of_no_source (by rw [hgran]; exact hn)]
      exact ⟨hfail.tried, hfail.left, hfail.noTry, hfail.memory.2, hfail.memory⟩

end Sys2Proof.Machine
end

section
/-! SUPPORT. Quotas, the stage cache, prefetch streams and the counts of the tier engine (R8, R166, R177, R183 to R187). -/

namespace Sys2Proof.Machine

open Sys2Proof.Safety

/-! ### Fields of a register after an access (R8) -/

/-- Two fields have no bit in common. -/
abbrev Field.Apart (f g : Field) : Prop := f.hi < g.lo ∨ g.hi < f.lo

/-- Fields that lie apart, each with its bits in order. -/
abbrev FieldsSound (l : List Field) : Prop := l.Pairwise Field.Apart ∧ ∀ f ∈ l, f.lo ≤ f.hi

/-- A value with those of its fields that c names replaced. -/
def putFields (c : Field → Bool) (n : Field → Nat) (l : List Field) (old : Nat) : Nat :=
  l.foldl (fun x f => if c f then putBits x f.hi f.lo (n f) else x) old

section
variable {c : Field → Bool} {n : Field → Nat} {l : List Field} {old : Nat} {f : Field}

theorem bits_putFields_apart (h : ∀ g ∈ l, g.lo ≤ g.hi ∧ g.Apart f) :
    bits (putFields c n l old) f.hi f.lo = bits old f.hi f.lo := by
  induction l generalizing old with
  | nil => rfl
  | cons g l ih =>
    obtain ⟨hlo, hap⟩ := h g (by simp)
    refine (ih fun k hk => h k (by simp [hk])).trans ?_
    dsimp only
    split
    · exact bits_putBits_other _ _ _ _ _ _ hlo hap
    · rfl

/-- Each field is replaced, or as it was. -/
theorem bits_putFields (hl : FieldsSound l) (hf : f ∈ l) :
    bits (putFields c n l old) f.hi f.lo = if c f then n f % 2 ^ (f.hi + 1 - f.lo) else bits old f.hi f.lo := by
  induction l generalizing old with
  | nil => cases hf
  | cons g l ih =>
    obtain ⟨hap, hlo⟩ := hl
    obtain ⟨hg, hap⟩ := List.pairwise_cons.mp hap
    have hlo' : ∀ k ∈ l, k.lo ≤ k.hi := fun k hk => hlo k (by simp [hk])
    rcases List.mem_cons.mp hf with rfl | hf'
    · refine (bits_putFields_apart fun k hk => ⟨hlo' k hk, (hg k hk).symm⟩).trans ?_
      dsimp only
      split
      · exact bits_putBits_same _ _ _ _ (hlo f (by simp))
      · rfl
    · refine (ih ⟨hap, hlo'⟩ hf').trans ?_
      split
      · rfl
      · dsimp only
        split
        · exact bits_putBits_other _ _ _ _ _ _ (hlo g (by simp)) (hg f hf')
        · rfl

end

/-- A full write stores the fields that can be written. -/
theorem Reg.bits_write (r : Reg) {f : Field} (hl : FieldsSound r.fields) (hf : f ∈ r.fields) (hacc : f.acc = .rw) (old v : Nat) :
    bits (r.write old .full v) f.hi f.lo = bits v f.hi f.lo := by
  refine (bits_putFields hl hf).trans ?_
  simp only [Field.within, Field.write, hacc, if_true]
  exact Nat.mod_eq_of_lt (bits_lt _ _ _)

/-- A full read clears the fields that a read clears. -/
theorem Reg.bits_afterRead_rc (r : Reg) {f : Field} (hl : FieldsSound r.fields) (hf : f ∈ r.fields) (hacc : f.acc = .rc)
    (old : Nat) : bits (r.afterRead old .full) f.hi f.lo = 0 := by
  refine (bits_putFields hl hf).trans ?_
  simp [Field.within, hacc]

/-- It leaves the others. -/
theorem Reg.bits_afterRead_other (r : Reg) {f : Field} (hl : FieldsSound r.fields) (hf : f ∈ r.fields) (hacc : f.acc ≠ .rc)
    (old : Nat) : bits (r.afterRead old .full) f.hi f.lo = bits old f.hi f.lo := by
  refine (bits_putFields hl hf).trans ?_
  simp [Field.within, hacc]

theorem Dev.fld_wr_same (d : Dev) (page off v hi lo : Nat) (h : hi < 64) : (d.wr page off v).fld page off hi lo = bits v hi lo := by
  rw [Dev.fld, Dev.rd_wr_same, bits_mod_word _ _ _ h]

theorem Dev.bit_wr_same (d : Dev) (page off v b : Nat) (h : b < 64) : (d.wr page off v).bit page off b = v.testBit b := by
  rw [Dev.bit_eq_testBit, Dev.rd_wr_same, Nat.testBit_mod_two_pow]
  simp [h]

/-! ### Quotas -/

theorem rTIER_PQ_sound : FieldsSound rTIER_PQ.fields := by decide

theorem bits_writePq (old v : Nat) : bits (rTIER_PQ.write old .full v) 15 0 = bits v 15 0 ∧
    bits (rTIER_PQ.write old .full v) 31 16 = bits v 31 16 ∧ bits (rTIER_PQ.write old .full v) 47 32 = bits v 47 32 :=
  ⟨rTIER_PQ.bits_write (f := ⟨"hbm", 15, 0, .rw, 0⟩) rTIER_PQ_sound (by decide) rfl old v,
    rTIER_PQ.bits_write (f := ⟨"slow", 31, 16, .rw, 0⟩) rTIER_PQ_sound (by decide) rfl old v,
    rTIER_PQ.bits_write (f := ⟨"stage", 47, 32, .rw, 0⟩) rTIER_PQ_sound (by decide) rfl old v⟩

/-- The three conditions of R177 on a value written to TIER_PQp. -/
def Dev.QuotaFits (d : Dev) (p v : Nat) : Prop :=
  d.hbmUse p - d.stageQuota p + bits v 47 32 ≤ bits v 15 0 ∧ d.slowUse p ≤ bits v 31 16 ∧ bits v 47 32 ≤ bits v 15 0

theorem Dev.quotaOk_write (d : Dev) (p old v : Nat) : d.quotaOk p (rTIER_PQ.write old .full v) = true ↔ d.QuotaFits p v := by
  obtain ⟨hhbm, hslow, hstage⟩ := bits_writePq old v
  simp only [Dev.quotaOk, Dev.QuotaFits, hhbm, hslow, hstage, Bool.and_eq_true, decide_eq_true_eq, and_assoc]

section
variable {s : State} {a : Access} {p : Fin 64} {v : Word}

theorem exec_tierPqWrite_of_fits (h : s.dev.writable a pTIER (rTIER_PQ.at p) false = true) (hw : a.width = .full)
    (hfit : s.dev.QuotaFits p v.toNat) : exec (.tierPqWrite a p v) s = .next (on s fun d =>
      (d.wr pTIER (rTIER_PQ.at p) (rTIER_PQ.write (d.rd pTIER (rTIER_PQ.at p)) .full v.toNat)).emit (.readback 0 false)) := by
  change execTierPqWrite a p v s = _
  simp only [execTierPqWrite, State.run, on, Dev.regWrite_writable _ h, hw, (s.dev.quotaOk_write p _ _).mpr hfit, if_true]

theorem exec_tierPqWrite_of_misfit (h : s.dev.writable a pTIER (rTIER_PQ.at p) false = true) (hw : a.width = .full)
    (hfit : ¬ s.dev.QuotaFits p v.toNat) : exec (.tierPqWrite a p v) s = .next (on s fun d =>
      (d.setBit pTIER (rTIER_PU.at p) 63 true).emit (.readback 0 false)) := by
  change execTierPqWrite a p v s = _
  simp only [execTierPqWrite, State.run, on, Dev.regWrite_writable _ h, hw, if_neg (mt (s.dev.quotaOk_write p _ _).mp hfit)]

end

/-! ### The stage cache -/

theorem NSet.length_add_le (s : NSet) (k : Nat) : (s.add k).length ≤ s.length + 1 := by
  induction s with
  | nil => simp [NSet.add]
  | cons j t ih =>
    simp only [NSet.add]
    split
    · simp
    · split
      · simp
      · simpa using ih

@[simp] theorem Dev.stageOf_setStage_same (d : Dev) (p : Nat) (l : NSet) : (d.setStage p l).stageOf p = l := by
  simp [Dev.stageOf, Dev.setStage]

theorem Dev.stageOf_setStage_other (d : Dev) {p q : Nat} (l : NSet) (h : q ≠ p) : (d.setStage p l).stageOf q = d.stageOf q := by
  simp [Dev.stageOf, Dev.setStage, Tab.get_set_other _ _ _ h]

theorem Upkeep.stageQuota {d e : Dev} (h : Upkeep d e) {p : Nat} (hp : p < 64) : e.stageQuota p = d.stageQuota p := by
  have hoff : rTIER_PQ.at p < 0x10000 ∧ rTIER_PQ.at p ≠ rTIER_STAT.off := by simp only [Reg.at, rTIER_PQ, rTIER_STAT]; omega
  rw [Dev.stageQuota, Dev.fld, h.rd _ hoff.1 hoff.2]
  rfl

/-- A frame given back goes to no stage cache that holds its quota. -/
theorem Dev.giveBack_stage_le {d : Dev} {p n : Nat} (slow : Bool) (f : Nat) (hq : d.stageQuota p = n)
    (h : (d.stageOf p).length ≤ n) : ((d.giveBack slow f).stageOf p).length ≤ n := by
  rcases d.giveBack_cases slow f with e | ⟨j, rest, -, e⟩ | ⟨q, hlt, e⟩ <;> rw [e]
  · cases slow <;> exact h
  · exact h
  · by_cases hpq : p = q
    · subst hpq
      rw [Dev.stageOf_setStage_same]
      exact (NSet.length_add_le _ _).trans (by omega)
    · rwa [Dev.stageOf_setStage_other _ _ hpq]

theorem Dev.each_giveBack_stage_le {p n : Nat} (hp : p < 64) (l : List Nat) {d : Dev} (hq : d.stageQuota p = n)
    (h : (d.stageOf p).length ≤ n) : ((d.each l fun f e => e.giveBack false f).stageOf p).length ≤ n := by
  induction l generalizing d with
  | nil => exact h
  | cons f l ih => exact ih (((Upkeep.giveBack d false f).stageQuota hp).trans hq) (Dev.giveBack_stage_le false f hq h)

theorem Upkeep.shrinkStage (d : Dev) (p n : Nat) : Upkeep d (d.shrinkStage p n) :=
  ((Upkeep.setStage d p _).trans (.unstage _ _)).trans (.each (fun f e => .giveBack e false f) _)

theorem Dev.shrinkStage_le {d : Dev} {p : Nat} (hp : p < 64) :
    ((d.shrinkStage p (d.stageQuota p)).stageOf p).length ≤ d.stageQuota p := by
  refine Dev.each_giveBack_stage_le hp _ (((Upkeep.setStage d p _).trans (.unstage _ _)).stageQuota hp) ?_
  show ((d.setStage p _).stageOf p).length ≤ _
  rw [Dev.stageOf_setStage_same]
  exact List.length_take_le _ _

theorem Upkeep.growStage (d : Dev) (p n : Nat) : Upkeep d (d.growStage p n) := by
  induction n generalizing d with
  | zero => exact .refl d
  | succ n ih =>
    unfold Dev.growStage
    split
    · exact ((Upkeep.useFrame d _ _).trans (.setStage _ p _)).trans (ih _)
    · exact .refl d

theorem Dev.growStage_le (d : Dev) (p n : Nat) : ((d.growStage p n).stageOf p).length ≤ (d.stageOf p).length + n := by
  induction n generalizing d with
  | zero => exact Nat.le_refl _
  | succ n ih =>
    unfold Dev.growStage
    split
    · next f _ =>
      have hadd := NSet.length_add_le (d.stageOf p) f
      refine (ih _).trans ?_
      rw [Dev.stageOf_setStage_same]
      omega
    · omega

/-- The stage cache brought to its quota as far as frames are free (R177). -/
def Dev.adjustStage (d : Dev) (p : Nat) : Dev :=
  if d.stageQuota p < (d.stageOf p).length then d.shrinkStage p (d.stageQuota p)
  else d.growStage p (d.stageQuota p - (d.stageOf p).length)

theorem exec_stageCacheAdjust_of_live {s : State} {p : Fin 64} (hl : s.dev.live = true) :
    exec (.stageCacheAdjust p) s = .next (on s fun d => d.adjustStage p) := by
  change execStageCacheAdjust p s = _
  dsimp only [execStageCacheAdjust]
  exact run_when_true hl rfl

theorem Upkeep.adjustStage (d : Dev) (p : Nat) : Upkeep d (d.adjustStage p) := by
  unfold Dev.adjustStage
  split
  · exact .shrinkStage d p _
  · exact .growStage d p _

theorem Dev.adjustStage_le (d : Dev) {p : Nat} (hp : p < 64) : ((d.adjustStage p).stageOf p).length ≤ d.stageQuota p := by
  unfold Dev.adjustStage
  split
  · exact Dev.shrinkStage_le hp
  · have hgrow := d.growStage_le p (d.stageQuota p - (d.stageOf p).length)
    omega

/-! ### Staging -/

theorem Upkeep.enterRefetch (d : Dev) (g : Nat) : Upkeep d (d.enterRefetch g) := by
  unfold Dev.enterRefetch
  dsimp only
  split
  · exact .refl d
  split
  · exact .refl d
  split
  · exact .leavePoisoned d _
  split
  · exact (Upkeep.setGran d g _).trans (.phStart _ _ _)
  split
  · exact (((Upkeep.setGran d g _).trans (.setMig _ g _)).trans (.giveBack _ _ _)).trans (.phStart _ _ _)
  · exact .refl d

theorem Upkeep.refetchRange (d : Dev) (a n : Nat) : Upkeep d (d.refetchRange a n) := by
  unfold Dev.refetchRange
  split
  · exact .each (fun g e => .enterRefetch e g) d
  · exact .refl d

theorem Upkeep.askTables (d : Dev) (p st : Nat) : Upkeep d (d.askTables p st) :=
  .each (fun (r : Nat × Nat) e => (Upkeep.snoop e r.1 r.2).trans (.refetchRange _ r.1 r.2)) d

theorem Upkeep.evictFor (d : Dev) (p n : Nat) : Upkeep d (d.evictFor p n) := by
  unfold Dev.evictFor
  dsimp only
  split
  · exact .refl d
  · exact .unstage d _

theorem Upkeep.stageTile (d : Dev) (p t : Nat) : Upkeep d (d.stageTile p t) := by
  unfold Dev.stageTile
  split
  · exact ⟨rfl, rfl, fun _ _ _ => rfl⟩
  · exact .refl d

/-- Staging is upkeep (R184). -/
theorem Upkeep.stageAhead (d : Dev) (p st : Nat) : Upkeep d (d.stageAhead p st) :=
  ((Upkeep.askTables d p st).trans (.evictFor _ _ _)).trans (.each (fun t e => .stageTile e p t) _)

/-! ### Streams -/

section
variable {d e : Dev} {p st : Nat}

theorem strmCtl_off (hp : p < 64) (hs : st < 4) : strmCtl p st < 0x10000 ∧ strmCtl p st ≠ rTIER_STAT.off := by
  simp only [strmCtl, strmIx, Reg.at, rSTRM_CTL, rTIER_STAT]; omega

theorem strmSts_off (hp : p < 64) (hs : st < 4) : strmSts p st < 0x10000 ∧ strmSts p st ≠ rTIER_STAT.off := by
  simp only [strmSts, strmIx, Reg.at, rSTRM_STS, rTIER_STAT]; omega

theorem regKey_strmCtl_ne (hp : p < 64) (hs : st < 4) : regKey pTIER (strmCtl p st) ≠ regKey pTIER (strmSts p st) :=
  regKey_ne (strmCtl_off hp hs).1 (strmSts_off hp hs).1
    (.inr (by simp only [strmCtl, strmSts, Reg.at, rSTRM_CTL, rSTRM_STS]; omega))

theorem Upkeep.stream (h : Upkeep d e) (p st : Nat) : e.stream p st = d.stream p st := by rw [Dev.stream, Dev.stream, h.streams]

theorem Upkeep.strmOn (h : Upkeep d e) (hp : p < 64) (hs : st < 4) : e.strmOn p st = d.strmOn p st := by
  rw [Dev.strmOn, Dev.bit, Dev.fld, h.rd _ (strmCtl_off hp hs).1 (strmCtl_off hp hs).2]
  rfl

theorem Upkeep.strmD (h : Upkeep d e) (hp : p < 64) (hs : st < 4) : e.strmD p st = d.strmD p st := by
  rw [Dev.strmD, Dev.fld, h.rd _ (strmSts_off hp hs).1 (strmSts_off hp hs).2]
  rfl

@[simp] theorem Dev.stream_setStream (d : Dev) (p st : Nat) (x : Stream) : (d.setStream p st x).stream p st = x := by
  simp [Dev.stream, Dev.setStream]

@[simp] theorem Dev.strmOn_emit (d : Dev) (o : Out) (p st : Nat) : (d.emit o).strmOn p st = d.strmOn p st := rfl
@[simp] theorem Dev.strmD_emit (d : Dev) (o : Out) (p st : Nat) : (d.emit o).strmD p st = d.strmD p st := rfl
@[simp] theorem Dev.stream_emit (d : Dev) (o : Out) (p st : Nat) : (d.emit o).stream p st = d.stream p st := rfl

/-- A stream set: its control register, D, and where it stands. -/
def Dev.setStrm (d : Dev) (p st ctl depth : Nat) (x : Stream) : Dev :=
  ((d.wr pTIER (strmCtl p st) ctl).setFld pTIER (strmSts p st) 3 0 depth).setStream p st x

theorem Dev.strmOn_setStrm (hp : p < 64) (hs : st < 4) (ctl depth : Nat) (x : Stream) :
    (d.setStrm p st ctl depth x).strmOn p st = ctl.testBit 63 :=
  (Dev.bit_setFld_other _ _ _ _ _ _ _ _ _ (regKey_strmCtl_ne hp hs)).trans (Dev.bit_wr_same _ _ _ _ _ (by decide))

theorem Dev.strmD_setStrm (ctl depth : Nat) (x : Stream) : (d.setStrm p st ctl depth x).strmD p st = depth % 2 ^ 4 :=
  Dev.fld_setFld_same _ _ _ _ _ _ (by decide) (by decide)

theorem Dev.stream_setStrm (ctl depth : Nat) (x : Stream) : (d.setStrm p st ctl depth x).stream p st = x :=
  Dev.stream_setStream _ _ _ _

end

/-- A message sent outside leaves the memory that there was. -/
theorem sameMemory_emit {d e : Dev} (h : SameMemory d e) (o : Out) : SameMemory d (e.emit o) := h

/-! ### STRM_CTL -/

theorem rSTRM_CTL_sound : FieldsSound rSTRM_CTL.fields := by decide

theorem bits_writeCtl (old v : Nat) : bits (rSTRM_CTL.write old .full v) 63 63 = bits v 63 63 ∧
    bits (rSTRM_CTL.write old .full v) 47 44 = bits v 47 44 ∧ bits (rSTRM_CTL.write old .full v) 13 0 = bits v 13 0 :=
  ⟨rSTRM_CTL.bits_write (f := ⟨"en", 63, 63, .rw, 0⟩) rSTRM_CTL_sound (by decide) rfl old v,
    rSTRM_CTL.bits_write (f := ⟨"dinit", 47, 44, .rw, 1⟩) rSTRM_CTL_sound (by decide) rfl old v,
    rSTRM_CTL.bits_write (f := ⟨"ember", 13, 0, .rw, 0⟩) rSTRM_CTL_sound (by decide) rfl old v⟩

theorem testBit_of_bits {v w b : Nat} (h : bits v b b = bits w b b) : v.testBit b = w.testBit b := by
  have hbit (x : Nat) : (bits x b b).testBit 0 = x.testBit b := by rw [testBit_bits]; simp
  rw [← hbit v, h, hbit w]

theorem testBit_writeCtl (old v : Nat) : (rSTRM_CTL.write old .full v).testBit 63 = v.testBit 63 :=
  testBit_of_bits (bits_writeCtl old v).1

/-- A stream enabled in order: D takes dinit, and it stands at the counter of its ember. -/
def Dev.enableStrm (d : Dev) (p st ctl : Nat) : Dev := d.setStrm p st ctl (bits ctl 47 44) { c := d.emberValue (bits ctl 13 0) }

section
variable {s : State} {a : Access} {p : Fin 64} {st : Fin 4} {v : Word}

/-- The value that a full write of the stream's control register stores. -/
def Dev.newCtl (d : Dev) (p st : Nat) (v : Word) : Nat := rSTRM_CTL.write (d.rd pTIER (strmCtl p st)) .full v.toNat

theorem exec_strmCtlWrite_disable (h : s.dev.writable a pTIER (strmCtl p st) false = true) (hw : a.width = .full)
    (hv : v.toNat.testBit 63 = false) : exec (.strmCtlWrite a p st v) s =
      .next (on s fun d => (d.setStrm p st (d.newCtl p st v) 0 {}).emit (.readback 0 false)) := by
  change execStrmCtlWrite a p st v s = _
  simp only [execStrmCtlWrite, State.run, on, Dev.regWrite_writable _ h, hw, testBit_writeCtl, hv]
  rfl

theorem exec_strmCtlWrite_refused (h : s.dev.writable a pTIER (strmCtl p st) false = true) (hw : a.width = .full)
    (hv : v.toNat.testBit 63 = true) (hok : s.dev.strmOk p (s.dev.newCtl p st v) = false) : exec (.strmCtlWrite a p st v) s =
      .next (on s fun d => (d.setStrm p st (putBits (d.newCtl p st v) 63 63 0) 0 {}).emit (.readback 0 false)) := by
  change execStrmCtlWrite a p st v s = _
  rw [Dev.newCtl] at hok
  simp only [execStrmCtlWrite, State.run, on, Dev.regWrite_writable _ h, hw, testBit_writeCtl, hv, hok, Access.reaches]
  rfl

theorem exec_strmCtlWrite_enable (h : s.dev.writable a pTIER (strmCtl p st) false = true) (hw : a.width = .full)
    (hv : v.toNat.testBit 63 = true) (hok : s.dev.strmOk p (s.dev.newCtl p st v) = true) : exec (.strmCtlWrite a p st v) s =
      .next (on s fun d => ((d.enableStrm p st (d.newCtl p st v)).stageAhead p st).emit (.readback 0 false)) := by
  change execStrmCtlWrite a p st v s = _
  rw [Dev.newCtl] at hok
  simp only [execStrmCtlWrite, State.run, on, Dev.regWrite_writable _ h, hw, testBit_writeCtl, hv, hok, Access.reaches]
  rfl

end

/-! ### A stream follows its ember -/

theorem Dev.cleanLayers_sameMemory (d : Dev) (p st n : Nat) : SameMemory d (d.cleanLayers p st n) := by
  induction n generalizing d with
  | zero => exact ⟨rfl, rfl⟩
  | succ n ih =>
    have hstep (e : Dev) (he : SameMemory d e) : SameMemory d (e.cleanLayers p st n) :=
      ⟨(ih e).1.trans he.1, (ih e).2.trans he.2⟩
    refine hstep _ ?_
    split
    · exact ⟨rfl, rfl⟩
    · split <;> exact ⟨rfl, rfl⟩

theorem Dev.reachLayer_stream (d : Dev) (p st c : Nat) : ((d.reachLayer p st c).stream p st).c = c := by
  rw [Dev.reachLayer, (Upkeep.stageAhead _ p st).stream, Dev.stream_setStream]

theorem Dev.reachLayer_sameMemory (d : Dev) (p st c : Nat) : SameMemory d (d.reachLayer p st c) := by
  have hclean := d.cleanLayers_sameMemory p st (min (c - (d.stream p st).c) 4096)
  have hstage := (Upkeep.stageAhead (Dev.setStream (d.cleanLayers p st (min (c - (d.stream p st).c) 4096)) p st
    { (d.cleanLayers p st (min (c - (d.stream p st).c) 4096)).stream p st with c := c }) p st).sameMemory
  exact ⟨hstage.1.trans hclean.1, hstage.2.trans hclean.2⟩

theorem exec_streamAdvance_of_moved {s : State} {p : Fin 64} {st : Fin 4} (hl : s.dev.live = true) (hon : s.dev.strmOn p st = true)
    (hc : s.dev.emberValue (s.dev.fld pTIER (strmCtl p st) 13 0) ≠ (s.dev.stream p st).c) : exec (.streamAdvance p st) s =
      .next (on s fun d => d.reachLayer p st (d.emberValue (d.fld pTIER (strmCtl p st) 13 0))) := by
  change execStreamAdvance p st s = _
  dsimp only [execStreamAdvance]
  exact run_when_true hl (by simp [hon, hc])

/-! ### A staging read that is done -/

/-- The copies of a tile are valid. -/
def Dev.stagedDone (d : Dev) (t : Nat) : Dev :=
  { d with tier := { d.tier with staged := d.tier.staged.map fun x => if x.1 == t then (x.1, { x.2 with done := true }) else x } }

theorem exec_stagingReadDone_of_staged {s : State} {p : Fin 64} {t : Nat} (hl : s.dev.live = true)
    (ht : (t, (⟨p, false⟩ : Staged)) ∈ s.dev.tier.staged) :
    exec (.stagingReadDone p t) s = .next (on s fun d => d.stagedDone t) := by
  change execStagingReadDone p t s = _
  dsimp only [execStagingReadDone]
  exact run_when_true hl (List.any_eq_true.mpr ⟨_, ht, by simp⟩)

theorem Dev.stagedDone_done {d : Dev} {t : Nat} {y : Staged} (h : (t, y) ∈ (d.stagedDone t).tier.staged) : y.done = true := by
  obtain ⟨x, -, hx⟩ := List.mem_map.mp h
  split at hx
  · obtain ⟨-, rfl⟩ := Prod.mk.inj hx
    rfl
  · next hne => exact absurd (by rw [hx]; simp) hne

/-! ### Counts that a read clears -/

theorem exec_strmStsRead_of_writable {s : State} {a : Access} {p : Fin 64} {st : Fin 4}
    (h : s.dev.writable a pTIER (strmSts p st) false = true) : exec (.strmStsRead a p st) s = .next (on s fun d =>
      (d.wr pTIER (strmSts p st) (rSTRM_STS.afterRead (d.rd pTIER (strmSts p st)) a.width)).emit
        (.readback (BitVec.ofNat 64 (a.width.view (d.rd pTIER (strmSts p st)))) false)) :=
  run_regReadOf (r := rSTRM_STS) (fun d => d.rd pTIER (strmSts p st)) (fun _ e => e) h

theorem exec_tierStatRead_of_writable {s : State} {a : Access} (h : s.dev.writable a pTIER rTIER_STAT.off false = true) :
    exec (.tierStatRead a) s = .next (on s fun d =>
      (d.wr pTIER rTIER_STAT.off (rTIER_STAT.afterRead (d.rd pTIER rTIER_STAT.off) a.width)).emit
        (.readback (BitVec.ofNat 64 (a.width.view (d.rd pTIER rTIER_STAT.off))) false)) :=
  run_regReadOf (r := rTIER_STAT) (fun d => d.rd pTIER rTIER_STAT.off) (fun _ e => e) h

theorem rSTRM_STS_sound : FieldsSound rSTRM_STS.fields := by decide

theorem rTIER_STAT_sound : FieldsSound rTIER_STAT.fields := by decide

/-- Every bit of TIER_STAT belongs to a count that a read clears. -/
theorem afterRead_tierStat (old : Nat) : rTIER_STAT.afterRead old .full % 2 ^ 64 = 0 := by
  have hclear {f : Field} (hf : f ∈ rTIER_STAT.fields) (hacc : f.acc = .rc) :=
    rTIER_STAT.bits_afterRead_rc rTIER_STAT_sound hf hacc old
  have h1 := hclear (f := ⟨"migrations", 63, 48, .rc, 0⟩) (by decide) rfl
  have h2 := hclear (f := ⟨"abandoned", 47, 40, .rc, 0⟩) (by decide) rfl
  have h3 := hclear (f := ⟨"refetched", 39, 24, .rc, 0⟩) (by decide) rfl
  have h4 := hclear (f := ⟨"shadow_tld", 23, 8, .rc, 0⟩) (by decide) rfl
  have h5 := hclear (f := ⟨"unrecovered", 7, 0, .rc, 0⟩) (by decide) rfl
  simp only [bits, Nat.shiftRight_eq_div_pow] at h1 h2 h3 h4 h5
  omega

/-- Settles O21: quotas and streams are register writes with staging behind them, which is upkeep, and a read clears its counts. -/
theorem tierQuotasAndStreamsComplete : Obligations.TierQuotasAndStreamsComplete := by
  intro a p v s q
  refine ⟨fun hw hf => ?quota, fun hl => ?stage, fun st hw hf => ?stream, fun st hl hon hc => ?advance, fun t hl ht => ?staged,
    fun st hw hf => ?strmSts, fun hw hf => ?tierStat⟩
  case quota =>
    obtain ⟨hhbm, hslow, hstage⟩ := bits_writePq (s.dev.rd pTIER q) v.toNat
    refine ⟨fun hfit => runs_of_next (exec_tierPqWrite_of_fits hw hf hfit) ⟨rfl, ?_, ?_, ?_⟩,
      fun hfit => exec_tierPqWrite_of_misfit hw hf hfit⟩
    · exact (Dev.fld_wr_same _ _ _ _ _ _ (by decide)).trans hhbm
    · exact (Dev.fld_wr_same _ _ _ _ _ _ (by decide)).trans hslow
    · exact (Dev.fld_wr_same _ _ _ _ _ _ (by decide)).trans hstage
  case stage =>
    have hkeep := Upkeep.adjustStage s.dev p
    exact runs_of_next (exec_stageCacheAdjust_of_live hl) ⟨s.dev.adjustStage_le p.isLt, hkeep.sameMemory, hkeep.cores⟩
  case stream =>
    intro new
    refine ⟨fun hv => runs_of_next (exec_strmCtlWrite_disable hw hf hv) ?disable,
      fun hv hok => runs_of_next (exec_strmCtlWrite_refused hw hf hv hok) ?refused,
      fun hv hok => runs_of_next (exec_strmCtlWrite_enable hw hf hv hok) ?enable⟩
    case disable =>
      refine ⟨?_, ?_, rfl, rfl⟩
      · rw [Dev.strmOn_emit, Dev.strmOn_setStrm p.isLt st.isLt, Dev.newCtl, testBit_writeCtl, hv]
      · rw [Dev.strmD_emit, Dev.strmD_setStrm, Nat.zero_mod]
    case refused =>
      refine ⟨?_, rfl, rfl⟩
      rw [Dev.strmOn_emit, Dev.strmOn_setStrm p.isLt st.isLt, testBit_putBits _ _ _ _ _ (by decide)]
      rfl
    case enable =>
      obtain ⟨-, hdepth, hember⟩ := bits_writeCtl (s.dev.rd pTIER (strmCtl p st)) v.toNat
      have hkeep := Upkeep.stageAhead (s.dev.enableStrm p st (s.dev.newCtl p st v)) p st
      refine ⟨?_, ?_, ?_, sameMemory_emit ⟨hkeep.mem, hkeep.poison⟩ _⟩
      · rw [Dev.strmOn_emit, hkeep.strmOn p.isLt st.isLt, Dev.enableStrm, Dev.strmOn_setStrm p.isLt st.isLt, Dev.newCtl,
          testBit_writeCtl, hv]
      · rw [Dev.strmD_emit, hkeep.strmD p.isLt st.isLt, Dev.enableStrm, Dev.strmD_setStrm, Dev.newCtl, hdepth]
        exact Nat.mod_eq_of_lt (bits_lt _ _ _)
      · rw [Dev.stream_emit, hkeep.stream, Dev.enableStrm, Dev.stream_setStrm, Dev.newCtl, hember]
  case advance =>
    exact runs_of_next (exec_streamAdvance_of_moved hl hon hc) ⟨Dev.reachLayer_stream _ _ _ _, Dev.reachLayer_sameMemory _ _ _ _⟩
  case staged => exact runs_of_next (exec_stagingReadDone_of_staged hl ht) ⟨rfl, fun y hy => Dev.stagedDone_done hy⟩
  case strmSts =>
    refine runs_of_next (exec_strmStsRead_of_writable hw) ⟨rfl, ?_, ?_, ?_, ?_⟩ <;> rw [hf]
    · exact (Dev.fld_wr_same _ _ _ _ _ _ (by decide)).trans
        (rSTRM_STS.bits_afterRead_rc (f := ⟨"direct_tiles", 63, 32, .rc, 0⟩) rSTRM_STS_sound (by decide) rfl _)
    · exact (Dev.fld_wr_same _ _ _ _ _ _ (by decide)).trans
        (rSTRM_STS.bits_afterRead_rc (f := ⟨"late_layers", 31, 16, .rc, 0⟩) rSTRM_STS_sound (by decide) rfl _)
    · exact (Dev.fld_wr_same _ _ _ _ _ _ (by decide)).trans
        (rSTRM_STS.bits_afterRead_other (f := ⟨"d", 3, 0, .ro, 0⟩) rSTRM_STS_sound (by decide) (by decide) _)
    · rfl
  case tierStat =>
    refine runs_of_next (exec_tierStatRead_of_writable hw) ⟨rfl, ?_, ?_⟩ <;> rw [hf]
    · exact (Dev.rd_wr_same _ _ _ _).trans (afterRead_tierStat _)
    · rfl

end Sys2Proof.Machine
end

section
/-! SUPPORT. The registers of the cache manager (R8, R213, R214). -/

namespace Sys2Proof.Machine

open Sys2Proof.Safety

/-- A write that reaches its register takes its effect. -/
theorem run_regWrite {s : State} {a : Access} {page off : Nat} {action : Bool} (eff : Dev → Dev → Dev)
    (h : s.dev.writable a page off action = true) : s.run (fun d => d.regWrite a page off action (eff d)) =
      .next (on s fun d => (eff d d).emit (.readback 0 false)) := by
  rw [State.run, Dev.regWrite_writable _ h, on]

@[simp] theorem Dev.emit_cqPi (d : Dev) (o : Out) (p : Nat) : (d.emit o).cqPi p = d.cqPi p := rfl
@[simp] theorem Dev.emit_cqCi (d : Dev) (o : Out) (p : Nat) : (d.emit o).cqCi p = d.cqCi p := rfl
@[simp] theorem Dev.emit_cOn (d : Dev) (o : Out) (p : Nat) : (d.emit o).cOn p = d.cOn p := rfl
@[simp] theorem Dev.emit_cRsv (d : Dev) (o : Out) (p : Nat) : (d.emit o).cRsv p = d.cRsv p := rfl

/-! ### The producer index -/

/-- The effect of a write of the producer index. -/
def Dev.takePi (d : Dev) (p pi : Nat) : Dev :=
  Dev.stampCq (d.setFld (pCACHE p) rCACHE_CQ_IDX.off 15 0 pi) p (d.cqPi p) pi

theorem exec_cacheCqPiWrite_of_writable {s : State} {a : Access} {p : Fin 64} {v : Word}
    (h : s.dev.writable a (pCACHE p) rCACHE_CQ_IDX.off true = true) : exec (.cacheCqPiWrite a p v) s =
      .next (on s fun d => (d.takePi p (bits v.toNat 15 0 % d.cqSize p)).emit (.readback 0 false)) :=
  run_regWrite (fun _ e => e.takePi p (bits v.toNat 15 0 % e.cqSize p)) h

theorem Dev.takePi_cqPi (d : Dev) (p : Nat) {pi : Nat} (h : pi < 2 ^ 16) : (d.takePi p pi).cqPi p = pi :=
  (Dev.fld_setFld_same d _ _ 15 0 pi (by decide) (by decide)).trans (Nat.mod_eq_of_lt h)

theorem Dev.takePi_cqCi (d : Dev) (p pi : Nat) : (d.takePi p pi).cqCi p = d.cqCi p :=
  Dev.fld_setFld_field d _ _ 15 0 pi 47 32 (by decide) (by decide) (by decide)

/-! ### Enabling and disabling -/

/-- The cache manager enabled: no page, no copy, no ship (R214). -/
def Dev.openCache (d : Dev) (p : Nat) : Dev :=
  ((d.setPart p { d.part p with pool := [], bankUsed := [], awaiting := [], copying := [], ships := [] }).setFld (pCACHE p)
    rCACHE_STS.off 39 0 0).cacheSync p

/-- What a value of CACHE_CTL that is stored leads to. -/
def Dev.takeCacheCtl (d e : Dev) (p : Nat) : Dev :=
  if d.cOn p && !e.cOn p then
    if (List.range (d.nseq p)).all fun q => d.seqState p q == sqFree then e else d
  else if !d.cOn p && e.cOn p then
    if e.cacheSound p then e.openCache p else e.setBit (pCACHE p) rCACHE_CTL.off 63 false
  else e

theorem exec_cacheCtlWrite_of_writable {s : State} {a : Access} {p : Fin 64} {v : Word}
    (h : s.dev.writable a (pCACHE p) rCACHE_CTL.off false = true) : exec (.cacheCtlWrite a p v) s =
      .next (on s fun d => (d.takeCacheCtl (d.store8 a (pCACHE p) rCACHE_CTL.off rCACHE_CTL v) p).emit (.readback 0 false)) :=
  run_regWrite (fun _ e => e.takeCacheCtl (e.store8 a (pCACHE p) rCACHE_CTL.off rCACHE_CTL v) p) h

section
variable {d e : Dev} {p : Nat}

theorem Dev.takeCacheCtl_sound (hd : d.cOn p = false) (he : e.cOn p = true) (hs : e.cacheSound p = true) :
    d.takeCacheCtl e p = e.openCache p := by simp [Dev.takeCacheCtl, hd, he, hs]

theorem Dev.takeCacheCtl_unsound (hd : d.cOn p = false) (he : e.cOn p = true) (hs : e.cacheSound p = false) :
    d.takeCacheCtl e p = e.setBit (pCACHE p) rCACHE_CTL.off 63 false := by simp [Dev.takeCacheCtl, hd, he, hs]

theorem Dev.takeCacheCtl_all_free (hd : d.cOn p = true) (he : e.cOn p = false)
    (hf : ∀ q, q < d.nseq p → d.seqState p q = sqFree) : d.takeCacheCtl e p = e := by
  simp [Dev.takeCacheCtl, hd, he]
  intro q hq hne
  exact absurd (hf q hq) hne

theorem Dev.takeCacheCtl_in_use (hd : d.cOn p = true) (he : e.cOn p = false)
    (hf : ∃ q, q < d.nseq p ∧ d.seqState p q ≠ sqFree) : d.takeCacheCtl e p = d := by
  simp [Dev.takeCacheCtl, hd, he]
  intro hall
  obtain ⟨q, hq, hne⟩ := hf
  exact absurd (hall q hq) hne

end

/-- Registers of one page at different offsets. -/
theorem regKey_off_ne {page off o : Nat} (h : o ≠ off) : regKey page o ≠ regKey page off := by
  simp only [regKey]; omega

/-- The counts of free pages leave every register of the page but their own. -/
theorem Dev.cacheSync_rd (d : Dev) (p : Nat) {off : Nat} (hs : off ≠ rCACHE_STS.off) (hb : off ≠ rCACHE_BSTS.off) :
    (d.cacheSync p).rd (pCACHE p) off = d.rd (pCACHE p) off :=
  (Dev.rd_setFld_other _ _ _ _ _ _ _ _ (regKey_off_ne hb)).trans (Dev.rd_setFld_other _ _ _ _ _ _ _ _ (regKey_off_ne hs))

theorem Dev.openCache_cOn (d : Dev) (p : Nat) : (d.openCache p).cOn p = d.cOn p := by
  have hrd : (d.openCache p).rd (pCACHE p) rCACHE_CTL.off = d.rd (pCACHE p) rCACHE_CTL.off :=
    (Dev.cacheSync_rd _ p (by decide) (by decide)).trans (Dev.rd_setFld_other _ _ _ _ _ _ _ _ (regKey_off_ne (by decide)))
  simp only [Dev.cOn, Dev.bit, Dev.fld, hrd]

theorem Dev.openCache_part (d : Dev) (p : Nat) : (d.openCache p).part p =
    { d.part p with pool := [], bankUsed := [], awaiting := [], copying := [], ships := [] } :=
  Dev.part_setPart_same d p _

/-- With no page in use none is reserved. -/
theorem Dev.openCache_cRsv (d : Dev) (p : Nat) : (d.openCache p).cRsv p = 0 := by
  have hzero (e : Dev) : (e.setFld (pCACHE p) rCACHE_STS.off 39 0 0).fld (pCACHE p) rCACHE_STS.off 39 16 = 0 := by
    have h := Dev.fld_setFld_same e (pCACHE p) rCACHE_STS.off 39 0 0 (by decide) (by decide)
    simp only [Dev.fld, bits, Nat.shiftRight_eq_div_pow] at h ⊢
    omega
  refine (Dev.fld_setFld_other _ _ _ _ _ _ _ _ _ _ (regKey_off_ne (by decide))).trans ?_
  exact (Dev.fld_setFld_field _ _ _ _ _ _ _ _ (by decide) (by decide) (by decide)).trans (hzero _)

/-! ### Its counts -/

theorem rCACHE_STAT_sound : FieldsSound rCACHE_STAT.fields := by decide

/-- Every bit of CACHE_STAT belongs to a count that a read clears. -/
theorem afterRead_cacheStat (old : Nat) : rCACHE_STAT.afterRead old .full % 2 ^ 64 = 0 := by
  have hclear {f : Field} (hf : f ∈ rCACHE_STAT.fields) (hacc : f.acc = .rc) :=
    rCACHE_STAT.bits_afterRead_rc rCACHE_STAT_sound hf hacc old
  have h1 := hclear (f := ⟨"banked", 63, 48, .rc, 0⟩) (by decide) rfl
  have h2 := hclear (f := ⟨"expired", 47, 32, .rc, 0⟩) (by decide) rfl
  have h3 := hclear (f := ⟨"suspended", 31, 16, .rc, 0⟩) (by decide) rfl
  have h4 := hclear (f := ⟨"shipped", 15, 0, .rc, 0⟩) (by decide) rfl
  simp only [bits, Nat.shiftRight_eq_div_pow] at h1 h2 h3 h4
  omega

theorem exec_cacheStatRead_of_writable {s : State} {a : Access} {p : Fin 64}
    (h : s.dev.writable a (pCACHE p) rCACHE_STAT.off false = true) : exec (.cacheStatRead a p) s = .next (on s fun d =>
      (d.wr (pCACHE p) rCACHE_STAT.off (rCACHE_STAT.afterRead (d.rd (pCACHE p) rCACHE_STAT.off) a.width)).emit
        (.readback (BitVec.ofNat 64 (a.width.view (d.rd (pCACHE p) rCACHE_STAT.off))) false)) :=
  run_regReadOf (r := rCACHE_STAT) (fun d => d.rd (pCACHE p) rCACHE_STAT.off) (fun _ e => e) h

/-- Settles O25: each write is one update of the registers and of the partition's pages, and a read clears its counts. -/
theorem cacheRegistersComplete : Obligations.CacheRegistersComplete := by
  intro a p v s e0
  refine ⟨fun hw => ?producer, fun hw => ?control, fun hw hf => ?counts⟩
  case producer =>
    have hlt : bits v.toNat 15 0 % s.dev.cqSize p < 2 ^ 16 := (Nat.mod_le _ _).trans_lt (bits_lt _ _ _)
    refine runs_of_next (exec_cacheCqPiWrite_of_writable hw) ?_
    rw [Dev.emit_cqPi, Dev.emit_cqCi]
    exact ⟨s.dev.takePi_cqPi p hlt, s.dev.takePi_cqCi p _, ⟨rfl, rfl⟩, rfl⟩
  case control =>
    have hexec := exec_cacheCtlWrite_of_writable (v := v) hw
    refine ⟨fun hd he hs => runs_of_next hexec ?enable, fun hd he hs => runs_of_next hexec ?unsound,
      fun hd he hf => runs_of_next hexec ?disable, fun hd he hf => ?refuse⟩
    case enable =>
      rw [Dev.takeCacheCtl_sound hd he hs, Dev.emit_cOn, Dev.emit_part, Dev.emit_cRsv, Dev.openCache_cOn, Dev.openCache_part,
        Dev.openCache_cRsv]
      exact ⟨he, rfl, rfl, rfl, rfl, rfl⟩
    case unsound =>
      rw [Dev.takeCacheCtl_unsound hd he hs, Dev.emit_cOn]
      exact ⟨Dev.bit_setBit_same e0 _ _ 63 false (by decide), rfl⟩
    case disable =>
      rw [Dev.takeCacheCtl_all_free hd he hf, Dev.emit_cOn]
      exact ⟨he, rfl⟩
    case refuse =>
      refine hexec.trans ?_
      rw [on, Dev.takeCacheCtl_in_use hd he hf]
      rfl
  case counts =>
    refine runs_of_next (exec_cacheStatRead_of_writable hw) ⟨rfl, ?_, ?_⟩ <;> rw [hf]
    · exact (Dev.rd_wr_same _ _ _ _).trans (afterRead_cacheStat _)
    · rfl

end Sys2Proof.Machine
end

section
/-! SUPPORT. What the cache manager of a partition sees of the device: its registers, the accumulate windows that its own writes
could meet, memory with the writes that are held while a granule switches (R171), and the state of the partition. Upkeep, what an
engine reads and what it sends leave all of it (R178 to R187, R320, R346). -/

namespace Sys2Proof.Machine

/-! ### Memory as an engine sees it -/

/-- Writes to the granule are held (R171). -/
def Dev.switches (d : Dev) (g : Nat) : Bool := (d.gran g).valid && (d.gran g).state == stSwitching

/-- A byte as an engine sees it: the writes that are held included (R171). -/
def Dev.seen (d : Dev) (x : Nat) : Byte :=
  let b := Tab.get (fun _ => 0) d.mem x
  if d.switches (x / granBytes) then (heldByte (d.mig (x / granBytes)).held x).getD b else b

theorem Dev.seen_of_open {d : Dev} {x : Nat} (h : d.switches (x / granBytes) = false) :
    d.seen x = Tab.get (fun _ => 0) d.mem x := by simp [Dev.seen, h]

theorem Dev.seen_of_switching {d : Dev} {x : Nat} (h : d.switches (x / granBytes) = true) :
    d.seen x = (heldByte (d.mig (x / granBytes)).held x).getD (Tab.get (fun _ => 0) d.mem x) := by simp [Dev.seen, h]

theorem Dev.seen_congr {d e : Dev} (hmem : e.mem = d.mem) (hs : e.switches = d.switches)
    (hheld : ∀ g, d.switches g = true → (e.mig g).held = (d.mig g).held) : e.seen = d.seen := by
  funext x
  cases h : d.switches (x / granBytes)
  · rw [Dev.seen_of_open h, Dev.seen_of_open (hs ▸ h), hmem]
  · rw [Dev.seen_of_switching h, Dev.seen_of_switching (hs ▸ h), hmem, hheld _ h]

theorem memLoad_eq_map (m : Tab Byte) (a n : Nat) : memLoad m a n = (List.range n).map fun i => Tab.get (fun _ => 0) m (a + i) := by
  apply List.ext_getElem
  · simp [memLoad_length]
  · intro i h1 h2
    rw [memLoad_getElem, List.getElem_map, List.getElem_range]

/-- The granules of bytes that lie in one granule. -/
theorem granules_of_one {a n : Nat} (hn : 0 < n) (h : (a + (n - 1)) / granBytes = a / granBytes) : granules a n = [a / granBytes] := by
  have hlast : (a + n - 1) / granBytes + 1 - a / granBytes = 1 := by
    rw [Nat.add_sub_assoc hn, h]
    omega
  rw [granules, if_neg (by omega), hlast]
  rfl

theorem Dev.switching_isNone {d : Dev} {a n : Nat} (hn : 0 < n) (h : (a + (n - 1)) / granBytes = a / granBytes) :
    (d.switching a n).isNone = !d.switches (a / granBytes) := by
  rw [Dev.switching, granules_of_one hn h]
  cases hs : d.switches (a / granBytes) <;> rw [Dev.switches] at hs <;> simp [List.find?, hs]

/-- Bytes of one granule as an engine sees its own tables, each by itself. -/
theorem Dev.loadNew_eq_seen (d : Dev) {a n : Nat} (h : ∀ i, i < n → (a + i) / granBytes = a / granBytes) :
    d.loadNew a n = (List.range n).map fun i => d.seen (a + i) := by
  rcases Nat.eq_zero_or_pos n with rfl | hn
  · rfl
  rw [Dev.loadNew, Dev.switching_isNone hn (h _ (by omega))]
  cases hs : d.switches (a / granBytes)
  · simp only [Bool.not_false, if_true, Dev.load, memLoad_eq_map]
    refine List.map_congr_left fun i hi => ?_
    rw [Dev.seen_of_open (by rw [h i (List.mem_range.mp hi)]; exact hs)]
  · simp only [Bool.not_true, Bool.false_eq_true, if_false]
    apply List.ext_getElem
    · simp [Dev.load, memLoad_length]
    · intro i h1 h2
      have hi : i < n := by simpa using h2
      rw [List.getElem_map, List.getElem_map, List.getElem_zipIdx, List.getElem_range,
        Dev.seen_of_switching (by rw [h i hi]; exact hs)]
      simp only [Nat.zero_add, Dev.load, memLoad_getElem]

/-! ### What is seen -/

/-- Registers of the cache manager that only its own writes and counts change. -/
def keptRegs : List Reg := [rCACHE_SEQ, rCACHE_GEOM, rCACHE_CTL, rCACHE_STAT]

def Dev.cacheRegs (d : Dev) (p : Nat) : List Nat := keptRegs.map fun r => d.rd (pCACHE p) r.off

/-- The accumulate windows of a partition. -/
def Dev.windows (d : Dev) (p : Nat) : List (Nat × Nat) :=
  (List.range 16).map fun w => (d.rd (pSTV p) (rSTV_WIN.at w), d.rd (pSTV p) (rSTV_WIN_N.at w))

/-- Where the tables of a cache manager lie, and what decides where its writes go. -/
structure Ground where
  regs : List Nat
  tail : Nat
  windows : List (Nat × Nat)
  owner : Nat → Nat
  switches : Nat → Bool

/-- The ground, every byte, the poison, and the partition but for its phase accounts and the adds that wait in it. -/
structure Sight where
  ground : Ground
  seen : Nat → Byte
  poison : NSet
  part : Part

def Dev.ground (d : Dev) (p : Nat) : Ground :=
  ⟨d.cacheRegs p, d.rd (pCACHE p) rCACHE_TAIL.off, d.windows p, fun g => (d.gran g).part, d.switches⟩

/-- A partition without its phase accounts and the adds that wait in it. -/
def Part.settled (x : Part) : Part := { x with phases := {}, heldAdds := [] }

def Dev.settledPart (d : Dev) (p : Nat) : Part := (d.part p).settled

def Dev.sight (d : Dev) (p : Nat) : Sight := ⟨d.ground p, d.seen, d.poison, d.settledPart p⟩

theorem Dev.cacheRegs_of_ground {d e : Dev} {p : Nat} (h : e.ground p = d.ground p) : e.cacheRegs p = d.cacheRegs p :=
  congrArg Ground.regs h

theorem Dev.ground_of_sight {d e : Dev} {p : Nat} (h : e.sight p = d.sight p) : e.ground p = d.ground p :=
  congrArg Sight.ground h

theorem Dev.seen_of_sight {d e : Dev} {p : Nat} (h : e.sight p = d.sight p) : e.seen = d.seen := congrArg Sight.seen h

theorem Dev.poison_of_sight {d e : Dev} {p : Nat} (h : e.sight p = d.sight p) : e.poison = d.poison := congrArg Sight.poison h

theorem Dev.settledPart_of_sight {d e : Dev} {p : Nat} (h : e.sight p = d.sight p) : e.settledPart p = d.settledPart p :=
  congrArg Sight.part h

theorem Dev.rd_of_cacheRegs {d e : Dev} {p : Nat} (h : e.cacheRegs p = d.cacheRegs p) {r : Reg} (hr : r ∈ keptRegs) :
    e.rd (pCACHE p) r.off = d.rd (pCACHE p) r.off := List.map_inj_left.mp h r hr

/-! ### What leaves it as it is -/

section
variable {d : Dev} {p : Nat}

/-- A word of register space that is neither one of these registers nor part of a window. -/
def Foreign (p key : Nat) : Prop :=
  (∀ off, 0x100 ≤ off → off < 0x148 ∨ off = 0x160 → regKey (pCACHE p) off ≠ key) ∧
    ∀ off, 0x400 ≤ off → off < 0x600 → regKey (pSTV p) off ≠ key

theorem Dev.ground_wr {page off : Nat} (h : Foreign p (regKey page off)) (v : Nat) : (d.wr page off v).ground p = d.ground p := by
  obtain ⟨hcache, hwin⟩ := h
  have hkept : ∀ r ∈ keptRegs, 0x100 ≤ r.off ∧ (r.off < 0x148 ∨ r.off = 0x160) := by decide
  have hregs : (d.wr page off v).cacheRegs p = d.cacheRegs p :=
    List.map_congr_left fun r hr => Dev.rd_wr_other _ _ _ _ _ _ (hcache _ (hkept r hr).1 (hkept r hr).2)
  have hwindows : (d.wr page off v).windows p = d.windows p := by
    refine List.map_congr_left fun w hw => ?_
    have hw' := List.mem_range.mp hw
    rw [Dev.rd_wr_other _ _ _ _ _ _ (hwin _ (by simp only [Reg.at, rSTV_WIN]; omega) (by simp only [Reg.at, rSTV_WIN]; omega)),
      Dev.rd_wr_other _ _ _ _ _ _ (hwin _ (by simp only [Reg.at, rSTV_WIN_N]; omega) (by simp only [Reg.at, rSTV_WIN_N]; omega))]
  have htail := Dev.rd_wr_other d page off v (pCACHE p) rCACHE_TAIL.off (hcache _ (by decide) (by decide))
  simp only [Dev.ground, hregs, hwindows, htail]
  rfl

theorem Dev.sight_wr {page off : Nat} (h : Foreign p (regKey page off)) (v : Nat) : (d.wr page off v).sight p = d.sight p := by
  rw [Dev.sight, Dev.ground_wr h]
  rfl

theorem Dev.sight_setFld {page off : Nat} (h : Foreign p (regKey page off)) (hi lo n : Nat) :
    (d.setFld page off hi lo n).sight p = d.sight p := Dev.sight_wr h _

/-- Pages below those of the cache managers are foreign. -/
theorem foreign_of_low {page off : Nat} (hp : page < 0x140) (ho : off < 0x10000) : Foreign p (regKey page off) := by
  constructor <;> intro o h1 h2 <;> simp only [regKey, pCACHE, pSTV] <;> omega

theorem foreign_pLRN {q off : Nat} (hq : q < 64) (hlo : 0x400 ≤ off) (ho : off < 0x10000) : Foreign p (regKey (pLRN q) off) := by
  constructor <;> intro o h1 h2 <;> simp only [regKey, pCACHE, pSTV, pLRN] <;> omega

theorem foreign_pGEN {off : Nat} (ho : off < 0x10000) : Foreign p (regKey (pGEN p) off) := by
  constructor <;> intro o h1 h2 <;> simp only [regKey, pCACHE, pSTV, pGEN] <;> omega

theorem foreign_strmSts {st : Nat} (hs : st < 4) : Foreign p (regKey pTIER (strmSts p st)) := by
  constructor <;> intro o h1 h2 <;> simp only [regKey, pCACHE, pSTV, pTIER, strmSts, strmIx, Reg.at, rSTRM_STS] <;> omega

theorem Dev.sight_setPart {q : Nat} {x : Part} (h : x.settled = (d.part q).settled) : (d.setPart q x).sight p = d.sight p := by
  have hpart : (d.setPart q x).settledPart p = d.settledPart p := by
    by_cases hq : p = q
    · subst hq
      rw [Dev.settledPart, Dev.part_setPart_same, h, Dev.settledPart]
    · rw [Dev.settledPart, Dev.part_setPart_other _ _ _ _ hq, Dev.settledPart]
  rw [Dev.sight, hpart]
  rfl

theorem Dev.sight_setGran {g : Nat} {x : TierEntry} (hpart : x.part = (d.gran g).part)
    (hs : (x.valid && x.state == stSwitching) = d.switches g) : (d.setGran g x).sight p = d.sight p := by
  have hgran (f : TierEntry → Nat) (hf : f x = f (d.gran g)) (j : Nat) : f ((d.setGran g x).gran j) = f (d.gran j) := by
    by_cases hj : j = g
    · rw [hj, Dev.gran_setGran_same, hf]
    · rw [Dev.gran_setGran_other _ _ _ _ hj]
  have hswitches : (d.setGran g x).switches = d.switches := by
    funext j
    by_cases hj : j = g
    · rw [hj, Dev.switches, Dev.gran_setGran_same, hs]
    · rw [Dev.switches, Dev.gran_setGran_other _ _ _ _ hj, Dev.switches]
  have hseen : (d.setGran g x).seen = d.seen := Dev.seen_congr rfl hswitches fun _ _ => rfl
  simp only [Dev.sight, Dev.ground, hseen, hswitches, hgran (·.part) hpart]
  rfl

theorem Dev.mig_setMig_other (d : Dev) {g h : Nat} (m : Migration) (hne : h ≠ g) : (d.setMig g m).mig h = d.mig h := by
  simp [Dev.mig, Dev.setMig, Tab.get_set_other _ _ _ hne]

theorem Dev.sight_setMig {g : Nat} {m : Migration} (h : d.switches g = true → m.held = (d.mig g).held) :
    (d.setMig g m).sight p = d.sight p := by
  have hheld (j : Nat) (hj : d.switches j = true) : ((d.setMig g m).mig j).held = (d.mig j).held := by
    by_cases hg : j = g
    · rw [hg, Dev.mig_setMig, h (hg ▸ hj)]
    · rw [Dev.mig_setMig_other _ _ hg]
  have hseen : (d.setMig g m).seen = d.seen := Dev.seen_congr rfl rfl hheld
  rw [Dev.sight, hseen]
  rfl

end

section
variable (d : Dev) (p : Nat)

/-! ### Phase accounts and messages -/

theorem Dev.sight_phCount {q off : Nat} (hq : q < 64) (hlo : 0x400 ≤ off) (ho : off < 0x10000) (hi lo n : Nat) :
    (d.phCount q off hi lo n).sight p = d.sight p := by
  unfold Dev.phCount
  dsimp only
  split
  · exact Dev.sight_setFld (foreign_pLRN hq hlo ho) _ _ _
  · exact (Dev.sight_setFld (foreign_pLRN hq (by decide) (by decide)) _ _ _).trans (Dev.sight_setFld (foreign_pLRN hq hlo ho) _ _ _)

theorem phWord_bounds {n i : Nat} (hn : n < 16) (hi : i < 4) : 0x400 ≤ phWord n i ∧ phWord n i < 0x10000 := by
  simp only [phWord, pcur, Reg.at, rLRN_PCUR]; omega

@[simp] theorem Dev.phSync_sight (q : Nat) : (d.phSync q).sight p = d.sight p := by
  unfold Dev.phSync
  split
  · rfl
  next hq =>
    refine (Dev.sight_setPart (by rfl)).trans (Dev.each_keeps (fun e => e.sight p) (fun a _ e => ?_) d)
    split
    · rfl
    next ha =>
      have hn : a.1 < 16 := by simp at ha; omega
      have hw (i : Nat) (hi : i < 4) := phWord_bounds hn hi
      rw [Dev.sight_phCount _ _ (by omega) (hw 1 (by decide)).1 (hw 1 (by decide)).2,
        Dev.sight_phCount _ _ (by omega) (hw 0 (by decide)).1 (hw 0 (by decide)).2]

@[simp] theorem Dev.phStart_sight (q n : Nat) : (d.phStart q n).sight p = d.sight p :=
  (Dev.sight_setPart (by rfl)).trans (d.phSync_sight p q)

@[simp] theorem Dev.phEnd_sight (q n : Nat) : (d.phEnd q n).sight p = d.sight p :=
  (Dev.sight_setPart (by rfl)).trans (d.phSync_sight p q)

@[simp] theorem Dev.emit_sight (o : Out) : (d.emit o).sight p = d.sight p := rfl

@[simp] theorem Dev.toCompanion_sight (o : Out) : (d.toCompanion o).sight p = d.sight p := by
  rw [d.toCompanion_frame o]
  rfl

@[simp] theorem Dev.snoop_sight (a n : Nat) : (d.snoop a n).sight p = d.sight p :=
  Dev.each_keeps (fun e => e.sight p) (fun _ _ e => e.toCompanion_sight p _) d

@[simp] theorem Dev.invalidate_sight (a n : Nat) : (d.invalidate a n).sight p = d.sight p := by
  unfold Dev.invalidate
  dsimp only
  split
  · rfl
  · exact Dev.each_keeps (fun e => e.sight p) (fun _ _ e => e.toCompanion_sight p _) _

/-! ### The tier engine -/

@[simp] theorem Dev.unuseFrame_sight (slow : Bool) (f : Nat) : (d.unuseFrame slow f).sight p = d.sight p := by
  cases slow <;> rfl

@[simp] theorem Dev.giveBack_sight (slow : Bool) (f : Nat) : (d.giveBack slow f).sight p = d.sight p := by
  rcases d.giveBack_cases slow f with h | ⟨g, rest, -, h⟩ | ⟨q, -, h⟩ <;> rw [h]
  · exact d.unuseFrame_sight p slow f
  · refine (Dev.sight_setFld (foreign_of_low (by decide) (by decide)) _ _ _).trans ((Dev.sight_setGran (by rfl) (by rfl)).trans (by rfl))
  · rfl

@[simp] theorem Dev.leavePoisoned_sight (ts : List Nat) : (d.leavePoisoned ts).sight p = d.sight p := by
  refine Dev.each_keeps (fun e => e.sight p) (fun t _ e => ?_) d
  split
  · rfl
  · exact Dev.sight_setFld (foreign_of_low (by decide) (by decide)) _ _ _

/-- A granule that is neither before nor after an update one that switches. -/
theorem Dev.switches_of_state {d : Dev} {g st : Nat} (h : (d.gran g).state = st) (hst : st ≠ stSwitching) : d.switches g = false := by
  simp [Dev.switches, h, hst]

@[simp] theorem Dev.enterRefetch_sight (g : Nat) : (d.enterRefetch g).sight p = d.sight p := by
  unfold Dev.enterRefetch
  dsimp only
  split
  · rfl
  split
  · rfl
  split
  · exact d.leavePoisoned_sight p _
  split
  next h =>
    have hs := Dev.switches_of_state (beq_iff_eq.mp h) (by decide)
    exact (Dev.phStart_sight _ _ _ _).trans (Dev.sight_setGran (by rfl) (by rw [hs]; exact Bool.and_false _))
  split
  next h =>
    have hs := Dev.switches_of_state (beq_iff_eq.mp h) (by decide)
    have hrefetch : (d.setGran g { d.gran g with state := stRefetch, dslow := false, dframe := 0 }).switches g = false :=
      Dev.switches_of_state (st := stRefetch) (by rw [Dev.gran_setGran_same]) (by decide)
    rw [Dev.phStart_sight, Dev.giveBack_sight, Dev.sight_setMig fun h => by rw [hrefetch] at h; cases h]
    exact Dev.sight_setGran (by rfl) (by rw [hs]; exact Bool.and_false _)
  · rfl

@[simp] theorem Dev.refetchRange_sight (a n : Nat) : (d.refetchRange a n).sight p = d.sight p := by
  unfold Dev.refetchRange
  split
  · exact Dev.each_keeps (fun e => e.sight p) (fun g _ e => e.enterRefetch_sight p g) d
  · rfl

@[simp] theorem Dev.refetchAll_sight (rs : List (Nat × Nat)) : (d.refetchAll rs).sight p = d.sight p :=
  Dev.each_keeps (fun e => e.sight p) (fun r _ e => e.refetchRange_sight p r.1 r.2) d

@[simp] theorem Dev.settle_sight (g : Nat) : (d.settle g).sight p = d.sight p := by
  unfold Dev.settle
  dsimp only
  split
  next h =>
    simp only [Bool.and_eq_true, beq_iff_eq] at h
    have hs := Dev.switches_of_state h.1.2 (by decide)
    exact (Dev.phEnd_sight _ _ _ _).trans (Dev.sight_setGran (by rfl) (by rw [hs]; exact Bool.and_false _))
  · rfl

@[simp] theorem Dev.warm_sight (a n : Nat) : (d.warm a n).sight p = d.sight p := by
  refine Dev.each_keeps (fun e => e.sight p) (fun g _ e => ?_) d
  dsimp only
  split
  · exact Dev.sight_setGran (by rfl) (by rfl)
  · rfl

@[simp] theorem Dev.markDirty_sight (a n : Nat) : (d.markDirty a n).sight p = d.sight p := by
  refine Dev.each_keeps (fun e => e.sight p) (fun t _ e => ?_) d
  dsimp only
  split
  · exact Dev.sight_setMig fun _ => rfl
  · rfl

@[simp] theorem Dev.dropStaged_sight (a n : Nat) : (d.dropStaged a n).sight p = d.sight p := by
  unfold Dev.dropStaged; split <;> rfl

@[simp] theorem Dev.renewConns_sight (a n : Nat) : (d.renewConns a n).sight p = d.sight p := rfl

/-! ### What an engine reads -/

@[simp] theorem Dev.stageAhead_sight (q st : Nat) : (d.stageAhead q st).sight p = d.sight p := by
  have htile (t : Nat) (e : Dev) : (e.stageTile q t).sight p = e.sight p := by
    unfold Dev.stageTile; split <;> rfl
  have hevict (e : Dev) (n : Nat) : (e.evictFor q n).sight p = e.sight p := by
    unfold Dev.evictFor; dsimp only; split <;> rfl
  have hask : (d.askTables q st).sight p = d.sight p :=
    Dev.each_keeps (fun e => e.sight p) (fun r _ e => by rw [Dev.refetchRange_sight, Dev.snoop_sight]) d
  exact (Dev.each_keeps (fun e => e.sight p) (fun t _ e => htile t e) _).trans ((hevict _ _).trans hask)

theorem Dev.lateLayer_sight {st : Nat} (hs : st < 4) : (d.lateLayer p st none).sight p = d.sight p := by
  unfold Dev.lateLayer
  dsimp only [Option.any]
  rw [Dev.stageAhead_sight, if_neg Bool.false_ne_true, Dev.count, Dev.sight_setFld (foreign_pGEN (by decide)),
    Dev.count, Dev.sight_setFld (foreign_strmSts hs)]
  exact Dev.sight_setFld (foreign_strmSts hs) _ _ _

theorem Dev.readDirect_sight (tiles : List Nat) : (d.readDirect p none tiles).sight p = d.sight p := by
  unfold Dev.readDirect
  split
  · rfl
  refine Dev.each_keeps (fun e => e.sight p) (fun st hst e => ?_) d
  have hs := List.mem_range.mp hst
  have hcount (n : Nat) : (e.count pTIER (strmSts p st) 63 32 n).sight p = e.sight p := Dev.sight_setFld (foreign_strmSts hs) _ _ _
  dsimp only
  split
  · rfl
  split
  · exact hcount _
  · exact (Dev.lateLayer_sight _ _ hs).trans (hcount _)

@[simp] theorem Dev.engineReads_sight (rs : List (Nat × Nat)) : (d.engineReads p rs).sight p = d.sight p := by
  refine Dev.each_keeps (fun e => e.sight p) (fun r _ e => ?_) d
  dsimp only [Dev.engineRead]
  split
  · rw [Dev.warm_sight, Dev.readDirect_sight]
  · rfl

@[simp] theorem Dev.readGate_sight (rs : List (Nat × Nat)) : (d.readGate rs).1.sight p = d.sight p := by
  unfold Dev.readGate
  split
  · exact Dev.each_keeps (fun e => e.sight p) (fun r _ e => e.snoop_sight p r.1 r.2) d
  split
  · rfl
  split
  · rfl
  · exact d.refetchAll_sight p _

/-! ### What it sends -/

@[simp] theorem Dev.departOn_sight (port : Option Nat) (k : Packet) : (d.departOn port k).sight p = d.sight p := by
  unfold Dev.departOn
  split
  · rfl
  · split <;> rfl

@[simp] theorem Dev.sendOn_sight (port : Option Nat) (dst vc : Nat) (m : Message) : (d.sendOn port dst vc m).sight p = d.sight p := by
  unfold Dev.sendOn
  split
  · rfl
  · exact Dev.departOn_sight _ p port _

@[simp] theorem Dev.sendShip_sight (x : Ship) (kind page tile : Nat) (data : List Byte) :
    (d.sendShip x kind page tile data).sight p = d.sight p :=
  Dev.each_keeps (fun e => e.sight p) (fun _ _ e => e.sendOn_sight p _ _ _ _) d

@[simp] theorem Dev.sendItem_sight (q s : Nat) (x : Ship) (kind i t : Nat) : (d.sendItem q s x kind i t).sight p = d.sight p :=
  d.sendShip_sight p x kind i t _

end

end Sys2Proof.Machine
end

section
/-! SUPPORT. Writes of an engine: what it sees afterwards (R120, R171, R265), and what even a write into an accumulate window leaves
(R266, R267). -/

namespace Sys2Proof.Machine

/-! ### A write within one granule -/

theorem heldByte_append (l : List (Nat × List Byte × Bool)) (a x : Nat) (bs : List Byte) (bad : Bool) :
    heldByte (l ++ [(a, bs, bad)]) x = if h : a ≤ x ∧ x - a < bs.length then some (bs[x - a]'h.2) else heldByte l x := by
  by_cases h : a ≤ x ∧ x - a < bs.length
  · have hc : (decide (a ≤ x) && decide (x < a + bs.length)) = true := by simp; omega
    simp only [heldByte, List.reverse_append, List.reverse_singleton, List.singleton_append, List.find?_cons, hc, dif_pos h,
      Option.bind_some, List.getElem?_eq_getElem h.2]
  · have hc : (decide (a ≤ x) && decide (x < a + bs.length)) = false := by simp; omega
    simp only [heldByte, List.reverse_append, List.reverse_singleton, List.singleton_append, List.find?_cons, hc, dif_neg h]

/-- What follows from a write of the tier range, beside the bytes. -/
def Dev.noteWrite (d : Dev) (a n : Nat) : Dev :=
  (((((d.markDirty a n).dropStaged a n).invalidate a n).warm a n).renewConns a n).settle (a / granBytes)

theorem Dev.noteWrite_sight (d : Dev) (p a n : Nat) : (d.noteWrite a n).sight p = d.sight p := by
  simp [Dev.noteWrite]

theorem Dev.storeGran_eq (d : Dev) (a : Nat) (bs : List Byte) : d.storeGran a bs false =
    if d.switches (a / granBytes) then d.hold (a / granBytes) a bs false else (d.storeRaw a bs).noteWrite a bs.length := rfl

section
variable (d : Dev) (a x : Nat) (bs : List Byte)

theorem Dev.hold_seen (h : d.switches (a / granBytes) = true)
    (hin : ∀ y, a ≤ y → y < a + bs.length → y / granBytes = a / granBytes) : (d.hold (a / granBytes) a bs false).seen x =
      if h : a ≤ x ∧ x - a < bs.length then bs[x - a]'h.2 else d.seen x := by
  by_cases hx : x / granBytes = a / granBytes
  · have hs : (d.hold (a / granBytes) a bs false).switches (x / granBytes) = true := hx ▸ h
    rw [Dev.seen_of_switching hs, Dev.seen_of_switching (hx ▸ h), Dev.hold, hx, Dev.mig_setMig, heldByte_append]
    split <;> rfl
  · rw [dif_neg fun hc => hx (hin x hc.1 (by omega))]
    have hmig := d.mig_setMig_other { d.mig (a / granBytes) with held := (d.mig (a / granBytes)).held ++ [(a, bs, false)] } hx
    simp only [Dev.seen, Dev.hold, hmig]
    rfl

theorem Dev.storeRaw_seen (h : d.switches (a / granBytes) = false)
    (hin : ∀ y, a ≤ y → y < a + bs.length → y / granBytes = a / granBytes) : (d.storeRaw a bs).seen x =
      if h : a ≤ x ∧ x - a < bs.length then bs[x - a]'h.2 else d.seen x := by
  by_cases hc : a ≤ x ∧ x - a < bs.length
  · have hx : (d.storeRaw a bs).switches (x / granBytes) = false := by rw [hin x hc.1 (by omega)]; exact h
    rw [Dev.seen_of_open hx, Dev.storeRaw, memStore_get, dif_pos hc, dif_pos hc]
  · have hmem : Tab.get (fun _ => 0) (d.storeRaw a bs).mem x = Tab.get (fun _ => 0) d.mem x := by
      rw [Dev.storeRaw, memStore_get, dif_neg hc]
    rw [dif_neg hc, Dev.seen, Dev.seen, hmem]
    rfl

/-- A write within one granule is seen at once, held or not. -/
theorem Dev.storeGran_seen (hin : ∀ y, a ≤ y → y < a + bs.length → y / granBytes = a / granBytes) :
    (d.storeGran a bs false).seen x = if h : a ≤ x ∧ x - a < bs.length then bs[x - a]'h.2 else d.seen x := by
  rw [Dev.storeGran_eq]
  cases h : d.switches (a / granBytes)
  · rw [if_neg Bool.false_ne_true, Dev.seen_of_sight ((d.storeRaw a bs).noteWrite_sight 0 a bs.length)]
    exact d.storeRaw_seen a x bs h hin
  · rw [if_pos rfl]
    exact d.hold_seen a x bs h hin

end

theorem Dev.storeGran_ground (d : Dev) (p a : Nat) (bs : List Byte) : (d.storeGran a bs false).ground p = d.ground p := by
  rw [Dev.storeGran_eq]
  split
  · rfl
  · exact (Dev.ground_of_sight ((d.storeRaw a bs).noteWrite_sight p a bs.length)).trans rfl

theorem Dev.storeGran_settledPart (d : Dev) (p a : Nat) (bs : List Byte) :
    (d.storeGran a bs false).settledPart p = d.settledPart p := by
  rw [Dev.storeGran_eq]
  split
  · rfl
  · exact (Dev.settledPart_of_sight ((d.storeRaw a bs).noteWrite_sight p a bs.length)).trans rfl

/-! ### A write of any length -/

theorem mem_pieces {a n : Nat} {r : Nat × Nat} (h : r ∈ pieces granBytes a n) :
    a ≤ r.1 ∧ r.1 + r.2 ≤ a + n ∧ ∀ y, r.1 ≤ y → y < r.1 + r.2 → y / granBytes = r.1 / granBytes := by
  unfold pieces at h
  split at h
  · cases h
  · obtain ⟨i, hi, rfl⟩ := List.mem_map.mp h
    have hi' := List.mem_range.mp hi
    simp only [granBytes] at hi' ⊢
    exact ⟨by omega, by omega, fun y h1 h2 => by omega⟩

theorem exists_piece {a n x : Nat} (h1 : a ≤ x) (h2 : x < a + n) : ∃ r ∈ pieces granBytes a n, r.1 ≤ x ∧ x < r.1 + r.2 := by
  have hn : n ≠ 0 := by omega
  rw [pieces, if_neg hn]
  refine ⟨_, List.mem_map.mpr ⟨x / granBytes - a / granBytes, List.mem_range.mpr ?_, rfl⟩, ?_, ?_⟩ <;> simp only [granBytes] <;>
    omega

/-- Pieces of bytes, written one after another. -/
def Dev.storePieces (d : Dev) (a : Nat) (bs : List Byte) (l : List (Nat × Nat)) : Dev :=
  d.each l fun r e => e.storeGran r.1 ((bs.drop (r.1 - a)).take r.2) false

theorem Dev.storePieces_seen (d : Dev) (a : Nat) (bs : List Byte) {l : List (Nat × Nat)}
    (hl : ∀ r ∈ l, r ∈ pieces granBytes a bs.length) (x : Nat) : (d.storePieces a bs l).seen x =
      if ∃ r ∈ l, r.1 ≤ x ∧ x < r.1 + r.2 then bs.getD (x - a) 0 else d.seen x := by
  induction l generalizing d with
  | nil => simp [Dev.storePieces, Dev.each]
  | cons r l ih =>
    obtain ⟨hlo, hhi, hin⟩ := mem_pieces (hl r (by simp))
    have hlen : ((bs.drop (r.1 - a)).take r.2).length = r.2 := by simp only [List.length_take, List.length_drop]; omega
    have hseen := ih (d.storeGran r.1 ((bs.drop (r.1 - a)).take r.2) false) fun q hq => hl q (by simp [hq])
    have hone := d.storeGran_seen r.1 x ((bs.drop (r.1 - a)).take r.2) (by rw [hlen]; exact hin)
    refine hseen.trans ?_
    by_cases hrest : ∃ q ∈ l, q.1 ≤ x ∧ x < q.1 + q.2
    · have hall : ∃ q ∈ r :: l, q.1 ≤ x ∧ x < q.1 + q.2 := by
        obtain ⟨q, hq, hc⟩ := hrest
        exact ⟨q, by simp [hq], hc⟩
      rw [if_pos hrest, if_pos hall]
    · rw [if_neg hrest, hone]
      by_cases hr : r.1 ≤ x ∧ x < r.1 + r.2
      · rw [dif_pos ⟨hr.1, by omega⟩, if_pos ⟨r, by simp, hr⟩, List.getElem_take, List.getElem_drop,
          List.getD_eq_getElem _ _ (by omega)]
        congr 1
        omega
      · have hnone : ¬ ∃ q ∈ r :: l, q.1 ≤ x ∧ x < q.1 + q.2 := by
          rintro ⟨q, hq, hc⟩
          rcases List.mem_cons.mp hq with rfl | hq
          · exact hr hc
          · exact hrest ⟨q, hq, hc⟩
        rw [dif_neg (by omega), if_neg hnone]

section
variable (d : Dev) (p a : Nat) (bs : List Byte)

theorem Dev.store_of_tier {a : Nat} (h : whereIs a = .tier) : d.store a bs = d.storePieces a bs (pieces granBytes a bs.length) := by
  simp only [Dev.store, Dev.storeBad, h]
  rfl

/-- A write to the tier range is seen as written, and nothing else is. -/
theorem Dev.store_seen {a : Nat} (h : whereIs a = .tier) (x : Nat) :
    (d.store a bs).seen x = if h : a ≤ x ∧ x - a < bs.length then bs[x - a]'h.2 else d.seen x := by
  rw [d.store_of_tier bs h, d.storePieces_seen a bs (fun _ h => h)]
  by_cases hc : a ≤ x ∧ x - a < bs.length
  · rw [if_pos (exists_piece hc.1 (by omega)), dif_pos hc, List.getD_eq_getElem _ _ hc.2]
  · have hnone : ¬ ∃ r ∈ pieces granBytes a bs.length, r.1 ≤ x ∧ x < r.1 + r.2 := by
      rintro ⟨r, hr, h1, h2⟩
      obtain ⟨hlo, hhi, -⟩ := mem_pieces hr
      omega
    rw [if_neg hnone, dif_neg hc]

theorem Dev.store_seen_apart {a : Nat} (h : whereIs a = .tier) {x : Nat} (hx : x < a ∨ a + bs.length ≤ x) :
    (d.store a bs).seen x = d.seen x := by
  rw [d.store_seen bs h, dif_neg (by omega)]

theorem Dev.storeScratch_ground : (d.storeScratch a bs false).ground p = d.ground p := by
  unfold Dev.storeScratch Dev.liveSegs
  dsimp only
  rw [if_neg Bool.false_ne_true]
  split <;> rfl

theorem Dev.storeScratch_settledPart : (d.storeScratch a bs false).settledPart p = d.settledPart p := by
  unfold Dev.storeScratch Dev.liveSegs
  dsimp only
  rw [if_neg Bool.false_ne_true]
  split <;> rfl

/-- No write moves the ground. -/
@[simp] theorem Dev.store_ground : (d.store a bs).ground p = d.ground p := by
  unfold Dev.store Dev.storeBad
  dsimp only
  split
  · exact Dev.each_keeps (fun e => e.ground p) (fun r _ e => e.storeGran_ground p _ _) d
  · exact Dev.each_keeps (fun e => e.ground p) (fun r _ e => e.storeScratch_ground p _ _) d
  · rfl

@[simp] theorem Dev.store_settledPart : (d.store a bs).settledPart p = d.settledPart p := by
  unfold Dev.store Dev.storeBad
  dsimp only
  split
  · exact Dev.each_keeps (fun e => e.settledPart p) (fun r _ e => e.storeGran_settledPart p _ _) d
  · exact Dev.each_keeps (fun e => e.settledPart p) (fun r _ e => e.storeScratch_settledPart p _ _) d
  · rfl

end

/-! ### A write that no window meets -/

section
variable {d : Dev} {p a : Nat} {bs : List Byte}

theorem mem_granules {a n i : Nat} (hi : i < n) : (a + i) / granBytes ∈ granules a n := by
  rw [granules, if_neg (by omega)]
  refine List.mem_map.mpr ⟨(a + i) / granBytes - a / granBytes, List.mem_range.mpr ?_, ?_⟩ <;> simp only [granBytes] <;> omega

/-- What an engine may access lies in the tier range, in granules of its partition (R120). -/
theorem Dev.part_of_tierOk {w : Bool} {n : Nat} (h : d.tierOk p w a n = true) (hn : 0 < n) :
    whereIs a = .tier ∧ (d.gran (a / granBytes)).part = p := by
  simp only [Dev.tierOk, Bool.and_eq_true, beq_iff_eq] at h
  obtain ⟨hw, hc⟩ := h
  refine ⟨hw, ?_⟩
  by_contra hne
  have h4 : ((granules a n).map (d.granCode p w)).contains 4 = true := by
    rw [List.contains_iff_mem]
    exact List.mem_map.mpr ⟨_, mem_granules (i := 0) hn, by simp [Dev.granCode, hne]⟩
  simp only [Dev.accessCode, hw, h4, if_true] at hc
  split at hc <;> simp at hc

/-- A window that meets part of a range meets the range. -/
theorem Dev.windowAt_none_of_le {q m n : Nat} (h : d.windowAt q a n = none) (hm : m ≤ n) : d.windowAt q a m = none := by
  rw [Dev.windowAt, List.find?_eq_none] at h ⊢
  intro w hw hc
  refine h w hw ?_
  simp only [Bool.and_eq_true, decide_eq_true_eq] at hc ⊢
  exact ⟨hc.1, by omega⟩

theorem Dev.put_of_no_window (h : d.windowAt (d.gran (a / granBytes)).part a bs.length = none) : d.put a bs false = d.store a bs := by
  simp only [Dev.put, Dev.putIn, h, ite_self]
  rfl

/-- An engine's write that no window of its partition meets is a write, or nothing at all (R120). -/
theorem Dev.engineStore_cases (hb : 0 < bs.length) (h : (d.gran (a / granBytes)).part = p → d.windowAt p a bs.length = none) :
    d.engineStore p a bs = d ∨ whereIs a = .tier ∧ d.engineStore p a bs = d.store a bs := by
  unfold Dev.engineStore
  split
  next hok =>
    obtain ⟨hw, hp⟩ := Dev.part_of_tierOk hok hb
    exact .inr ⟨hw, Dev.put_of_no_window (by rw [hp]; exact h hp)⟩
  · exact .inl rfl

end

/-! ### A write that a window may meet -/

/-- The registers of a cache manager and the state of its partition: what no write of an engine changes, wherever it goes. -/
def Dev.footing (d : Dev) (p : Nat) : List Nat × Part := (d.cacheRegs p, d.settledPart p)

section
variable (d : Dev) (p : Nat)

theorem Dev.footing_of_sight {d e : Dev} {p : Nat} (h : e.sight p = d.sight p) : e.footing p = d.footing p :=
  congrArg (fun x : Sight => (x.ground.regs, x.part)) h

@[simp] theorem Dev.store_footing (a : Nat) (bs : List Byte) : (d.store a bs).footing p = d.footing p :=
  Prod.ext (Dev.cacheRegs_of_ground (d.store_ground p a bs)) (d.store_settledPart p a bs)

@[simp] theorem Dev.addPoison_footing (a n : Nat) : (d.addPoison a n).footing p = d.footing p := rfl

/-- The Stove's status register is none of the cache manager's. -/
@[simp] theorem Dev.setStvBit_footing (q b : Nat) (v : Bool) : (d.setBit (pSTV q) stvSts b v).footing p = d.footing p := by
  have hoff : ∀ r ∈ keptRegs, r.off < 0x10000 ∧ r.off ≠ stvSts := by decide
  have hregs : (d.setBit (pSTV q) stvSts b v).cacheRegs p = d.cacheRegs p := List.map_congr_left fun r hr =>
    Dev.rd_setFld_other _ _ _ _ _ _ _ _ (regKey_ne (hoff r hr).1 (by decide) (.inr (hoff r hr).2))
  exact Prod.ext hregs rfl

@[simp] theorem Dev.addTo_footing (q : Nat) (x : HeldAdd) : (d.addTo q x).footing p = d.footing p := by
  have hheld (e : Dev) (l : List HeldAdd) : (e.setPart q { e.part q with heldAdds := l }).footing p = e.footing p :=
    Dev.footing_of_sight (Dev.sight_setPart (by rfl))
  have hsnoop (n : Nat) : (d.snoop x.addr n).footing p = d.footing p := Dev.footing_of_sight (d.snoop_sight p _ _)
  have hrefetch (n : Nat) : (d.refetchRange x.addr n).footing p = d.footing p := Dev.footing_of_sight (d.refetchRange_sight p _ _)
  unfold Dev.addTo
  dsimp only
  generalize (if x.bf16 = true then 2 else 4) = n, windowAdd _ _ _ _ = r
  split
  · exact hheld _ _
  split
  · exact (hheld _ _).trans (hsnoop _)
  split
  · split
    · exact (hheld _ _).trans (hrefetch _)
    · exact hrefetch _
  · split
    · exact (Dev.setStvBit_footing _ p q 16 true).trans (d.store_footing p _ _)
    · exact d.store_footing p _ _

@[simp] theorem Dev.windowPut_footing (q w off : Nat) (bs : List Byte) : (d.windowPut q w off bs false).footing p = d.footing p := by
  unfold Dev.windowPut
  split
  · exact d.setStvBit_footing p q 19 true
  · rw [if_neg Bool.false_ne_true, Dev.footing_of_sight (Dev.phEnd_sight _ p q phBackward)]
    refine (Dev.each_keeps (fun e => e.footing p) (fun x _ e => e.addTo_footing p q _) _).trans ?_
    exact Dev.footing_of_sight (d.phStart_sight p q phBackward)

theorem Dev.putIn_footing (a : Nat) (bs : List Byte) (k : Nat) : (d.putIn a bs false k).footing p = d.footing p := by
  induction k generalizing d a bs with
  | zero => exact d.store_footing p a bs
  | succ k ih =>
    unfold Dev.putIn
    dsimp only
    split
    · exact d.store_footing p a bs
    · rw [ih, ih, Dev.windowPut_footing]

@[simp] theorem Dev.engineStore_footing (q a : Nat) (bs : List Byte) : (d.engineStore q a bs).footing p = d.footing p := by
  unfold Dev.engineStore
  split
  · exact d.putIn_footing p a bs 16
  · rfl

@[simp] theorem Dev.engineSpoil_footing (q a n : Nat) : (d.engineSpoil q a n).footing p = d.footing p := by
  unfold Dev.engineSpoil
  split <;> rfl

/-! ### Blocks and pages -/

@[simp] theorem Dev.writeShadow_footing (q : Nat) (r : PageRef) (t b : Nat) : (d.writeShadow q r t b).footing p = d.footing p := by
  unfold Dev.writeShadow
  dsimp only
  split
  · rfl
  · split
    · split <;> simp
    · rfl

@[simp] theorem Dev.writeBlock_footing (q : Nat) (r : PageRef) (t b : Nat) (vs : List (Option FVal)) :
    (d.writeBlock q r t b vs).footing p = d.footing p := by simp [Dev.writeBlock]

@[simp] theorem Dev.closeSeq_footing (q s : Nat) : (d.closeSeq q s).footing p = d.footing p := by
  refine Dev.each_keeps (fun e => e.footing p) (fun t _ e => ?_) d
  refine Dev.each_keeps (fun e => e.footing p) (fun x _ e => ?_) e
  dsimp only
  split <;> simp

@[simp] theorem Dev.reopenTile_footing (q s t : Nat) : (d.reopenTile q s t).footing p = d.footing p := by
  refine Dev.each_keeps (fun e => e.footing p) (fun x _ e => ?_) d
  dsimp only
  split <;> simp

@[simp] theorem Dev.copyBytes_footing (q src dst n : Nat) : (d.copyBytes q src dst n).footing p = d.footing p :=
  (Dev.each_keeps (fun e => e.footing p) (fun _ _ e => e.addPoison_footing p _ 64) _).trans (d.engineStore_footing p q dst _)

@[simp] theorem Dev.copyPage_footing (q : Nat) (src dst : PageRef) : (d.copyPage q src dst).footing p = d.footing p := by
  refine Dev.each_keeps (fun e => e.footing p) (fun t _ e => ?_) d
  dsimp only
  split
  · refine (Dev.each_keeps (fun e => e.footing p) (fun b _ x => x.writeShadow_footing p q _ _ _) _).trans ?_
    simp
  · simp

end

end Sys2Proof.Machine
end

section
/-! SUPPORT. Sequence records: what a write of a field leaves, what lies beside a record, and where an enabled cache manager's
tables let its writes go (R196, R197, R202, R204). -/

namespace Sys2Proof.Machine

open Sys2Proof.Safety

/-! ### What a change of pages leaves -/

/-- The ground of a cache manager, and whether a step boundary waits. -/
def Dev.terrain (d : Dev) (p : Nat) : Ground × Bool := (d.ground p, (d.part p).boundary)

/-- The same with every byte. -/
def Dev.view (d : Dev) (p : Nat) : (Ground × Bool) × (Nat → Byte) := (d.terrain p, d.seen)

/-- Its registers, and whether a step boundary waits. -/
def Dev.base (d : Dev) (p : Nat) : List Nat × Bool := (d.cacheRegs p, (d.part p).boundary)

section
variable {d e : Dev} {p : Nat}

theorem Dev.boundary_of_settledPart (h : e.settledPart p = d.settledPart p) : (e.part p).boundary = (d.part p).boundary :=
  (congrArg Part.boundary h :)

theorem Dev.view_of_sight (h : e.sight p = d.sight p) : e.view p = d.view p := by
  rw [Dev.view, Dev.terrain, Dev.ground_of_sight h, Dev.seen_of_sight h, Dev.boundary_of_settledPart (Dev.settledPart_of_sight h)]
  rfl

theorem Dev.terrain_of_view (h : e.view p = d.view p) : e.terrain p = d.terrain p := congrArg Prod.fst h
theorem Dev.seen_of_view (h : e.view p = d.view p) : e.seen = d.seen := congrArg Prod.snd h
theorem Dev.ground_of_terrain (h : e.terrain p = d.terrain p) : e.ground p = d.ground p := congrArg Prod.fst h

theorem Dev.base_of_terrain (h : e.terrain p = d.terrain p) : e.base p = d.base p :=
  congrArg (fun x : Ground × Bool => (x.1.regs, x.2)) h

theorem Dev.base_of_footing (h : e.footing p = d.footing p) : e.base p = d.base p :=
  congrArg (fun x : List Nat × Part => (x.1, x.2.boundary)) h

theorem Dev.cacheRegs_of_base (h : e.base p = d.base p) : e.cacheRegs p = d.cacheRegs p := congrArg Prod.fst h
theorem Dev.boundary_of_base (h : e.base p = d.base p) : (e.part p).boundary = (d.part p).boundary := congrArg Prod.snd h

theorem Dev.cacheRegs_of_terrain (h : e.terrain p = d.terrain p) : e.cacheRegs p = d.cacheRegs p :=
  Dev.cacheRegs_of_ground (Dev.ground_of_terrain h)

theorem Dev.store_terrain (d : Dev) (p a : Nat) (bs : List Byte) : (d.store a bs).terrain p = d.terrain p :=
  Prod.ext (d.store_ground p a bs) (Dev.boundary_of_settledPart (d.store_settledPart p a bs))

/-- A change of the partition that leaves its boundary alone. -/
theorem Dev.setPart_view {x : Part} (h : x.boundary = (d.part p).boundary) : (d.setPart p x).view p = d.view p := by
  rw [Dev.view, Dev.terrain, Dev.part_setPart_same, h]
  rfl

/-- The counts of pages are none of the kept registers. -/
theorem foreign_counts {off : Nat} (h : off = rCACHE_STS.off ∨ off = rCACHE_BSTS.off) : Foreign p (regKey (pCACHE p) off) := by
  rcases h with rfl | rfl <;> constructor <;> intro o h1 h2 <;>
    simp only [regKey, pCACHE, pSTV, rCACHE_STS, rCACHE_BSTS] <;> omega

/-- Nor is a register of the Weights or of the partition. -/
theorem foreign_pWGT {off : Nat} : Foreign p (regKey (pWGT p) off) := by
  constructor <;> intro o h1 h2 <;> simp only [regKey, pCACHE, pSTV, pWGT] <;> omega

theorem foreign_pPART {off : Nat} (ho : off < 0x10000) : Foreign p (regKey (pPART p) off) := by
  constructor <;> intro o h1 h2 <;> simp only [regKey, pCACHE, pSTV, pPART] <;> omega

theorem Dev.view_setFld {page off : Nat} (h : Foreign p (regKey page off)) (hi lo n : Nat) :
    (d.setFld page off hi lo n).view p = d.view p := Dev.view_of_sight (Dev.sight_setFld h hi lo n)

@[simp] theorem Dev.cacheSync_view (d : Dev) (p : Nat) : (d.cacheSync p).view p = d.view p :=
  (Dev.view_setFld (foreign_counts (.inr rfl)) _ _ _).trans (Dev.view_setFld (foreign_counts (.inl rfl)) _ _ _)

end

/-! ### Bytes of a record -/

/-- A byte of a sequence's record. -/
def Dev.recordByte (d : Dev) (p q j : Nat) : Byte := d.seen (d.seqAt p q + j)

/-- A field of a sequence's record: n bytes, k bytes in (R196). -/
def Dev.recordNat (d : Dev) (p q k n : Nat) : Nat := d.loadNatNew (d.seqAt p q + k) n

/-- A record lies in the tier range. -/
def InTier (d : Dev) (p q : Nat) : Prop := d.seqAt p q + 64 ≤ 0x030000000000

section
variable {d e : Dev} {p q : Nat}

theorem Dev.fld_of_regs (h : e.cacheRegs p = d.cacheRegs p) {r : Reg} (hr : r ∈ keptRegs) (hi lo : Nat) :
    e.fld (pCACHE p) r.off hi lo = d.fld (pCACHE p) r.off hi lo := by rw [Dev.fld, Dev.rd_of_cacheRegs h hr, Dev.fld]

theorem Dev.seqAt_of_regs (h : e.cacheRegs p = d.cacheRegs p) : e.seqAt p q = d.seqAt p q := by
  rw [Dev.seqAt, Dev.cBase, Dev.fld_of_regs h (by simp [keptRegs]), Dev.seqAt, Dev.cBase]

theorem Dev.nseq_of_regs (h : e.cacheRegs p = d.cacheRegs p) : e.nseq p = d.nseq p :=
  Dev.fld_of_regs (r := rCACHE_SEQ) h (by simp [keptRegs]) _ _

theorem Dev.cTpp_of_regs (h : e.cacheRegs p = d.cacheRegs p) : e.cTpp p = d.cTpp p := by
  have hf := Dev.fld_of_regs (r := rCACHE_GEOM) h (by simp [keptRegs])
  rw [Dev.cTpp, Dev.cHeads, hf, hf, Dev.cTpp, Dev.cHeads]

theorem Dev.cDim_of_regs (h : e.cacheRegs p = d.cacheRegs p) : e.cDim p = d.cDim p := by
  rw [Dev.cDim, Dev.fld_of_regs (r := rCACHE_GEOM) h (by simp [keptRegs]), Dev.cDim]

theorem Dev.cCb_of_regs (h : e.cacheRegs p = d.cacheRegs p) : e.cCb p = d.cCb p := by
  rw [Dev.cCb, Dev.cDim_of_regs h, Dev.cCb]

theorem InTier.of_regs (hd : InTier d p q) (h : e.cacheRegs p = d.cacheRegs p) : InTier e p q := by
  rw [InTier, Dev.seqAt_of_regs h]; exact hd

theorem InTier.of_direct (h : Safety.Direct d (d.seqAt p q) 64) : InTier d p q := h.1

theorem Dev.whereIs_record (h : InTier d p q) {k : Nat} (hk : k < 64) : whereIs (d.seqAt p q + k) = .tier := by
  have : d.seqAt p q + k < 0x030000000000 := by rw [InTier] at h; omega
  rw [whereIs, if_pos this]

/-- A record lies in one granule. -/
theorem Dev.record_granule (d : Dev) (p q : Nat) {j : Nat} (hj : j < 64) :
    (d.seqAt p q + j) / granBytes = d.seqAt p q / granBytes := by
  simp only [Dev.seqAt, Dev.cBase, granBytes]
  omega

theorem Dev.recordNat_eq (d : Dev) (p q : Nat) {k n : Nat} (h : k + n ≤ 64) :
    d.recordNat p q k n = leNat ((List.range n).map fun i => d.recordByte p q (k + i)) := by
  rw [Dev.recordNat, Dev.loadNatNew, Dev.loadNew_eq_seen]
  · simp only [Dev.recordByte, Nat.add_assoc]
  · intro i hi
    rw [Nat.add_assoc, d.record_granule p q (by omega), d.record_granule p q (by omega)]

theorem Dev.seqWord_eq (d : Dev) (p q : Nat) : d.seqWord p q = d.recordNat p q 0 4 := by
  simp only [Dev.seqWord, Dev.recordNat, Nat.add_zero]
theorem Dev.seqLen_eq (d : Dev) (p q : Nat) : d.seqLen p q = bits (d.recordNat p q 4 4) 19 0 := rfl
theorem Dev.seqPages_eq (d : Dev) (p q : Nat) : d.seqPages p q = bits (d.recordNat p q 8 4) 23 0 := rfl
theorem Dev.pageEntry_eq (d : Dev) (p q i : Nat) : d.pageEntry p q i = bits (d.recordNat p q 16 8) 47 0 + 4 * i := rfl

theorem leNat_lt (l : List Byte) : leNat l < 256 ^ l.length := by
  induction l with
  | nil => simp [leNat]
  | cons b l ih =>
    have hb := b.isLt
    simp only [leNat, List.length_cons, Nat.pow_succ]
    omega

theorem Dev.seqWord_lt (d : Dev) (p q : Nat) : d.seqWord p q < 2 ^ 32 := by
  rw [Dev.seqWord_eq, d.recordNat_eq p q (by omega)]
  exact (leNat_lt _).trans_le (by simp)

end

/-! ### What is written of a record -/

/-- The ground stands, and of a sequence's record every byte but those from lo up to hi. -/
structure Touches (p q lo hi : Nat) (d e : Dev) : Prop where
  terrain : e.terrain p = d.terrain p
  bytes : ∀ j, j < 64 → j < lo ∨ hi ≤ j → e.recordByte p q j = d.recordByte p q j

/-- The ground and the whole record stand. -/
abbrev Beside (p q : Nat) : Dev → Dev → Prop := Touches p q 0 0

section
variable {d e f : Dev} {p q lo hi lo' hi' : Nat}

theorem Touches.regs (h : Touches p q lo hi d e) : e.cacheRegs p = d.cacheRegs p := Dev.cacheRegs_of_terrain h.terrain

theorem Touches.seqAt (h : Touches p q lo hi d e) : e.seqAt p q = d.seqAt p q := Dev.seqAt_of_regs h.regs

theorem Touches.inTier (h : Touches p q lo hi d e) (hd : InTier d p q) : InTier e p q := hd.of_regs h.regs

theorem Touches.trans (h : Touches p q lo hi d e) (g : Touches p q lo hi e f) : Touches p q lo hi d f :=
  ⟨g.terrain.trans h.terrain, fun j hj ho => (g.bytes j hj ho).trans (h.bytes j hj ho)⟩

theorem Touches.widen (h : Touches p q lo hi d e) (hm : ∀ j, j < lo' ∨ hi' ≤ j → j < lo ∨ hi ≤ j) : Touches p q lo' hi' d e :=
  ⟨h.terrain, fun j hj ho => h.bytes j hj (hm j ho)⟩

theorem Beside.touches (h : Beside p q d e) : Touches p q lo hi d e := h.widen fun _ _ => .inr (Nat.zero_le _)

theorem Beside.of_view (h : e.view p = d.view p) : Beside p q d e := by
  refine ⟨Dev.terrain_of_view h, fun j _ _ => ?_⟩
  rw [Dev.recordByte, Dev.seqAt_of_regs (Dev.cacheRegs_of_terrain (Dev.terrain_of_view h)), Dev.seen_of_view h, Dev.recordByte]

theorem Beside.of_sight (h : e.sight p = d.sight p) : Beside p q d e := .of_view (Dev.view_of_sight h)

theorem Beside.refl (d : Dev) : Beside p q d d := .of_view rfl

theorem Touches.recordNat (h : Touches p q lo hi d e) {k n : Nat} (hk : k + n ≤ 64) (ho : k + n ≤ lo ∨ hi ≤ k) :
    e.recordNat p q k n = d.recordNat p q k n := by
  rw [e.recordNat_eq p q hk, d.recordNat_eq p q hk]
  refine congrArg leNat (List.map_congr_left fun i hi => ?_)
  have hi := List.mem_range.mp hi
  exact h.bytes _ (by omega) (by omega)

theorem Touches.seqWord (h : Touches p q lo hi d e) (ho : 4 ≤ lo ∨ hi = 0) : e.seqWord p q = d.seqWord p q := by
  rw [Dev.seqWord_eq, h.recordNat (by omega) (by omega), Dev.seqWord_eq]

theorem Touches.seqLen (h : Touches p q lo hi d e) (ho : 8 ≤ lo ∨ hi ≤ 4) : e.seqLen p q = d.seqLen p q := by
  rw [Dev.seqLen_eq, h.recordNat (by omega) (by omega), Dev.seqLen_eq]

theorem Touches.seqPages (h : Touches p q lo hi d e) (ho : 12 ≤ lo ∨ hi ≤ 8) : e.seqPages p q = d.seqPages p q := by
  rw [Dev.seqPages_eq, h.recordNat (by omega) (by omega), Dev.seqPages_eq]

theorem Touches.pageEntry (h : Touches p q lo hi d e) (ho : 24 ≤ lo ∨ hi ≤ 16) (i : Nat) : e.pageEntry p q i = d.pageEntry p q i := by
  rw [Dev.pageEntry_eq, h.recordNat (by omega) (by omega), Dev.pageEntry_eq]

theorem Beside.seqState (h : Beside p q d e) : e.seqState p q = d.seqState p q := by
  rw [Dev.seqState, h.seqWord (.inr rfl), Dev.seqState]

theorem Beside.seqH (h : Beside p q d e) : e.seqH p q = d.seqH p q := by rw [Dev.seqH, h.seqWord (.inr rfl), Dev.seqH]

theorem Beside.each {α : Type} {l : List α} {g : α → Dev → Dev} (I : Dev → Prop) (hd : I d)
    (h : ∀ x ∈ l, ∀ e, I e → Beside p q e (g x e)) (hI : ∀ e f, I e → Beside p q e f → I f) : Beside p q d (d.each l g) := by
  induction l generalizing d with
  | nil => exact .refl d
  | cons x l ih =>
    have hx := h x (by simp) d hd
    exact hx.trans (ih (hI _ _ hd hx) fun y hy => h y (by simp [hy]))

/-! ### Writes of a record -/

theorem touches_store (h : InTier d p q) {k : Nat} {bs : List Byte} (hk : k < 64) :
    Touches p q k (k + bs.length) d (d.store (d.seqAt p q + k) bs) := by
  have hterrain := d.store_terrain p (d.seqAt p q + k) bs
  refine ⟨hterrain, fun j hj ho => ?_⟩
  rw [Dev.recordByte, Dev.seqAt_of_regs (Dev.cacheRegs_of_terrain hterrain)]
  exact d.store_seen_apart bs (Dev.whereIs_record h hk) (by omega)

/-- A field read back from the bytes that were written over it. -/
theorem Dev.recordNat_store (h : InTier d p q) {k m n : Nat} {bs : List Byte} (hk : k < 64) (hm : k + m + n ≤ 64)
    (hn : m + n ≤ bs.length) : (d.store (d.seqAt p q + k) bs).recordNat p q (k + m) n = leNat ((bs.drop m).take n) := by
  have hat : (d.store (d.seqAt p q + k) bs).seqAt p q = d.seqAt p q :=
    Dev.seqAt_of_regs (Dev.cacheRegs_of_terrain (d.store_terrain p _ bs))
  rw [Dev.recordNat_eq _ p q hm]
  refine congrArg leNat (List.ext_getElem (by simp; omega) fun i h1 h2 => ?_)
  have hi : i < n := by simpa using h1
  rw [List.getElem_map, List.getElem_range, List.getElem_take, List.getElem_drop, Dev.recordByte, hat,
    d.store_seen bs (Dev.whereIs_record h hk), dif_pos (by omega)]
  congr 1
  omega

/-- The first word of a record is as given, and the rest as before. -/
structure Rewords (p q w : Nat) (d e : Dev) : Prop where
  touches : Touches p q 0 4 d e
  word : e.seqWord p q = w

theorem Rewords.trans {w v : Nat} (h : Rewords p q w d e) (g : Rewords p q v e f) : Rewords p q v d f :=
  ⟨h.touches.trans g.touches, g.word⟩

theorem Rewords.of_view {w : Nat} (h : Rewords p q w d e) (g : f.view p = e.view p) : Rewords p q w d f :=
  ⟨h.touches.trans (Beside.of_view g).touches, ((Beside.of_view g).seqWord (.inr rfl)).trans h.word⟩

theorem rewords_setSeqWord (h : InTier d p q) {hi lo : Nat} (n : Nat) (hlo : lo ≤ hi) (hhi : hi < 32) :
    Rewords p q (putBits (d.seqWord p q) hi lo n) d (d.setSeqWord p q hi lo n) := by
  have hlen : (natLe 4 (putBits (d.seqWord p q) hi lo n)).length = 4 := natLe_length 4 _
  have ht := touches_store h (k := 0) (bs := natLe 4 (putBits (d.seqWord p q) hi lo n)) (by decide)
  have hw := Dev.recordNat_store h (k := 0) (m := 0) (n := 4) (bs := natLe 4 (putBits (d.seqWord p q) hi lo n)) (by decide)
    (by decide) (by rw [hlen])
  rw [Nat.add_zero, hlen] at ht
  rw [Nat.add_zero] at hw
  refine ⟨ht, (Dev.seqWord_eq _ p q).trans (hw.trans ?_)⟩
  rw [List.drop_zero, List.take_of_length_le (by rw [hlen]), leNat_natLe]
  exact Nat.mod_eq_of_lt (putBits_lt _ _ _ _ _ hlo hhi (d.seqWord_lt p q))

theorem Dev.setSeqState_view (d : Dev) (p q st : Nat) : (d.setSeqState p q st).view p = (d.setSeqWord p q 31 28 st).view p := by
  have hphase (e : Dev) (old : Nat) : (if seqCopies st && !seqCopies old then e.phStart p phBank
      else if seqCopies old && !seqCopies st then e.phEnd p phBank else e).view p = e.view p := by
    split
    · exact Dev.view_of_sight (e.phStart_sight p p _)
    split
    · exact Dev.view_of_sight (e.phEnd_sight p p _)
    · rfl
  refine (Dev.setPart_view (by rfl)).trans ?_
  refine (Dev.view_setFld (foreign_counts (.inl rfl)) _ _ _).trans ?_
  exact (Dev.view_setFld (foreign_counts (.inr rfl)) _ _ _).trans (hphase _ _)

theorem Dev.setSeqH_view (d : Dev) (p q : Nat) (b : Bool) : (d.setSeqH p q b).view p = (d.setSeqWord p q 27 27 (b2n b)).view p :=
  (Dev.cacheSync_view _ p).trans (Dev.view_setFld (foreign_counts (.inl rfl)) _ _ _)

theorem rewords_setSeqState (h : InTier d p q) (st : Nat) :
    Rewords p q (putBits (d.seqWord p q) 31 28 st) d (d.setSeqState p q st) :=
  (rewords_setSeqWord h st (by decide) (by decide)).of_view (d.setSeqState_view p q st)

theorem rewords_setSeqH (h : InTier d p q) (b : Bool) :
    Rewords p q (putBits (d.seqWord p q) 27 27 (b2n b)) d (d.setSeqH p q b) :=
  (rewords_setSeqWord h (b2n b) (by decide) (by decide)).of_view (d.setSeqH_view p q b)

theorem rewords_setSeqResult (h : InTier d p q) (r : Nat) :
    Rewords p q (putBits (d.seqWord p q) 23 16 r) d (d.setSeqResult p q r) :=
  rewords_setSeqWord h r (by decide) (by decide)

theorem Dev.seqState_setSeqState (h : InTier d p q) {st : Nat} (hst : st < 16) : (d.setSeqState p q st).seqState p q = st := by
  rw [Dev.seqState, (rewords_setSeqState h st).word, bits_putBits_same _ _ _ _ (by decide)]
  exact Nat.mod_eq_of_lt hst

theorem Dev.seqH_setSeqState (h : InTier d p q) (st : Nat) : (d.setSeqState p q st).seqH p q = d.seqH p q := by
  rw [Dev.seqH, (rewords_setSeqState h st).word, testBit_putBits _ _ _ _ _ (by decide), if_neg (by decide), Dev.seqH]

theorem Dev.seqH_setSeqH (h : InTier d p q) (b : Bool) : (d.setSeqH p q b).seqH p q = b := by
  rw [Dev.seqH, (rewords_setSeqH h b).word, testBit_putBits _ _ _ _ _ (by decide), if_pos (by decide)]
  cases b <;> rfl

theorem Dev.seqState_setSeqH (h : InTier d p q) (b : Bool) : (d.setSeqH p q b).seqState p q = d.seqState p q := by
  rw [Dev.seqState, (rewords_setSeqH h b).word, bits_putBits_other _ _ _ _ _ _ (by decide) (by decide), Dev.seqState]

theorem Dev.seqState_setSeqResult (h : InTier d p q) (r : Nat) : (d.setSeqResult p q r).seqState p q = d.seqState p q := by
  rw [Dev.seqState, (rewords_setSeqResult h r).word, bits_putBits_other _ _ _ _ _ _ (by decide) (by decide), Dev.seqState]

/-- The result a record shows. -/
theorem Dev.result_setSeqResult (h : InTier d p q) {r : Nat} (hr : r < 256) : bits ((d.setSeqResult p q r).seqWord p q) 23 16 = r := by
  rw [(rewords_setSeqResult h r).word, bits_putBits_same _ _ _ _ (by decide)]
  exact Nat.mod_eq_of_lt hr

/-- A count of the cache manager is no part of a record. -/
theorem Dev.seqWord_countStat (d : Dev) (p q hi lo n : Nat) :
    (d.count (pCACHE p) rCACHE_STAT.off hi lo n).seqWord p q = d.seqWord p q := by
  have hfld (a b : Nat) : (d.count (pCACHE p) rCACHE_STAT.off hi lo n).fld (pCACHE p) rCACHE_SEQ.off a b =
      d.fld (pCACHE p) rCACHE_SEQ.off a b := Dev.fld_setFld_other _ _ _ _ _ _ _ _ _ _ (regKey_off_ne (by decide))
  have hat : (d.count (pCACHE p) rCACHE_STAT.off hi lo n).seqAt p q = d.seqAt p q := by
    rw [Dev.seqAt, Dev.cBase, hfld, Dev.seqAt, Dev.cBase]
  rw [Dev.seqWord, hat]
  rfl

theorem Dev.seqState_countStat (d : Dev) (p q hi lo n : Nat) :
    (d.count (pCACHE p) rCACHE_STAT.off hi lo n).seqState p q = d.seqState p q := by
  rw [Dev.seqState, d.seqWord_countStat, Dev.seqState]

theorem Dev.seqH_countStat (d : Dev) (p q hi lo n : Nat) :
    (d.count (pCACHE p) rCACHE_STAT.off hi lo n).seqH p q = d.seqH p q := by
  rw [Dev.seqH, d.seqWord_countStat, Dev.seqH]

end

end Sys2Proof.Machine
end

section
/-! SUPPORT. Operations on a sequence, as its record shows them: pages taken and freed, a block reopened, a sequence freed
(R195, R202, R204, R206). -/

namespace Sys2Proof.Machine

open Sys2Proof.Safety

/-! ### What leaves every byte and the ground -/

section
variable (d : Dev) (p q : Nat)

@[simp] theorem Dev.setCopying_view (l : List Nat) : (d.setCopying p q l).view p = d.view p := Dev.setPart_view (by rfl)
@[simp] theorem Dev.setQuantAll_view (n : Nat) : (d.setQuantAll p q n).view p = d.view p := Dev.setPart_view (by rfl)
@[simp] theorem Dev.setShip_view (x : Ship) : (d.setShip p q x).view p = d.view p := Dev.setPart_view (by rfl)
@[simp] theorem Dev.dropShip_view : (d.dropShip p q).view p = d.view p := Dev.setPart_view (by rfl)

@[simp] theorem Dev.freeBank_view (l : List Nat) : (d.freeBank p l).view p = d.view p :=
  (Dev.cacheSync_view _ p).trans (Dev.setPart_view (by rfl))

theorem Dev.freePool_view : (d.freePool p q).view p = (d.setSeqH p q false).view p :=
  (Dev.cacheSync_view _ p).trans (Dev.setPart_view (by rfl))

theorem Dev.takePool_view (k : Nat) : (d.takePool p q k).1.view p = d.view p := by
  induction k generalizing d with
  | zero => rfl
  | succ k ih => exact (ih _).trans ((Dev.setPart_view (by rfl)).trans (by rfl))

/-! ### Pins and events -/

theorem Dev.vector_view {i : Nat} (hi : i < 512) : (d.vector i).view p = d.view p := by
  unfold Dev.vector
  split
  · exact Dev.view_setFld (foreign_of_low (by decide) (by simp only [Reg.at, rVEX_VEC]; omega)) _ _ _
  · exact Dev.view_of_sight (d.toCompanion_sight p _)

theorem Dev.route_view (page : Nat) : (d.route page).view p = d.view p := by
  unfold Dev.route
  dsimp only
  split
  · exact d.vector_view p (bits_lt _ 8 0)
  · rfl

theorem Dev.event_view {page : Nat} (h : Foreign p (regKey page rINT_STS.off)) : (d.event page).view p = d.view p := by
  unfold Dev.event Dev.raiseInt
  dsimp only
  split
  · exact (Dev.route_view _ p _).trans (Dev.view_setFld h _ _ _)
  · exact Dev.view_setFld h _ _ _

theorem Dev.partEvt_view (b : Nat) : (d.partEvt p b).view p = d.view p := by
  unfold Dev.partEvt
  split
  · rfl
  · exact (Dev.event_view _ p (foreign_pPART (by decide))).trans (Dev.view_setFld (foreign_pPART (by decide)) _ _ _)

theorem Dev.emptySlot_view (i : Nat) : (d.emptySlot p i).view p = d.view p :=
  (Dev.setPart_view (by rfl)).trans (Dev.view_of_sight ((Dev.sight_wr foreign_pWGT _).trans (Dev.sight_wr foreign_pWGT _)))

theorem Dev.retireSlot_view (i : Nat) : (d.retireSlot p i).view p = d.view p := by
  unfold Dev.retireSlot
  split
  · exact (Dev.partEvt_view _ p _).trans (d.emptySlot_view p i)
  · rfl

theorem Dev.unpin_view (i : Nat) : (d.unpin p i).view p = d.view p :=
  (Dev.retireSlot_view _ p i).trans (Dev.view_setFld foreign_pWGT _ _ _)

theorem Dev.pin_view (i : Nat) : (d.pin p i).view p = d.view p := Dev.view_setFld foreign_pWGT _ _ _

theorem Dev.unpinSeq_view : (d.unpinSeq p q).view p = d.view p := by
  unfold Dev.unpinSeq
  split
  · rfl
  · exact (Dev.unpin_view _ p _).trans (Dev.setPart_view (by rfl))

end

/-! ### A sequence that becomes free -/

/-- The first word of a record whose sequence has become free. -/
def freedWord (w : Nat) (expired shipped : Bool) : Nat :=
  putBits (putBits (putBits (putBits w 27 27 0) 31 28 sqFree) 26 26 (b2n expired)) 25 25 (b2n shipped)

theorem bits_freedWord (w : Nat) (a b : Bool) : bits (freedWord w a b) 31 28 = sqFree := by
  rw [freedWord, bits_putBits_other _ _ _ _ _ _ (by decide) (by decide), bits_putBits_other _ _ _ _ _ _ (by decide) (by decide),
    bits_putBits_same _ _ _ _ (by decide)]
  rfl

theorem testBit_freedWord_expired (w : Nat) (a b : Bool) : (freedWord w a b).testBit 26 = a := by
  rw [freedWord, testBit_putBits _ _ _ _ _ (by decide), if_neg (by decide), testBit_putBits _ _ _ _ _ (by decide), if_pos (by decide)]
  cases a <;> rfl

theorem testBit_freedWord_shipped (w : Nat) (a b : Bool) : (freedWord w a b).testBit 25 = b := by
  rw [freedWord, testBit_putBits _ _ _ _ _ (by decide), if_pos (by decide)]
  cases b <;> rfl

/-- Length and pages of a record are cleared, and what the slot held of a ship and of an epoch is given up. -/
def Dev.clearSlot (d : Dev) (p q : Nat) : Dev :=
  let d := d.store (d.seqAt p q + 4) (natLe 4 0 ++ natLe 4 0)
  let x := d.part p
  Dev.unpinSeq (d.setPart p { x with ships := x.ships.filter fun y => y.1 != q }) p q

/-- The pages of a sequence are free. -/
def Dev.freePages (d : Dev) (p q : Nat) (l : List Nat) : Dev := ((d.freePool p q).freeBank p l).setCopying p q []

section
variable {d : Dev} {p q : Nat}

theorem Dev.freeSeq_eq (d : Dev) (p q : Nat) (expired shipped : Bool) : ∃ l, d.freeSeq p q expired shipped =
    ((((d.freePages p q l).setSeqState p q sqFree).setSeqWord p q 26 26 (b2n expired)).setSeqWord p q 25 25 (b2n shipped)).clearSlot
      p q := ⟨_, rfl⟩

theorem rewords_freePages (h : InTier d p q) (l : List Nat) :
    Rewords p q (putBits (d.seqWord p q) 27 27 0) d (d.freePages p q l) := by
  refine (rewords_setSeqH h false).of_view ?_
  rw [Dev.freePages, Dev.setCopying_view, Dev.freeBank_view, Dev.freePool_view]

theorem touches_clearSlot (h : InTier d p q) : Touches p q 4 12 d (d.clearSlot p q) := by
  refine (touches_store h (k := 4) (bs := natLe 4 0 ++ natLe 4 0) (by decide)).trans (Beside.touches (.of_view ?_))
  exact (Dev.unpinSeq_view _ p q).trans (Dev.setPart_view (by rfl))

theorem rewords_freeSeq (h : InTier d p q) (expired shipped : Bool) : Touches p q 0 12 d (d.freeSeq p q expired shipped) ∧
    (d.freeSeq p q expired shipped).seqWord p q = freedWord (d.seqWord p q) expired shipped := by
  obtain ⟨l, hl⟩ := d.freeSeq_eq p q expired shipped
  have h1 := rewords_freePages h l
  have i1 := h1.touches.inTier h
  have h2 := rewords_setSeqState i1 sqFree
  have i2 := h2.touches.inTier i1
  have h3 := rewords_setSeqWord i2 (hi := 26) (lo := 26) (b2n expired) (by decide) (by decide)
  have i3 := h3.touches.inTier i2
  have h4 := rewords_setSeqWord i3 (hi := 25) (lo := 25) (b2n shipped) (by decide) (by decide)
  have h5 := touches_clearSlot (h4.touches.inTier i3)
  have hw := ((h1.trans h2).trans h3).trans h4
  rw [hl]
  refine ⟨(hw.touches.widen (by omega)).trans (h5.widen (by omega)), (h5.seqWord (.inl (by decide))).trans (hw.word.trans ?_)⟩
  rw [h3.word, h2.word, h1.word, freedWord]

theorem Dev.seqState_freeSeq (h : InTier d p q) (a b : Bool) : (d.freeSeq p q a b).seqState p q = sqFree := by
  rw [Dev.seqState, (rewords_freeSeq h a b).2, bits_freedWord]

theorem inTier_freeSeq (h : InTier d p q) (a b : Bool) : InTier (d.freeSeq p q a b) p q := (rewords_freeSeq h a b).1.inTier h

end

/-! ### Writes beside a record -/

/-- A range apart from a record, met by no accumulate window where it begins in a granule of the partition. -/
def Aloof (d : Dev) (p q a n : Nat) : Prop :=
  Apart a n (d.seqAt p q) 64 ∧ ((d.gran (a / granBytes)).part = p → d.windowAt p a n = none)

/-- Neither a write of the page list nor of the tails of a sequence reaches its record. -/
structure Guarded (p q : Nat) (d : Dev) : Prop where
  inTier : InTier d p q
  list : ∀ i, i < 8192 → Aloof d p q (d.pageEntry p q i) 4
  tails : ∀ t c, t < d.cTpp p → c < 2 * d.cCb p → Aloof d p q (d.tailAddr p q t c) 4096

section
variable {d e : Dev} {p q lo hi : Nat}

theorem Aloof.of_clear {a n : Nat} (h : Clear d a n (d.seqAt p q) 64) : Aloof d p q a n := ⟨h.1, fun hp => hp ▸ h.2⟩

theorem Guarded.of_sound (h : RecordSound d p q) : Guarded p q d :=
  ⟨.of_direct h.1, fun i hi => .of_clear (h.2.1 i hi), fun t c ht hc => .of_clear (h.2.2 t c ht hc)⟩

theorem Dev.windowAt_of_terrain (h : e.terrain p = d.terrain p) (a n : Nat) : e.windowAt p a n = d.windowAt p a n := by
  have hwins : e.windows p = d.windows p := congrArg Ground.windows (Dev.ground_of_terrain h)
  have hwin := List.map_inj_left.mp hwins
  refine List.find?_congr fun w hw => ?_
  obtain ⟨hbase, hn⟩ := Prod.mk.inj (hwin w hw)
  have hon : e.winOn p w = d.winOn p w := by rw [Dev.winOn, Dev.bit, Dev.fld, hbase, Dev.winOn, Dev.bit, Dev.fld]
  have hat : e.winBase p w = d.winBase p w := by rw [Dev.winBase, Dev.fld, hbase, Dev.winBase, Dev.fld]
  have hlen : e.winN p w = d.winN p w := by rw [Dev.winN, Dev.fld, hn, Dev.winN, Dev.fld]
  rw [hon, hat, hlen]

theorem Aloof.of_terrain {a n : Nat} (h : Aloof d p q a n) (ht : e.terrain p = d.terrain p) : Aloof e p q a n := by
  obtain ⟨hapart, hwin⟩ := h
  have howner : (e.gran (a / granBytes)).part = (d.gran (a / granBytes)).part :=
    congrFun (congrArg Ground.owner (Dev.ground_of_terrain ht)) _
  refine ⟨?_, fun hp => ?_⟩
  · rw [Dev.seqAt_of_regs (Dev.cacheRegs_of_terrain ht)]; exact hapart
  · rw [Dev.windowAt_of_terrain ht]; exact hwin (howner ▸ hp)

theorem Dev.tailAddr_of_terrain (ht : e.terrain p = d.terrain p) (t c : Nat) : e.tailAddr p q t c = d.tailAddr p q t c := by
  have hregs := Dev.cacheRegs_of_terrain ht
  have htail : e.rd (pCACHE p) rCACHE_TAIL.off = d.rd (pCACHE p) rCACHE_TAIL.off :=
    congrArg Ground.tail (Dev.ground_of_terrain ht)
  simp only [Dev.tailAddr, Dev.cBase, Dev.fld, htail, Dev.cTpp_of_regs hregs, Dev.cDim_of_regs hregs]

theorem Guarded.of_touches (h : Guarded p q d) (ht : Touches p q lo hi d e) (ho : 24 ≤ lo ∨ hi ≤ 16) : Guarded p q e := by
  refine ⟨ht.inTier h.inTier, fun i hi => ?_, fun t c htt hc => ?_⟩
  · rw [ht.pageEntry ho]
    exact (h.list i hi).of_terrain ht.terrain
  · rw [Dev.tailAddr_of_terrain ht.terrain]
    rw [Dev.cTpp_of_regs ht.regs] at htt
    rw [Dev.cCb_of_regs ht.regs] at hc
    exact (h.tails t c htt hc).of_terrain ht.terrain

theorem Guarded.of_beside (h : Guarded p q d) (ht : Beside p q d e) : Guarded p q e := h.of_touches ht (.inr (Nat.zero_le _))

/-- An engine's write to a range that lies aloof. -/
theorem beside_engineStore {a n : Nat} {bs : List Byte} (h : Aloof d p q a n) (hb : 0 < bs.length) (hn : bs.length ≤ n) :
    Beside p q d (d.engineStore p a bs) := by
  obtain ⟨hapart, hwin⟩ := h
  rcases Dev.engineStore_cases (d := d) hb fun hp => Dev.windowAt_none_of_le (hwin hp) hn with heq | ⟨hw, heq⟩
  · rw [heq]
    exact .refl d
  · rw [heq]
    have hterrain := d.store_terrain p a bs
    refine ⟨hterrain, fun j hj _ => ?_⟩
    rw [Dev.recordByte, Dev.seqAt_of_regs (Dev.cacheRegs_of_terrain hterrain)]
    exact d.store_seen_apart bs hw (by rw [Apart] at hapart; omega)

/-- The free pool page that is taken next (log entry 5). -/
def Dev.nextPage (d : Dev) (p : Nat) : Nat := nthFree ((d.part p).pool.map Prod.fst) (d.free.2.toNat % d.available p)

/-- The next pool page, held for an index of a sequence's page list. -/
def Dev.holdPage (d : Dev) (p q i : Nat) : Dev :=
  d.free.1.setPart p { d.part p with pool := Tab.set (fun _ => 0) (d.part p).pool (d.nextPage p) (q * 8192 + i + 1) }

theorem Dev.takePage_eq (d : Dev) (p q i : Nat) :
    d.takePage p q i = (d.holdPage p q i).setPageRef p q i ⟨false, d.nextPage p⟩ := rfl

theorem Dev.holdPage_view (d : Dev) (p q i : Nat) : (d.holdPage p q i).view p = d.view p :=
  (Dev.setPart_view (by rfl)).trans (by rfl)

/-- A page taken for a sequence leaves a record that the entry of its page list lies apart from. -/
theorem beside_takePage {z i : Nat} (h : Aloof d p z (d.pageEntry p q i) 4) : Beside p z d (d.takePage p q i) := by
  have hview := d.holdPage_view p q i
  have hat := (Beside.of_view (q := q) hview).pageEntry (.inr (Nat.zero_le _)) i
  rw [Dev.takePage_eq]
  refine (Beside.of_view hview).trans (beside_engineStore (n := 4) ?_ (by simp [natLe_length]) (by simp [natLe_length]))
  rw [hat]
  exact h.of_terrain (Dev.terrain_of_view hview)

theorem beside_takePages (h : Guarded p q d) {i k : Nat} (hi : i + k ≤ 8192) : Beside p q d (d.takePages p q i k) := by
  induction k generalizing d i with
  | zero => exact .refl d
  | succ k ih =>
    have hp := beside_takePage (h.list i (by omega))
    exact hp.trans (ih (h.of_beside hp) (by omega))

/-- Headroom changes at most the flag for it. -/
theorem giveHeadroom_record (h : Guarded p q d) (hn : d.seqPages p q < 8192) : Touches p q 0 4 d (d.giveHeadroom p q) ∧
    (d.giveHeadroom p q).seqState p q = d.seqState p q := by
  unfold Dev.giveHeadroom
  split
  · exact ⟨(Beside.refl d).touches, rfl⟩
  · have hp := beside_takePage (h.list _ hn)
    have hd := hp.inTier h.inTier
    refine ⟨hp.touches.trans (rewords_setSeqH hd true).touches, ?_⟩
    rw [Dev.seqState_setSeqH hd, hp.seqState]

/-! ### A block reopened -/

theorem flatMap_natLe_length (l : List Nat) (n : Nat) : (l.flatMap (natLe n)).length = l.length * n := by
  induction l with
  | nil => simp
  | cons x l ih => rw [List.flatMap_cons, List.length_append, natLe_length, ih, List.length_cons, Nat.succ_mul, Nat.add_comm]

theorem Dev.engineSpoil_view (d : Dev) (p a n : Nat) : (d.engineSpoil p a n).view p = d.view p := by
  unfold Dev.engineSpoil
  split <;> rfl

theorem beside_reopenTile (h : Guarded p q d) {t : Nat} (ht : t < d.cTpp p) (hn : d.seqLen p q % 64 ≠ 0) :
    Beside p q d (d.reopenTile p q t) := by
  refine Beside.each (fun e => Guarded p q e ∧ e.terrain p = d.terrain p) ⟨h, rfl⟩ (fun x hx e he => ?_)
    fun e f he hf => ⟨he.1.of_beside hf, hf.terrain.trans he.2⟩
  obtain ⟨c, hc, rfl⟩ := List.mem_map.mp hx
  have hc := List.mem_range.mp hc
  obtain ⟨hg, hte⟩ := he
  have hregs := Dev.cacheRegs_of_terrain hte
  dsimp only
  split
  · exact .of_view (e.engineSpoil_view p _ _)
  · refine beside_engineStore (hg.tails t c ?_ ?_) ?_ ?_
    · rw [Dev.cTpp_of_regs hregs]; exact ht
    · rw [Dev.cCb_of_regs hregs]; exact hc
    all_goals
      rw [flatMap_natLe_length, List.length_map, List.length_range]
      omega

theorem beside_reopenSeq (h : Guarded p q d) : Beside p q d (d.reopenSeq p q) := by
  have hquant : Beside p q d (d.setQuantAll p q (d.seqLen p q / 64)) := .of_view (d.setQuantAll_view p q _)
  unfold Dev.reopenSeq
  dsimp only
  split
  · exact hquant
  next hn =>
    refine hquant.trans ?_
    have hg := h.of_beside hquant
    generalize d.setQuantAll p q (d.seqLen p q / 64) = e at *
    refine Beside.each (fun f => Guarded p q f ∧ f.terrain p = e.terrain p ∧ f.seqLen p q = e.seqLen p q) ⟨hg, rfl, rfl⟩
      (fun t ht f hf => ?_) fun f g hf hg => ⟨hf.1.of_beside hg, hg.terrain.trans hf.2.1, (hg.seqLen (.inr (Nat.zero_le _))).trans hf.2.2⟩
    obtain ⟨hgf, hte, hlen⟩ := hf
    refine beside_reopenTile hgf ?_ (hlen ▸ hn)
    rw [Dev.cTpp_of_regs (Dev.cacheRegs_of_terrain hte)]
    exact List.mem_range.mp ht

end

end Sys2Proof.Machine
end

section
/-! SUPPORT. When a cache command is refused, and the state in which it leaves its sequence (R202, R206, R210). -/

namespace Sys2Proof.Machine

open Sys2Proof.Safety

/-! ### What an operation reads -/

/-- The device once the ranges that an operation reads have been looked at and read. -/
def Dev.afterReads (d : Dev) (p : Nat) (rs : List (Nat × Nat)) : Dev := (d.readGate rs).1.engineReads p rs

section
variable {d : Dev} {p : Nat} {rs : List (Nat × Nat)}

@[simp] theorem Dev.afterReads_sight (d : Dev) (p : Nat) (rs : List (Nat × Nat)) : (d.afterReads p rs).sight p = d.sight p :=
  (Dev.engineReads_sight _ p rs).trans (d.readGate_sight p rs)

theorem Dev.whenRead_wait {f : Dev → Bool → CacheDone} (h : (d.readGate rs).2 = .wait) : (d.whenRead p rs f).2 = none := by
  rcases hg : d.readGate rs with ⟨e, g⟩
  rw [hg] at h
  obtain rfl : g = .wait := h
  rw [Dev.whenRead, hg]

theorem Dev.whenRead_go {f : Dev → Bool → CacheDone} (h : (d.readGate rs).2 ≠ .wait) :
    d.whenRead p rs f = f (d.afterReads p rs) ((d.readGate rs).2 == .clear) := by
  unfold Dev.whenRead
  split
  next heq => exact absurd (by rw [heq]) h
  next heq => rw [Dev.afterReads, heq]

theorem Dev.not_poisoned_of_clear (h : (d.readGate rs).2 = .clear) : (rs.any fun r => d.poisoned r.1 r.2) = false := by
  unfold Dev.readGate at h
  split at h
  · cases h
  split at h
  · cases h
  split at h
  next hp => simpa using hp
  · dsimp only at h
    split at h <;> cases h

theorem Dev.poisoned_of_bad (h : (d.readGate rs).2 = .bad) : (rs.any fun r => d.poisoned r.1 r.2) = true := by
  unfold Dev.readGate at h
  split at h
  · cases h
  split at h
  · cases h
  split at h
  · cases h
  next hp => simpa using hp

end

/-! ### What closing a sequence leaves -/

theorem Dev.each_self {α : Type} {d : Dev} {l : List α} {f : α → Dev → Dev} (h : ∀ x ∈ l, f x d = d) : d.each l f = d := by
  induction l with
  | nil => rfl
  | cons x l ih =>
    have hx : (d.each (x :: l) f) = (f x d).each l f := rfl
    rw [hx, h x (by simp)]
    exact ih fun y hy => h y (by simp [hy])

section
variable {d e : Dev} {p q : Nat}

theorem Dev.openBlocks_of_sight (h : e.sight p = d.sight p) (t : Nat) : e.openBlocks p q t = d.openBlocks p q t := by
  have hpart := Dev.settledPart_of_sight h
  have hregs := Dev.cacheRegs_of_ground (Dev.ground_of_sight h)
  have hquant : (e.part p).quant = (d.part p).quant := (congrArg Part.quant hpart :)
  have hbase : (e.part p).quantBase = (d.part p).quantBase := (congrArg Part.quantBase hpart :)
  have hof : e.quantOf p q t = d.quantOf p q t := by
    funext v
    rw [Dev.quantOf, hquant, hbase, Dev.quantOf]
  have hvals : e.isVals p = d.isVals p := by
    funext c
    rw [Dev.isVals, Dev.cCb_of_regs hregs, Dev.isVals]
  rw [Dev.openBlocks, (Beside.of_sight h).seqLen (.inr (Nat.zero_le _)), Dev.cCb_of_regs hregs, hof, hvals, Dev.openBlocks]

/-- A sequence without an open block is closed already. -/
theorem Dev.closeSeq_of_no_reads (h : e.sight p = d.sight p) (hd : d.closeReads p q = []) : e.closeSeq p q = e := by
  refine Dev.each_self fun t ht => ?_
  rw [Dev.cTpp_of_regs (Dev.cacheRegs_of_ground (Dev.ground_of_sight h))] at ht
  have hopen : e.openBlocks p q t = [] := by
    rw [Dev.openBlocks_of_sight h]
    exact List.map_eq_nil_iff.mp (List.flatMap_eq_nil_iff.mp hd t ht)
  rw [Dev.closeTile, hopen]
  rfl

/-! ### Refusals -/

theorem Dev.openSeq_in_use {x : CacheArgs} (h : d.seqState p x.seq ≠ sqFree) : d.openSeq p x = (d, some 0x03) := by
  simp [Dev.openSeq, h]

theorem Dev.openSeq_no_room {x : CacheArgs} (h : d.seqState p x.seq = sqFree) (hx : x.arg0 ≤ 1048575)
    (hn : d.pagesFor p x.arg0 ≤ 4096) (ha : d.available p < d.pagesFor p x.arg0 + 1) : d.openSeq p x = (d, some 0x04) := by
  simp [Dev.openSeq, h, ha, hn, hx]

theorem Dev.pauseSeq_refused {x : CacheArgs} (h1 : d.seqState p x.seq ≠ sqActive) (h2 : d.seqState p x.seq ≠ sqAwaiting) :
    d.pauseSeq p x = (d, some 0x03) := by simp [Dev.pauseSeq, h1, h2]

theorem Dev.resumeSeq_refused {x : CacheArgs} (h1 : d.seqState p x.seq ≠ sqPaused) (h2 : d.seqState p x.seq ≠ sqBanking)
    (h3 : d.seqState p x.seq ≠ sqBanked) : d.resumeSeq p x = (d, some 0x03) := by simp [Dev.resumeSeq, h1, h2, h3]

theorem Dev.receiveSeq_in_use {x : CacheArgs} (h : d.seqState p x.seq ≠ sqFree) : d.receiveSeq p x = (d, some 0x03) := by
  simp [Dev.receiveSeq, h]

theorem Dev.receiveSeq_no_room {x : CacheArgs} (h : d.seqState p x.seq = sqFree) (hx : x.arg0 ≤ 4096)
    (ha : d.available p < x.arg0 + 1) : d.receiveSeq p x = (d, some 0x04) := by simp [Dev.receiveSeq, h, ha, hx]

theorem Dev.shipSeq_refused {x : CacheArgs} (h1 : d.seqState p x.seq ≠ sqActive) (h2 : d.seqState p x.seq ≠ sqPaused) :
    d.shipSeq p x = (d, some 0x03) := by simp [Dev.shipSeq, h1, h2]

/-! ### A sequence that begins -/

/-- Pages for a sequence that enters a state; its length, its pages, and what more its record begins with. -/
def Dev.beginSeq (d : Dev) (p q n st : Nat) (more : List Byte) : Dev :=
  let d := (d.takePages p q 0 n).setSeqState p q st
  d.store (d.seqAt p q + 4) (natLe 4 0 ++ natLe 4 n ++ more)

theorem beginSeq_record (h : Guarded p q d) {n st : Nat} {more : List Byte} (hn : n ≤ 4096) (hst : st < 16)
    (hmore : more.length ≤ 4) : Guarded p q (d.beginSeq p q n st more) ∧ (d.beginSeq p q n st more).seqState p q = st ∧
      (d.beginSeq p q n st more).seqPages p q = n := by
  have hlen : (natLe 4 0 ++ natLe 4 n ++ more).length = 8 + more.length := by
    simp [natLe_length, ← Nat.add_assoc]
  have hg1 := h.of_beside (beside_takePages h (i := 0) (k := n) (by omega))
  have hw := rewords_setSeqState hg1.inTier st
  have hg2 := hg1.of_touches hw.touches (.inr (by decide))
  have ht := touches_store hg2.inTier (k := 4) (bs := natLe 4 0 ++ natLe 4 n ++ more) (by decide)
  rw [hlen] at ht
  refine ⟨hg2.of_touches ht (.inr (by omega)), ?_, ?_⟩
  · refine Eq.trans ?_ (Dev.seqState_setSeqState hg1.inTier hst)
    rw [Dev.seqState, Dev.seqState]
    exact congrArg (bits · 31 28) (ht.seqWord (.inl (by decide)))
  · have hpages := Dev.recordNat_store hg2.inTier (k := 4) (m := 4) (n := 4) (bs := natLe 4 0 ++ natLe 4 n ++ more) (by decide)
      (by decide) (by omega)
    rw [List.append_assoc, List.drop_left' (natLe_length 4 0), List.take_left' (natLe_length 4 n), leNat_natLe] at hpages
    rw [Dev.seqPages_eq, Dev.beginSeq, List.append_assoc]
    rw [hpages, bits, Nat.shiftRight_zero]
    omega

section
variable {x : CacheArgs}

theorem Dev.openSeq_eq (h : d.seqState p x.seq = sqFree) (hx : x.arg0 ≤ 1048575) (hn : d.pagesFor p x.arg0 ≤ 4096)
    (ha : d.pagesFor p x.arg0 + 1 ≤ d.available p) : d.openSeq p x =
      let e := d.beginSeq p x.seq (d.pagesFor p x.arg0) sqActive (natLe 4 (bits x.arg1 31 0))
      (((e.storeNat (e.seqAt p x.seq + 40) 4 (bits x.arg1 63 32)).giveHeadroom p x.seq).setQuantAll p x.seq 0, some 0) := by
  have h1 : ¬ (decide (1048575 < x.arg0) || decide (4096 < d.pagesFor p x.arg0)) = true := by simp; omega
  rw [Dev.openSeq]
  dsimp only
  rw [if_neg (by simp [h]), if_neg h1, if_neg (by omega)]
  rfl

theorem Dev.receiveSeq_eq (h : d.seqState p x.seq = sqFree) (hx : x.arg0 ≤ 4096) (ha : x.arg0 + 1 ≤ d.available p) :
    d.receiveSeq p x = let e := d.beginSeq p x.seq x.arg0 sqArriving []
      ((e.giveHeadroom p x.seq).setShip p x.seq (shipOf sqFree e.now x.arg1), some 0) := by
  rw [Dev.receiveSeq]
  dsimp only
  rw [if_neg (by simp [h]), if_neg (by omega), if_neg (by omega), Dev.beginSeq, List.append_nil]

theorem openSeq_active (h : RecordSound d p x.seq) (hs : d.seqState p x.seq = sqFree) (hx : x.arg0 ≤ 1048575)
    (hn : d.pagesFor p x.arg0 ≤ 4096) (ha : d.pagesFor p x.arg0 + 1 ≤ d.available p) :
    (d.openSeq p x).1.seqState p x.seq = sqActive := by
  obtain ⟨hg, hst, hpages⟩ := beginSeq_record (st := sqActive) (more := natLe 4 (bits x.arg1 31 0)) (.of_sound h) hn (by decide)
    (by simp [natLe_length])
  rw [Dev.openSeq_eq hs hx hn ha]
  generalize d.beginSeq p x.seq (d.pagesFor p x.arg0) sqActive (natLe 4 (bits x.arg1 31 0)) = e at *
  have hstore := touches_store hg.inTier (k := 40) (bs := natLe 4 (bits x.arg1 63 32)) (by decide)
  have hg2 := hg.of_touches hstore (.inl (by decide))
  have hroom := giveHeadroom_record hg2 (by rw [hstore.seqPages (.inl (by decide))]; omega)
  refine (Beside.of_view (Dev.setQuantAll_view _ p x.seq 0)).seqState.trans (hroom.2.trans ?_)
  rw [Dev.seqState, hstore.seqWord (.inl (by decide)), ← Dev.seqState, hst]

theorem receiveSeq_arriving (h : RecordSound d p x.seq) (hs : d.seqState p x.seq = sqFree) (hx : x.arg0 ≤ 4096)
    (ha : x.arg0 + 1 ≤ d.available p) : (d.receiveSeq p x).1.seqState p x.seq = sqArriving := by
  obtain ⟨hg, hst, hpages⟩ := beginSeq_record (st := sqArriving) (more := []) (.of_sound h) hx (by decide) (by decide)
  rw [Dev.receiveSeq_eq hs hx ha]
  generalize d.beginSeq p x.seq x.arg0 sqArriving [] = e at *
  have hroom := giveHeadroom_record hg (by omega)
  exact (Beside.of_view (Dev.setShip_view _ p x.seq _)).seqState.trans (hroom.2.trans hst)

/-! ### A pause -/

/-- A closed sequence is paused, with the time of the pause and its expiry (R206). -/
def Dev.pausedSeq (d : Dev) (p : Nat) (x : CacheArgs) : Dev :=
  let ttl := (if x.arg0 = 0 then d.fld (pCACHE p) rCACHE_CTL.off 31 0 else x.arg0) * 1000000
  let d := (d.closeSeq p x.seq).setSeqState p x.seq sqPaused
  d.store (d.seqAt p x.seq + 24) (natLe 8 d.now ++ natLe 8 (d.now + ttl))

theorem Dev.pauseSeq_eq (h : d.seqState p x.seq = sqActive ∨ d.seqState p x.seq = sqAwaiting) : d.pauseSeq p x =
    d.whenRead p (d.closeReads p x.seq) fun e _ =>
      (if (e.pausedSeq p x).bit (pCACHE p) rCACHE_CTL.off 62 then (e.pausedSeq p x).startBanking p x.seq else e.pausedSeq p x,
        some 0) := by
  have hst : (d.seqState p x.seq != sqActive && d.seqState p x.seq != sqAwaiting) = false := by
    rcases h with h | h <;> simp [h]
  rw [Dev.pauseSeq]
  simp only [hst]
  rfl

theorem Dev.closeSeq_regs (d : Dev) (p q : Nat) : (d.closeSeq p q).cacheRegs p = d.cacheRegs p :=
  Dev.cacheRegs_of_base (Dev.base_of_footing (d.closeSeq_footing p p q))

theorem Dev.bit_of_regs {d e : Dev} (h : e.cacheRegs p = d.cacheRegs p) {r : Reg} (hr : r ∈ keptRegs) (b : Nat) :
    e.bit (pCACHE p) r.off b = d.bit (pCACHE p) r.off b := by rw [Dev.bit, Dev.fld_of_regs h hr, Dev.bit]

theorem pausedSeq_record (h : InTier d p x.seq) : (d.pausedSeq p x).seqState p x.seq = sqPaused ∧
    (d.pausedSeq p x).cacheRegs p = d.cacheRegs p := by
  have hclose := h.of_regs (d.closeSeq_regs p x.seq)
  have hw := rewords_setSeqState hclose sqPaused
  have ht := touches_store (hw.touches.inTier hclose) (k := 24)
    (bs := natLe 8 ((d.closeSeq p x.seq).setSeqState p x.seq sqPaused).now ++ natLe 8 (((d.closeSeq p x.seq).setSeqState p x.seq
      sqPaused).now + (if x.arg0 = 0 then d.fld (pCACHE p) rCACHE_CTL.off 31 0 else x.arg0) * 1000000)) (by decide)
  refine ⟨?_, ht.regs.trans (hw.touches.regs.trans (d.closeSeq_regs p x.seq))⟩
  refine Eq.trans ?_ (Dev.seqState_setSeqState hclose (st := sqPaused) (by decide))
  rw [Dev.seqState, Dev.seqState]
  exact congrArg (bits · 31 28) (ht.seqWord (.inl (by decide)))

theorem pauseSeq_paused (hst : d.seqState p x.seq = sqActive ∨ d.seqState p x.seq = sqAwaiting)
    (hgo : (d.readGate (d.closeReads p x.seq)).2 ≠ .wait) (h : InTier d p x.seq)
    (hbank : d.bit (pCACHE p) rCACHE_CTL.off 62 = false) : (d.pauseSeq p x).1.seqState p x.seq = sqPaused := by
  rw [Dev.pauseSeq_eq hst, Dev.whenRead_go hgo]
  have hregs := Dev.cacheRegs_of_ground (Dev.ground_of_sight (d.afterReads_sight p (d.closeReads p x.seq)))
  generalize d.afterReads p (d.closeReads p x.seq) = e at *
  obtain ⟨hpaused, hkept⟩ := pausedSeq_record (h.of_regs hregs)
  rw [Dev.bit_of_regs (hkept.trans hregs) (by simp [keptRegs]), hbank, if_neg Bool.false_ne_true]
  exact hpaused

/-! ### A resume -/

theorem Dev.resumeSeq_paused (h : d.seqState p x.seq = sqPaused) : d.resumeSeq p x =
    d.whenRead p (d.reopenReads p x.seq) fun e _ => ((e.setSeqState p x.seq sqActive).reopenSeq p x.seq, some 0) := by
  rw [Dev.resumeSeq]
  dsimp only
  rw [if_pos h]

theorem Dev.resumeSeq_banking (h : d.seqState p x.seq = sqBanking) : d.resumeSeq p x =
    d.whenRead p (d.reopenReads p x.seq) fun e _ =>
      ((((e.freeBank p (e.copyingOf p x.seq)).setCopying p x.seq []).setSeqState p x.seq sqActive).reopenSeq p x.seq, some 0) := by
  rw [Dev.resumeSeq]
  dsimp only
  rw [if_neg (by rw [h]; decide), if_pos h]

theorem Dev.resumeSeq_banked (h : d.seqState p x.seq = sqBanked) : d.resumeSeq p x =
    if d.available p < d.seqPages p x.seq + 1 then (d, some 0x04)
    else ((((d.takePool p x.seq (d.seqPages p x.seq)).1.setCopying p x.seq (d.takePool p x.seq (d.seqPages p x.seq)).2).setSeqState
      p x.seq sqRestoring).cacheSync p, some 0) := by
  rw [Dev.resumeSeq]
  dsimp only
  rw [if_neg (by rw [h]; decide), if_neg (by rw [h]; decide), if_pos h]

/-- A sequence that becomes active and has its block reopened is active. -/
theorem reopened_active {q : Nat} (h : Guarded p q d) : ((d.setSeqState p q sqActive).reopenSeq p q).seqState p q = sqActive := by
  have hw := rewords_setSeqState h.inTier sqActive
  exact (beside_reopenSeq (h.of_touches hw.touches (.inr (by decide)))).seqState.trans
    (Dev.seqState_setSeqState h.inTier (by decide))

theorem resumeSeq_active (hst : d.seqState p x.seq = sqPaused ∨ d.seqState p x.seq = sqBanking)
    (hgo : (d.readGate (d.reopenReads p x.seq)).2 ≠ .wait) :
    (d.resumeSeq p x).2 = some 0 ∧ (RecordSound d p x.seq → (d.resumeSeq p x).1.seqState p x.seq = sqActive) := by
  have hsight := d.afterReads_sight p (d.reopenReads p x.seq)
  rcases hst with hst | hst
  · rw [Dev.resumeSeq_paused hst, Dev.whenRead_go hgo]
    exact ⟨rfl, fun h => reopened_active ((Guarded.of_sound h).of_beside (.of_sight hsight))⟩
  · rw [Dev.resumeSeq_banking hst, Dev.whenRead_go hgo]
    refine ⟨rfl, fun h => reopened_active (((Guarded.of_sound h).of_beside (.of_sight hsight)).of_beside (.of_view ?_))⟩
    rw [Dev.setCopying_view, Dev.freeBank_view]

theorem Dev.resumeSeq_waits (hst : d.seqState p x.seq = sqPaused ∨ d.seqState p x.seq = sqBanking)
    (hw : (d.readGate (d.reopenReads p x.seq)).2 = .wait) : (d.resumeSeq p x).2 = none := by
  rcases hst with hst | hst
  · rw [Dev.resumeSeq_paused hst, Dev.whenRead_wait hw]
  · rw [Dev.resumeSeq_banking hst, Dev.whenRead_wait hw]

theorem resumeSeq_restoring (hst : d.seqState p x.seq = sqBanked) (ha : d.seqPages p x.seq + 1 ≤ d.available p) :
    (d.resumeSeq p x).2 = some 0 ∧ (InTier d p x.seq → (d.resumeSeq p x).1.seqState p x.seq = sqRestoring) := by
  rw [Dev.resumeSeq_banked hst, if_neg (by omega)]
  refine ⟨rfl, fun h => ?_⟩
  refine (Beside.of_view (Dev.cacheSync_view _ p)).seqState.trans (Dev.seqState_setSeqState ?_ (by decide))
  refine Touches.inTier (Beside.of_view ?_) h
  rw [Dev.setCopying_view, Dev.takePool_view]

/-! ### A free -/

theorem dropSeq_free (hst : d.seqState p x.seq ≠ sqFree) :
    (d.dropSeq p x).2 = some 0 ∧ (InTier d p x.seq → (d.dropSeq p x).1.seqState p x.seq = sqFree) := by
  rw [Dev.dropSeq]
  dsimp only
  rw [if_neg hst]
  refine ⟨rfl, fun h => Dev.seqState_freeSeq ?_ _ _⟩
  split
  · exact (Beside.of_sight (d.sendShip_sight p _ _ _ _ _)).inTier h
  · exact h

/-! ### A ship -/

/-- Ranges of the pages of a sequence. -/
def Dev.shipReads (d : Dev) (p q : Nat) : List (Nat × Nat) := (d.seqRefs p q).flatMap (d.pageReads p)

/-- A sequence that ships: its record and its transfers (R210). -/
def Dev.shippingSeq (d : Dev) (p q : Nat) (y : Ship) : Dev :=
  let d := (d.setSeqState p q sqShipping).setShip p q y
  let d := d.each (List.range (d.seqPages p q)) fun i e => e.each (List.range (e.cTpp p)) fun t e =>
    (e.sendItem p q y shTile i t).sendItem p q y shParams i t
  d.sendItem p q y shRecord 0 0

theorem Dev.shipSeq_eq (h : d.seqState p x.seq = sqActive ∨ d.seqState p x.seq = sqPaused) : d.shipSeq p x =
    d.whenRead p (d.closeReads p x.seq ++ d.shipReads p x.seq) fun e _ =>
      if (d.shipReads p x.seq).any fun r => (e.closeSeq p x.seq).poisoned r.1 r.2 then (e.closeSeq p x.seq, some 0x06)
      else ((e.closeSeq p x.seq).shippingSeq p x.seq (shipOf (d.seqState p x.seq) (e.closeSeq p x.seq).now x.arg1), some 0) := by
  have hst : (d.seqState p x.seq != sqActive && d.seqState p x.seq != sqPaused) = false := by
    rcases h with h | h <;> simp [h]
  rw [Dev.shipSeq]
  simp only [hst]
  rfl

theorem Dev.seqState_shippingSeq {q : Nat} (h : InTier d p q) (y : Ship) : (d.shippingSeq p q y).seqState p q = sqShipping := by
  refine Eq.trans (Beside.seqState (.of_view ?_)) (Dev.seqState_setSeqState h (by decide))
  have hsends (e : Dev) (l : List Nat) : (e.each l fun i e => e.each (List.range (e.cTpp p)) fun t e =>
      (e.sendItem p q y shTile i t).sendItem p q y shParams i t).view p = e.view p := by
    refine Dev.view_of_sight (Dev.each_keeps (fun e => e.sight p) (fun i _ e => ?_) e)
    exact Dev.each_keeps (fun e => e.sight p) (fun t _ e => by rw [Dev.sendItem_sight, Dev.sendItem_sight]) e
  exact (Dev.view_of_sight (Dev.sendItem_sight _ p p q y _ _ _)).trans ((hsends _ _).trans (Dev.setShip_view _ p q y))

theorem Dev.poisoned_of_sight {d e : Dev} (h : e.sight p = d.sight p) (a n : Nat) : e.poisoned a n = d.poisoned a n := by
  rw [Dev.poisoned, Dev.poison_of_sight h, Dev.poisoned]

theorem shipSeq_clear (hst : d.seqState p x.seq = sqActive ∨ d.seqState p x.seq = sqPaused)
    (hg : (d.readGate (d.closeReads p x.seq ++ d.shipReads p x.seq)).2 = .clear) (hc : d.closeReads p x.seq = []) :
    (d.shipSeq p x).2 = some 0 ∧ (InTier d p x.seq → (d.shipSeq p x).1.seqState p x.seq = sqShipping) := by
  have hsight := d.afterReads_sight p (d.closeReads p x.seq ++ d.shipReads p x.seq)
  have hnone := Dev.not_poisoned_of_clear hg
  rw [hc, List.nil_append] at hnone
  rw [Dev.shipSeq_eq hst, Dev.whenRead_go (by rw [hg]; decide), Dev.closeSeq_of_no_reads hsight hc]
  simp only [Dev.poisoned_of_sight hsight, hnone, if_neg Bool.false_ne_true]
  exact ⟨trivial, fun h => Dev.seqState_shippingSeq ((Beside.of_sight hsight).inTier h) _⟩

theorem shipSeq_bad (hst : d.seqState p x.seq = sqActive ∨ d.seqState p x.seq = sqPaused)
    (hg : (d.readGate (d.closeReads p x.seq ++ d.shipReads p x.seq)).2 = .bad) (hc : d.closeReads p x.seq = []) :
    (d.shipSeq p x).2 = some 0x06 := by
  have hsight := d.afterReads_sight p (d.closeReads p x.seq ++ d.shipReads p x.seq)
  have hsome := Dev.poisoned_of_bad hg
  rw [hc, List.nil_append] at hsome
  rw [Dev.shipSeq_eq hst, Dev.whenRead_go (by rw [hg]; decide), Dev.closeSeq_of_no_reads hsight hc]
  simp only [Dev.poisoned_of_sight hsight, hsome, if_true]

end

end

/-! ### The statement -/

/-- Settles O23: each command's equation names its refusals, and its record follows from the rules for records; a write of a page
list or of a tail lies apart from the record. -/
theorem cacheCommandResults : Obligations.CacheCommandResults := by
  intro d p x st n gate pages
  refine ⟨Dev.openSeq_in_use, Dev.openSeq_no_room, fun hs hx hn ha => ⟨?openDone, fun h => openSeq_active h hs hx hn ha⟩,
    Dev.pauseSeq_refused, fun hst => ⟨fun hw => ?pauseWaits, fun hgo => ⟨?pauseDone, fun h hb => pauseSeq_paused hst hgo h.1 hb⟩⟩,
    Dev.resumeSeq_refused, fun hst => ⟨Dev.resumeSeq_waits hst, resumeSeq_active hst⟩, fun hst ha => ?noRoom,
    fun hst ha => ⟨(resumeSeq_restoring hst ha).1, fun h => (resumeSeq_restoring hst ha).2 h.1⟩, fun hst => ?freeRefused,
    fun hst => ⟨(dropSeq_free hst).1, fun h => (dropSeq_free hst).2 h.1⟩, Dev.receiveSeq_in_use, Dev.receiveSeq_no_room,
    fun hs hx ha => ⟨?receiveDone, fun h => receiveSeq_arriving h hs hx ha⟩, Dev.shipSeq_refused,
    fun hst => ⟨fun hw => ?shipWaits, fun hg hc => ⟨(shipSeq_clear hst hg hc).1, fun h => (shipSeq_clear hst hg hc).2 h.1⟩,
      fun hg hc => shipSeq_bad hst hg hc⟩⟩
  case openDone => rw [Dev.openSeq_eq hs hx hn ha]
  case pauseWaits => rw [Dev.pauseSeq_eq hst, Dev.whenRead_wait hw]
  case pauseDone => rw [Dev.pauseSeq_eq hst, Dev.whenRead_go hgo]
  case noRoom => rw [Dev.resumeSeq_banked hst, if_pos ha]
  case freeRefused =>
    rw [Dev.dropSeq]
    exact if_pos hst
  case receiveDone => rw [Dev.receiveSeq_eq hs hx ha]
  case shipWaits =>
    rw [Dev.shipSeq_eq hst]
    exact Dev.whenRead_wait hw

end Sys2Proof.Machine
end

section
/-! SUPPORT. The command ring and a step boundary whose ring is empty (R204, R213, R221). -/

namespace Sys2Proof.Machine

open Sys2Proof.Safety

/-! ### Commands of the ring -/

/-- What an entry comes to: its result stands in the record and the consumer index advances, or it waits (R213). -/
def Dev.cqEnd (p q : Nat) : CacheDone → Dev
  | (e, some r) => (e.setSeqResult p q r).cqNext p
  | (e, none) => e

/-- The lengths that steps kept and the frees before the entry at the consumer index, applied. -/
def Dev.cqDue (d : Dev) (p : Nat) : Dev := (d.applyKeeps p).cqFrees p (d.cqCi p)

section
variable {d : Dev} {p : Nat} {f : Dev → CacheArgs → CacheDone}

theorem Dev.cqRun_sound (hx : (d.cqArgs p (d.cqCi p)).seq < d.nseq p) (hb : d.cqBad p (d.cqCi p) = false) :
    d.cqRun p f = Dev.cqEnd p (d.cqArgs p (d.cqCi p)).seq (f d (d.cqArgs p (d.cqCi p))) := by
  rw [Dev.cqRun]
  rw [if_neg (by omega), hb, if_neg Bool.false_ne_true]
  rcases f d (d.cqArgs p (d.cqCi p)) with ⟨e, _ | r⟩ <;> rfl

theorem Dev.cqRun_reserved (hx : (d.cqArgs p (d.cqCi p)).seq < d.nseq p) (hb : d.cqBad p (d.cqCi p) = true) :
    d.cqRun p f = Dev.cqEnd p (d.cqArgs p (d.cqCi p)).seq (d, some 1) := by
  rw [Dev.cqRun]
  rw [if_neg (by omega), hb, if_pos rfl]
  rfl

end

/-- The command that an op of the ring names. -/
inductive RingOp (p : Fin 64) : Nat → Instr → (Dev → CacheArgs → CacheDone) → Prop
  | openSeq : RingOp p 1 (.cacheOpen p) fun e x => e.openSeq p x
  | pauseSeq : RingOp p 2 (.cachePause p) fun e x => e.pauseSeq p x
  | resumeSeq : RingOp p 3 (.cacheResume p) fun e x => e.resumeSeq p x
  | freeSeq : RingOp p 4 (.cacheFree p) fun e x => e.dropSeq p x
  | receiveSeq : RingOp p 5 (.cacheReceive p) fun e x => e.receiveSeq p x
  | shipSeq : RingOp p 6 (.cacheShip p) fun e x => e.shipSeq p x

section
variable {s : State} {p : Fin 64} {op : Nat} {c : Instr} {f : Dev → CacheArgs → CacheDone}

theorem RingOp.exec_eq (h : RingOp p op c f) : exec c s = s.run fun d => d.when (d.cqReady p op) fun d => d.cqOne p f := by
  cases h <;> rfl

theorem RingOp.exec_ready (h : RingOp p op c f) (hl : s.dev.live = true) (hr : s.dev.cqReady p op = true) :
    exec c s = .next (on s fun d => (d.cqDue p).cqRun p f) :=
  h.exec_eq.trans (run_when_true (q := fun d => d.cqReady p op) (f := fun _ d => d.cqOne p f) hl hr)

/-- How a command of the ring ends, by what its operation comes to. -/
theorem exec_cqEnd {q : Nat} {r : CacheDone} (h : exec c s = .next (on s fun _ => Dev.cqEnd p q r)) :
    (∀ e n, r = (e, some n) → exec c s = .next (on s fun _ => (e.setSeqResult p q n).setFld (pCACHE p) rCACHE_CQ_IDX.off 47 32
      (((e.setSeqResult p q n).cqCi p + 1) % (e.setSeqResult p q n).cqSize p))) ∧
    (∀ e, r = (e, none) → exec c s = .next (on s fun _ => e)) := by
  constructor
  · rintro e n rfl
    exact h
  · rintro e rfl
    exact h

theorem RingOp.exec_sound (h : RingOp p op c f) (hl : s.dev.live = true) (hr : s.dev.cqReady p op = true) {d : Dev}
    (hd : s.dev.cqDue p = d) (hx : (d.cqArgs p (d.cqCi p)).seq < d.nseq p) (hb : d.cqBad p (d.cqCi p) = false) :
    exec c s = .next (on s fun _ => Dev.cqEnd p (d.cqArgs p (d.cqCi p)).seq (f d (d.cqArgs p (d.cqCi p)))) := by
  subst hd
  rw [h.exec_ready hl hr, on, Dev.cqRun_sound hx hb, on]

theorem RingOp.exec_reserved (h : RingOp p op c f) (hl : s.dev.live = true) (hr : s.dev.cqReady p op = true) {d : Dev}
    (hd : s.dev.cqDue p = d) (hx : (d.cqArgs p (d.cqCi p)).seq < d.nseq p) (hb : d.cqBad p (d.cqCi p) = true) :
    exec c s = .next (on s fun _ => Dev.cqEnd p (d.cqArgs p (d.cqCi p)).seq (d, some 1)) := by
  subst hd
  rw [h.exec_ready hl hr, on, Dev.cqRun_reserved hx hb, on]

end

/-! ### Lengths kept -/

section
variable {d : Dev} {p q n : Nat}

theorem applyKeeps_one (hk : (d.part p).keeps = [(q, n)]) (hq : q < d.nseq p) (h : InTier d p q) (hn : n < 2 ^ 20) :
    (d.applyKeeps p).seqLen p q = n ∧ ((d.applyKeeps p).part p).keeps = [] := by
  have heq : d.applyKeeps p = (d.setPart p { d.part p with keeps := [] }).storeNat (d.seqAt p q + 4) 4 n := by
    rw [Dev.applyKeeps, hk]
    exact if_neg (Nat.not_le.mpr hq)
  rw [heq]
  constructor
  · have hlen := Dev.recordNat_store (d := d.setPart p { d.part p with keeps := [] }) (p := p) (q := q) h (k := 4) (m := 0) (n := 4)
      (bs := natLe 4 n) (by decide) (by decide) (by simp [natLe_length])
    rw [List.drop_zero, List.take_of_length_le (by simp [natLe_length]), leNat_natLe] at hlen
    refine (congrArg (bits · 19 0) hlen).trans ?_
    rw [bits, Nat.shiftRight_zero]
    omega
  · have hpart := (d.setPart p { d.part p with keeps := [] }).store_settledPart p (d.seqAt p q + 4) (natLe 4 n)
    refine (congrArg Part.keeps hpart :).trans ?_
    rw [Dev.settledPart, Dev.part_setPart_same]
    rfl

/-! ### A step boundary with an empty ring -/

/-- The partition at such a boundary. -/
def Part.atBoundary (x : Part) : Part := { x with boundary := true, drainTo := none, keeps := [], frees := [] }

/-- With no command, kept length, free or awaiting sequence, a boundary comes to its steps 3 to 5. -/
theorem Dev.runBoundary_quiet (hci : d.cqCi p = d.cqPi p) (hf : (d.part p).frees = []) (hk : (d.part p).keeps = [])
    (ha : (d.part p).awaiting = []) :
    (d.applyKeeps p).runBoundary p (d.cqPi p) = (d.setPart p (d.part p).atBoundary).boundaryRest p := by
  have hkeeps : d.applyKeeps p = d.setPart p { d.part p with keeps := [] } := by
    rw [Dev.applyKeeps, hk]
    rfl
  have hdrain (x : Part) (hx : x.frees = []) (k : Nat) :
      Dev.cqDrain (d.setPart p x) p (d.cqPi p) (k + 1) = d.setPart p x := by
    have hfrees : (d.setPart p x).cqFrees p (d.cqCi p) = d.setPart p x := by
      simp only [Dev.cqFrees, Dev.part_setPart_same, hx, Dev.setPart_setPart, List.filter_nil]
      have hsame : { x with frees := ([] : List (Nat × Nat)) } = x := by rw [← hx]
      exact congrArg (d.setPart p) hsame
    exact (if_pos hci).trans hfrees
  have hwait (x : Part) (hx : x.awaiting = []) : (d.setPart p x).serveAwaiting p = d.setPart p x := by
    rw [Dev.serveAwaiting, Dev.part_setPart_same, hx]
    rfl
  rw [hkeeps, Dev.runBoundary]
  simp only [Dev.setPart_setPart, Dev.part_setPart_same]
  rw [hdrain _ (by exact hf)]
  refine (if_pos hci).trans ?_
  rw [Dev.part_setPart_same, Dev.setPart_setPart, hwait _ (by exact ha)]
  rw [Part.atBoundary, hf]

/-- The end of a boundary changes nothing but the partition's own state. -/
theorem Dev.endBoundary_eq (d : Dev) (p : Nat) : ∃ damp, d.endBoundary p =
    d.setPart p { d.part p with boundary := false, heldSteps := [], drainTo := none, damp := damp } := by
  have hsteps (l : List Word) (x : Part) : ∃ damp, (d.setPart p x).each l (fun k e => e.startStep p k) =
      d.setPart p { x with damp := damp } := by
    induction l generalizing x with
    | nil => exact ⟨x.damp, rfl⟩
    | cons k l ih =>
      have hstep : (d.setPart p x).startStep p k = d.setPart p { x with damp :=
          (x.damp.filter fun y => y.k != k) ++ [{ k := k, start := d.now, last := 0, ended := none }] } := by
        rw [Dev.startStep, Dev.part_setPart_same, Dev.setPart_setPart]
        rfl
      obtain ⟨damp, h⟩ := ih { x with damp :=
          (x.damp.filter fun y => y.k != k) ++ [{ k := k, start := d.now, last := 0, ended := none }] }
      refine ⟨damp, ?_⟩
      rw [← hstep] at h
      exact h
  exact hsteps _ _

theorem Dev.boundaryRest_of_short (h : (d.serveActive p).short p = 0) : d.boundaryRest p = (d.serveActive p).endBoundary p := by
  rw [Dev.boundaryRest]
  exact if_pos h

theorem Dev.serveActive_none (h : d.lacking p = []) : d.serveActive p = d := by
  rw [Dev.serveActive, h]
  rfl

theorem Dev.serveActive_one (h : d.lacking p = [q]) : d.serveActive p = d.giveHeadroom p q := by
  rw [Dev.serveActive, h]
  rfl

theorem Dev.lacking_nil_of_short (h : d.short p = 0) : d.lacking p = [] := by
  rw [Dev.short] at h
  exact List.eq_nil_of_length_eq_zero (by omega)

theorem Dev.mem_lacking {z : Nat} : z ∈ d.lacking p ↔ z < d.nseq p ∧ d.seqState p z = sqActive ∧ d.seqH p z = false := by
  simp only [Dev.lacking, Dev.slotsIn, List.mem_filter, List.mem_range, beq_iff_eq, Bool.not_eq_true', and_assoc]

/-- Nothing lacks headroom once every sequence has it that is active or awaits a page. -/
theorem Dev.short_eq_zero (h : ∀ z, z < d.nseq p → d.seqH p z = false → d.seqState p z ≠ sqActive ∧ d.seqState p z ≠ sqAwaiting) :
    d.short p = 0 := by
  have hactive : d.lacking p = [] := List.eq_nil_iff_forall_not_mem.mpr fun z hz => by
    obtain ⟨hn, hs, hh⟩ := Dev.mem_lacking.mp hz
    exact (h z hn hh).1 hs
  have hawait : ((d.slotsIn p sqAwaiting).filter fun s => !d.seqH p s) = [] := by
    refine List.eq_nil_iff_forall_not_mem.mpr fun z hz => ?_
    simp only [Dev.slotsIn, List.mem_filter, List.mem_range, beq_iff_eq, Bool.not_eq_true'] at hz
    exact (h z hz.1.1 hz.2).2 hz.1.2
  rw [Dev.short, hactive, hawait]
  rfl

/-- With one sequence short, and it active, none awaits a page without headroom. -/
theorem Dev.not_awaiting_of_short {z : Nat} (hl : d.lacking p = [q]) (hs : d.short p = 1) (hz : z < d.nseq p)
    (hh : d.seqH p z = false) : d.seqState p z ≠ sqAwaiting := by
  intro ha
  rw [Dev.short, hl, List.length_singleton, Nat.add_eq_left, List.length_eq_zero_iff] at hs
  have hmem : z ∈ (d.slotsIn p sqAwaiting).filter fun s => !d.seqH p s := by
    simp only [Dev.slotsIn, List.mem_filter, List.mem_range, beq_iff_eq, Bool.not_eq_true']
    exact ⟨⟨hz, ha⟩, hh⟩
  rw [hs] at hmem
  cases hmem

/-- A write of one record leaves another. -/
theorem beside_store_other {z k : Nat} {bs : List Byte} (h : InTier d p q) (hz : z ≠ q) (hk : k < 64) (hb : k + bs.length ≤ 64) :
    Beside p z d (d.store (d.seqAt p q + k) bs) := by
  have hterrain := d.store_terrain p (d.seqAt p q + k) bs
  refine ⟨hterrain, fun j hj _ => ?_⟩
  rw [Dev.recordByte, Dev.seqAt_of_regs (Dev.cacheRegs_of_terrain hterrain)]
  exact d.store_seen_apart bs (Dev.whereIs_record h hk) (by simp only [Dev.seqAt]; omega)

theorem beside_setSeqH_other {z : Nat} (h : InTier d p q) (hz : z ≠ q) (b : Bool) : Beside p z d (d.setSeqH p q b) := by
  have hword := beside_store_other h hz (k := 0) (bs := natLe 4 (putBits (d.seqWord p q) 27 27 (b2n b))) (by decide)
    (by rw [natLe_length]; decide)
  rw [Nat.add_zero] at hword
  exact hword.trans (Beside.of_view (d.setSeqH_view p q b))

/-! ### Headroom for the one sequence that lacks it -/

theorem Dev.setSeqH_pool (d : Dev) (p q : Nat) (b : Bool) : ((d.setSeqH p q b).part p).pool = (d.part p).pool :=
  (congrArg Part.pool (d.store_settledPart p (d.seqAt p q) _) :)

theorem Dev.takePage_pool (d : Dev) (p q i : Nat) :
    Tab.get (fun _ => 0) ((d.takePage p q i).part p).pool (d.nextPage p) = q * 8192 + i + 1 := by
  have hstore : (d.takePage p q i).settledPart p = (d.holdPage p q i).settledPart p :=
    congrArg Prod.snd ((d.holdPage p q i).engineStore_footing p p _ _)
  have hpool : ((d.takePage p q i).part p).pool = ((d.holdPage p q i).part p).pool := (congrArg Part.pool hstore :)
  rw [hpool, Dev.holdPage, Dev.part_setPart_same, Tab.get_set_same]

theorem Dev.giveHeadroom_lacking (ha : 0 < d.available p) (hh : d.seqH p q = false) :
    d.giveHeadroom p q = (d.takePage p q (d.seqPages p q)).setSeqH p q true := by
  rw [Dev.giveHeadroom]
  exact if_neg (by simp [hh]; omega)

section
variable (hl : d.lacking p = [q]) (ha : 0 < d.available p) (hn : d.seqPages p q < 8192) (hg : Guarded p q d)
  (hapart : ∀ z, z < d.nseq p → Apart (d.pageEntry p q (d.seqPages p q)) 4 (d.seqAt p z) 64)
include hl ha hn hg hapart

/-- The sequence has headroom and is active as before; every other record stands. -/
theorem giveHeadroom_one : (d.giveHeadroom p q).seqH p q = true ∧ (d.giveHeadroom p q).seqState p q = sqActive ∧
    ∀ z, z < d.nseq p → z ≠ q → Beside p z d (d.giveHeadroom p q) := by
  obtain ⟨-, hs, hh⟩ := Dev.mem_lacking.mp (hl ▸ List.mem_singleton.mpr rfl : q ∈ d.lacking p)
  have hpage := beside_takePage (hg.list _ hn)
  have hd := hpage.inTier hg.inTier
  rw [Dev.giveHeadroom_lacking ha hh]
  refine ⟨Dev.seqH_setSeqH hd true, ?_, fun z hz hne => ?_⟩
  · rw [Dev.seqState_setSeqH hd, hpage.seqState, hs]
  · have hother : Aloof d p z (d.pageEntry p q (d.seqPages p q)) 4 := ⟨hapart z hz, (hg.list _ hn).2⟩
    exact (beside_takePage hother).trans (beside_setSeqH_other hd hne true)

theorem short_giveHeadroom_one (hs : d.short p = 1) : (d.giveHeadroom p q).short p = 0 := by
  obtain ⟨hhead, -, hrest⟩ := giveHeadroom_one hl ha hn hg hapart
  have hregs := (giveHeadroom_record hg hn).1.regs
  refine Dev.short_eq_zero fun z hz hh => ?_
  rw [Dev.nseq_of_regs hregs] at hz
  by_cases hzq : z = q
  · rw [hzq, hhead] at hh
    cases hh
  · have hb := hrest z hz hzq
    rw [hb.seqH] at hh
    rw [hb.seqState]
    refine ⟨fun hactive => hzq ?_, Dev.not_awaiting_of_short hl hs hz hh⟩
    exact List.mem_singleton.mp (hl ▸ Dev.mem_lacking.mpr ⟨hz, hactive, hh⟩)

/-- The boundary gives the sequence a page, and ends. -/
theorem boundaryRest_one (hs : d.short p = 1) : ((d.boundaryRest p).part p).boundary = false ∧
    (d.boundaryRest p).seqH p q = true ∧ (d.boundaryRest p).seqState p q = sqActive ∧
    ∃ n, Tab.get (fun _ => 0) ((d.boundaryRest p).part p).pool n = q * 8192 + d.seqPages p q + 1 := by
  obtain ⟨hhead, hstate, -⟩ := giveHeadroom_one hl ha hn hg hapart
  have hshort := short_giveHeadroom_one hl ha hn hg hapart hs
  obtain ⟨-, -, hh⟩ := Dev.mem_lacking.mp (hl ▸ List.mem_singleton.mpr rfl : q ∈ d.lacking p)
  have hpool := d.takePage_pool p q (d.seqPages p q)
  rw [← Dev.setSeqH_pool _ p q true, ← Dev.giveHeadroom_lacking ha hh] at hpool
  obtain ⟨damp, h⟩ := (d.giveHeadroom p q).endBoundary_eq p
  rw [Dev.boundaryRest_of_short (by rw [Dev.serveActive_one hl]; exact hshort), Dev.serveActive_one hl, h, Dev.part_setPart_same]
  exact ⟨rfl, hhead, hstate, d.nextPage p, hpool⟩

end

end

/-! ### The statement -/

theorem exec_cacheStepBoundary_quiet {s : State} {p : Fin 64} (hl : s.dev.live = true) (hon : s.dev.cOn p = true)
    (ht : s.dev.inTest ukEngine (pCACHE p) = false) (hb : (s.dev.part p).boundary = false) (hci : s.dev.cqCi p = s.dev.cqPi p)
    (hf : (s.dev.part p).frees = []) (hk : (s.dev.part p).keeps = []) (ha : (s.dev.part p).awaiting = []) :
    exec (.cacheStepBoundary p) s = .next (on s fun d => (d.setPart p (d.part p).atBoundary).boundaryRest p) := by
  refine (run_when_true (q := fun d => d.cOn p && !d.inTest ukEngine (pCACHE p)) (f := fun _ d =>
    match (d.part p).boundary, (d.part p).drainTo with
    | false, _ => (d.applyKeeps p).runBoundary p (d.cqPi p)
    | true, some pi => d.runBoundary p pi
    | true, none => d) hl (by simp [hon, ht])).trans ?_
  rw [on, on, hb, Dev.runBoundary_quiet hci hf hk ha]

/-- Settles O22: the ring takes an entry by its op, and an empty ring leaves a boundary to the sequences that lack headroom, whose
page-list entry lies apart from every record. -/
theorem cacheCommandsComplete : Obligations.CacheCommandsComplete := by
  intro p s hlive
  refine ⟨?commands, fun q n hk hq h hn => applyKeeps_one hk hq h.1 hn,
    fun hon ht hb hci hf hk ha => ⟨fun hs => ?atRest, fun q hl hs hav hn hapart hg => ?headroom⟩⟩
  case commands =>
    intro op hready d i x next comes
    have hgood {c : Instr} {f : Dev → CacheArgs → CacheDone} (hop : RingOp p op c f) (hx : x.seq < d.nseq p)
        (hb : d.cqBad p i = false) : comes c (f d x) := exec_cqEnd (hop.exec_sound hlive hready rfl hx hb)
    refine ⟨fun hx hb => ⟨?_, ?_, ?_, ?_, ?_, ?_⟩, fun hx hb c hc => ?_⟩
    · rintro rfl; exact hgood .openSeq hx hb
    · rintro rfl; exact hgood .pauseSeq hx hb
    · rintro rfl; exact hgood .resumeSeq hx hb
    · rintro rfl; exact hgood .freeSeq hx hb
    · rintro rfl; exact hgood .receiveSeq hx hb
    · rintro rfl; exact hgood .shipSeq hx hb
    · have hbad {f : Dev → CacheArgs → CacheDone} (hop : RingOp p op c f) : comes c (d, some 1) :=
        exec_cqEnd (hop.exec_reserved hlive hready rfl hx hb)
      rcases hc with ⟨rfl, rfl⟩ | ⟨rfl, rfl⟩ | ⟨rfl, rfl⟩ | ⟨rfl, rfl⟩ | ⟨rfl, rfl⟩ | ⟨rfl, rfl⟩
      exacts [hbad .openSeq, hbad .pauseSeq, hbad .resumeSeq, hbad .freeSeq, hbad .receiveSeq, hbad .shipSeq]
  case atRest =>
    refine runs_of_next (exec_cacheStepBoundary_quiet hlive hon ht hb hci hf hk ha) ?_
    have hnone : (s.dev.setPart p (s.dev.part p).atBoundary).lacking p = [] := Dev.lacking_nil_of_short hs
    rw [Dev.boundaryRest_of_short (by rw [Dev.serveActive_none hnone]; exact hs), Dev.serveActive_none hnone]
    obtain ⟨damp, h⟩ := (s.dev.setPart p (s.dev.part p).atBoundary).endBoundary_eq p
    rw [h, Dev.part_setPart_same]
    exact ⟨rfl, ⟨rfl, rfl⟩, rfl⟩
  case headroom =>
    refine runs_of_next (exec_cacheStepBoundary_quiet hlive hon ht hb hci hf hk ha) ?_
    exact boundaryRest_one (d := s.dev.setPart p (s.dev.part p).atBoundary) hl
      (by rw [Dev.available, Dev.part_setPart_same]; exact hav) hn (Guarded.of_sound hg) hapart hs

end Sys2Proof.Machine
end

section
/-! SUPPORT. Copies, expiry and ships as the record and the ship of a sequence show them (R206 to R212). -/

namespace Sys2Proof.Machine

open Sys2Proof.Safety

/-! ### The ground under every write -/

section
variable {d e : Dev} {p q : Nat}

theorem InTier.of_base (h : InTier d p q) (hb : e.base p = d.base p) : InTier e p q := h.of_regs (Dev.cacheRegs_of_base hb)

theorem Dev.base_of_view (h : e.view p = d.view p) : e.base p = d.base p := Dev.base_of_terrain (Dev.terrain_of_view h)

@[simp] theorem Dev.setSeqState_base (d : Dev) (p q st : Nat) : (d.setSeqState p q st).base p = d.base p :=
  (Dev.base_of_view (d.setSeqState_view p q st)).trans (Dev.base_of_terrain (d.store_terrain p _ _))

@[simp] theorem Dev.setSeqH_base (d : Dev) (p q : Nat) (b : Bool) : (d.setSeqH p q b).base p = d.base p :=
  (Dev.base_of_view (d.setSeqH_view p q b)).trans (Dev.base_of_terrain (d.store_terrain p _ _))

@[simp] theorem Dev.freePool_base (d : Dev) (p q : Nat) : (d.freePool p q).base p = d.base p :=
  (Dev.base_of_view (d.freePool_view p q)).trans (d.setSeqH_base p q false)

@[simp] theorem Dev.setPageRef_base (d : Dev) (p q i : Nat) (r : PageRef) : (d.setPageRef p q i r).base p = d.base p :=
  Dev.base_of_footing (d.engineStore_footing p p _ _)

@[simp] theorem Dev.giveHeadroom_base (d : Dev) (p q : Nat) : (d.giveHeadroom p q).base p = d.base p := by
  unfold Dev.giveHeadroom
  split
  · rfl
  · rw [Dev.setSeqH_base, Dev.takePage_eq, Dev.setPageRef_base, Dev.base_of_view (d.holdPage_view p q _)]

@[simp] theorem Dev.reopenSeq_base (d : Dev) (p q : Nat) : (d.reopenSeq p q).base p = d.base p := by
  have hquant := Dev.base_of_view (d.setQuantAll_view p q (d.seqLen p q / 64))
  unfold Dev.reopenSeq
  dsimp only
  split
  · exact hquant
  · exact (Dev.each_keeps (fun e => e.base p) (fun t _ e => Dev.base_of_footing (e.reopenTile_footing p p q t)) _).trans hquant

/-- A count of a cache manager, as it rises by 1. -/
theorem fld_countStat_one (h : e.base p = d.base p) {hi lo : Nat} (hlo : lo ≤ hi) (hhi : hi < 64) :
    (e.count (pCACHE p) rCACHE_STAT.off hi lo 1).fld (pCACHE p) rCACHE_STAT.off hi lo =
      min (2 ^ (hi + 1 - lo) - 1) (d.fld (pCACHE p) rCACHE_STAT.off hi lo + 1) := by
  rw [Dev.fld_count_one _ _ _ _ _ hlo hhi, Dev.fld_of_regs (Dev.cacheRegs_of_base h) (by simp [keptRegs])]

/-- With no boundary waiting, a count is all that follows a copy or an expiry. -/
theorem Dev.countAgain_eq (h : e.base p = d.base p) (hb : (d.part p).boundary = false) (hi lo : Nat) :
    (e.count (pCACHE p) rCACHE_STAT.off hi lo 1).boundaryAgain p = e.count (pCACHE p) rCACHE_STAT.off hi lo 1 := by
  rw [Dev.boundaryAgain, Dev.count_part, Dev.boundary_of_base h, hb]
  rfl

/-! ### Copies -/

/-- The device once the pages of a sequence have been copied to others. -/
def Dev.copiedPages (d : Dev) (p q : Nat) (dst : List PageRef) : Dev :=
  (d.afterReads p (d.shipReads p q)).each ((d.seqRefs p q).zip dst) fun x e => e.copyPage p x.1 x.2

theorem Dev.copyPages_go {dst : List PageRef} {f : Dev → Dev} (h : (d.readGate (d.shipReads p q)).2 ≠ .wait) :
    d.copyPages p q dst f = f (d.copiedPages p q dst) := by
  unfold Dev.copyPages
  dsimp only
  split
  next heq => exact absurd (congrArg Prod.snd heq) h
  next heq =>
    rw [Dev.copiedPages, Dev.afterReads]
    exact congrArg (fun r => f ((Dev.engineReads r p _).each _ _)) (congrArg Prod.fst heq).symm

@[simp] theorem Dev.copiedPages_base (d : Dev) (p q : Nat) (dst : List PageRef) : (d.copiedPages p q dst).base p = d.base p := by
  refine Dev.base_of_footing ((Dev.each_keeps (fun e => e.footing p) (fun x _ e => e.copyPage_footing p p x.1 x.2) _).trans ?_)
  exact Dev.footing_of_sight (d.afterReads_sight p _)

/-- The pages of the list, put into the page list of a sequence in the place of its own. -/
def Dev.bankedPages (d : Dev) (p q : Nat) (dst : List PageRef) : Dev :=
  ((d.freePool p q).each dst.zipIdx fun x e => e.setPageRef p q x.2 x.1).setCopying p q []

@[simp] theorem Dev.bankedPages_base (d : Dev) (p q : Nat) (dst : List PageRef) : (d.bankedPages p q dst).base p = d.base p := by
  rw [Dev.bankedPages, Dev.base_of_view (Dev.setCopying_view _ p q [])]
  exact (Dev.each_keeps (fun e => e.base p) (fun x _ e => e.setPageRef_base p q x.2 x.1) _).trans (d.freePool_base p q)

/-- The same of a restoring copy: the bank pages of the sequence are free and its pool pages hold it. -/
def Dev.restoredPages (d : Dev) (p q : Nat) (bank : List Nat) (dst : List PageRef) : Dev :=
  (((d.freeBank p bank).each dst.zipIdx fun x e => Dev.setPageRef (e.setPart p { e.part p with
    pool := Tab.set (fun _ => 0) (e.part p).pool x.1.page (q * 8192 + x.2 + 1) }) p q x.2 x.1).setCopying p q []).reopenSeq p q

@[simp] theorem Dev.restoredPages_base (d : Dev) (p q : Nat) (bank : List Nat) (dst : List PageRef) :
    (d.restoredPages p q bank dst).base p = d.base p := by
  rw [Dev.restoredPages, Dev.reopenSeq_base, Dev.base_of_view (Dev.setCopying_view _ p q [])]
  refine (Dev.each_keeps (fun e => e.base p) (fun x _ e => ?_) _).trans (Dev.base_of_view (d.freeBank_view p bank))
  rw [Dev.setPageRef_base, Dev.base_of_view (Dev.setPart_view (by rfl))]

/-- A sequence whose copies are done is active, or awaits a page (R204). -/
def Dev.restoredSeq (d : Dev) (p q : Nat) : Dev :=
  if d.seqH p q then d.setSeqState p q sqActive else (d.setSeqState p q sqAwaiting).count (pCACHE p) rCACHE_STAT.off 31 16 1

theorem restoredSeq_state (h : InTier d p q) : (d.restoredSeq p q).seqState p q = sqActive ∧ (d.restoredSeq p q).seqH p q = true ∨
    (d.restoredSeq p q).seqState p q = sqAwaiting ∧ (d.restoredSeq p q).seqH p q = false := by
  unfold Dev.restoredSeq
  split
  next hh => exact .inl ⟨Dev.seqState_setSeqState h (by decide), (Dev.seqH_setSeqState h _).trans hh⟩
  next hh =>
    rw [Dev.seqState_countStat, Dev.seqH_countStat, Dev.seqH_setSeqState h]
    exact .inr ⟨Dev.seqState_setSeqState h (by decide), by simpa using hh⟩

/-! ### Ships -/

theorem Dev.ship?_of_settledPart (h : e.settledPart p = d.settledPart p) : e.ship? p q = d.ship? p q := by
  have hships : (e.part p).ships = (d.part p).ships := (congrArg Part.ships h :)
  rw [Dev.ship?, hships, Dev.ship?]

@[simp] theorem Dev.ship?_setShip (d : Dev) (p q : Nat) (x : Ship) : (d.setShip p q x).ship? p q = some x := by
  rw [Dev.ship?, Dev.setShip, Dev.part_setPart_same]
  dsimp only
  rw [Tab.find?_insert x fun y hy => (Tab.mem_drop.mp hy).2]
  rfl

@[simp] theorem Dev.ship?_dropShip (d : Dev) (p q : Nat) : (d.dropShip p q).ship? p q = none := by
  rw [Dev.ship?, Dev.dropShip, Dev.part_setPart_same, Option.map_eq_none_iff, List.find?_eq_none]
  intro y hy
  simpa using (Tab.mem_drop.mp hy).2

/-- A ship that fails at its source. -/
theorem failShip_record (h : InTier d p q) {x : Ship} (hx : x.prior < 16) : (d.failShip p q x).seqState p q = x.prior ∧
    bits ((d.failShip p q x).seqWord p q) 23 16 = 0x06 ∧ (d.failShip p q x).ship? p q = none := by
  have hstate := rewords_setSeqState h x.prior
  have hd := hstate.touches.inTier h
  have hview : Beside p q ((d.setSeqState p q x.prior).setSeqResult p q 0x06) (d.failShip p q x) :=
    Beside.of_view (Dev.dropShip_view _ p q)
  refine ⟨?_, ?_, Dev.ship?_dropShip _ p q⟩
  · rw [hview.seqState, Dev.seqState_setSeqResult hd, Dev.seqState_setSeqState h hx]
  · rw [hview.seqWord (.inr rfl), Dev.result_setSeqResult hd (by decide)]

/-- An arrival that fails. -/
theorem failArrival_record (h : InTier d p q) (x : Ship) {n : Nat} (hn : n < 256) (tell : Bool) :
    (d.failArrival p q x n tell).seqState p q = sqFree ∧ bits ((d.failArrival p q x n tell).seqWord p q) 23 16 = n := by
  unfold Dev.failArrival
  dsimp only
  have hd : InTier (if tell then d.sendShip x shAbort 0 0 [] else d) p q := by
    split
    · exact (Beside.of_sight (d.sendShip_sight p _ _ _ _ _)).inTier h
    · exact h
  generalize (if tell then d.sendShip x shAbort 0 0 [] else d) = e at *
  have hf := inTier_freeSeq hd false false
  exact ⟨(Dev.seqState_setSeqResult hf n).trans (Dev.seqState_freeSeq hd _ _), Dev.result_setSeqResult hf hn⟩

/-! ### A transfer that lands -/

/-- An engine's write to a range that it may access goes straight to memory, where no write is held and no window meets it. -/
theorem load_engineStore {a : Nat} {bs : List Byte} (hok : d.tierOk p (d.partWorld p) a bs.length = true)
    (hd : Direct d a bs.length) : (d.engineStore p a bs).load a bs.length = bs := by
  obtain ⟨hend, hopen, hwin⟩ := hd
  have hstore : d.engineStore p a bs = d.store a bs := by
    rw [Dev.engineStore, if_pos hok]
    exact Dev.put_of_no_window hwin
  rw [hstore, Dev.load, memLoad_eq_map]
  refine List.ext_getElem (by simp) fun i h1 h2 => ?_
  have hw : whereIs a = .tier := by rw [whereIs, if_pos (by omega)]
  have hs : (d.store a bs).switches ((a + i) / granBytes) = false := by
    have hsame : (d.store a bs).switches = d.switches := congrArg Ground.switches (d.store_ground p a bs)
    rw [hsame]
    simp [Dev.switches, hopen _ (mem_granules h2)]
  rw [List.getElem_map, List.getElem_range, ← Dev.seen_of_open hs, d.store_seen bs hw, dif_pos ⟨by omega, by omega⟩]
  congr 1
  omega

/-- The ship of an arrival with one more transfer received. -/
def Ship.received (x : Ship) (now : Nat) (item : ShipItem) : Ship := { x with since := now, got := NSet.add (ShipItem.key item) x.got }

/-- A transfer's data in its page, and the transfer noted. -/
def Dev.landData (d : Dev) (p q a : Nat) (x : Ship) (item : ShipItem) (data : List Byte) : Dev :=
  Dev.setShip (d.engineStore p a data) p q (x.received d.now item)

theorem Dev.landItem_tile {x : Ship} {page t : Nat} {data : List Byte} (hp : page < d.seqPages p q) (ht : t < d.cTpp p)
    (hd : data.length = d.cTile p) : d.landItem p q x (.tile page t data) =
      d.landData p q (d.tileAddr p (d.pageRef p q page) t) x (.tile page t data) data := by
  rw [Dev.landItem]
  exact if_pos (by simp [hp, ht, hd])

theorem Dev.landItem_params {x : Ship} {page t : Nat} {data : List Byte} (hp : page < d.seqPages p q) (ht : t < d.cTpp p)
    (hd : data.length = d.cParam p) : d.landItem p q x (.params page t data) =
      d.landData p q (d.paramAddr p (d.pageRef p q page) t) x (.params page t data) data := by
  rw [Dev.landItem]
  exact if_pos (by simp [hp, ht, hd])

theorem landData_lands (d : Dev) (p q a : Nat) (x : Ship) (item : ShipItem) (data : List Byte) :
    (∃ y, (d.landData p q a x item data).ship? p q = some y ∧ ShipItem.key item ∈ y.got) ∧
      (d.tierOk p (d.partWorld p) a data.length = true → Direct d a data.length →
        (d.landData p q a x item data).load a data.length = data) :=
  ⟨⟨x.received d.now item, Dev.ship?_setShip _ p q _, NSet.mem_add.mpr (.inl rfl)⟩, load_engineStore⟩

/-- Does a parameter record agree with the geometry of the cache (R211)? -/
abbrev SameGeometry (d : Dev) (p : Nat) (kv4 : Bool) (tpp dh : Nat) : Prop := kv4 = d.cKv4 p ∧ tpp = d.cTpp p ∧ dh = d.cDim p

section
variable {x : Ship} {data : List Byte} {kv4 : Bool} {tpp dh : Nat}

theorem Dev.landItem_foreign (h : ¬ SameGeometry d p kv4 tpp dh) :
    d.landItem p q x (.record data kv4 tpp dh) = d.failArrival p q x 0x07 true := by
  rw [Dev.landItem]
  refine if_pos ?_
  simp only [bne_iff_ne, Bool.or_eq_true]
  simp only [SameGeometry] at h
  tauto

theorem Dev.landItem_unknown (h : SameGeometry d p kv4 tpp dh) (he : d.slotOf p (leNat ((data.drop 12).take 4)) = none) :
    d.landItem p q x (.record data kv4 tpp dh) = d.failArrival p q x 0x05 true := by
  obtain ⟨rfl, rfl, rfl⟩ := h
  rw [Dev.landItem]
  refine (if_neg (by simp)).trans ?_
  rw [he]

/-- A record kept: its epoch is pinned once (R211). -/
def Dev.keepRecord (d : Dev) (p q i : Nat) (x : Ship) (item : ShipItem) (data : List Byte) : Dev :=
  (if Tab.get (fun _ => 0) (d.part p).seqPins q != 0 then d
    else (d.pin p i).setPart p { (d.pin p i).part p with seqPins := Tab.set (fun _ => 0) (d.part p).seqPins q (i + 1) }).setShip
      p q { x.received d.now item with record := some data }

theorem Dev.landItem_kept {i : Nat} (h : SameGeometry d p kv4 tpp dh)
    (he : d.slotOf p (leNat ((data.drop 12).take 4)) = some i) : d.landItem p q x (.record data kv4 tpp dh) =
      d.keepRecord p q i x (.record data kv4 tpp dh) data := by
  obtain ⟨rfl, rfl, rfl⟩ := h
  rw [Dev.landItem]
  refine (if_neg (by simp)).trans ?_
  rw [he]
  rfl

theorem keepRecord_keeps (d : Dev) (p q i : Nat) (x : Ship) (item : ShipItem) (data : List Byte) :
    (d.keepRecord p q i x item data).seqState p q = d.seqState p q ∧
      (∃ y, (d.keepRecord p q i x item data).ship? p q = some y ∧ y.record = some data) ∧
      Tab.get (fun _ => 0) ((d.keepRecord p q i x item data).part p).seqPins q ≠ 0 := by
  refine ⟨Beside.seqState (Beside.of_view ?_), ⟨_, Dev.ship?_setShip _ p q _, rfl⟩, ?_⟩
  · rw [Dev.keepRecord, Dev.setShip_view]
    split
    · rfl
    · exact (Dev.setPart_view (by rfl)).trans (d.pin_view p i)
  · rw [Dev.keepRecord, Dev.setShip, Dev.part_setPart_same]
    dsimp only
    split
    next h => simpa using h
    · rw [Dev.part_setPart_same, Tab.get_set_same]
      exact Nat.succ_ne_zero i

/-- How often a transfer of a ship has been asked for again. -/
def Ship.triesOf (x : Ship) (item : ShipItem) : Nat := Tab.get (fun _ => 0) x.tries (ShipItem.key item)

/-- The ship with a transfer asked for once more. -/
def Ship.askedAgain (x : Ship) (now : Nat) (item : ShipItem) : Ship :=
  { x with since := now, tries := Tab.set (fun _ => 0) x.tries (ShipItem.key item) (x.triesOf item + 1) }

/-- A transfer whose check value is bad, asked for again (R210 step 4). -/
def Dev.askAgain (d : Dev) (p q : Nat) (x : Ship) (item : ShipItem) : Dev :=
  (d.setShip p q (x.askedAgain d.now item)).sendShip x shAgain (ShipItem.key item / 4096) (ShipItem.key item % 4096) []

theorem askAgain_counts (d : Dev) (p q : Nat) (x : Ship) (item : ShipItem) :
    (d.askAgain p q x item).seqState p q = d.seqState p q ∧ ∃ y, (d.askAgain p q x item).ship? p q = some y ∧
      y.triesOf item = x.triesOf item + 1 := by
  have hsend := (d.setShip p q (x.askedAgain d.now item)).sendShip_sight p x shAgain (ShipItem.key item / 4096)
    (ShipItem.key item % 4096) []
  refine ⟨(Beside.of_sight hsend).seqState.trans (Beside.of_view (Dev.setShip_view d p q _)).seqState, x.askedAgain d.now item,
    (Dev.ship?_of_settledPart (Dev.settledPart_of_sight hsend)).trans (Dev.ship?_setShip d p q _), ?_⟩
  exact Tab.get_set_same _ _ _ _

end

/-! ### A whole arrival -/

/-- What a record takes of the one that arrived: its length, its owner and its owner's tag, beside its own pages (R211). -/
def Dev.takeRecord (d : Dev) (p q : Nat) (r : List Byte) : Dev :=
  let field := fun a n => (r.drop a).take n
  let d := d.store (d.seqAt p q + 4) (field 4 4)
  (d.store (d.seqAt p q + 12) (field 12 4)).store (d.seqAt p q + 40) (field 40 4)

/-- The sequence of a whole arrival, active, and its source told (R210, R211). -/
def Dev.arrivedSeq (d : Dev) (p q : Nat) (x : Ship) (r : List Byte) : Dev :=
  ((((d.takeRecord p q r).setSeqState p q sqActive).setSeqResult p q 0).reopenSeq p q |>.sendShip x shAck 0 0 []).dropShip p q

theorem guarded_store (h : Guarded p q d) {k : Nat} {bs : List Byte} (hk : k + bs.length ≤ 16 ∨ 24 ≤ k ∧ k < 64) :
    Guarded p q (d.store (d.seqAt p q + k) bs) :=
  h.of_touches (touches_store h.inTier (by omega)) (by omega)

theorem guarded_takeRecord (h : Guarded p q d) (r : List Byte) : Guarded p q (d.takeRecord p q r) := by
  have hlen (a : Nat) : ((r.drop a).take 4).length ≤ 4 := by simp
  have hrest {e : Dev} (he : Guarded p q e) : Guarded p q
      ((e.store (e.seqAt p q + 12) ((r.drop 12).take 4)).store (e.seqAt p q + 40) ((r.drop 40).take 4)) := by
    have hat := Dev.seqAt_of_regs (q := q) (Dev.cacheRegs_of_terrain (e.store_terrain p (e.seqAt p q + 12) ((r.drop 12).take 4)))
    have hlast := guarded_store (guarded_store he (k := 12) (bs := (r.drop 12).take 4) (.inl (by have := hlen 12; omega)))
      (k := 40) (bs := (r.drop 40).take 4) (.inr (by decide))
    rw [hat] at hlast
    exact hlast
  exact hrest (guarded_store h (k := 4) (bs := (r.drop 4).take 4) (.inl (by have := hlen 4; omega)))

theorem arrivedSeq_active (h : Guarded p q d) (x : Ship) (r : List Byte) :
    (d.arrivedSeq p q x r).seqState p q = sqActive ∧ (d.arrivedSeq p q x r).ship? p q = none := by
  refine ⟨?_, Dev.ship?_dropShip _ p q⟩
  have hg := guarded_takeRecord h r
  rw [Dev.arrivedSeq, (Beside.of_view (Dev.dropShip_view _ p q)).seqState, (Beside.of_sight (Dev.sendShip_sight _ p _ _ _ _ _)).seqState]
  generalize d.takeRecord p q r = e at *
  have hs := rewords_setSeqState hg.inTier sqActive
  have hd := hs.touches.inTier hg.inTier
  have hr := rewords_setSeqResult hd 0
  have hg2 := (hg.of_touches hs.touches (.inr (by decide))).of_touches hr.touches (.inr (by decide))
  rw [(beside_reopenSeq hg2).seqState, Dev.seqState_setSeqResult hd, Dev.seqState_setSeqState hg.inTier (by decide)]

end

end Sys2Proof.Machine
end

section
/-! SUPPORT. Events of the cache manager (R206 to R212). -/

namespace Sys2Proof.Machine

open Sys2Proof.Safety

section
variable {s : State} {p : Fin 64} {q : Fin 16384} (hl : s.dev.live = true) (hon : s.dev.cOn p = true) (hq : q.val < s.dev.nseq p)
include hl hon hq

/-! ### When each event takes effect -/

theorem exec_bankingCopyDone (hst : s.dev.seqState p q = sqBanking) (hgo : (s.dev.readGate (s.dev.shipReads p q)).2 ≠ .wait) :
    ∃ dst, exec (.bankingCopyDone p q) s = .next (on s fun d =>
      ((((d.copiedPages p q dst).bankedPages p q dst).setSeqState p q sqBanked).count (pCACHE p) rCACHE_STAT.off 63 48 1).boundaryAgain
        p) := by
  refine ⟨(s.dev.copyingOf p q).map fun n => ⟨true, n⟩, ?_⟩
  change execBankingCopyDone p q s = _
  rw [execBankingCopyDone, run_when_true hl (by simp [hon, hq, hst])]
  rw [on, Dev.copyPages_go hgo]
  rfl

theorem exec_restoringCopyDone (hst : s.dev.seqState p q = sqRestoring) (hgo : (s.dev.readGate (s.dev.shipReads p q)).2 ≠ .wait) :
    ∃ bank dst, exec (.restoringCopyDone p q) s = .next (on s fun d =>
      (((d.copiedPages p q dst).restoredPages p q bank dst).giveHeadroom p q).restoredSeq p q) := by
  refine ⟨(s.dev.seqRefs p q).map PageRef.page, (s.dev.copyingOf p q).map fun n => ⟨false, n⟩, ?_⟩
  change execRestoringCopyDone p q s = _
  rw [execRestoringCopyDone, run_when_true hl (by simp [hon, hq, hst])]
  rw [on, Dev.copyPages_go hgo]
  rfl

theorem exec_sequenceExpiry (hst : s.dev.seqState p q = sqPaused ∨ s.dev.seqState p q = sqBanking ∨ s.dev.seqState p q = sqBanked)
    (ht : s.dev.seqExpiry p q ≤ s.dev.ltc.toNat) (hs : s.dev.spared p q = false) : exec (.sequenceExpiry p q) s =
      .next (on s fun d => ((d.freeSeq p q true false).count (pCACHE p) rCACHE_STAT.off 47 32 1).boundaryAgain p) := by
  have hnow : s.dev.seqExpiry p q ≤ s.dev.now := ht
  change execSequenceExpiry p q s = _
  rw [execSequenceExpiry, run_when_true hl]
  rcases hst with h | h | h <;> simp [hon, hq, h, hnow, hs]

section
variable {x : Ship} (hx : s.dev.ship? p q = some x)
include hx

theorem exec_shipTileArrival (hh : s.dev.hears = true) (hst : s.dev.seqState p q = sqArriving) (item : ShipItem) (crcOk : Bool) :
    exec (.shipTileArrival p q item crcOk) s = .next (on s fun d => if crcOk then d.landItem p q x item
      else if 4 ≤ x.triesOf item then d.failArrival p q x 0x06 true else d.askAgain p q x item) := by
  change execShipTileArrival p q item crcOk s = _
  rw [execShipTileArrival, run_when_true hl (by simp [hon, hq, hst, hh])]
  rw [on, on, hx]
  rfl

theorem exec_arrivalComplete (hst : s.dev.seqState p q = sqArriving) (hw : s.dev.shipWhole p q x = true)
    (hv : s.dev.engineVisible = true) : ∃ r, exec (.arrivalComplete p q) s = .next (on s fun d => d.arrivedSeq p q x r) := by
  have hsome : x.record.isSome = true := by
    simp only [Dev.shipWhole, Bool.and_eq_true] at hw
    exact hw.1
  obtain ⟨r, hr⟩ := Option.isSome_iff_exists.mp hsome
  refine ⟨r, ?_⟩
  change execArrivalComplete p q s = _
  rw [execArrivalComplete, run_when_true hl (by simp [hon, hq, hst])]
  rw [on, on, hx]
  dsimp only
  rw [hr]
  dsimp only
  rw [hw, hv]
  rfl

theorem exec_shipAbortReceive (hh : s.dev.hears = true) (hst : s.dev.seqState p q = sqShipping ∨ s.dev.seqState p q = sqArriving) :
    exec (.shipAbortReceive p q) s = .next (on s fun d =>
      if d.seqState p q == sqShipping then d.failShip p q x else d.failArrival p q x 0x06 false) := by
  change execShipAbortReceive p q s = _
  rw [execShipAbortReceive, run_when_true hl (by rcases hst with h | h <;> simp [hon, hq, h, hh])]
  rw [on, on, hx]

theorem exec_shipAckTimeout (hst : s.dev.seqState p q = sqShipping) (ht : x.since + 2 * s.dev.shipTo p ≤ s.dev.ltc.toNat) :
    exec (.shipAckTimeout p q) s = .next (on s fun d => d.failShip p q x) := by
  change execShipAckTimeout p q s = _
  rw [execShipAckTimeout, run_when_true hl (by simp [hon, hq, hst])]
  rw [on, on, hx]
  exact congrArg (fun d => Host.Outcome.next { s with dev := d }) (if_pos ht)

theorem exec_arrivalTimeout (hst : s.dev.seqState p q = sqArriving) (ht : x.since + s.dev.shipTo p ≤ s.dev.ltc.toNat) :
    exec (.arrivalTimeout p q) s = .next (on s fun d => d.failArrival p q x 0x06 false) := by
  change execArrivalTimeout p q s = _
  rw [execArrivalTimeout, run_when_true hl (by simp [hon, hq, hst])]
  rw [on, on, hx]
  exact congrArg (fun d => Host.Outcome.next { s with dev := d }) (if_pos ht)

end

theorem exec_shipAcknowledgement (hh : s.dev.hears = true) (hst : s.dev.seqState p q = sqShipping) :
    exec (.shipAcknowledgement p q) s = .next (on s fun d =>
      ((d.freeSeq p q false true).setSeqResult p q 0).count (pCACHE p) rCACHE_STAT.off 15 0 1) := by
  change execShipAcknowledgement p q s = _
  rw [execShipAcknowledgement, run_when_true hl]
  simp [hon, hq, hst, hh]

end

/-! ### What an acknowledged or an expired sequence leaves -/

section
variable {d : Dev} {p q : Nat}

theorem expired_record (h : InTier d p q) (hb : (d.part p).boundary = false) :
    let e := ((d.freeSeq p q true false).count (pCACHE p) rCACHE_STAT.off 47 32 1).boundaryAgain p
    e.seqState p q = sqFree ∧ (e.seqWord p q).testBit 26 = true ∧ e.fld (pCACHE p) rCACHE_STAT.off 47 32 =
      min 65535 (d.fld (pCACHE p) rCACHE_STAT.off 47 32 + 1) := by
  obtain ⟨ht, hw⟩ := rewords_freeSeq h true false
  have hbase := Dev.base_of_terrain ht.terrain
  dsimp only
  rw [Dev.countAgain_eq hbase hb, Dev.seqState_countStat, Dev.seqWord_countStat, hw]
  exact ⟨Dev.seqState_freeSeq h _ _, testBit_freedWord_expired _ _ _, fld_countStat_one hbase (by decide) (by decide)⟩

theorem acknowledged_record (h : InTier d p q) :
    let e := ((d.freeSeq p q false true).setSeqResult p q 0).count (pCACHE p) rCACHE_STAT.off 15 0 1
    e.seqState p q = sqFree ∧ (e.seqWord p q).testBit 25 = true ∧ e.fld (pCACHE p) rCACHE_STAT.off 15 0 =
      min 65535 (d.fld (pCACHE p) rCACHE_STAT.off 15 0 + 1) := by
  obtain ⟨ht, hw⟩ := rewords_freeSeq h false true
  have hd := ht.inTier h
  have hr := rewords_setSeqResult hd 0
  have hbase := (Dev.base_of_terrain hr.touches.terrain).trans (Dev.base_of_terrain ht.terrain)
  intro e
  rw [Dev.seqState_countStat, Dev.seqWord_countStat, hr.word, hw, testBit_putBits _ _ _ _ _ (by decide), if_neg (by decide)]
  exact ⟨(Dev.seqState_setSeqResult hd 0).trans (Dev.seqState_freeSeq h _ _), testBit_freedWord_shipped _ _ _,
    fld_countStat_one hbase (by decide) (by decide)⟩

/-- A sequence whose pages lie in the bank is banked, and counted. -/
theorem banked_record {e : Dev} (h : InTier d p q) (hb : (d.part p).boundary = false) (he : e.base p = d.base p) :
    let f := ((e.setSeqState p q sqBanked).count (pCACHE p) rCACHE_STAT.off 63 48 1).boundaryAgain p
    f.seqState p q = sqBanked ∧ f.fld (pCACHE p) rCACHE_STAT.off 63 48 =
      min 65535 (d.fld (pCACHE p) rCACHE_STAT.off 63 48 + 1) := by
  have hbase := (e.setSeqState_base p q sqBanked).trans he
  dsimp only
  rw [Dev.countAgain_eq hbase hb, Dev.seqState_countStat]
  exact ⟨Dev.seqState_setSeqState (h.of_base he) (by decide), fld_countStat_one hbase (by decide) (by decide)⟩

end

/-! ### The statement -/

/-- Settles O24: each event is its operation on the record, and what else it writes, of pages and of tails, lies apart from the
record. -/
theorem cacheEventsComplete : Obligations.CacheEventsComplete := by
  intro p q s hl hon hq hsound hb st stat reads
  have hd : InTier s.dev p q := .of_direct hsound.1
  refine ⟨fun hst hgo => ?banked, fun hst hgo => ?restored,
    fun hst ht hs => runs_of_next (exec_sequenceExpiry hl hon hq hst ht hs) (expired_record hd hb), fun x hh hst hx => ?transfer,
    fun x hst hx hw hv => ?arrived,
    fun hh hst => runs_of_next (exec_shipAcknowledgement hl hon hq hh hst) (acknowledged_record hd),
    fun x i hst hx hprior hi => ?failedShip, fun x i hst hx hi => ?failedArrival⟩
  case banked =>
    obtain ⟨dst, hexec⟩ := exec_bankingCopyDone hl hon hq hst hgo
    refine runs_of_next hexec (banked_record hd hb ?_)
    rw [Dev.bankedPages_base, Dev.copiedPages_base]
  case restored =>
    obtain ⟨bank, dst, hexec⟩ := exec_restoringCopyDone hl hon hq hst hgo
    refine runs_of_next hexec (restoredSeq_state (hd.of_base ?_))
    rw [Dev.giveHeadroom_base, Dev.restoredPages_base, Dev.copiedPages_base]
  case transfer =>
    have hgood (item : ShipItem) := exec_shipTileArrival hl hon hq hx hh hst item true
    have hbad (item : ShipItem) := exec_shipTileArrival hl hon hq hx hh hst item false
    refine ⟨fun page t data hpage ht => ⟨fun hlen => runs_of_next (hgood _) ?tile, fun hlen => runs_of_next (hgood _) ?params⟩,
      fun data kv4 tpp dh => ⟨fun hne => runs_of_next (hgood _) ?foreign, fun heq he => runs_of_next (hgood _) ?unknown,
        fun i heq he => runs_of_next (hgood _) ?kept⟩,
      fun item => ⟨fun hn => runs_of_next (hbad item) ?again, fun hn => runs_of_next (hbad item) ?tooMany⟩⟩
    case tile =>
      rw [if_pos rfl, Dev.landItem_tile hpage ht hlen]
      exact landData_lands _ _ _ _ _ _ _
    case params =>
      rw [if_pos rfl, Dev.landItem_params hpage ht hlen]
      exact landData_lands _ _ _ _ _ _ _
    case foreign =>
      rw [if_pos rfl, Dev.landItem_foreign hne]
      exact failArrival_record hd x (by decide) true
    case unknown =>
      rw [if_pos rfl, Dev.landItem_unknown heq he]
      exact failArrival_record hd x (by decide) true
    case kept =>
      rw [if_pos rfl, Dev.landItem_kept heq he]
      obtain ⟨hsame, hrest⟩ := keepRecord_keeps s.dev p q i x (.record data kv4 tpp dh) data
      exact ⟨hsame.trans hst, hrest⟩
    case again =>
      rw [if_neg Bool.false_ne_true, if_neg (by exact Nat.not_le.mpr hn)]
      obtain ⟨hsame, hrest⟩ := askAgain_counts s.dev p q x item
      exact ⟨hsame.trans hst, hrest⟩
    case tooMany =>
      rw [if_neg Bool.false_ne_true, if_pos (by exact hn)]
      exact failArrival_record hd x (by decide) true
  case arrived =>
    obtain ⟨r, hexec⟩ := exec_arrivalComplete hl hon hq hx hst hw hv
    exact runs_of_next hexec (arrivedSeq_active (.of_sound hsound) x r)
  case failedShip =>
    have hfail := failShip_record hd hprior
    rcases hi with ⟨rfl, hh⟩ | ⟨rfl, ht⟩
    · refine runs_of_next (exec_shipAbortReceive hl hon hq hx hh (.inl hst)) ?_
      rw [if_pos (beq_iff_eq.mpr hst)]
      exact hfail
    · exact runs_of_next (exec_shipAckTimeout hl hon hq hx hst ht) hfail
  case failedArrival =>
    have hfail := failArrival_record hd x (n := 0x06) (by decide) false
    rcases hi with ⟨rfl, hh⟩ | ⟨rfl, ht⟩
    · refine runs_of_next (exec_shipAbortReceive hl hon hq hx hh (.inr hst)) ?_
      have hne : ¬ (s.dev.seqState p q == sqShipping) = true := by
        rw [show s.dev.seqState p q = sqArriving from hst]
        decide
      rw [if_neg hne]
      exact hfail
    · exact runs_of_next (exec_arrivalTimeout hl hon hq hx hst ht) hfail

end Sys2Proof.Machine
end

section
/-! SUPPORT. What a write of the tier range leaves: the bytes outside it, the cores, and the registers beyond the phase accounts;
and what decides whether a write goes straight to memory (R120, R171, R265). -/

namespace Sys2Proof.Machine

open Sys2Proof.Safety

/-! ### Registers beyond the phase accounts -/

/-- A register that is none of the phase accounts of chapter 09. -/
def OffAccounts (page off : Nat) : Prop := off < 0x10000 ∧ (page < 0x1C0 ∨ 0x200 ≤ page ∨ off < 0x400)

section
variable {page off : Nat} (h : OffAccounts page off)
include h

theorem Dev.rd_phCount_off (d : Dev) {q o : Nat} (hq : q < 64) (ho : 0x400 ≤ o ∧ o < 0x10000) (hi lo n : Nat) :
    (d.phCount q o hi lo n).rd page off = d.rd page off := by
  have hne {o : Nat} (ho : 0x400 ≤ o ∧ o < 0x10000) : regKey page off ≠ regKey (pLRN q) o := by
    obtain ⟨hoff, hpage⟩ := h
    simp only [regKey, pLRN]
    omega
  unfold Dev.phCount
  dsimp only
  split
  · exact Dev.rd_setFld_other _ _ _ _ _ _ _ _ (hne ho)
  · exact (Dev.rd_setFld_other _ _ _ _ _ _ _ _ (hne (by decide))).trans (Dev.rd_setFld_other _ _ _ _ _ _ _ _ (hne ho))

theorem Dev.rd_phSync_off (d : Dev) (q : Nat) : (d.phSync q).rd page off = d.rd page off := by
  unfold Dev.phSync
  split
  · rfl
  next hq =>
    refine Dev.each_keeps (fun e => e.rd page off) (fun x _ e => ?_) d
    split
    · rfl
    next hx =>
      have hn : x.1 < 16 := by simp at hx; omega
      exact (Dev.rd_phCount_off h _ (by omega) (phWord_bounds hn (by decide)) _ _ _).trans
        (Dev.rd_phCount_off h _ (by omega) (phWord_bounds hn (by decide)) _ _ _)

theorem Dev.rd_settle_off (d : Dev) (g : Nat) : (d.settle g).rd page off = d.rd page off := by
  unfold Dev.settle
  dsimp only
  split
  · exact Dev.rd_phSync_off h _ _
  · rfl

end

theorem Dev.toCompanion_rd (d : Dev) (o : Out) (page off : Nat) : (d.toCompanion o).rd page off = d.rd page off := by
  rw [d.toCompanion_frame o]
  rfl

theorem Dev.invalidate_rd (d : Dev) (a n page off : Nat) : (d.invalidate a n).rd page off = d.rd page off := by
  unfold Dev.invalidate
  dsimp only
  split
  · rfl
  · exact Dev.each_keeps (fun e => e.rd page off) (fun _ _ e => e.toCompanion_rd _ _ _) _

theorem Dev.markDirty_rd (d : Dev) (a n page off : Nat) : (d.markDirty a n).rd page off = d.rd page off :=
  Dev.each_keeps (fun e => e.rd page off) (fun _ _ _ => by dsimp only; split <;> rfl) d

theorem Dev.warm_rd (d : Dev) (a n page off : Nat) : (d.warm a n).rd page off = d.rd page off :=
  Dev.each_keeps (fun e => e.rd page off) (fun _ _ _ => by dsimp only; split <;> rfl) d

/-! ### What follows from a write -/

theorem Upkeep.markDirty (d : Dev) (a n : Nat) : Upkeep d (d.markDirty a n) := by
  refine Upkeep.each (fun t e => ?_) d
  dsimp only
  split
  · exact .setMig e _ _
  · exact .refl e

theorem Upkeep.dropStaged (d : Dev) (a n : Nat) : Upkeep d (d.dropStaged a n) := by
  unfold Dev.dropStaged
  split
  · exact .refl d
  · exact ⟨rfl, rfl, fun _ _ _ => rfl⟩

theorem Upkeep.warm (d : Dev) (a n : Nat) : Upkeep d (d.warm a n) := by
  refine Upkeep.each (fun g e => ?_) d
  dsimp only
  split
  · exact .setGran e _ _
  · exact .refl e

/-- Beside the connections, a write is noted by upkeep of the tiers alone. -/
theorem Dev.noteWrite_upkeep (d : Dev) (a n : Nat) : ∃ e, Upkeep d e ∧ Upkeep (e.renewConns a n) (d.noteWrite a n) :=
  ⟨(((d.markDirty a n).dropStaged a n).invalidate a n).warm a n,
    (((Upkeep.markDirty d a n).trans (.dropStaged _ a n)).trans (.invalidate _ a n)).trans (.warm _ a n), .settle _ _⟩

theorem Dev.noteWrite_mem (d : Dev) (a n : Nat) : (d.noteWrite a n).mem = d.mem := by
  obtain ⟨e, he, hn⟩ := d.noteWrite_upkeep a n
  exact hn.mem.trans he.mem

theorem Dev.noteWrite_cores (d : Dev) (a n : Nat) : (d.noteWrite a n).cores = d.cores := by
  obtain ⟨e, he, hn⟩ := d.noteWrite_upkeep a n
  exact hn.cores.trans he.cores

theorem Dev.noteWrite_rd {page off : Nat} (h : OffAccounts page off) (d : Dev) (a n : Nat) :
    (d.noteWrite a n).rd page off = d.rd page off := by
  refine (Dev.rd_settle_off h _ _).trans ((Dev.warm_rd _ a n _ _).trans ((Dev.invalidate_rd _ a n _ _).trans ?_))
  rw [Dev.rd, Dev.dropStaged_regs]
  exact d.markDirty_rd a n page off

/-! ### A write of the tier range -/

theorem Dev.storeGran_cores (d : Dev) (a : Nat) (bs : List Byte) : (d.storeGran a bs false).cores = d.cores := by
  rw [Dev.storeGran_eq]
  split
  · rfl
  · exact Dev.noteWrite_cores _ _ _

theorem Dev.storeGran_rd {page off : Nat} (h : OffAccounts page off) (d : Dev) (a : Nat) (bs : List Byte) :
    (d.storeGran a bs false).rd page off = d.rd page off := by
  rw [Dev.storeGran_eq]
  split
  · rfl
  · exact Dev.noteWrite_rd h _ _ _

theorem Dev.load_storeGran_other (d : Dev) {a : Nat} {bs : List Byte} {x : Nat} (hx : x < a ∨ a + bs.length ≤ x) :
    (d.storeGran a bs false).load x 1 = d.load x 1 := by
  rw [Dev.storeGran_eq]
  split
  · rfl
  · rw [Dev.load, Dev.noteWrite_mem]
    exact Dev.load_storeRaw_other d a bs x hx

section
variable {a : Nat} (hw : whereIs a = .tier)
include hw

theorem Dev.store_cores (d : Dev) (bs : List Byte) : (d.store a bs).cores = d.cores := by
  rw [d.store_of_tier bs hw]
  exact Dev.each_keeps Dev.cores (fun _ _ e => e.storeGran_cores _ _) d

theorem Dev.store_rd {page off : Nat} (h : OffAccounts page off) (d : Dev) (bs : List Byte) :
    (d.store a bs).rd page off = d.rd page off := by
  rw [d.store_of_tier bs hw]
  exact Dev.each_keeps (fun e => e.rd page off) (fun _ _ e => Dev.storeGran_rd h e _ _) d

theorem Dev.load_store_other (d : Dev) {bs : List Byte} {x : Nat} (hx : x < a ∨ a + bs.length ≤ x) :
    (d.store a bs).load x 1 = d.load x 1 := by
  rw [d.store_of_tier bs hw]
  refine Dev.each_keeps (fun e => e.load x 1) (fun r hr e => e.load_storeGran_other ?_) d
  obtain ⟨hlo, hhi, -⟩ := mem_pieces hr
  rw [List.length_take, List.length_drop]
  omega

end

/-! ### What decides where a write lands -/

/-- The accumulate windows of every partition, and the owner and the switching of every granule. -/
structure Landing where
  windows : Nat → List (Nat × Nat)
  owner : Nat → Nat
  switches : Nat → Bool

def Dev.landing (d : Dev) : Landing := ⟨d.windows, fun g => (d.gran g).part, d.switches⟩

theorem Dev.landing_of_ground {d e : Dev} (h : ∀ p, e.ground p = d.ground p) : e.landing = d.landing := by
  have hwindows : e.windows = d.windows := funext fun p => congrArg Ground.windows (h p)
  have howner : (fun g => (e.gran g).part) = fun g => (d.gran g).part := congrArg Ground.owner (h 0)
  have hswitches : e.switches = d.switches := congrArg Ground.switches (h 0)
  rw [Dev.landing, hwindows, howner, hswitches, Dev.landing]

theorem Dev.landing_of_sight {d e : Dev} (h : ∀ p, e.sight p = d.sight p) : e.landing = d.landing :=
  Dev.landing_of_ground fun p => Dev.ground_of_sight (h p)

@[simp] theorem Dev.store_landing (d : Dev) (a : Nat) (bs : List Byte) : (d.store a bs).landing = d.landing :=
  Dev.landing_of_ground fun p => d.store_ground p a bs

/-- A word of register space that is no word of a window. -/
def OffWindows (key : Nat) : Prop :=
  ∀ p i, i < 16 → regKey (pSTV p) (rSTV_WIN.at i) ≠ key ∧ regKey (pSTV p) (rSTV_WIN_N.at i) ≠ key

theorem offWindows_of {page off : Nat} (ho : off < 0x10000) (h : page < 0x200 ∨ off < 0x400) : OffWindows (regKey page off) := by
  intro p i hi
  simp only [regKey, pSTV, Reg.at, rSTV_WIN, rSTV_WIN_N]
  omega

theorem Dev.landing_wr {page off : Nat} (h : OffWindows (regKey page off)) (d : Dev) (v : Nat) :
    (d.wr page off v).landing = d.landing := by
  have hwindows : (d.wr page off v).windows = d.windows := funext fun p => List.map_congr_left fun i hi => by
    obtain ⟨hbase, hn⟩ := h p i (List.mem_range.mp hi)
    rw [Dev.rd_wr_other _ _ _ _ _ _ hbase, Dev.rd_wr_other _ _ _ _ _ _ hn]
  rw [Dev.landing, hwindows]
  rfl

theorem Dev.landing_setFld {page off : Nat} (h : OffWindows (regKey page off)) (d : Dev) (hi lo n : Nat) :
    (d.setFld page off hi lo n).landing = d.landing := Dev.landing_wr h d _

theorem Dev.windowAt_of_landing {d e : Dev} (h : e.landing = d.landing) (p a n : Nat) : e.windowAt p a n = d.windowAt p a n := by
  have hwindows : e.windows p = d.windows p := congrFun (congrArg Landing.windows h) p
  have hwin := List.map_inj_left.mp hwindows
  refine List.find?_congr fun w hw => ?_
  obtain ⟨hbase, hn⟩ := Prod.mk.inj (hwin w hw)
  have hon : e.winOn p w = d.winOn p w := by simp only [Dev.winOn, Dev.bit, Dev.fld, hbase]
  have hat : e.winBase p w = d.winBase p w := by simp only [Dev.winBase, Dev.fld, hbase]
  have hlen : e.winN p w = d.winN p w := by simp only [Dev.winN, Dev.fld, hn]
  rw [hon, hat, hlen]

/-! ### Writes that go straight to memory -/

/-- A write of n bytes at a goes straight to memory: it lies in the tier range, none of its granules holds writes, and no window
of the partition that owns it meets it. -/
structure Open (d : Dev) (a n : Nat) : Prop where
  tier : whereIs a = .tier
  still : ∀ i, i < n → d.switches ((a + i) / granBytes) = false
  window : d.windowAt (d.gran (a / granBytes)).part a n = none

theorem Open.of_direct {d : Dev} {a n : Nat} (hn : 0 < n) (h : Direct d a n) : Open d a n := by
  obtain ⟨hend, hopen, hwin⟩ := h
  exact ⟨by rw [whereIs, if_pos (by omega)], fun i hi => by simp [Dev.switches, hopen _ (mem_granules hi)], hwin⟩

theorem Open.of_landing {d e : Dev} {a n : Nat} (h : Open d a n) (hl : e.landing = d.landing) : Open e a n := by
  have howner : (e.gran (a / granBytes)).part = (d.gran (a / granBytes)).part := congrFun (congrArg Landing.owner hl) _
  have hswitches : e.switches = d.switches := congrArg Landing.switches hl
  exact ⟨h.tier, fun i hi => hswitches ▸ h.still i hi, by rw [howner, Dev.windowAt_of_landing hl]; exact h.window⟩

section
variable {d : Dev} {a : Nat} {bs : List Byte} (h : Open d a bs.length)
include h

theorem load_put_same : (d.put a bs false).load a bs.length = bs := by
  rw [Dev.put_of_no_window h.window, Dev.load, memLoad_eq_map]
  refine List.ext_getElem (by simp) fun i h1 h2 => ?_
  have hs : (d.store a bs).switches ((a + i) / granBytes) = false := by
    rw [show (d.store a bs).switches = d.switches from congrArg Landing.switches (d.store_landing a bs)]
    exact h.still i h2
  rw [List.getElem_map, List.getElem_range, ← Dev.seen_of_open hs, d.store_seen bs h.tier, dif_pos ⟨by omega, by omega⟩]
  congr 1
  omega

theorem load_put_other {x : Nat} (hx : x < a ∨ a + bs.length ≤ x) : (d.put a bs false).load x 1 = d.load x 1 := by
  rw [Dev.put_of_no_window h.window]
  exact d.load_store_other h.tier hx

end

/-! ### Events of a partition -/

theorem Dev.vector_frame (d : Dev) (i : Nat) :
    d.vector i = { d with regs := (d.vector i).regs, vex := (d.vector i).vex, out := (d.vector i).out } := by
  unfold Dev.vector
  split
  · rfl
  · rw [d.toCompanion_frame]

theorem Dev.raiseInt_frame (d : Dev) (page n : Nat) : d.raiseInt page n =
    { d with regs := (d.raiseInt page n).regs, vex := (d.raiseInt page n).vex, out := (d.raiseInt page n).out } := by
  unfold Dev.raiseInt Dev.route
  dsimp only
  split
  · split
    · exact Dev.vector_frame _ _
    · rfl
  · rfl

/-- An event of a partition touches registers and the link to the companion alone. -/
theorem Dev.partEvt_frame (d : Dev) (p b : Nat) : d.partEvt p b =
    { d with regs := (d.partEvt p b).regs, vex := (d.partEvt p b).vex, out := (d.partEvt p b).out } := by
  unfold Dev.partEvt
  split
  · rfl
  · exact Dev.raiseInt_frame _ _ _

theorem Dev.vector_rd {page off i : Nat} (hi : i < 512) (ho : off < 0x10000) (hv : page ≠ pVEX) (d : Dev) :
    (d.vector i).rd page off = d.rd page off := by
  unfold Dev.vector
  split
  · exact Dev.rd_setFld_other _ _ _ _ _ _ _ _ (regKey_ne ho (by simp only [Reg.at, rVEX_VEC]; omega) (.inl hv))
  · exact d.toCompanion_rd _ _ _

/-- It leaves the registers of every page but the partition's own and the link's. -/
theorem Dev.partEvt_rd {p page off : Nat} (ho : off < 0x10000) (hp : page ≠ pPART p) (hv : page ≠ pVEX) (d : Dev) (b : Nat) :
    (d.partEvt p b).rd page off = d.rd page off := by
  have hset (e : Dev) {o : Nat} (hoff : o < 0x10000) (b : Nat) : (e.setBit (pPART p) o b true).rd page off = e.rd page off :=
    Dev.rd_setFld_other _ _ _ _ _ _ _ _ (regKey_ne ho hoff (.inl hp))
  unfold Dev.partEvt Dev.event Dev.raiseInt Dev.route
  dsimp only
  split
  · rfl
  split
  · split
    · exact (Dev.vector_rd (bits_lt _ 8 0) ho hv _).trans ((hset _ (by decide) _).trans (hset _ (by decide) _))
    · exact (hset _ (by decide) _).trans (hset _ (by decide) _)
  · exact (hset _ (by decide) _).trans (hset _ (by decide) _)

theorem Dev.vector_landing {i : Nat} (hi : i < 512) (d : Dev) : (d.vector i).landing = d.landing := by
  unfold Dev.vector
  split
  · exact Dev.landing_setFld (offWindows_of (by simp only [Reg.at, rVEX_VEC]; omega) (.inl (by decide))) _ _ _ _
  · rw [d.toCompanion_frame]
    rfl

theorem Dev.partEvt_landing (d : Dev) (p b : Nat) : (d.partEvt p b).landing = d.landing := by
  have hset (e : Dev) {o : Nat} (ho : o < 0x400) (b : Nat) : (e.setBit (pPART p) o b true).landing = e.landing :=
    Dev.landing_setFld (offWindows_of (by omega) (.inr ho)) _ _ _ _
  unfold Dev.partEvt Dev.event Dev.raiseInt Dev.route
  dsimp only
  split
  · rfl
  split
  · split
    · exact (Dev.vector_landing (bits_lt _ 8 0) _).trans ((hset _ (by decide) _).trans (hset _ (by decide) _))
    · exact (hset _ (by decide) _).trans (hset _ (by decide) _)
  · exact (hset _ (by decide) _).trans (hset _ (by decide) _)

end Sys2Proof.Machine
end

section
/-! SUPPORT. Request records: what a write of a field leaves, and what the commands of GEN_CMD do to a record (R215 to R217,
R289). -/

namespace Sys2Proof.Machine

open Sys2Proof.Safety

/-! ### Fields of a record -/

/-- A little-endian number of n bytes at byte k of a request record. -/
def Dev.reqNat (d : Dev) (p n k m : Nat) : Nat := d.loadNatNew (d.reqAt p n + k) m

theorem Dev.reqWord_eq (d : Dev) (p n : Nat) : d.reqWord p n = d.reqNat p n 0 8 := by rw [Dev.reqNat, Nat.add_zero, Dev.reqWord]
theorem Dev.reqDraft_eq (d : Dev) (p n : Nat) : d.reqDraft p n = d.reqNat p n 44 4 := rfl
theorem Dev.reqDmax_eq (d : Dev) (p n : Nat) : d.reqDmax p n = bits (d.reqNat p n 40 4) 27 24 := rfl
theorem Dev.reqSeq_eq (d : Dev) (p n : Nat) : d.reqSeq p n = bits (d.reqNat p n 20 4) 13 0 := rfl

/-- A record lies in one granule. -/
theorem Dev.reqAt_granule (d : Dev) (p n : Nat) {j : Nat} (hj : j < 128) :
    (d.reqAt p n + j) / granBytes = d.reqAt p n / granBytes := by
  simp only [Dev.reqAt, granBytes]
  omega

theorem Dev.reqNat_eq (d : Dev) (p n : Nat) {k m : Nat} (h : k + m ≤ 128) :
    d.reqNat p n k m = leNat ((List.range m).map fun i => d.seen (d.reqAt p n + (k + i))) := by
  rw [Dev.reqNat, Dev.loadNatNew, Dev.loadNew_eq_seen]
  · simp only [Nat.add_assoc]
  · intro i hi
    rw [Nat.add_assoc, Dev.reqAt_granule d p n (by omega), Dev.reqAt_granule d p n (by omega)]

theorem Dev.reqAt_of_rd {d e : Dev} {p : Nat} (h : e.rd (pGEN p) rGEN_REQ.off = d.rd (pGEN p) rGEN_REQ.off) (n : Nat) :
    e.reqAt p n = d.reqAt p n := by simp only [Dev.reqAt, Dev.fld, h]

/-- Where the request records stand is no phase account. -/
theorem offAccounts_genReq (p : Nat) : OffAccounts (pGEN p) rGEN_REQ.off := ⟨by decide, .inr (.inr (by decide))⟩

/-- Nothing differs in a record but its bytes from lo up to hi, no other byte of memory does, and no core. -/
structure Rewrites (p n lo hi : Nat) (d e : Dev) : Prop where
  table : e.rd (pGEN p) rGEN_REQ.off = d.rd (pGEN p) rGEN_REQ.off
  bytes : ∀ j, j < 128 → j < lo ∨ hi ≤ j → e.seen (d.reqAt p n + j) = d.seen (d.reqAt p n + j)
  outside : ∀ x, x < d.reqAt p n ∨ d.reqAt p n + 128 ≤ x → e.load x 1 = d.load x 1
  cores : e.cores = d.cores

section
variable {d e f : Dev} {p n lo hi : Nat}

theorem Rewrites.reqAt (h : Rewrites p n lo hi d e) : e.reqAt p n = d.reqAt p n := Dev.reqAt_of_rd h.table n

theorem Rewrites.trans {lo' hi' : Nat} (h : Rewrites p n lo hi d e) (g : Rewrites p n lo' hi' e f) :
    Rewrites p n (min lo lo') (max hi hi') d f := by
  have hat := h.reqAt
  refine ⟨g.table.trans h.table, fun j hj ho => ?_, fun x hx => ?_, g.cores.trans h.cores⟩
  · have hg := g.bytes j hj (by omega)
    rw [hat] at hg
    exact hg.trans (h.bytes j hj (by omega))
  · exact (g.outside x (by rw [hat]; exact hx)).trans (h.outside x hx)

/-- What changes neither a byte, nor the place of the records, nor a core. -/
theorem Rewrites.of_seen (ht : e.rd (pGEN p) rGEN_REQ.off = d.rd (pGEN p) rGEN_REQ.off) (hs : e.seen = d.seen) (hm : e.mem = d.mem)
    (hc : e.cores = d.cores) : Rewrites p n 0 0 d e :=
  ⟨ht, fun _ _ _ => by rw [hs], fun _ _ => by rw [Dev.load, hm, Dev.load], hc⟩

theorem rewrites_setPart (d : Dev) (p n : Nat) (x : Part) : Rewrites p n 0 0 d (d.setPart p x) := .of_seen rfl rfl rfl rfl

theorem Rewrites.reqNat (h : Rewrites p n lo hi d e) {k m : Nat} (hk : k + m ≤ 128) (ho : k + m ≤ lo ∨ hi ≤ k) :
    e.reqNat p n k m = d.reqNat p n k m := by
  rw [Dev.reqNat_eq _ _ _ hk, Dev.reqNat_eq _ _ _ hk, h.reqAt]
  refine congrArg leNat (List.map_congr_left fun i hi => ?_)
  have hi' := List.mem_range.mp hi
  exact h.bytes (k + i) (by omega) (by omega)

theorem Rewrites.reqWord (h : Rewrites p n lo hi d e) (ho : 8 ≤ lo ∨ hi = 0) : e.reqWord p n = d.reqWord p n := by
  rw [Dev.reqWord_eq, h.reqNat (by decide) (by omega), Dev.reqWord_eq]

/-- A record whose 128 bytes lie in the tier range. -/
def ReqInTier (d : Dev) (p n : Nat) : Prop := d.reqAt p n + 128 ≤ 0x030000000000

theorem Rewrites.inTier (h : Rewrites p n lo hi d e) (hd : ReqInTier d p n) : ReqInTier e p n := by
  rw [ReqInTier, h.reqAt]
  exact hd

theorem ReqInTier.whereIs (h : ReqInTier d p n) {k : Nat} (hk : k < 128) : whereIs (d.reqAt p n + k) = .tier := by
  have hlt : d.reqAt p n + k < 0x030000000000 := Nat.lt_of_lt_of_le (Nat.add_lt_add_left hk _) h
  rw [Machine.whereIs, if_pos hlt]

section
variable (h : ReqInTier d p n) {k m : Nat} (hm : 0 < m) (hk : k + m ≤ 128) (v : Nat)
include h hm hk

theorem rewrites_storeNat : Rewrites p n k (k + m) d (d.storeNat (d.reqAt p n + k) m v) := by
  have hw := h.whereIs (k := k) (by omega)
  have hlen := natLe_length m v
  exact ⟨Dev.store_rd hw (offAccounts_genReq p) d _, fun j hj ho => d.store_seen_apart _ hw (by omega),
    fun x hx => d.load_store_other hw (by omega), d.store_cores hw _⟩

theorem reqNat_storeNat : (d.storeNat (d.reqAt p n + k) m v).reqNat p n k m = v % 256 ^ m := by
  have hw := h.whereIs (k := k) (by omega)
  rw [Dev.reqNat_eq _ _ _ hk, (rewrites_storeNat h hm hk v).reqAt, ← leNat_natLe]
  refine congrArg leNat (List.ext_getElem (by simp [natLe_length]) fun i h1 h2 => ?_)
  rw [List.getElem_map, List.getElem_range, Dev.storeNat, d.store_seen _ hw, dif_pos (by omega)]
  congr 1
  omega

end

theorem Dev.setReqWord_eq (d : Dev) (p n v : Nat) : d.setReqWord p n v = d.storeNat (d.reqAt p n + 0) 8 v := by
  rw [Nat.add_zero, Dev.setReqWord]

theorem rewrites_setReqWord (h : ReqInTier d p n) (v : Nat) : Rewrites p n 0 8 d (d.setReqWord p n v) :=
  d.setReqWord_eq p n v ▸ rewrites_storeNat h (k := 0) (m := 8) (by decide) (by decide) v

theorem reqWord_setReqWord (h : ReqInTier d p n) {v : Nat} (hv : v < 2 ^ 64) : (d.setReqWord p n v).reqWord p n = v := by
  rw [Dev.reqWord_eq, Dev.setReqWord_eq, reqNat_storeNat h (by decide) (by decide)]
  exact Nat.mod_eq_of_lt hv

theorem rewrites_setReqDraft (h : ReqInTier d p n) (v : Nat) : Rewrites p n 44 48 d (d.setReqDraft p n v) :=
  rewrites_storeNat h (k := 44) (m := 4) (by decide) (by decide) v

theorem reqDraft_setReqDraft (h : ReqInTier d p n) {v : Nat} (hv : v < 2 ^ 32) : (d.setReqDraft p n v).reqDraft p n = v := by
  rw [Dev.reqDraft_eq, Dev.setReqDraft, reqNat_storeNat h (by decide) (by decide)]
  exact Nat.mod_eq_of_lt hv

end

theorem Dev.reqWord_lt (d : Dev) (p n : Nat) : d.reqWord p n < 2 ^ 64 := by
  have hlt := leNat_lt ((List.range 8).map fun i => d.seen (d.reqAt p n + (0 + i)))
  rw [← Dev.reqNat_eq d p n (by decide)] at hlt
  rw [Dev.reqWord_eq]
  simpa using hlt

theorem draftWord_lt {allowed whead : Nat} (ha : allowed < 2 ^ 4) (hw : whead < 2 ^ 5) : draftWord allowed 0 0 whead < 2 ^ 32 := by
  rw [draftWord]
  omega

/-! ### The state of the partition and its epoch slots -/

/-- A write changes of a partition's state only what settledPart leaves out. -/
theorem Dev.part_of_settledPart {β : Type} (g : Part → β) (hg : ∀ x, g x.settled = g x) {d e : Dev} {p : Nat}
    (h : e.settledPart p = d.settledPart p) : g (e.part p) = g (d.part p) :=
  (hg _).symm.trans ((congrArg g h).trans (hg _))

theorem Dev.running_store (d : Dev) (p a : Nat) (bs : List Byte) : ((d.store a bs).part p).running = (d.part p).running :=
  Dev.part_of_settledPart (·.running) (fun _ => rfl) (d.store_settledPart p a bs)

theorem Dev.frees_store (d : Dev) (p a : Nat) (bs : List Byte) : ((d.store a bs).part p).frees = (d.part p).frees :=
  Dev.part_of_settledPart (·.frees) (fun _ => rfl) (d.store_settledPart p a bs)

/-- An epoch slot of a partition is no phase account. -/
theorem offAccounts_slot (p : Nat) {i : Nat} (hi : i < 4) : OffAccounts (pWGT p) (slotOff i) :=
  ⟨by simp only [slotOff, Reg.at, rWGT_SLOT]; omega, .inr (.inl (by simp only [pWGT]; omega))⟩

theorem offAccounts_cqIdx (p : Nat) : OffAccounts (pCACHE p) rCACHE_CQ_IDX.off := ⟨by decide, .inr (.inr (by decide))⟩

/-- The registers of the four epoch slots, which hold their states, pins and epochs. -/
def Dev.slotRegs (d : Dev) (p : Nat) : List Nat := (List.range 4).map fun i => d.rd (pWGT p) (slotOff i)

section
variable {d e : Dev} {p : Nat} (h : e.slotRegs p = d.slotRegs p)
include h

theorem Dev.fld_slot_of_slotRegs {i : Nat} (hi : i < 4) (hi' lo : Nat) :
    e.fld (pWGT p) (slotOff i) hi' lo = d.fld (pWGT p) (slotOff i) hi' lo := by
  have hrd : e.rd (pWGT p) (slotOff i) = d.rd (pWGT p) (slotOff i) := List.map_inj_left.mp h i (List.mem_range.mpr hi)
  rw [Dev.fld, hrd, Dev.fld]

theorem Dev.slotPins_of_slotRegs {i : Nat} (hi : i < 4) : e.slotPins p i = d.slotPins p i := Dev.fld_slot_of_slotRegs h hi _ _

theorem Dev.slotOf_of_slotRegs (epoch : Nat) : e.slotOf p epoch = d.slotOf p epoch := by
  refine List.find?_congr fun i hi => ?_
  have hi' := List.mem_range.mp hi
  have hepoch : e.slotEpoch p i = d.slotEpoch p i := Dev.fld_slot_of_slotRegs h hi' _ _
  have hstate : e.slotState p i = d.slotState p i := Dev.fld_slot_of_slotRegs h hi' _ _
  rw [hepoch, hstate, Dev.slotPins_of_slotRegs h hi']

end

theorem Dev.slotRegs_store {a : Nat} (hw : whereIs a = .tier) (d : Dev) (p : Nat) (bs : List Byte) :
    (d.store a bs).slotRegs p = d.slotRegs p :=
  List.map_congr_left fun _ hi => Dev.store_rd hw (offAccounts_slot p (List.mem_range.mp hi)) d bs

/-- The slot of an epoch is one of the four. -/
theorem Dev.slotOf_lt {d : Dev} {p epoch i : Nat} (h : d.slotOf p epoch = some i) : i < 4 :=
  List.mem_range.mp (List.mem_of_find?_eq_some h)

theorem Dev.currentSlot_lt {d : Dev} {p i : Nat} (h : d.currentSlot p = some i) : i < 4 :=
  List.mem_range.mp (List.mem_of_find?_eq_some h)

theorem Dev.slotPins_setPart (d : Dev) (q : Nat) (x : Part) (p i : Nat) : (d.setPart q x).slotPins p i = d.slotPins p i := rfl

theorem Dev.slotPins_pin (d : Dev) (p i : Nat) : (d.pin p i).slotPins p i = (d.slotPins p i + 1) % 2 ^ 24 :=
  Dev.fld_setFld_same _ _ _ _ _ _ (by decide) (by decide)

/-- A pin released from the current slot leaves the slot. -/
theorem Dev.slotPins_unpin_current {d : Dev} {p i : Nat} (h : d.slotState p i = slCurrent) :
    (d.unpin p i).slotPins p i = d.slotPins p i - 1 := by
  have hst : (d.setFld (pWGT p) (slotOff i) 55 32 (d.slotPins p i - 1)).slotState p i = slCurrent :=
    (Dev.fld_setFld_field _ _ _ _ _ _ _ _ (by decide) (by decide) (by decide)).trans h
  have hlt : d.slotPins p i < 2 ^ 24 := bits_lt _ 55 32
  have hstay : d.unpin p i = d.setFld (pWGT p) (slotOff i) 55 32 (d.slotPins p i - 1) := by
    rw [Dev.unpin, Dev.retireSlot, hst]
    rfl
  rw [hstay]
  exact (Dev.fld_setFld_same _ _ _ _ _ _ (by decide) (by decide)).trans (Nat.mod_eq_of_lt (by omega))

/-- What a request whose word is replaced leaves of its partition. -/
theorem setReqWord_rest {d : Dev} {p n : Nat} (h : ReqInTier d p n) (v : Nat) : let e := d.setReqWord p n v
    e.slotRegs p = d.slotRegs p ∧ (e.part p).running = (d.part p).running ∧ (e.part p).frees = (d.part p).frees ∧
      e.fld (pCACHE p) rCACHE_CQ_IDX.off 15 0 = d.fld (pCACHE p) rCACHE_CQ_IDX.off 15 0 ∧ e.reqSeq p n = d.reqSeq p n := by
  have hw := h.whereIs (k := 0) (by decide)
  have hci := Dev.store_rd hw (offAccounts_cqIdx p) d (natLe 8 v)
  have hseq : (d.setReqWord p n v).reqSeq p n = d.reqSeq p n := by
    rw [Dev.reqSeq_eq, (rewrites_setReqWord h v).reqNat (by decide) (by decide), Dev.reqSeq_eq]
  rw [Dev.setReqWord_eq] at hseq ⊢
  exact ⟨Dev.slotRegs_store hw d p _, d.running_store p _ _, d.frees_store p _ _, congrArg (fun w => bits w 15 0) hci, hseq⟩

/-! ### A request that leaves -/

/-- A change that leaves memory as every engine sees it, the cores, the place of the request records, and of the partition the
requests that run and the frees. -/
structure Unpins (p : Nat) (d e : Dev) : Prop where
  frame : e = { d with regs := e.regs, parts := e.parts, vex := e.vex, out := e.out }
  table : e.rd (pGEN p) rGEN_REQ.off = d.rd (pGEN p) rGEN_REQ.off
  running : (e.part p).running = (d.part p).running
  frees : (e.part p).frees = (d.part p).frees

section
variable {d e f : Dev} {p : Nat}

theorem Unpins.trans (h : Unpins p d e) (g : Unpins p e f) : Unpins p d f where
  frame := g.frame.trans (congrArg (fun x : Dev => { x with regs := f.regs, parts := f.parts, vex := f.vex, out := f.out }) h.frame)
  table := g.table.trans h.table
  running := g.running.trans h.running
  frees := g.frees.trans h.frees

theorem Unpins.rewrites (h : Unpins p d e) (n : Nat) : Rewrites p n 0 0 d e :=
  .of_seen h.table (by rw [h.frame]; rfl) (by rw [h.frame]) (by rw [h.frame])

theorem unpins_wr_slot {off : Nat} (ho : off < 0x10000) (d : Dev) (v : Nat) : Unpins p d (d.wr (pWGT p) off v) :=
  ⟨rfl, Dev.rd_wr_other _ _ _ _ _ _ (regKey_ne (by decide) ho (.inl (by simp only [pGEN, pWGT]; omega))), rfl, rfl⟩

theorem slotOff_lt {i : Nat} (hi : i < 4) : slotOff i < 0x10000 := by simp only [slotOff, Reg.at, rWGT_SLOT]; omega

theorem unpins_partEvt (d : Dev) (b : Nat) : Unpins p d (d.partEvt p b) where
  frame := congrArg (fun x : Dev => { x with parts := (d.partEvt p b).parts }) (d.partEvt_frame p b)
  table := Dev.partEvt_rd (by decide) (by simp only [pGEN, pPART]; omega) (by simp only [pGEN, pVEX]; omega) d b
  running := by rw [d.partEvt_frame]; rfl
  frees := by rw [d.partEvt_frame]; rfl

theorem unpins_emptySlot (d : Dev) {i : Nat} (hi : i < 4) : Unpins p d (d.emptySlot p i) := by
  refine ((unpins_wr_slot (slotOff_lt hi) d 0).trans
    (unpins_wr_slot (off := rWGT_SLOT_MAN.at i) (by simp only [Reg.at, rWGT_SLOT_MAN]; omega) _ 0)).trans ⟨rfl, rfl, ?_, ?_⟩
  · exact (congrArg Part.running (Dev.part_setPart_same _ p _)).trans rfl
  · exact (congrArg Part.frees (Dev.part_setPart_same _ p _)).trans rfl

theorem unpins_unpin (d : Dev) {i : Nat} (hi : i < 4) : Unpins p d (d.unpin p i) := by
  have hset : Unpins p d (d.setFld (pWGT p) (slotOff i) 55 32 (d.slotPins p i - 1)) := unpins_wr_slot (slotOff_lt hi) d _
  refine hset.trans ?_
  unfold Dev.unpin Dev.retireSlot
  split
  · exact (unpins_emptySlot _ hi).trans (unpins_partEvt _ _)
  · exact ⟨rfl, rfl, rfl, rfl⟩

theorem unpins_unpinEpoch (d : Dev) (epoch : Nat) : Unpins p d (d.unpinEpoch p epoch) := by
  unfold Dev.unpinEpoch
  split
  next i hi => exact unpins_unpin d (Dev.slotOf_lt hi)
  · exact ⟨rfl, rfl, rfl, rfl⟩

end

/-- What a request that leaves running leaves (R217, R221). -/
theorem reqLeaves_leaves (d : Dev) (p n epoch : Nat) : let e := d.reqLeaves p n epoch
    Rewrites p n 0 0 d e ∧ (e.part p).running = (d.part p).running - 1 ∧
      (e.part p).frees = (d.part p).frees ++ [(d.fld (pCACHE p) rCACHE_CQ_IDX.off 15 0, d.reqSeq p n)] := by
  have h := unpins_unpinEpoch (p := p) (d.setPart p { d.part p with
    running := (d.part p).running - 1,
    frees := (d.part p).frees ++ [(d.fld (pCACHE p) rCACHE_CQ_IDX.off 15 0, d.reqSeq p n)] }) epoch
  refine ⟨(rewrites_setPart d p n _).trans (h.rewrites n), h.running.trans ?_, h.frees.trans ?_⟩ <;> rw [Dev.part_setPart_same]

theorem slotPins_reqLeaves {d : Dev} {p epoch i : Nat} (n : Nat) (h : d.slotOf p epoch = some i)
    (hs : d.slotState p i = slCurrent) : (d.reqLeaves p n epoch).slotPins p i = d.slotPins p i - 1 := by
  have hof (x : Part) : (d.setPart p x).slotOf p epoch = some i := h
  simp only [Dev.reqLeaves, Dev.unpinEpoch, hof]
  exact Dev.slotPins_unpin_current hs

/-! ### How a command is taken and ends -/

/-- What GEN_CMD does with a command word of op k. -/
def runGenCmd (a : Access) (p : Nat) (v : Word) (k : Nat) (work : Dev → Nat → Dev × Nat) (s : State) :
    Host.Outcome State Fault Refusal :=
  s.run fun d => if genOp v != k then d else d.genCommand a p v work

/-- A result of GEN_CMD, reported. -/
def Dev.genEnd (d : Dev) (p r : Nat) : Dev := (d.setFld (pGEN p) rGEN_CMD_STS.off 7 0 r).emit (.readback 0 false)

section
variable {s : State} {a : Access} {p k : Nat} {v : Word} {work : Dev → Nat → Dev × Nat}
  (hw : s.dev.writable a (pGEN p) rGEN_CMD.off true = true) (hop : genOp v = k)
include hw hop

theorem runGenCmd_known {n r : Nat} {e : Dev} (hn : bits v.toNat 15 0 = n) (hlt : n < s.dev.nreq p)
    (hwork : work s.dev n = (e, r)) :
    runGenCmd a p v k work s = .next (on s fun _ => e.genEnd p r) := by
  simp [runGenCmd, State.run, on, Dev.genCommand, Dev.regWrite_writable _ hw, hop, hn, hwork, Dev.genEnd, Nat.not_le.mpr hlt]

theorem runGenCmd_unknown (hn : s.dev.nreq p ≤ bits v.toNat 15 0) :
    runGenCmd a p v k work s = .next (on s fun d => d.genEnd p 2) := by
  simp [runGenCmd, State.run, on, Dev.genCommand, Dev.regWrite_writable _ hw, hop, hn, Dev.genEnd]

end

theorem rewrites_genEnd (d : Dev) (p n r : Nat) : Rewrites p n 0 0 d (d.genEnd p r) :=
  .of_seen (Dev.rd_setFld_other _ _ _ _ _ _ _ _ (regKey_off_ne (by decide))) rfl rfl rfl

@[simp] theorem Dev.part_genEnd (d : Dev) (p r q : Nat) : (d.genEnd p r).part q = d.part q := rfl

theorem Dev.result_genEnd (d : Dev) (p : Nat) {r : Nat} (hr : r < 256) : (d.genEnd p r).fld (pGEN p) rGEN_CMD_STS.off 7 0 = r :=
  (Dev.fld_setFld_same _ _ _ _ _ _ (by decide) (by decide)).trans (Nat.mod_eq_of_lt hr)

theorem Dev.slotPins_genEnd (d : Dev) {p i : Nat} (hi : i < 4) (r : Nat) : (d.genEnd p r).slotPins p i = d.slotPins p i :=
  Dev.fld_setFld_other _ _ _ _ _ _ _ _ _ _ (regKey_ne (slotOff_lt hi) (by decide) (.inl (by simp only [pGEN, pWGT]; omega)))

/-- A command that was executed: its record alone has changed, and result 0 is reported. -/
theorem rewrites_executed {d e : Dev} {p n lo hi : Nat} (h : Rewrites p n lo hi d e) : let f := e.genEnd p 0
    f.fld (pGEN p) rGEN_CMD_STS.off 7 0 = 0 ∧ f.cores = d.cores ∧
      ∀ x, x < d.reqAt p n ∨ d.reqAt p n + 128 ≤ x → f.load x 1 = d.load x 1 := by
  have g := h.trans (rewrites_genEnd e p n 0)
  exact ⟨e.result_genEnd p (by decide), g.cores, g.outside⟩

/-! ### The four commands -/

section
variable (a : Access) (p : Fin 64) (v : Word) (s : State)

theorem exec_admitReq : exec (.admitReq a p v) s = runGenCmd a p v 1 (fun d n => d.admitReq p n) s := rfl

/-- cancel of a record (R216). -/
def Dev.cancelReq (d : Dev) (p n : Nat) : Dev × Nat :=
  if d.reqState p n != rqRunning then (d, 0)
  else ((d.setReqWord p n (putBits (d.reqWord p n) 63 60 rqCancelled)).reqLeaves p n (bits (d.reqWord p n) 31 0), 0)

theorem exec_cancel : exec (.cancel a p v) s = runGenCmd a p v 2 (fun d n => d.cancelReq p n) s := rfl

/-- release of a record (R216). -/
def Dev.releaseReq (d : Dev) (p n : Nat) : Dev × Nat :=
  if d.reqState p n = rqFinished || d.reqState p n = rqCancelled || d.reqState p n = rqFailed then
    (d.setReqWord p n (putBits (d.reqWord p n) 63 60 rqFree), 0)
  else (d, 0x03)

theorem exec_release : exec (.release a p v) s = runGenCmd a p v 3 (fun d n => d.releaseReq p n) s := rfl

theorem exec_draftOn : exec (.draftOn a p v) s =
    runGenCmd a p v 4 (fun d n => (d.setReqDraft p n (draftWord (d.reqDmax p n) 0 0 0), 0)) s := rfl

end

section
variable {d : Dev} {p n : Nat}

/-! ### Admission -/

/-- The seed of a request that has none, in a context whose generators run freely (R217). -/
def Dev.seedReq (d : Dev) (p n : Nat) : Dev :=
  if d.loadNatNew (d.reqAt p n + 8) 8 = 0 && d.bit (pLRN p) (rLRN_GEN.at (d.genContext p)) 0 then
    d.draw.1.storeNat (d.reqAt p n + 8) 8 d.draw.2.toNat
  else d

/-- A sound free record made running at the current epoch. -/
def Dev.startReq (d : Dev) (p n i : Nat) : Dev :=
  let e := (d.pin p i).seedReq p n
  let e := e.setReqDraft p n (draftWord (e.reqDmax p n) 0 0 (bits (e.reqDraft p n) 21 17))
  let e := e.setReqWord p n (stateWord rqRunning 0 0 (d.slotEpoch p i))
  e.setPart p { e.part p with running := (e.part p).running + 1 }

theorem Dev.admitReq_sound {i : Nat} (hst : d.reqState p n = rqFree) (hs : d.reqSound p n = true) (hi : d.currentSlot p = some i) :
    d.admitReq p n = (d.startReq p n i, 0) := by
  rw [Dev.admitReq, hst, hs, hi]
  rfl

theorem Dev.admitReq_in_use (hst : d.reqState p n ≠ rqFree) : d.admitReq p n = (d, 0x03) := by simp [Dev.admitReq, hst]

theorem Dev.admitReq_unsound (hst : d.reqState p n = rqFree) (hs : d.reqSound p n = false) : d.admitReq p n = (d, 0x04) := by
  simp [Dev.admitReq, hst, hs]

theorem Dev.admitReq_no_epoch (hst : d.reqState p n = rqFree) (hs : d.reqSound p n = true) (hi : d.currentSlot p = none) :
    d.admitReq p n = (d, 0x03) := by simp [Dev.admitReq, hst, hs, hi]

/-- What an admitted request leaves (R216). -/
structure Admitted (d e : Dev) (p n i : Nat) : Prop where
  touches : Rewrites p n 0 48 d e
  word : e.reqWord p n = rqRunning * 2 ^ 60 + d.slotEpoch p i
  draft : e.reqDraft p n = draftWord (d.reqDmax p n) 0 0 (bits (d.reqDraft p n) 21 17)
  pins : e.slotPins p i = (d.slotPins p i + 1) % 2 ^ 24
  running : (e.part p).running = (d.part p).running + 1

theorem rewrites_seedReq (h : ReqInTier d p n) : Rewrites p n 8 16 d (d.seedReq p n) := by
  unfold Dev.seedReq
  split
  · have hst := rewrites_storeNat (d := d.draw.1) (k := 8) (m := 8) h (by decide) (by decide) d.draw.2.toNat
    exact ⟨hst.table, hst.bytes, hst.outside, hst.cores⟩
  · exact ⟨rfl, fun _ _ _ => rfl, fun _ _ => rfl, rfl⟩

theorem seedReq_rest (h : ReqInTier d p n) : (d.seedReq p n).slotRegs p = d.slotRegs p ∧
    ((d.seedReq p n).part p).running = (d.part p).running := by
  unfold Dev.seedReq
  split
  · exact ⟨Dev.slotRegs_store (h.whereIs (by decide)) d.draw.1 p _, d.draw.1.running_store p _ _⟩
  · exact ⟨rfl, rfl⟩

theorem rewrites_pin {i : Nat} (hi : i < 4) : Rewrites p n 0 0 d (d.pin p i) := (unpins_wr_slot (slotOff_lt hi) d _).rewrites n

theorem startReq_admitted (h : ReqInTier d p n) {i : Nat} (hi : i < 4) : Admitted d (d.startReq p n i) p n i := by
  have hpin := rewrites_pin (d := d) (p := p) (n := n) hi
  have hseed := rewrites_seedReq (hpin.inTier h)
  obtain ⟨hslots, hrun⟩ := seedReq_rest (hpin.inTier h)
  have hbefore := hpin.trans hseed
  unfold Dev.startReq
  dsimp only
  generalize (d.pin p i).seedReq p n = e at *
  have he := hbefore.inTier h
  have hword : draftWord (e.reqDmax p n) 0 0 (bits (e.reqDraft p n) 21 17) =
      draftWord (d.reqDmax p n) 0 0 (bits (d.reqDraft p n) 21 17) := by
    rw [Dev.reqDmax_eq, Dev.reqDraft_eq, hseed.reqNat (by decide) (by decide), hseed.reqNat (by decide) (by decide),
      hpin.reqNat (by decide) (by decide), hpin.reqNat (by decide) (by decide), ← Dev.reqDmax_eq, ← Dev.reqDraft_eq]
  rw [hword]
  generalize hv : draftWord (d.reqDmax p n) 0 0 (bits (d.reqDraft p n) 21 17) = v
  have hlt : v < 2 ^ 32 := hv ▸ draftWord_lt (bits_lt _ 27 24) (bits_lt _ 21 17)
  have hepoch : d.slotEpoch p i < 2 ^ 32 := bits_lt _ 31 0
  have hset := rewrites_setReqDraft he v
  have hdraft := reqDraft_setReqDraft he hlt
  have hslots' := (Dev.slotRegs_store (he.whereIs (k := 44) (by decide)) e p (natLe 4 v)).trans hslots
  have hrun' := (e.running_store p (e.reqAt p n + 44) (natLe 4 v)).trans hrun
  rw [← Dev.storeNat, ← Dev.setReqDraft] at hslots' hrun'
  generalize e.setReqDraft p n v = f at *
  have hf := hset.inTier he
  have hst := rewrites_setReqWord hf (stateWord rqRunning 0 0 (d.slotEpoch p i))
  have hword' := reqWord_setReqWord hf (v := stateWord rqRunning 0 0 (d.slotEpoch p i)) (by simp only [stateWord, rqRunning]; omega)
  obtain ⟨hregs, hrunning, -⟩ := setReqWord_rest hf (stateWord rqRunning 0 0 (d.slotEpoch p i))
  generalize f.setReqWord p n (stateWord rqRunning 0 0 (d.slotEpoch p i)) = g at *
  have hpart := rewrites_setPart g p n { g.part p with running := (g.part p).running + 1 }
  refine ⟨((hbefore.trans hset).trans hst).trans hpart, ?_, ?_, ?_, ?_⟩
  · rw [hpart.reqWord (.inr rfl), hword']
    simp only [stateWord, Nat.zero_mul, Nat.add_zero]
  · rw [Dev.reqDraft_eq, hpart.reqNat (by decide) (by decide), hst.reqNat (by decide) (by decide), ← Dev.reqDraft_eq, hdraft, hv]
  · rw [Dev.slotPins_setPart, Dev.slotPins_of_slotRegs (hregs.trans hslots') hi, Dev.slotPins_pin]
  · rw [Dev.part_setPart_same, hrunning, hrun']
    rfl

/-! ### cancel and release -/

theorem Dev.cancelReq_running (h : d.reqState p n = rqRunning) : d.cancelReq p n =
    ((d.setReqWord p n (putBits (d.reqWord p n) 63 60 rqCancelled)).reqLeaves p n (bits (d.reqWord p n) 31 0), 0) := by
  rw [Dev.cancelReq, h]
  rfl

theorem Dev.cancelReq_other (h : d.reqState p n ≠ rqRunning) : d.cancelReq p n = (d, 0) := by simp [Dev.cancelReq, h]

theorem Dev.releaseReq_over (h : d.reqState p n = rqFinished ∨ d.reqState p n = rqCancelled ∨ d.reqState p n = rqFailed) :
    d.releaseReq p n = (d.setReqWord p n (putBits (d.reqWord p n) 63 60 rqFree), 0) := by
  rw [Dev.releaseReq, if_pos (by simpa [or_assoc] using h)]

theorem Dev.releaseReq_not_over (h : d.reqState p n = rqFree ∨ d.reqState p n = rqRunning) : d.releaseReq p n = (d, 0x03) := by
  rcases h with h | h <;> rw [Dev.releaseReq, h] <;> rfl

/-- What a cancelled request leaves (R216, R217). -/
structure Cancelled (d e : Dev) (p n : Nat) : Prop where
  touches : Rewrites p n 0 8 d e
  word : e.reqWord p n = putBits (d.reqWord p n) 63 60 rqCancelled
  running : (e.part p).running = (d.part p).running - 1
  frees : (e.part p).frees = (d.part p).frees ++ [(d.fld (pCACHE p) rCACHE_CQ_IDX.off 15 0, d.reqSeq p n)]
  pins : ∀ i, d.slotOf p (bits (d.reqWord p n) 31 0) = some i → d.slotState p i = slCurrent →
    e.slotPins p i = d.slotPins p i - 1

theorem cancelReq_cancelled (h : ReqInTier d p n) : Cancelled d
    ((d.setReqWord p n (putBits (d.reqWord p n) 63 60 rqCancelled)).reqLeaves p n (bits (d.reqWord p n) 31 0)) p n := by
  have hlt := putBits_lt (d.reqWord p n) 63 60 rqCancelled 64 (by decide) (by decide) (d.reqWord_lt p n)
  generalize hv : putBits (d.reqWord p n) 63 60 rqCancelled = v at *
  have hst := rewrites_setReqWord h v
  have hword := reqWord_setReqWord h hlt
  obtain ⟨hslots, hrunning, hfrees, hci, hseq⟩ := setReqWord_rest h v
  generalize d.setReqWord p n v = e at *
  obtain ⟨hleave, hrun, hfree⟩ := reqLeaves_leaves e p n (bits (d.reqWord p n) 31 0)
  refine ⟨hst.trans hleave, (hleave.reqWord (.inr rfl)).trans (hword.trans hv.symm), hrun.trans (by rw [hrunning]),
    hfree.trans ?_, fun i hi hs => ?_⟩
  · rw [hfrees, hci, hseq]
  · have hlt := Dev.slotOf_lt hi
    have hstate : e.slotState p i = slCurrent := (Dev.fld_slot_of_slotRegs hslots hlt _ _).trans hs
    have hof : e.slotOf p (bits (d.reqWord p n) 31 0) = some i := (Dev.slotOf_of_slotRegs hslots _).trans hi
    rw [slotPins_reqLeaves n hof hstate, Dev.slotPins_of_slotRegs hslots hlt]

end

/-! ### The statement -/

/-- Settles O26: each command is a rewrite of its record, or a report. -/
theorem requestCommandsComplete : Obligations.RequestCommandsComplete := by
  intro a p v s hw n w st at_ alone only
  refine ⟨fun hn hd => ?executed, fun hn => ?refused, fun hn i hi => ?unknown⟩
  case executed =>
    have htier : ReqInTier s.dev p n := hd.1
    refine ⟨fun i hop hst hs hi => runs_of_next (runGenCmd_known hw hop rfl hn (Dev.admitReq_sound hst hs hi)) ?admission,
      fun hop hst => runs_of_next (runGenCmd_known hw hop rfl hn (Dev.cancelReq_running hst)) ?cancel,
      fun hop hst => runs_of_next (runGenCmd_known hw hop rfl hn (Dev.releaseReq_over hst)) ?release,
      fun hop => runs_of_next (runGenCmd_known hw hop rfl hn rfl) ?draft⟩
    case admission =>
      have hlt := Dev.currentSlot_lt hi
      have h := startReq_admitted htier hlt
      generalize s.dev.startReq p n i = e at *
      have hend := rewrites_genEnd e p n 0
      rw [Dev.part_genEnd]
      refine ⟨(hend.reqWord (.inr rfl)).trans h.word, ?_, (Dev.slotPins_genEnd _ hlt 0).trans h.pins, h.running,
        rewrites_executed h.touches⟩
      rw [Dev.reqDraft_eq, hend.reqNat (by decide) (by decide)]
      exact h.draft
    case cancel =>
      have h := cancelReq_cancelled htier
      generalize (s.dev.setReqWord p n (putBits (s.dev.reqWord p n) 63 60 rqCancelled)).reqLeaves p n _ = e at *
      rw [Dev.part_genEnd]
      refine ⟨((rewrites_genEnd e p n 0).reqWord (.inr rfl)).trans h.word, h.running, h.frees, fun i hi hs => ?_,
        rewrites_executed h.touches⟩
      exact (Dev.slotPins_genEnd _ (Dev.slotOf_lt hi) 0).trans (h.pins i hi hs)
    case release =>
      have hlt := putBits_lt (s.dev.reqWord p n) 63 60 rqFree 64 (by decide) (by decide) (s.dev.reqWord_lt p n)
      have hset := rewrites_setReqWord htier (putBits (s.dev.reqWord p n) 63 60 rqFree)
      have hword := reqWord_setReqWord htier hlt
      obtain ⟨-, hrunning, -⟩ := setReqWord_rest htier (putBits (s.dev.reqWord p n) 63 60 rqFree)
      generalize s.dev.setReqWord p n (putBits (s.dev.reqWord p n) 63 60 rqFree) = e at *
      rw [Dev.part_genEnd]
      exact ⟨((rewrites_genEnd e p n 0).reqWord (.inr rfl)).trans hword, hrunning, rewrites_executed hset⟩
    case draft =>
      have hset := rewrites_setReqDraft htier (draftWord (s.dev.reqDmax p n) 0 0 0)
      have hdraft := reqDraft_setReqDraft htier (draftWord_lt (bits_lt (s.dev.reqNat p n 40 4) 27 24) (by decide : 0 < 2 ^ 5))
      rw [← Dev.reqDmax_eq] at hdraft
      generalize s.dev.setReqDraft p n (draftWord (s.dev.reqDmax p n) 0 0 0) = e at *
      have hend := rewrites_genEnd e p n 0
      refine ⟨?_, (hend.reqWord (.inr rfl)).trans (hset.reqWord (.inl (by decide))), rewrites_executed hset⟩
      rw [Dev.reqDraft_eq, hend.reqNat (by decide) (by decide)]
      exact hdraft
  case refused =>
    exact ⟨fun hop hst => runGenCmd_known hw hop rfl hn (Dev.admitReq_in_use hst),
      fun hop hst hs => runGenCmd_known hw hop rfl hn (Dev.admitReq_unsound hst hs),
      fun hop hst hs hi => runGenCmd_known hw hop rfl hn (Dev.admitReq_no_epoch hst hs hi),
      fun hop hst => runGenCmd_known hw hop rfl hn (Dev.cancelReq_other hst),
      fun hop hst => runGenCmd_known hw hop rfl hn (Dev.releaseReq_not_over hst)⟩
  case unknown =>
    rcases hi with ⟨rfl, hop⟩ | ⟨rfl, hop⟩ | ⟨rfl, hop⟩ | ⟨rfl, hop⟩ <;> exact runGenCmd_unknown hw hop hn

end Sys2Proof.Machine
end

section
/-! SUPPORT. A Geyser takes a descriptor and gives it up (R218, R220, R231). -/

namespace Sys2Proof.Machine

open Sys2Proof.Safety

/-! ### The Geysers beside the rest of the device -/

@[simp] theorem Dev.geyser_setGeyser_same (d : Dev) (n : Nat) (g : Geyser) : (d.setGeyser n g).geyser n = g :=
  Tab.get_set_same _ _ _ _

theorem Dev.geyser_of_geysers {d e : Dev} (h : e.geysers = d.geysers) (n : Nat) : e.geyser n = d.geyser n := by
  rw [Dev.geyser, h, Dev.geyser]

theorem Upkeep.geysers {d e : Dev} (h : Upkeep d e) : e.geysers = d.geysers := congrArg (·.geysers) h.frame

/-- Memory, poison, cores and Geysers. -/
structure Stock where
  mem : Tab Byte
  poison : NSet
  cores : Tab Core
  geysers : Tab Geyser

def Dev.stock (d : Dev) : Stock := ⟨d.mem, d.poison, d.cores, d.geysers⟩

theorem Upkeep.stock {d e : Dev} (h : Upkeep d e) : e.stock = d.stock := by
  rw [Dev.stock, h.mem, h.poison, h.cores, h.geysers, Dev.stock]

theorem Dev.partEvt_stock (d : Dev) (p b : Nat) : (d.partEvt p b).stock = d.stock := by rw [d.partEvt_frame]; rfl

theorem Dev.log_stock (d : Dev) (page : Nat) (x : LogEntry) : (d.log page x).stock = d.stock := by
  unfold Dev.log
  split <;> rfl

theorem Dev.departOn_stock (d : Dev) (port : Option Nat) (k : Packet) : (d.departOn port k).stock = d.stock := by
  unfold Dev.departOn
  split
  · rfl
  · split <;> rfl

theorem Dev.sendOn_stock (d : Dev) (port : Option Nat) (dst vc : Nat) (m : Message) : (d.sendOn port dst vc m).stock = d.stock := by
  unfold Dev.sendOn
  split
  · rfl
  · exact Dev.departOn_stock _ _ _

theorem Dev.misfit_stock (d : Dev) (p n : Nat) : (d.misfit p n).stock = d.stock := (Dev.log_stock _ _ _).trans (d.partEvt_stock p _)

theorem Dev.applySignal_stock {miss : Dev → Dev} (h : ∀ d, (miss d).stock = d.stock) (d : Dev) (p n : Nat) (op : EmberOp) :
    (d.applySignal p n op miss).stock = d.stock := by
  unfold Dev.applySignal
  cases op with
  | add _ =>
    dsimp only
    split
    · split
      · rfl
      · exact Dev.partEvt_stock _ _ _
    · exact h d
  | arrive | set | clear =>
    dsimp only
    split
    · rfl
    · exact h d

/-- A signal touches registers and links alone. -/
theorem Dev.signal1_stock (d : Dev) (p n : Nat) : (d.signal1 p n).stock = d.stock := by
  unfold Dev.signal1 Dev.signal
  split
  · exact Dev.sendOn_stock _ _ _ _ _
  · exact Dev.applySignal_stock (fun d => d.misfit_stock p n) d p n _

/-! ### Taking a descriptor -/

theorem Dev.phSync_part_agents (d : Dev) (q p : Nat) : ((d.phSync q).part p).phases.agents = (d.part p).phases.agents := by
  have hcount (e : Dev) (o n : Nat) : (e.phCount q o 63 0 n).parts = e.parts := by
    unfold Dev.phCount
    dsimp only
    split <;> rfl
  unfold Dev.phSync
  split
  · rfl
  dsimp only
  generalize hd : d.each _ _ = e
  have hparts : e.parts = d.parts := hd ▸ Dev.each_keeps Dev.parts (fun a _ e => by
    split
    · rfl
    · exact (hcount _ _ _).trans (hcount _ _ _)) d
  have hpart (j : Nat) : e.part j = d.part j := by rw [Dev.part, hparts, Dev.part]
  by_cases hp : p = q
  · rw [hp, Dev.part_setPart_same, hpart]
  · rw [Dev.part_setPart_other _ _ _ _ hp, hpart]

/-- An agent that starts work in a phase is one more there. -/
theorem Dev.phAgents_phStart (d : Dev) (p n : Nat) : (d.phStart p n).phAgents p n = d.phAgents p n + 1 := by
  rw [Dev.phStart, Dev.phSet, Dev.phAgents, Dev.part_setPart_same, Tab.get_set_same, Dev.phAgents, d.phSync_part_agents,
    Dev.phAgents]

/-- The refusal of the descriptor y, with its code (R220). -/
def Dev.refuseDescriptor (d : Dev) (die : Nat) (y : Submitted) (rest : List Submitted) (code : Nat) : Dev :=
  (((d.setGeyser die { d.geyser die with queue := rest }).count (pPART y.part) rPART_STAT.off 15 0 1).partEvt y.part evFault).log
    (pGEY die) { code := 0x80, detail := code, addr := y.addr, part := y.part, world := d.partWorld y.part }

/-- The start of the descriptor y (R218). -/
def Dev.takeDescriptor (d : Dev) (die : Nat) (y : Submitted) (rest : List Submitted) : Dev :=
  (d.setGeyser die
    { queue := rest, active := some y, running := d.rowRunning y.part (.ofBytes (d.descBytes y)) 0 }).phStart y.part phGenerate

/-- What a Geyser does with the descriptor at the head of its queue (R218, R220). -/
theorem exec_geyserDescriptorStart {die : Fin 8} {s : State} {y : Submitted} {rest : List Submitted} (hlive : s.dev.live = true)
    (ha : (s.dev.geyser die).active = none) (hq : (s.dev.geyser die).queue = y :: rest)
    (ht : s.dev.inTest ukEngine (pGEY die) = false) :
    let code := s.dev.geyserCode y.part (.ofBytes (s.dev.descBytes y))
    exec (.geyserDescriptorStart die) s = .next (on s fun d =>
      if code != 0 then d.refuseDescriptor die y rest code else d.takeDescriptor die y rest) := by
  show execGeyserDescriptorStart die s = _
  rw [execGeyserDescriptorStart, State.run]
  dsimp only
  rw [ha, hq]
  dsimp only
  rw [Dev.when_true _ hlive (by rw [ht]; rfl), ← ha]
  rfl

theorem Dev.refuseDescriptor_stock (d : Dev) (die : Nat) (y : Submitted) (rest : List Submitted) (code : Nat) :
    (d.refuseDescriptor die y rest code).stock = (d.setGeyser die { d.geyser die with queue := rest }).stock :=
  (Dev.log_stock _ _ _).trans ((Dev.partEvt_stock _ _ _).trans rfl)

theorem Dev.takeDescriptor_stock (d : Dev) (die : Nat) (y : Submitted) (rest : List Submitted) :
    (d.takeDescriptor die y rest).stock = (d.setGeyser die
      { queue := rest, active := some y, running := d.rowRunning y.part (.ofBytes (d.descBytes y)) 0 }).stock :=
  (Upkeep.phStart _ _ _).stock

/-- What has the stock of d, but for the Geyser of one die, has its memory and cores. -/
theorem of_stock_setGeyser {d e : Dev} {die : Nat} {g : Geyser} (h : e.stock = (d.setGeyser die g).stock) :
    e.geyser die = g ∧ SameMemory d e ∧ e.cores = d.cores := by
  have hgeysers : e.geysers = (d.setGeyser die g).geysers := congrArg Stock.geysers h
  have hmem : e.mem = d.mem := congrArg Stock.mem h
  have hpoison : e.poison = d.poison := congrArg Stock.poison h
  have hcores : e.cores = d.cores := congrArg Stock.cores h
  exact ⟨(Dev.geyser_of_geysers hgeysers die).trans (d.geyser_setGeyser_same die g), ⟨hmem, hpoison⟩, hcores⟩

/-- The first two words of a log that takes an entry. -/
theorem Dev.log_rd {d : Dev} {page : Nat} (h : d.bit page rERR_LOG0.off 63 = false) (x : LogEntry) :
    (d.log page x).rd page rERR_LOG0.off = (2 ^ 63 + x.code * 2 ^ 48 + x.detail) % 2 ^ 64 ∧
      (d.log page x).rd page rERR_LOG1.off = x.addr % 2 ^ 64 := by
  have hne {o o' : Nat} (ho : o < 0x10000) (ho' : o' < 0x10000) (hoo : o ≠ o') : regKey page o ≠ regKey page o' :=
    regKey_ne ho ho' (.inr hoo)
  rw [Dev.log, h, if_neg Bool.false_ne_true]
  constructor
  · rw [Dev.rd_wr_other _ _ _ _ _ _ (hne (by decide) (by decide) (by decide)),
      Dev.rd_wr_other _ _ _ _ _ _ (hne (by decide) (by decide) (by decide)),
      Dev.rd_wr_other _ _ _ _ _ _ (hne (by decide) (by decide) (by decide)), Dev.rd_wr_same]
  · rw [Dev.rd_wr_other _ _ _ _ _ _ (hne (by decide) (by decide) (by decide)),
      Dev.rd_wr_other _ _ _ _ _ _ (hne (by decide) (by decide) (by decide)), Dev.rd_wr_same]

/-- A refusal stands in the log of the Geyser, when the log is free. -/
theorem Dev.refuseDescriptor_log {d : Dev} {die : Fin 8} (h : d.bit (pGEY die) rERR_LOG0.off 63 = false) (y : Submitted)
    (rest : List Submitted) (code : Nat) :
    (d.refuseDescriptor die y rest code).rd (pGEY die) rERR_LOG0.off = (2 ^ 63 + 0x80 * 2 ^ 48 + code) % 2 ^ 64 ∧
      (d.refuseDescriptor die y rest code).rd (pGEY die) rERR_LOG1.off = y.addr % 2 ^ 64 := by
  have hp : pGEY die ≠ pPART y.part := by simp only [pGEY, pPART]; omega
  have hv : pGEY die ≠ pVEX := by simp only [pGEY, pVEX]; omega
  refine Dev.log_rd ?_ _
  rw [Dev.bit, Dev.fld, Dev.partEvt_rd (by decide) hp hv, Dev.count, Dev.rd_setFld_other _ _ _ _ _ _ _ _
    (regKey_ne (by decide) (by decide) (.inl hp))]
  exact h

theorem runs_descriptorStart {die : Fin 8} {s : State} (hlive : s.dev.live = true) {y : Submitted} {rest : List Submitted}
    (ha : (s.dev.geyser die).active = none) (hq : (s.dev.geyser die).queue = y :: rest)
    (ht : s.dev.inTest ukEngine (pGEY die) = false) :
    let g := GDesc.ofBytes (s.dev.descBytes y); let code := s.dev.geyserCode y.part g
    (code = 0 → Runs (.geyserDescriptorStart die) s fun e => e.geyser die =
        { queue := rest, active := some y, running := s.dev.rowRunning y.part g 0 } ∧
      e.phAgents y.part phGenerate = s.dev.phAgents y.part phGenerate + 1 ∧ SameMemory s.dev e ∧ e.cores = s.dev.cores) ∧
    (code ≠ 0 → s.dev.bit (pGEY die) rERR_LOG0.off 63 = false → Runs (.geyserDescriptorStart die) s fun e =>
      e.geyser die = { s.dev.geyser die with queue := rest } ∧
      e.rd (pGEY die) rERR_LOG0.off = (2 ^ 63 + 0x80 * 2 ^ 48 + code) % 2 ^ 64 ∧
      e.rd (pGEY die) rERR_LOG1.off = y.addr % 2 ^ 64 ∧ SameMemory s.dev e ∧ e.cores = s.dev.cores) := by
  intro g code
  have hexec := exec_geyserDescriptorStart hlive ha hq ht
  refine ⟨fun hc => runs_of_next hexec ?_, fun hc hlog => runs_of_next hexec ?_⟩
  · rw [if_neg (by simpa using hc)]
    obtain ⟨hgey, hmem, hcores⟩ := of_stock_setGeyser (s.dev.takeDescriptor_stock die y rest)
    exact ⟨hgey, Dev.phAgents_phStart _ _ _, hmem, hcores⟩
  · rw [if_pos (by simpa using hc)]
    obtain ⟨hgey, hmem, hcores⟩ := of_stock_setGeyser (s.dev.refuseDescriptor_stock die y rest code)
    obtain ⟨hlog0, hlog1⟩ := Dev.refuseDescriptor_log hlog y rest code
    exact ⟨hgey, hlog0, hlog1, hmem, hcores⟩

/-! ### Giving it up -/

/-- The end of the descriptor y of a Geyser (R220, R231). -/
def Dev.endDescriptor (d : Dev) (die : Nat) (y : Submitted) : Dev :=
  let g := GDesc.ofBytes (d.descBytes y)
  let d := (d.setGeyser die { queue := (d.geyser die).queue }).phEnd y.part phGenerate
  let d := if g.last then d.stepLast y.part g.step else d
  if g.emberOn then d.signal1 y.part g.ember else d

theorem Dev.endDescriptor_stock (d : Dev) (die : Nat) (y : Submitted) :
    (d.endDescriptor die y).stock = (d.setGeyser die { queue := (d.geyser die).queue }).stock := by
  have hlast (e : Dev) (c : Bool) (p k : Nat) : (if c then e.stepLast p k else e).stock = e.stock := by
    split <;> rfl
  have hsignal (e : Dev) (c : Bool) (p n : Nat) : (if c then e.signal1 p n else e).stock = e.stock := by
    split
    · exact e.signal1_stock p n
    · rfl
  exact (hsignal _ _ _ _).trans ((hlast _ _ _ _).trans (Upkeep.phEnd _ _ _).stock)

theorem exec_geyserDescriptorDone {die : Fin 8} {s : State} {y : Submitted} (ha : (s.dev.geyser die).active = some y)
    (hf : (s.dev.geyser die).finished = true) :
    let g := GDesc.ofBytes (s.dev.descBytes y)
    exec (.geyserDescriptorDone die) s = .next (on s fun d =>
      d.when (s.dev.rangeVisible g.compl (256 * g.nrows)) fun d => d.endDescriptor die y) := by
  show execGeyserDescriptorDone die s = _
  rw [execGeyserDescriptorDone, State.run]
  dsimp only
  rw [ha, hf]
  dsimp only [Bool.true_and, Dev.when, on]
  rfl

theorem runs_descriptorDone {die : Fin 8} {s : State} (hlive : s.dev.live = true) {y : Submitted}
    (ha : (s.dev.geyser die).active = some y) (hf : (s.dev.geyser die).finished = true) :
    let g := GDesc.ofBytes (s.dev.descBytes y)
    (s.dev.rangeVisible g.compl (256 * g.nrows) = true → Runs (.geyserDescriptorDone die) s fun e =>
      e.geyser die = { queue := (s.dev.geyser die).queue } ∧ SameMemory s.dev e ∧ e.cores = s.dev.cores) ∧
    (s.dev.rangeVisible g.compl (256 * g.nrows) = false → exec (.geyserDescriptorDone die) s = .next s) := by
  intro g
  have hexec := exec_geyserDescriptorDone ha hf
  refine ⟨fun hv => runs_of_next hexec ?_, fun hv => hexec.trans ?_⟩
  · rw [Dev.when_true _ hlive hv]
    exact of_stock_setGeyser (s.dev.endDescriptor_stock die y)
  · rw [on, Dev.when_false _ (.inr hv)]

end Sys2Proof.Machine
end

section
/-! SUPPORT. What the reads of an engine leave, and that the Geysers have no part in them (R166, R180, R185, R187). -/

namespace Sys2Proof.Machine

open Sys2Proof.Safety

/-! ### What decides about requests and writes -/

/-- Memory, what decides where a write lands, and where the request records of a partition stand. -/
structure Basis where
  mem : Tab Byte
  landing : Landing
  table : Nat

def Dev.basis (d : Dev) (p : Nat) : Basis := ⟨d.mem, d.landing, d.rd (pGEN p) rGEN_REQ.off⟩

section
variable {d e : Dev} {p : Nat}

theorem basis_mem (h : e.basis p = d.basis p) : e.mem = d.mem := congrArg Basis.mem h
theorem basis_landing (h : e.basis p = d.basis p) : e.landing = d.landing := congrArg Basis.landing h
theorem basis_table (h : e.basis p = d.basis p) : e.rd (pGEN p) rGEN_REQ.off = d.rd (pGEN p) rGEN_REQ.off := congrArg Basis.table h

theorem basis_of (hm : e.mem = d.mem) (hl : e.landing = d.landing) (ht : e.rd (pGEN p) rGEN_REQ.off = d.rd (pGEN p) rGEN_REQ.off) :
    e.basis p = d.basis p := by
  rw [Dev.basis, hm, hl, ht, Dev.basis]

theorem basis_setFld {page off : Nat} (hw : OffWindows (regKey page off)) (ht : regKey (pGEN p) rGEN_REQ.off ≠ regKey page off)
    (d : Dev) (hi lo n : Nat) : (d.setFld page off hi lo n).basis p = d.basis p :=
  basis_of rfl (Dev.landing_setFld hw _ _ _ _) (Dev.rd_setFld_other _ _ _ _ _ _ _ _ ht)

theorem leavePoisoned_basis (d : Dev) (ts : List Nat) : (d.leavePoisoned ts).basis p = d.basis p := by
  refine Dev.each_keeps (fun e => e.basis p) (fun t _ e => ?_) d
  split
  · rfl
  · exact basis_setFld (offWindows_of (by decide) (.inl (by decide)))
      (regKey_ne (by decide) (by decide) (.inr (by decide))) { e with tier := { e.tier with left := e.tier.left.add t } } _ _ _

theorem enterRefetch_basis (d : Dev) (g : Nat) : (d.enterRefetch g).basis p = d.basis p := by
  refine basis_of (Upkeep.enterRefetch d g).mem (Dev.landing_of_sight fun q => d.enterRefetch_sight q g) ?_
  have hstart (e : Dev) (q n : Nat) : (e.phStart q n).rd (pGEN p) rGEN_REQ.off = e.rd (pGEN p) rGEN_REQ.off :=
    Dev.rd_phSync_off (offAccounts_genReq p) e q
  unfold Dev.enterRefetch
  dsimp only
  split
  · rfl
  split
  · rfl
  split
  · exact basis_table (leavePoisoned_basis d _)
  split
  · exact hstart _ _ _
  split
  · exact (hstart _ _ _).trans (Dev.rd_giveBack _ _ _ (by simp only [pGEN, pERR]; omega) (by decide))
  · rfl

theorem refetchRange_basis (d : Dev) (a n : Nat) : (d.refetchRange a n).basis p = d.basis p := by
  unfold Dev.refetchRange
  split
  · exact Dev.each_keeps (fun e => e.basis p) (fun g _ e => enterRefetch_basis e g) d
  · rfl

theorem snoop_basis (d : Dev) (a n : Nat) : (d.snoop a n).basis p = d.basis p :=
  basis_of (Upkeep.snoop d a n).mem (Dev.landing_of_sight fun q => d.snoop_sight q a n)
    (Dev.each_keeps (fun e => e.rd (pGEN p) rGEN_REQ.off) (fun _ _ e => e.toCompanion_rd _ _ _) d)

theorem readGate_basis (d : Dev) (rs : List (Nat × Nat)) : (d.readGate rs).1.basis p = d.basis p := by
  unfold Dev.readGate
  split
  · exact Dev.each_keeps (fun e => e.basis p) (fun r _ e => snoop_basis e r.1 r.2) d
  split
  · rfl
  split
  · rfl
  · exact Dev.each_keeps (fun e => e.basis p) (fun r _ e => refetchRange_basis e r.1 r.2) d

/-! ### What an engine reads -/

theorem stageAhead_basis (d : Dev) (q st : Nat) : (d.stageAhead q st).basis p = d.basis p := by
  refine basis_of (Upkeep.stageAhead d q st).mem (Dev.landing_of_sight fun r => d.stageAhead_sight r q st) ?_
  have htile (e : Dev) (t : Nat) : (e.stageTile q t).regs = e.regs := by
    unfold Dev.stageTile
    split <;> rfl
  have hevict (e : Dev) (n : Nat) : (e.evictFor q n).regs = e.regs := by
    unfold Dev.evictFor
    dsimp only
    split <;> rfl
  have hrd {e f : Dev} (h : e.regs = f.regs) : e.rd (pGEN p) rGEN_REQ.off = f.rd (pGEN p) rGEN_REQ.off := by rw [Dev.rd, h, Dev.rd]
  have hask : (d.askTables q st).basis p = d.basis p :=
    Dev.each_keeps (fun e => e.basis p) (fun r _ e => (refetchRange_basis _ _ _).trans (snoop_basis e _ _)) d
  exact (hrd ((Dev.each_keeps Dev.regs (fun t _ e => htile e t) _).trans (hevict _ _))).trans (basis_table hask)

/-- The status of a stream is no word of a window, and not where the request records stand. -/
theorem strmSts_key (p q st : Nat) : OffWindows (regKey pTIER (strmSts q st)) ∧
    regKey (pGEN p) rGEN_REQ.off ≠ regKey pTIER (strmSts q st) := by
  constructor
  · intro r i hi
    simp only [regKey, pSTV, pTIER, strmSts, strmIx, Reg.at, rSTV_WIN, rSTV_WIN_N, rSTRM_STS]
    omega
  · simp only [regKey, pGEN, pTIER, strmSts, strmIx, Reg.at, rSTRM_STS, rGEN_REQ]
    omega

theorem count_strmSts_basis (d : Dev) (q st hi lo n : Nat) : (d.count pTIER (strmSts q st) hi lo n).basis p = d.basis p :=
  basis_setFld (strmSts_key p q st).1 (strmSts_key p q st).2 d _ _ _

theorem count_dampStat_basis (d : Dev) (q hi lo n : Nat) : (d.count (pGEN q) rDAMP_STAT.off hi lo n).basis p = d.basis p :=
  basis_setFld (offWindows_of (by decide) (.inr (by decide))) (regKey_ne (by decide) (by decide) (.inr (by decide))) d _ _ _

theorem lateLayer_basis (d : Dev) (q st : Nat) : (d.lateLayer q st none).basis p = d.basis p := by
  unfold Dev.lateLayer
  dsimp only [Option.any]
  rw [stageAhead_basis, if_neg Bool.false_ne_true, count_dampStat_basis, count_strmSts_basis]
  exact basis_setFld (strmSts_key p q st).1 (strmSts_key p q st).2 d _ _ _

theorem readDirect_basis (d : Dev) (q : Nat) (tiles : List Nat) : (d.readDirect q none tiles).basis p = d.basis p := by
  unfold Dev.readDirect
  split
  · rfl
  refine Dev.each_keeps (fun e => e.basis p) (fun st _ e => ?_) d
  dsimp only
  split
  · rfl
  split
  · exact count_strmSts_basis _ _ _ _ _ _
  · exact (lateLayer_basis _ _ _).trans (count_strmSts_basis _ _ _ _ _ _)

theorem warm_basis (d : Dev) (a n : Nat) : (d.warm a n).basis p = d.basis p :=
  basis_of (Upkeep.warm d a n).mem (Dev.landing_of_sight fun q => d.warm_sight q a n) (d.warm_rd a n _ _)

theorem engineReads_basis (d : Dev) (q : Nat) (rs : List (Nat × Nat)) : (d.engineReads q rs).basis p = d.basis p := by
  refine Dev.each_keeps (fun e => e.basis p) (fun r _ e => ?_) d
  dsimp only [Dev.engineRead]
  split
  · exact (warm_basis _ _ _).trans (readDirect_basis _ _ _)
  · rfl

end

/-! ### The Geysers have no part in what is read -/

/-- The device with other Geysers. -/
def Dev.withGeysers (d : Dev) (gs : Tab Geyser) : Dev := { d with geysers := gs }

section
variable (gs : Tab Geyser)

theorem Dev.each_withGeysers {α : Type} {l : List α} {f : α → Dev → Dev}
    (h : ∀ x ∈ l, ∀ e, f x (e.withGeysers gs) = (f x e).withGeysers gs) (d : Dev) :
    (d.withGeysers gs).each l f = (d.each l f).withGeysers gs := by
  induction l generalizing d with
  | nil => rfl
  | cons x l ih =>
    rw [Dev.each, List.foldl_cons, h x (by simp)]
    exact ih (fun y hy => h y (by simp [hy])) (f x d)

theorem Dev.ite_withGeysers (c : Prop) [Decidable c] (d e : Dev) :
    (if c then d else e).withGeysers gs = if c then d.withGeysers gs else e.withGeysers gs :=
  apply_ite (Dev.withGeysers · gs) c d e

theorem Dev.phCount_withGeysers (d : Dev) (p o hi lo n : Nat) :
    (d.withGeysers gs).phCount p o hi lo n = (d.phCount p o hi lo n).withGeysers gs := by
  unfold Dev.phCount
  dsimp only
  rw [Dev.ite_withGeysers]
  rfl

theorem Dev.phSync_withGeysers (d : Dev) (p : Nat) : (d.withGeysers gs).phSync p = (d.phSync p).withGeysers gs := by
  unfold Dev.phSync
  split
  · rfl
  dsimp only
  rw [show (d.withGeysers gs).part p = d.part p from rfl]
  refine congrArg (fun e : Dev => e.setPart p { e.part p with phases := { (e.part p).phases with since := e.now } })
    (Dev.each_withGeysers gs (fun a _ e => ?_) d)
  split
  · rfl
  · rw [Dev.phCount_withGeysers, Dev.phCount_withGeysers]

theorem Dev.phStart_withGeysers (d : Dev) (p n : Nat) : (d.withGeysers gs).phStart p n = (d.phStart p n).withGeysers gs := by
  rw [Dev.phStart, Dev.phSync_withGeysers]
  rfl

theorem Dev.leavePoisoned_withGeysers (d : Dev) (ts : List Nat) :
    (d.withGeysers gs).leavePoisoned ts = (d.leavePoisoned ts).withGeysers gs :=
  Dev.each_withGeysers gs (fun _ _ _ => by dsimp only; rw [Dev.ite_withGeysers]; rfl) d

theorem Dev.giveBack_withGeysers (d : Dev) (slow : Bool) (f : Nat) :
    (d.withGeysers gs).giveBack slow f = (d.giveBack slow f).withGeysers gs := by
  have htier : (d.withGeysers gs).tier = d.tier := rfl
  have hstage (p : Nat) : (d.withGeysers gs).stageOf p = d.stageOf p := rfl
  have hquota (p : Nat) : (d.withGeysers gs).stageQuota p = d.stageQuota p := rfl
  have hunuse (slow : Bool) : (d.withGeysers gs).unuseFrame slow f = (d.unuseFrame slow f).withGeysers gs := by
    cases slow <;> rfl
  unfold Dev.giveBack
  cases slow <;> simp only [htier, hstage, hquota, hunuse, Bool.false_eq_true, if_false, if_true]
  case true =>
    split
    · rfl
    split <;> rfl
  case false =>
    split
    · rfl
    split
    · rfl
    split <;> rfl

theorem Dev.enterRefetch_withGeysers (d : Dev) (g : Nat) :
    (d.withGeysers gs).enterRefetch g = (d.enterRefetch g).withGeysers gs := by
  unfold Dev.enterRefetch
  dsimp only
  rw [Dev.ite_withGeysers, Dev.ite_withGeysers, Dev.ite_withGeysers, Dev.ite_withGeysers, Dev.ite_withGeysers,
    ← Dev.leavePoisoned_withGeysers, ← Dev.phStart_withGeysers, ← Dev.phStart_withGeysers, ← Dev.giveBack_withGeysers]
  rfl

theorem Dev.refetchRange_withGeysers (d : Dev) (a n : Nat) :
    (d.withGeysers gs).refetchRange a n = (d.refetchRange a n).withGeysers gs := by
  unfold Dev.refetchRange
  split
  · exact Dev.each_withGeysers gs (fun g _ e => e.enterRefetch_withGeysers gs g) d
  · rfl

/-- What an engine finds where it would read. -/
theorem Dev.readGate_withGeysers (d : Dev) (rs : List (Nat × Nat)) : ((d.withGeysers gs).readGate rs).2 = (d.readGate rs).2 := by
  have hall (rs : List (Nat × Nat)) : (d.withGeysers gs).refetchAll rs = (d.refetchAll rs).withGeysers gs :=
    Dev.each_withGeysers gs (fun r _ e => e.refetchRange_withGeysers gs r.1 r.2) d
  unfold Dev.readGate
  dsimp only
  rw [hall, apply_ite Prod.snd, apply_ite Prod.snd, apply_ite Prod.snd, apply_ite Prod.snd, apply_ite Prod.snd, apply_ite Prod.snd]
  rfl

end

end Sys2Proof.Machine
end

section
/-! SUPPORT. The record of a row: its bytes, where it goes, and what a row that is computed puts into it (R220, R224 to R228). -/

namespace Sys2Proof.Machine

open Sys2Proof.Safety

/-! ### The completion record -/

theorem take_natLe {m n : Nat} (h : m ≤ n) (v : Nat) : (natLe n v).take m = natLe m v := by
  induction m generalizing n v with
  | zero => rfl
  | succ m ih =>
    obtain ⟨n, rfl⟩ : ∃ k, n = k + 1 := ⟨n - 1, by omega⟩
    rw [natLe, List.take_succ_cons, ih (by omega), natLe]

theorem Dev.load_take (d : Dev) (a : Nat) {m n : Nat} (h : m ≤ n) : d.load a m = (d.load a n).take m := by
  rw [Dev.load, Dev.load, memLoad_eq_map, memLoad_eq_map, ← List.map_take, List.take_range, Nat.min_eq_left h]

/-- A row's end whose record fits, with a status of one byte. -/
structure RowEnd.Fits (r : RowEnd) : Prop where
  status : r.status < 256
  tokens : r.tokens.length < 15

/-- The end of a row that emits no token. -/
theorem fits_silent {status : Nat} (h : status < 256) (trunc : Bool) (keep : Nat) :
    RowEnd.Fits { status := status, trunc := trunc, keep := keep } := ⟨h, by simp⟩

/-- The first word of a completion record. -/
def recordWord (e : RowEntry) (r : RowEnd) (state reason : Nat) : Nat :=
  r.status + r.tokens.length * 2 ^ 8 + b2n r.trunc * 2 ^ 12 + b2n e.degraded * 2 ^ 13 + state * 2 ^ 16 + reason * 2 ^ 20 +
    r.nacc * 2 ^ 24

theorem take_completion (e : RowEntry) (r : RowEnd) (state reason : Nat) {m : Nat} (h : m ≤ 4) :
    (completion e r state reason).take m = natLe m (recordWord e r state reason) := by
  have hword : ∃ rest, completion e r state reason = natLe 4 (recordWord e r state reason) ++ rest := by
    simp only [completion, List.append_assoc]
    exact ⟨_, rfl⟩
  obtain ⟨rest, hrest⟩ := hword
  rw [hrest, List.take_append_of_le_length (by rw [natLe_length]; exact h), take_natLe h]

section
variable {r : RowEnd} (h : r.Fits) (e : RowEntry) (state reason : Nat)
include h

theorem length_completion : (completion e r state reason).length = 256 := by
  have htokens := h.tokens
  have hflat (l : List (Nat × FVal × FVal)) : (l.flatMap fun t => natLe 4 t.1 ++ natLe 4 (toF32 t.2.1).toNat ++
      natLe 4 (toF32 t.2.2).toNat ++ natLe 4 0).length = 16 * l.length := by
    induction l with
    | nil => rfl
    | cons t l ih => simp only [List.flatMap_cons, List.length_append, natLe_length, ih, List.length_cons]; omega
  simp only [completion, List.length_append, List.length_replicate, natLe_length, hflat]
  omega

theorem recordWord_status : recordWord e r state reason % 256 ^ 1 = r.status := by
  have hstatus := h.status
  rw [recordWord]
  omega

theorem recordWord_trunc : (recordWord e r state reason % 256 ^ 2).testBit 12 = r.trunc := by
  obtain ⟨hstatus, htokens⟩ := h
  rw [recordWord, Nat.testBit_eq_decide_div_mod_eq]
  cases r.trunc <;> simp only [b2n, Bool.false_eq_true, if_false, if_true, decide_eq_true_eq, decide_eq_false_iff_not] <;> omega

end

/-! ### A row's end -/

/-- The device with the record of a row written. -/
def Dev.putRecord (d : Dev) (p : Nat) (g : GDesc) (i : Nat) (e : RowEntry) (r : RowEnd) : Dev :=
  let known := e.req < d.nreq p && d.tierOk p (d.partWorld p) (d.reqAt p e.req) 128
  let w := d.reqWord p e.req
  d.put (g.compl + 256 * i) (completion e r (if known then bits w 63 60 else 0) (if known then bits w 59 56 else 0)) false

theorem Dev.endRow_mem (d : Dev) (die p : Nat) (g : GDesc) (x : Geyser) (e : RowEntry) (r : RowEnd) :
    (d.endRow die p g x e r).mem = (d.putRecord p g x.row e r).mem := by
  unfold Dev.endRow
  dsimp only
  split <;> rfl

/-- The Geyser reaches the next row, or has none left. -/
theorem Dev.endRow_geyser (d : Dev) (die p : Nat) (g : GDesc) (x : Geyser) (e : RowEntry) (r : RowEnd) :
    let z := (d.endRow die p g x e r).geyser die
    z.row = x.row + 1 ∧ z.held = false ∧ z.active = x.active ∧ z.finished = decide (g.nrows ≤ x.row + 1) := by
  dsimp only [Dev.endRow]
  rw [Dev.geyser_setGeyser_same]
  exact ⟨rfl, rfl, rfl, rfl⟩

section
variable {d : Dev} {g : GDesc} {x : Geyser} {r : RowEnd} (hopen : Open d (g.compl + 256 * x.row) 256) (h : r.Fits)
  (die p : Nat) (e : RowEntry)
include hopen h

/-- The record stands where the descriptor wants it, and no other byte differs. -/
theorem endRow_record : let f := d.endRow die p g x e r; let out := g.compl + 256 * x.row
    f.loadNat out 1 = r.status ∧ (f.loadNat out 2).testBit 12 = r.trunc ∧
      ∀ a, a < out ∨ out + 256 ≤ a → f.load a 1 = d.load a 1 := by
  intro f out
  obtain ⟨state, reason, hput⟩ : ∃ state reason, d.putRecord p g x.row e r = d.put out (completion e r state reason) false :=
    ⟨_, _, rfl⟩
  have hlen := length_completion h e state reason
  replace hopen : Open d out (completion e r state reason).length := by rw [hlen]; exact hopen
  have hload (a n : Nat) : f.load a n = (d.put out (completion e r state reason) false).load a n := by
    rw [Dev.load, Dev.endRow_mem, hput, Dev.load]
  have hall : f.load out 256 = completion e r state reason := by
    have hsame := load_put_same hopen
    rw [hlen] at hsame
    exact (hload out 256).trans hsame
  have hnat {m : Nat} (hm : m ≤ 4) : f.loadNat out m = recordWord e r state reason % 256 ^ m := by
    rw [Dev.loadNat, f.load_take out (show m ≤ 256 by omega), hall, take_completion _ _ _ _ hm, leNat_natLe]
  refine ⟨(hnat (by decide)).trans (recordWord_status h e state reason), ?_,
    fun a ha => (hload a 1).trans (load_put_other hopen ?_)⟩
  · rw [hnat (by decide)]
    exact recordWord_trunc h e state reason
  · rw [hlen]
    exact ha

end

/-! ### A row that is computed -/

theorem Verify.length_run {v : Verify} {j : Nat} {qs : List (Option Dist)} {ds : List (Nat × Option (List (Nat × FVal) × FVal))}
    {x : List (Nat × Nat) × Nat} (h : v.run j qs ds = some x) : x.1.length ≤ ds.length + 1 := by
  induction ds generalizing j qs x with
  | nil =>
    cases qs with
    | nil => simp [Verify.run] at h
    | cons q qs =>
      cases q with
      | none => simp [Verify.run] at h
      | some q =>
        simp only [Verify.run, Option.map_some, Option.some.injEq] at h
        simp [← h]
  | cons d ds ih =>
    cases qs with
    | nil => simp [Verify.run] at h
    | cons q qs =>
      unfold Verify.run at h
      split at h
      · dsimp only at h
        split at h
        · obtain ⟨z, hz, rfl⟩ := Option.map_eq_some_iff.mp h
          have := ih hz
          simpa using this
        · simp only [Option.some.injEq] at h
          simp [← h]
      · cases h

section
variable (d : Dev) (p : Nat) (g : GDesc) (e : RowEntry) (nd : Nat) (pr : Bool) (bias : List FVal)

/-- The main and the draft rows of a row entry (R219). -/
def Dev.mainRows : List (List FVal) := (List.range (nd + 1)).map fun j => d.logitsRow g (e.lrow + j)
def Dev.draftRows : List (List FVal) := if g.dmode then (List.range nd).map fun j => d.logitsRow g (e.drow + j) else []

/-- Its main distributions (R222). -/
def Dev.mainDists : List (Option Dist) := (d.mainRows g e nd).map fun l => distOf l bias (d.reqParams p e.req)

/-- What its verification gives (R225). -/
def Dev.verdict : Option (List (Nat × Nat) × Nat) :=
  let ds := (List.range nd).map fun j =>
    let t := (e.draft[j]?).getD 0
    if g.dmode then
      (t, (distOf (((d.draftRows g e nd)[j]?).getD []) bias (d.reqParams p e.req)).map fun x => (x.p, x.z))
    else (t, some ([(t, FVal.ofNat 1)], FVal.ofNat 1))
  let v : Verify := { seed := d.loadNatNew (d.reqAt p e.req + 8) 8, ident := d.loadNatNew (d.reqAt p e.req + 16) 4,
                      nout := bits (d.reqWord p e.req) 51 32, main := d.mainDists p g e nd bias, draft := ds, vocab := g.vocab }
  v.run 0 (d.mainDists p g e nd bias) ds

/-- A verified row, committed (R226, R227). -/
def Dev.commitVerified (toks : List (Nat × Nat)) (nacc : Nat) : Dev × RowEnd :=
  let n := e.req
  let w := d.reqWord p n
  let nout := bits w 51 32
  let c := d.commitTokens p n e.base nout 0 (toks.map Prod.fst)
  let out := (toks.take c.1).map fun t =>
    (t.1, lpraw (((d.mainRows g e nd)[t.2]?).getD []) t.1,
      ((((d.mainDists p g e nd bias)[t.2]?).getD none).map fun x => x.lpmod t.1).getD (.inf true))
  let keep := e.base + 1 + nacc
  let state := if c.2 = 0 then rqRunning else rqFinished
  let d := (d.draftWindow p n nd nacc pr).setReqWord p n (stateWord state c.2 (nout + c.1) (bits w 31 0))
  let d := d.setPart p { d.part p with keeps := (d.part p).keeps ++ [(d.reqSeq p n, keep)] }
  let d := if c.2 = 0 then d else d.reqLeaves p n (bits w 31 0)
  (d, { status := 0, trunc := nd < e.nd, nacc := nacc, keep := keep, tokens := out })

/-- A request without a selectable token leaves (R222). -/
def Dev.commitFailed : Dev :=
  let w := d.reqWord p e.req
  (d.setReqWord p e.req (stateWord rqFailed 4 (bits w 51 32) (bits w 31 0))).reqLeaves p e.req (bits w 31 0)

theorem commitRow_eq : d.commitRow p g e nd pr bias =
    if (d.mainRows g e nd ++ d.draftRows g e nd).any fun l => l.any FVal.isNan then
      (d, { status := 0x04, trunc := nd < e.nd, keep := e.base })
    else match d.verdict p g e nd bias with
      | none => (d.commitFailed p e, { status := 0x05, trunc := nd < e.nd, keep := e.base })
      | some (toks, nacc) => d.commitVerified p g e nd pr bias toks nacc := rfl

theorem length_verdict {x : List (Nat × Nat) × Nat} (h : d.verdict p g e nd bias = some x) : x.1.length ≤ nd + 1 := by
  have hlen := Verify.length_run h
  rwa [List.length_map, List.length_range] at hlen

theorem commitRow_trunc : (d.commitRow p g e nd pr bias).2.trunc = decide (nd < e.nd) := by
  rw [commitRow_eq]
  split
  · rfl
  · split <;> rfl

theorem commitVerified_status (toks : List (Nat × Nat)) (nacc : Nat) :
    (d.commitVerified p g e nd pr bias toks nacc).2.status = 0 := rfl

theorem commitRow_status : (d.commitRow p g e nd pr bias).2.status =
    if (d.mainRows g e nd ++ d.draftRows g e nd).any fun l => l.any FVal.isNan then 0x04
    else if (d.verdict p g e nd bias).isNone then 0x05 else 0 := by
  rw [commitRow_eq]
  split
  · rfl
  split
  next hv => rw [hv, Option.isNone_none, if_pos rfl]
  next hv => rw [hv, Option.isNone_some, if_neg Bool.false_ne_true, commitVerified_status]

/-- A row of at most 8 drafts fits its record. -/
theorem commitRow_fits (h : nd ≤ 8) : (d.commitRow p g e nd pr bias).2.Fits := by
  rw [commitRow_eq]
  split
  · exact fits_silent (by decide) _ _
  split
  · exact fits_silent (by decide) _ _
  next toks nacc hv =>
    have hlen : toks.length ≤ nd + 1 := length_verdict _ _ _ _ _ _ hv
    refine ⟨Nat.zero_lt_succ _, ?_⟩
    simp only [Dev.commitVerified, List.length_map, List.length_take]
    omega

theorem setReqWord_landing (n v : Nat) : (d.setReqWord p n v).landing = d.landing := d.store_landing _ _

theorem unpinEpoch_landing (epoch : Nat) : (d.unpinEpoch p epoch).landing = d.landing := by
  have hslot {off : Nat} (ho : off < 0x400) : OffWindows (regKey (pWGT p) off) := offWindows_of (by omega) (.inr ho)
  unfold Dev.unpinEpoch
  split
  next i hi =>
    have hlt := Dev.slotOf_lt hi
    have hoff : slotOff i < 0x400 := by simp only [slotOff, Reg.at, rWGT_SLOT]; omega
    have hman : rWGT_SLOT_MAN.at i < 0x400 := by simp only [Reg.at, rWGT_SLOT_MAN]; omega
    have hset : (d.setFld (pWGT p) (slotOff i) 55 32 (d.slotPins p i - 1)).landing = d.landing :=
      Dev.landing_setFld (hslot hoff) _ _ _ _
    have hempty (e : Dev) : (e.emptySlot p i).landing = e.landing :=
      (Dev.landing_wr (hslot hman) (e.wr (pWGT p) (slotOff i) 0) 0).trans (Dev.landing_wr (hslot hoff) e 0)
    unfold Dev.unpin Dev.retireSlot
    split
    · exact (Dev.partEvt_landing _ _ _).trans ((hempty _).trans hset)
    · exact hset
  · rfl

theorem reqLeaves_landing (n epoch : Nat) : (d.reqLeaves p n epoch).landing = d.landing := unpinEpoch_landing _ p epoch

theorem draftWindow_landing (n nacc : Nat) : (d.draftWindow p n nd nacc pr).landing = d.landing := by
  have hcount (c : Prop) [Decidable c] (e : Dev) (a k v : Nat) : (if c then e else e.storeNat a k v).landing = e.landing := by
    split
    · rfl
    · exact e.store_landing _ _
  have hclear (c : Prop) [Decidable c] (e : Dev) (a : Nat) (bs : List Byte) :
      (if c then e.store a bs else e).landing = e.landing := by
    split
    · exact e.store_landing _ _
    · rfl
  unfold Dev.draftWindow
  dsimp only
  exact (Dev.store_landing _ _ _).trans ((hclear _ _ _ _).trans (hcount _ _ _ _ _))

theorem commitFailed_landing : (d.commitFailed p e).landing = d.landing :=
  (reqLeaves_landing _ _ _ _).trans (setReqWord_landing _ _ _ _)

theorem commitVerified_landing (toks : List (Nat × Nat)) (nacc : Nat) :
    (d.commitVerified p g e nd pr bias toks nacc).1.landing = d.landing := by
  have hword (v : Nat) : ((d.draftWindow p e.req nd nacc pr).setReqWord p e.req v).landing = d.landing :=
    (setReqWord_landing _ _ _ _).trans (draftWindow_landing _ _ _ _ _ _)
  have hkeeps (f : Dev) (x : Part) : (f.setPart p x).landing = f.landing := rfl
  have hleave (c : Prop) [Decidable c] (f : Dev) (epoch : Nat) :
      (if c then f else f.reqLeaves p e.req epoch).landing = f.landing := by
    split
    · rfl
    · exact reqLeaves_landing _ _ _ _
  exact (hleave _ _ _).trans ((hkeeps _ _).trans (hword _))

/-- What is committed of a row moves no write. -/
theorem commitRow_landing : (d.commitRow p g e nd pr bias).1.landing = d.landing := by
  rw [commitRow_eq]
  split
  · rfl
  split
  · exact commitFailed_landing d p e
  · exact commitVerified_landing d p g e nd pr bias _ _

end

/-! ### What a row's status rests on -/

/-- Two devices with the same memory, and the same bytes in the request record n. -/
structure SameRequest (p n : Nat) (d e : Dev) : Prop where
  mem : e.mem = d.mem
  reqNat : ∀ k m, k + m ≤ 128 → e.reqNat p n k m = d.reqNat p n k m

section
variable {p : Nat} {d f : Dev} {e : RowEntry} (h : SameRequest p e.req d f) (g : GDesc) (nd : Nat) (pr : Bool) (bias : List FVal)
include h

theorem SameRequest.reqParams : f.reqParams p e.req = d.reqParams p e.req := by
  have hnat {k m : Nat} (hk : k + m ≤ 128) : f.loadNatNew (f.reqAt p e.req + k) m = d.loadNatNew (d.reqAt p e.req + k) m :=
    h.reqNat k m hk
  simp only [Dev.reqParams, hnat (show 28 + 4 ≤ 128 by decide), hnat (show 32 + 4 ≤ 128 by decide),
    hnat (show 36 + 4 ≤ 128 by decide), hnat (show 40 + 4 ≤ 128 by decide)]

theorem SameRequest.logitsRow : f.logitsRow g = d.logitsRow g := by
  funext r
  simp only [Dev.logitsRow, Dev.loadNat, Dev.load, h.mem]

theorem SameRequest.mainRows : f.mainRows g e nd = d.mainRows g e nd := by rw [Dev.mainRows, h.logitsRow, Dev.mainRows]
theorem SameRequest.draftRows : f.draftRows g e nd = d.draftRows g e nd := by rw [Dev.draftRows, h.logitsRow, Dev.draftRows]

theorem SameRequest.verdict : f.verdict p g e nd bias = d.verdict p g e nd bias := by
  have hseed := h.reqNat 8 8 (by decide)
  have hident := h.reqNat 16 4 (by decide)
  have hword : f.reqWord p e.req = d.reqWord p e.req := by rw [Dev.reqWord_eq, h.reqNat _ _ (by decide), Dev.reqWord_eq]
  rw [Dev.reqNat, Dev.reqNat] at hseed hident
  rw [Dev.verdict, Dev.mainDists, h.mainRows, h.draftRows, h.reqParams, hseed, hident, hword, Dev.verdict, Dev.mainDists]

theorem SameRequest.status : (f.commitRow p g e nd pr bias).2.status = (d.commitRow p g e nd pr bias).2.status := by
  rw [commitRow_status, commitRow_status, h.mainRows, h.draftRows, h.verdict]

end

end Sys2Proof.Machine
end

section
/-! SUPPORT. A row of a Geyser: what it meets, and what working it leaves (R220, R224 to R230). -/

namespace Sys2Proof.Machine

open Sys2Proof.Safety

/-! ### What a row meets -/

/-- Is the request of a row not known, named twice, or without a record that can be written (R220; log entry 27)? -/
def Dev.rowUnknown (d : Dev) (p : Nat) (g : GDesc) (i : Nat) : Bool :=
  let n := (d.rowEntry g i).req
  d.nreq p ≤ n || 1 < ((List.range g.nrows).filter fun j => (d.rowEntry g j).req == n).length ||
    !d.tierOk p (d.partWorld p) (d.reqAt p n) 128

/-- What a row meets before anything of it is read; none for one that goes on to its reads (R220, R227). -/
def Dev.rowRefusal (d : Dev) (die p : Nat) (g : GDesc) (i : Nat) (wasRunning : Bool) : Option RowStart :=
  let n := (d.rowEntry g i).req
  if d.scratchBusy (g.compl + 256 * i) 256 true then some (.waits false)
  else if d.rowUnknown p g i then some (.ends 0x06 false)
  else if d.earlierRow die p g.step n then some (.waits false)
  else if d.reqState p n != rqRunning then
    some (.ends (if wasRunning && d.reqState p n == rqCancelled then 0x01 else 0x02) false)
  else if bits (d.reqWord p n) 31 0 != g.epoch then some (.ends 0x03 false)
  else if !d.reqSound p n then some (.ends 0x08 false)
  else none

/-- The bias of every token of a row whose table stands at a place, if it has one (R222). -/
def Dev.biasAt (d : Dev) (g : GDesc) : Option Nat → List FVal
  | none => List.replicate g.vocab (.zero false)
  | some a => biasRow (d.load a 2048) g.vocab

theorem biasAt_of_load {d e : Dev} (h : ∀ a n, e.load a n = d.load a n) (g : GDesc) (t : Option Nat) :
    e.biasAt g t = d.biasAt g t := by
  cases t with
  | none => rfl
  | some a => rw [Dev.biasAt, h, Dev.biasAt]

section
variable (d : Dev) (p : Nat) (g : GDesc) (i : Nat)

/-- Is the row of a request with no drafts allowed one that probes (R226)? -/
def Dev.rowProbes : Bool :=
  let w := d.reqDraft p (d.rowEntry g i).req
  bits w 3 0 == 0 && bits w 10 4 == 0

/-- Its draft length (R224, R226). -/
def Dev.rowDrafts : Nat :=
  let e := d.rowEntry g i
  let allowed := if d.rowProbes p g i then d.fld (pGEN p) rGEN_DRAFT.off 3 0 else bits (d.reqDraft p e.req) 3 0
  min (min e.nd allowed) (min (d.draftCap p g.step) (63 - e.base % 64))

/-- Where its bias table stands, if it has one (R222). -/
def Dev.rowTable : Option Nat :=
  let table := bits (d.loadNatNew (d.reqAt p (d.rowEntry g i).req + 40) 4) 23 16
  if table = 0 then none else some (d.fld (pGEN p) rGEN_BIAS.off 31 0 * 0x10000 + 2048 * table)

/-- The ranges that it reads. -/
def Dev.rowRanges : List (Nat × Nat) := g.rowReads i (d.rowEntry g i) (d.rowDrafts p g i) (d.rowTable p g i)

/-- What its reads meet (R180, R185, R230). -/
def Dev.rowMeets : Gate → RowStart
  | .wait => .waits ((d.rowRanges p g i).any fun r => d.poisoned r.1 r.2)
  | .bad => .ends 0x07 (d.rowDrafts p g i < (d.rowEntry g i).nd)
  | .clear => .goes (d.rowDrafts p g i) (d.rowProbes p g i) (d.biasAt g (d.rowTable p g i))

/-- The device after them. -/
def Dev.rowLeaves : Gate → Dev
  | .clear => (d.readGate (d.rowRanges p g i)).1.engineReads p (d.rowRanges p g i)
  | _ => (d.readGate (d.rowRanges p g i)).1

/-- Is its bias table out of reach? -/
def Dev.rowBiasBad : Bool := (d.rowTable p g i).any fun a => !d.tierOk p (d.partWorld p) a 2048

/-- A row that goes on to its reads. -/
def Dev.rowRead : Dev × RowStart :=
  if d.rowBiasBad p g i then (d, .ends 0x08 (d.rowDrafts p g i < (d.rowEntry g i).nd))
  else
    let gate := (d.readGate (d.rowRanges p g i)).2
    (d.rowLeaves p g i gate, d.rowMeets p g i gate)

end

section
variable (d : Dev) (die p : Nat) (g : GDesc) (i : Nat) (was : Bool)

/-- The read gate leaves what is read of the tables, and the poison. -/
theorem readGate_load (d : Dev) (rs : List (Nat × Nat)) (a n : Nat) : (d.readGate rs).1.load a n = d.load a n := by
  rw [Dev.load, basis_mem (p := 0) (readGate_basis d rs), Dev.load]

theorem readGate_poisoned (d : Dev) (rs : List (Nat × Nat)) (a n : Nat) : (d.readGate rs).1.poisoned a n = d.poisoned a n :=
  Dev.poisoned_of_sight (d.readGate_sight 0 rs) a n

/-- What the read gate gives, with the device that it leaves. -/
theorem rowRead_of_gate : (match d.readGate (d.rowRanges p g i) with
    | (d', .wait) => (d', RowStart.waits ((d.rowRanges p g i).any fun r => d'.poisoned r.1 r.2))
    | (d', .bad) => (d', .ends 0x07 (d.rowDrafts p g i < (d.rowEntry g i).nd))
    | (d', .clear) => (d'.engineReads p (d.rowRanges p g i), .goes (d.rowDrafts p g i) (d.rowProbes p g i)
        (d'.biasAt g (d.rowTable p g i)))) =
    (d.rowLeaves p g i (d.readGate (d.rowRanges p g i)).2, d.rowMeets p g i (d.readGate (d.rowRanges p g i)).2) := by
  have hbias := biasAt_of_load (readGate_load d (d.rowRanges p g i)) g (d.rowTable p g i)
  have hpoison := readGate_poisoned d (d.rowRanges p g i)
  unfold Dev.rowLeaves
  generalize d.readGate (d.rowRanges p g i) = z at hbias hpoison ⊢
  obtain ⟨e, gate⟩ := z
  dsimp only at hbias hpoison
  cases gate with
  | wait => simp only [hpoison, Dev.rowMeets]
  | bad => rfl
  | clear => rw [Dev.rowMeets, ← hbias]

theorem rowStart_eq : d.rowStart die p g i was =
    match d.rowRefusal die p g i was with
    | some z => (d, z)
    | none => d.rowRead p g i := by
  unfold Dev.rowStart Dev.rowRefusal
  dsimp only
  by_cases hbusy : d.scratchBusy (g.compl + 256 * i) 256 true = true
  · rw [if_pos hbusy, if_pos hbusy]
  rw [if_neg hbusy, if_neg hbusy]
  by_cases hunknown : d.rowUnknown p g i = true
  · exact (if_pos hunknown).trans (by rw [if_pos hunknown])
  refine (if_neg hunknown).trans ?_
  rw [if_neg hunknown]
  by_cases hearlier : d.earlierRow die p g.step (d.rowEntry g i).req = true
  · rw [if_pos hearlier, if_pos hearlier]
  rw [if_neg hearlier, if_neg hearlier]
  by_cases hrun : (d.reqState p (d.rowEntry g i).req != rqRunning) = true
  · rw [if_pos hrun, if_pos hrun]
  rw [if_neg hrun, if_neg hrun]
  by_cases hstale : (bits (d.reqWord p (d.rowEntry g i).req) 31 0 != g.epoch) = true
  · rw [if_pos hstale, if_pos hstale]
  rw [if_neg hstale, if_neg hstale]
  by_cases hsound : (!d.reqSound p (d.rowEntry g i).req) = true
  · rw [if_pos hsound, if_pos hsound]
  rw [if_neg hsound, if_neg hsound]
  exact congrArg (fun z => if d.rowBiasBad p g i then (d, RowStart.ends 0x08 (d.rowDrafts p g i < (d.rowEntry g i).nd)) else z)
    (rowRead_of_gate d p g i)

section
variable {d : Dev} {die p : Nat} {g : GDesc} {i : Nat} {was : Bool}

theorem rowStart_of_refusal {z : RowStart} (h : d.rowRefusal die p g i was = some z) : d.rowStart die p g i was = (d, z) := by
  rw [rowStart_eq, h]

theorem rowStart_of_none (h : d.rowRefusal die p g i was = none) : d.rowStart die p g i was = d.rowRead p g i := by
  rw [rowStart_eq, h]

end

/-- An outcome met before the reads: it does not go on, and a status is a byte. -/
def RowStart.Early : RowStart → Prop
  | .ends st _ => st < 256
  | .waits _ => True
  | .goes .. => False

theorem rowRefusal_early {z : RowStart} (h : d.rowRefusal die p g i was = some z) : z.Early := by
  unfold Dev.rowRefusal at h
  dsimp only at h
  split at h
  · cases h
    trivial
  split at h
  · cases h
    dsimp only [RowStart.Early]
    decide
  split at h
  · cases h
    trivial
  split at h
  · cases h
    dsimp only [RowStart.Early]
    split <;> decide
  split at h
  · cases h
    dsimp only [RowStart.Early]
    decide
  split at h
  · cases h
    dsimp only [RowStart.Early]
    decide
  · cases h

/-- What a row meets leaves memory, the places of the requests and where writes land. -/
theorem rowLeaves_basis (gate : Gate) : (d.rowLeaves p g i gate).basis p = d.basis p := by
  cases gate with
  | clear => exact (engineReads_basis _ _ _).trans (readGate_basis _ _)
  | wait | bad => exact readGate_basis _ _

theorem rowLeaves_seen (gate : Gate) : (d.rowLeaves p g i gate).seen = d.seen := by
  cases gate with
  | clear => exact Dev.seen_of_sight ((Dev.engineReads_sight _ p _).trans (d.readGate_sight p _))
  | wait | bad => exact Dev.seen_of_sight (d.readGate_sight p _)

theorem rowStart_basis : (d.rowStart die p g i was).1.basis p = d.basis p := by
  rw [rowStart_eq]
  split
  · rfl
  · unfold Dev.rowRead
    split
    · rfl
    · exact rowLeaves_basis _ _ _ _ _

theorem rowStart_seen : (d.rowStart die p g i was).1.seen = d.seen := by
  rw [rowStart_eq]
  split
  · rfl
  · unfold Dev.rowRead
    split
    · rfl
    · exact rowLeaves_seen _ _ _ _ _

/-- Its request record is the same to the row that is computed. -/
theorem sameRequest_rowStart (n : Nat) : SameRequest p n d (d.rowStart die p g i was).1 := by
  have hbasis := rowStart_basis d die p g i was
  refine ⟨basis_mem hbasis, fun k m hk => ?_⟩
  rw [Dev.reqNat_eq _ _ _ hk, Dev.reqNat_eq _ _ _ hk, rowStart_seen, Dev.reqAt_of_rd (basis_table hbasis)]

theorem rowStart_status {st : Nat} {cut : Bool} (h : (d.rowStart die p g i was).2 = .ends st cut) : st < 256 := by
  rw [rowStart_eq] at h
  split at h
  next z hz =>
    have hearly := rowRefusal_early d die p g i was hz
    rwa [show z = .ends st cut from h] at hearly
  unfold Dev.rowRead at h
  split at h
  · cases h
    decide
  · dsimp only at h
    cases hgate : (d.readGate (d.rowRanges p g i)).2 <;> rw [hgate] at h <;> cases h
    decide

/-- A row that goes on keeps within the caps of R224. -/
theorem rowStart_goes {nd : Nat} {pr : Bool} {bias : List FVal} (h : (d.rowStart die p g i was).2 = .goes nd pr bias) :
    nd = d.rowDrafts p g i := by
  rw [rowStart_eq] at h
  split at h
  next z hz =>
    have hearly := rowRefusal_early d die p g i was hz
    rw [show z = .goes nd pr bias from h] at hearly
    exact hearly.elim
  unfold Dev.rowRead at h
  split at h
  · cases h
  · dsimp only at h
    cases hgate : (d.readGate (d.rowRanges p g i)).2 <;> rw [hgate] at h <;> cases h
    rfl

theorem rowDrafts_le : d.rowDrafts p g i ≤ (d.rowEntry g i).nd ∧ d.rowDrafts p g i ≤ d.draftCap p g.step ∧
    d.rowDrafts p g i + (d.rowEntry g i).base % 64 ≤ 63 := by
  rw [Dev.rowDrafts]
  omega

/-- How each refusal comes about, in the order in which a row meets them. -/
theorem rowStart_busy (h : d.scratchBusy (g.compl + 256 * i) 256 true = true) : (d.rowStart die p g i was).2 = .waits false := by
  rw [rowStart_eq, Dev.rowRefusal, if_pos h]

section
variable (hbusy : d.scratchBusy (g.compl + 256 * i) 256 true = false)
include hbusy

theorem rowStart_unknown (h : d.rowUnknown p g i = true) : (d.rowStart die p g i was).2 = .ends 0x06 false := by
  rw [rowStart_eq, Dev.rowRefusal, hbusy, if_neg Bool.false_ne_true, if_pos h]

variable (hknown : d.rowUnknown p g i = false)
include hknown

theorem rowStart_earlier (h : d.earlierRow die p g.step (d.rowEntry g i).req = true) :
    (d.rowStart die p g i was).2 = .waits false := by
  rw [rowStart_eq, Dev.rowRefusal, hbusy, if_neg Bool.false_ne_true, hknown, if_neg Bool.false_ne_true, if_pos h]

variable (hearlier : d.earlierRow die p g.step (d.rowEntry g i).req = false)
include hearlier

theorem rowStart_idle (h : ¬ d.reqState p (d.rowEntry g i).req = rqRunning) : (d.rowStart die p g i was).2 =
    .ends (if was = true ∧ d.reqState p (d.rowEntry g i).req = rqCancelled then 0x01 else 0x02) false := by
  rw [rowStart_eq, Dev.rowRefusal, hbusy, if_neg Bool.false_ne_true, hknown, if_neg Bool.false_ne_true, hearlier,
    if_neg Bool.false_ne_true, if_pos (by simpa using h)]
  simp

variable (hrun : d.reqState p (d.rowEntry g i).req = rqRunning)
include hrun

theorem rowStart_stale (h : ¬ bits (d.reqWord p (d.rowEntry g i).req) 31 0 = g.epoch) :
    (d.rowStart die p g i was).2 = .ends 0x03 false := by
  rw [rowStart_eq, Dev.rowRefusal, hbusy, if_neg Bool.false_ne_true, hknown, if_neg Bool.false_ne_true, hearlier,
    if_neg Bool.false_ne_true, if_neg (by simpa using hrun), if_pos (by simpa using h)]

theorem rowStart_unsound (hmine : bits (d.reqWord p (d.rowEntry g i).req) 31 0 = g.epoch)
    (h : d.reqSound p (d.rowEntry g i).req = false) : (d.rowStart die p g i was).2 = .ends 0x08 false := by
  rw [rowStart_eq, Dev.rowRefusal, hbusy, if_neg Bool.false_ne_true, hknown, if_neg Bool.false_ne_true, hearlier,
    if_neg Bool.false_ne_true, if_neg (by simpa using hrun), if_neg (by simpa using hmine), if_pos (by simpa using h)]

end

theorem rowUnknown_eq_false : d.rowUnknown p g i = false ↔ let n := (d.rowEntry g i).req
    n < d.nreq p ∧ ((List.range g.nrows).filter fun j => (d.rowEntry g j).req == n).length ≤ 1 ∧
      d.tierOk p (d.partWorld p) (d.reqAt p n) 128 = true := by
  simp only [Dev.rowUnknown, Bool.or_eq_false_iff, decide_eq_false_iff_not, Bool.not_eq_false', Nat.not_le, Nat.not_lt, and_assoc]

end

/-! ### Other Geysers -/

section
variable {gs : Tab Geyser} {d : Dev} {die : Nat} (h : ∀ o, o ≠ die → Tab.get (fun _ => {}) gs o = d.geyser o)
include h

theorem earlierRow_withGeysers (p step n : Nat) : (d.withGeysers gs).earlierRow die p step n = d.earlierRow die p step n := by
  unfold Dev.earlierRow
  refine congrArg (List.any (List.range 8)) (funext fun o => ?_)
  by_cases ho : o = die
  · simp [ho]
  · rw [show (d.withGeysers gs).geyser o = d.geyser o from h o ho]
    rfl

theorem rowRefusal_withGeysers (p : Nat) (g : GDesc) (i : Nat) (was : Bool) :
    (d.withGeysers gs).rowRefusal die p g i was = d.rowRefusal die p g i was := by
  have hbusy : (d.withGeysers gs).scratchBusy = d.scratchBusy := rfl
  have hentry : (d.withGeysers gs).rowEntry = d.rowEntry := rfl
  have hunknown : (d.withGeysers gs).rowUnknown p g i = d.rowUnknown p g i := by
    have hnreq : (d.withGeysers gs).nreq = d.nreq := rfl
    have hok : (d.withGeysers gs).tierOk = d.tierOk := rfl
    have hworld : (d.withGeysers gs).partWorld = d.partWorld := rfl
    have hat : (d.withGeysers gs).reqAt = d.reqAt := rfl
    rw [Dev.rowUnknown, hentry, hnreq, hok, hworld, hat, Dev.rowUnknown]
  have hword : (d.withGeysers gs).reqWord = d.reqWord := rfl
  have hsound : (d.withGeysers gs).reqSound = d.reqSound := rfl
  unfold Dev.rowRefusal Dev.reqState
  dsimp only
  rw [hbusy, hentry, hunknown, earlierRow_withGeysers h, hword, hsound]

omit h in
theorem rowRead_snd (d : Dev) (p : Nat) (g : GDesc) (i : Nat) : (d.rowRead p g i).2 =
    if d.rowBiasBad p g i then .ends 0x08 (d.rowDrafts p g i < (d.rowEntry g i).nd)
    else d.rowMeets p g i (d.readGate (d.rowRanges p g i)).2 := by
  unfold Dev.rowRead
  split <;> rfl

/-- What a row meets does not rest on the state of its own Geyser. -/
theorem rowStart_withGeysers (p : Nat) (g : GDesc) (i : Nat) (was : Bool) :
    ((d.withGeysers gs).rowStart die p g i was).2 = (d.rowStart die p g i was).2 := by
  have hread : ((d.withGeysers gs).rowRead p g i).2 = (d.rowRead p g i).2 := by
    have hentry : (d.withGeysers gs).rowEntry = d.rowEntry := rfl
    have htable : (d.withGeysers gs).rowTable = d.rowTable := rfl
    have hdrafts : (d.withGeysers gs).rowDrafts = d.rowDrafts := rfl
    have hranges : (d.withGeysers gs).rowRanges = d.rowRanges := rfl
    have hbad : (d.withGeysers gs).rowBiasBad = d.rowBiasBad := rfl
    have hbias := biasAt_of_load (d := d) (e := d.withGeysers gs) (fun _ _ => rfl) g
    have hprobes : (d.withGeysers gs).rowProbes = d.rowProbes := rfl
    have hpoison : (d.withGeysers gs).poisoned = d.poisoned := rfl
    have hmeets (gate : Gate) : (d.withGeysers gs).rowMeets p g i gate = d.rowMeets p g i gate := by
      cases gate with
      | wait => rw [Dev.rowMeets, hranges, hpoison, Dev.rowMeets]
      | bad => rw [Dev.rowMeets, hdrafts, hentry, Dev.rowMeets]
      | clear => rw [Dev.rowMeets, hdrafts, hprobes, hbias, htable, Dev.rowMeets]
    rw [rowRead_snd, rowRead_snd, Dev.readGate_withGeysers, hentry, hdrafts, hranges, hbad, hmeets]
  have hsame := rowRefusal_withGeysers h p g i was
  cases hz : d.rowRefusal die p g i was with
  | some z => rw [rowStart_of_refusal hz, rowStart_of_refusal (hsame.trans hz)]
  | none => rw [rowStart_of_none hz, rowStart_of_none (hsame.trans hz), hread]

end

end Sys2Proof.Machine
end

section
/-! SUPPORT. Working a row, and the Geyser's obligation (R218 to R231). -/

namespace Sys2Proof.Machine

open Sys2Proof.Safety

/-! ### Working a row -/

/-- The Geyser z has gone on from x to the next row of g. -/
structure NextRow (g : GDesc) (x z : Geyser) : Prop where
  row : z.row = x.row + 1
  held : z.held = false
  active : z.active = x.active
  finished : z.finished = decide (g.nrows ≤ x.row + 1)

theorem nextRow_endRow (d : Dev) (die p : Nat) (g : GDesc) (x : Geyser) (e : RowEntry) (r : RowEnd) :
    NextRow g x ((d.endRow die p g x e r).geyser die) := by
  obtain ⟨hrow, hheld, hactive, hfinished⟩ := d.endRow_geyser die p g x e r
  exact ⟨hrow, hheld, hactive, hfinished⟩

/-- The reads of a row move no write. -/
theorem open_rowStart {d : Dev} {a n : Nat} (h : Open d a n) (die p : Nat) (g : GDesc) (i : Nat) (was : Bool) :
    Open (d.rowStart die p g i was).1 a n := h.of_landing (basis_landing (rowStart_basis d die p g i was))

theorem load_rowStart (d : Dev) (die p : Nat) (g : GDesc) (i : Nat) (was : Bool) (a n : Nat) :
    (d.rowStart die p g i was).1.load a n = d.load a n := by
  rw [Dev.load, basis_mem (rowStart_basis d die p g i was), Dev.load]

/-- What comes of a row with what it met. -/
def Dev.finishRow (d : Dev) (die p : Nat) (g : GDesc) (x : Geyser) (r : Dev × RowStart) : Dev :=
  let e := d.rowEntry g x.row
  match r.2 with
  | .ends st cut => r.1.endRow die p g x e { status := st, trunc := cut, keep := e.base }
  | .waits held => r.1.setGeyser die { x with held := held }
  | .goes nd pr bias => (r.1.commitRow p g e nd pr bias).1.endRow die p g x e (r.1.commitRow p g e nd pr bias).2

section
variable {d : Dev} {die : Nat} {x : Geyser} {y : Submitted} (hx : d.geyser die = x) (ha : x.active = some y)
  (hf : x.finished = false)
include hx ha hf

theorem workRow_eq : let g := GDesc.ofBytes (d.descBytes y)
    d.workRow die = d.finishRow die y.part g x (d.rowStart die y.part g x.row x.running) := by
  subst hx
  dsimp only
  rw [Dev.workRow, ha]
  dsimp only
  rw [if_neg (by rw [hf]; exact Bool.false_ne_true), ← ha]
  rfl

theorem workRow_ends : let g := GDesc.ofBytes (d.descBytes y); let out := g.compl + 256 * x.row
    ∀ {st : Nat} {cut : Bool}, (d.rowStart die y.part g x.row x.running).2 = .ends st cut →
      NextRow g x ((d.workRow die).geyser die) ∧ (Open d out 256 → (d.workRow die).loadNat out 1 = st ∧
        ((d.workRow die).loadNat out 2).testBit 12 = cut ∧
        ∀ a, a < out ∨ out + 256 ≤ a → (d.workRow die).load a 1 = d.load a 1) := by
  intro g out st cut h
  rw [workRow_eq hx ha hf, Dev.finishRow, h]
  refine ⟨nextRow_endRow _ _ _ _ _ _ _, fun hopen => ?_⟩
  obtain ⟨hst, hcut, hrest⟩ := endRow_record (open_rowStart hopen die y.part g x.row x.running)
    (fits_silent (rowStart_status _ _ _ _ _ _ h) cut (d.rowEntry g x.row).base) die y.part (d.rowEntry g x.row)
  exact ⟨hst, hcut, fun a hout => (hrest a hout).trans (load_rowStart _ _ _ _ _ _ _ _)⟩

theorem workRow_waits : let g := GDesc.ofBytes (d.descBytes y)
    ∀ {held : Bool}, (d.rowStart die y.part g x.row x.running).2 = .waits held →
      (d.workRow die).geyser die = { x with held := held } ∧ (d.workRow die).mem = d.mem := by
  intro g held h
  rw [workRow_eq hx ha hf, Dev.finishRow, h]
  exact ⟨Dev.geyser_setGeyser_same _ _ _, basis_mem (rowStart_basis d die y.part g x.row x.running)⟩

theorem workRow_goes : let g := GDesc.ofBytes (d.descBytes y); let out := g.compl + 256 * x.row; let e := d.rowEntry g x.row
    ∀ {nd : Nat} {pr : Bool} {bias : List FVal}, (d.rowStart die y.part g x.row x.running).2 = .goes nd pr bias →
      NextRow g x ((d.workRow die).geyser die) ∧ (e.nd ≤ 8 → Open d out 256 →
        (d.workRow die).loadNat out 1 = (d.commitRow y.part g e nd pr bias).2.status ∧
        ((d.workRow die).loadNat out 2).testBit 12 = decide (nd < e.nd)) := by
  intro g out e nd pr bias h
  rw [workRow_eq hx ha hf, Dev.finishRow, h]
  refine ⟨nextRow_endRow _ _ _ _ _ _ _, fun hnd hopen => ?_⟩
  have hle : nd ≤ 8 := by
    have hcap := (rowDrafts_le d y.part g x.row).1
    rw [← rowStart_goes _ _ _ _ _ _ h] at hcap
    exact hcap.trans hnd
  have hopen' := (open_rowStart hopen die y.part g x.row x.running).of_landing (commitRow_landing _ y.part g e nd pr bias)
  obtain ⟨hst, hcut, -⟩ := endRow_record hopen' (commitRow_fits _ y.part g e nd pr bias hle) die y.part e
  exact ⟨hst.trans (SameRequest.status (sameRequest_rowStart d die y.part g x.row x.running e.req) g nd pr bias),
    hcut.trans (commitRow_trunc _ _ _ _ _ _ _)⟩

end

/-- A row is worked once its Geyser is not held, or is looked at again (R230); what it leaves rests on the Geyser not held. -/
theorem exec_row {die : Fin 8} {s : State} (hlive : s.dev.live = true) {i : Instr}
    (hi : i = .geyserRowCommit die ∧ (s.dev.geyser die).held = false ∨
      i = .geyserPoisonResume die ∧ (s.dev.geyser die).held = true) :
    ∃ gs : Tab Geyser, Tab.get (fun _ => {}) gs die = { s.dev.geyser die with held := false } ∧
      (∀ o, o ≠ die.val → Tab.get (fun _ => {}) gs o = s.dev.geyser o) ∧
      exec i s = .next (on s fun d => (d.withGeysers gs).workRow die) := by
  rcases hi with ⟨rfl, hheld⟩ | ⟨rfl, hheld⟩
  · have hsame (x : Geyser) (h : x.held = false) : x = { x with held := false } := by
      cases x
      cases h
      rfl
    refine ⟨s.dev.geysers, hsame _ hheld, fun _ _ => rfl, ?_⟩
    · show execGeyserRowCommit die s = _
      rw [execGeyserRowCommit, State.run, Dev.when_true _ hlive (by rw [hheld]; rfl)]
      rfl
  · refine ⟨(s.dev.setGeyser die { s.dev.geyser die with held := false }).geysers, Tab.get_set_same _ _ _ _,
      fun o ho => Tab.get_set_other _ _ _ ho, ?_⟩
    show execGeyserPoisonResume die s = _
    rw [execGeyserPoisonResume, State.run, Dev.when_true _ hlive hheld]
    rfl

/-- What a row meets, as R220, R224 and R227 give it. -/
theorem row_meets (d : Dev) (die p : Nat) (g : GDesc) (i : Nat) (was : Bool) :
    let e0 := d.rowEntry g i; let n := e0.req; let r := d.rowStart die p g i was; let out := g.compl + 256 * i
    let known := n < d.nreq p ∧ ((List.range g.nrows).filter fun j => (d.rowEntry g j).req == n).length ≤ 1 ∧
      d.tierOk p (d.partWorld p) (d.reqAt p n) 128 = true
    let run := d.reqState p n = rqRunning
    let mine := bits (d.reqWord p n) 31 0 = g.epoch
    (d.scratchBusy out 256 true = true → r.2 = .waits false) ∧
    (d.scratchBusy out 256 true = false →
      (¬ known → r.2 = .ends 0x06 false) ∧
      (known → d.earlierRow die p g.step n = true → r.2 = .waits false) ∧
      (known → d.earlierRow die p g.step n = false →
        (¬ run → r.2 = .ends (if was = true ∧ d.reqState p n = rqCancelled then 0x01 else 0x02) false) ∧
        (run → ¬ mine → r.2 = .ends 0x03 false) ∧
        (run → mine → d.reqSound p n = false → r.2 = .ends 0x08 false) ∧
        (run → mine → d.reqSound p n = true → ∀ nd pr bias, r.2 = .goes nd pr bias →
          nd ≤ e0.nd ∧ nd ≤ d.draftCap p g.step ∧ nd + e0.base % 64 ≤ 63))) := by
  intro e0 n r out known run mine
  have hknown : d.rowUnknown p g i = false ↔ known := rowUnknown_eq_false d p g i
  refine ⟨rowStart_busy d die p g i was, fun hbusy => ⟨fun hk => ?_, fun hk he => ?_,
    fun hk he => ⟨fun hr => ?_, fun hr hm => ?_, fun hr hm hs => ?_, fun _ _ _ nd pr bias hgo => ?_⟩⟩⟩
  · exact rowStart_unknown d die p g i was hbusy (eq_true_of_ne_false fun h => hk (hknown.mp h))
  · exact rowStart_earlier d die p g i was hbusy (hknown.mpr hk) he
  · exact rowStart_idle d die p g i was hbusy (hknown.mpr hk) he hr
  · exact rowStart_stale d die p g i was hbusy (hknown.mpr hk) he hr hm
  · exact rowStart_unsound d die p g i was hbusy (hknown.mpr hk) he hr hm hs
  · rw [rowStart_goes d die p g i was hgo]
    exact rowDrafts_le d p g i

/-- Settles O27: a descriptor is taken or refused whole, its rows are worked in order, each against what it met, and it ends once
its records are visible. What a row meets does not rest on the Geyser's own hold, and its reads neither change memory nor move a
write, so that its record stands where the descriptor wants it. -/
theorem geyserComplete : Obligations.GeyserComplete := by
  unfold Obligations.GeyserComplete
  intro die s hlive x
  refine ⟨fun y rest ha hq ht => runs_descriptorStart hlive ha hq ht, fun y ha hf => ?_,
    fun y ha hf => runs_descriptorDone hlive ha hf⟩
  intro g e0 n r out known run mine
  obtain ⟨hbusy, hmeets⟩ := row_meets s.dev die y.part g x.row x.running
  refine ⟨hbusy, hmeets, fun i hi => ?_⟩
  obtain ⟨gs, hown, hothers, hexec⟩ := exec_row hlive hi
  have hx : (s.dev.withGeysers gs).geyser die = { x with held := false } := hown
  have hr := rowStart_withGeysers hothers y.part g x.row x.running
  have hopen (h : Direct s.dev out 256) : Open (s.dev.withGeysers gs) out 256 := (Open.of_direct (by decide) h).of_landing rfl
  refine ⟨fun st cut h => runs_of_next hexec ?_, fun held h => runs_of_next hexec (workRow_waits hx ha hf (hr.trans h)),
    fun nd pr bias h => runs_of_next hexec ?_⟩
  · obtain ⟨hnext, hrecord⟩ := workRow_ends hx ha hf (hr.trans h)
    exact ⟨hnext.row, hnext.held, hnext.active.trans ha, hnext.finished, fun hdirect => hrecord (hopen hdirect)⟩
  · obtain ⟨hnext, hrecord⟩ := workRow_goes hx ha hf (hr.trans h)
    refine ⟨hnext.row, hnext.held, hnext.active.trans ha, hnext.finished, fun hnd hdirect => ?_⟩
    obtain ⟨hst, hcut⟩ := hrecord hnd (hopen hdirect)
    have hsame : SameRequest y.part n s.dev (s.dev.withGeysers gs) := ⟨rfl, fun _ _ _ => rfl⟩
    have hread := sameRequest_rowStart s.dev die y.part g x.row x.running n
    exact ⟨hst.trans ((hsame.status g nd pr bias).trans (hread.status g nd pr bias).symm), hcut⟩

end Sys2Proof.Machine
end

section
/-! SUPPORT. The Damper: the debt, the level and the budget at the end of a step, and its registers (R8, R231 to R234). -/

namespace Sys2Proof.Machine

open Sys2Proof.Safety

/-! ### The level -/

/-- The level of catch-up: the least whose quanta pay the debt, and 7 when that many do not (R232). -/
theorem catchUp_level {debt q : Nat} (hq : 0 < q) {l : Nat} (hl : l = min 7 ((debt + q - 1) / q)) :
    l ≤ 7 ∧ (l < 7 → debt ≤ l * q ∧ l * q < debt + q) ∧ (l = 7 → 6 * q < debt) := by
  have hle : (debt + q - 1) / q * q ≤ debt + q - 1 := Nat.div_mul_le_self _ _
  have hlt : debt + q - 1 < ((debt + q - 1) / q + 1) * q := Nat.lt_mul_of_div_lt (Nat.lt_succ_self _) hq
  generalize (debt + q - 1) / q = n at *
  rw [Nat.add_mul, Nat.one_mul] at hlt
  refine ⟨hl ▸ Nat.min_le_left _ _, fun h7 => ?_, fun h7 => ?_⟩
  · have hn : l = n := by omega
    rw [hn]
    omega
  · have hq7 : 7 * q ≤ n * q := Nat.mul_le_mul_right q (by omega)
    omega

/-- The debt after a step that took t nanoseconds (R232). -/
def Dev.stepDebt (d : Dev) (p t : Nat) : Nat :=
  min (d.fld (pGEN p) rDAMP_CTL.off 15 0 * 1000) (d.rd (pGEN p) rDAMP_DEBT.off + t - d.fld (pGEN p) rDAMP_CTL.off 31 16 * 1000)

/-- The level that a debt gives, by the mode (R232). -/
def Dev.stepLevel (d : Dev) (p debt : Nat) : Nat :=
  let quantum := max 1 (d.fld (pGEN p) rDAMP_CTL.off 47 32) * 1000
  match d.fld (pGEN p) rDAMP_CTL.off 63 62 with
  | 1 => min 7 ((debt + quantum - 1) / quantum)
  | 2 => d.fld (pGEN p) rDAMP_CTL.off 61 59
  | _ => 0

section
variable {d : Dev} {p debt : Nat}

theorem Dev.stepLevel_off (h : d.fld (pGEN p) rDAMP_CTL.off 63 62 = 0) : d.stepLevel p debt = 0 := by simp only [Dev.stepLevel, h]

theorem Dev.stepLevel_fixed (h : d.fld (pGEN p) rDAMP_CTL.off 63 62 = 2) :
    d.stepLevel p debt = d.fld (pGEN p) rDAMP_CTL.off 61 59 := by simp only [Dev.stepLevel, h]

theorem Dev.stepLevel_catchUp (h : d.fld (pGEN p) rDAMP_CTL.off 63 62 = 1) {q : Nat}
    (hq : q = d.fld (pGEN p) rDAMP_CTL.off 47 32 * 1000) (h0 : q ≠ 0) : d.stepLevel p debt = min 7 ((debt + q - 1) / q) := by
  have hmax : max 1 (d.fld (pGEN p) rDAMP_CTL.off 47 32) * 1000 = q := by omega
  simp only [Dev.stepLevel, h, hmax]

theorem Dev.stepLevel_lt : d.stepLevel p debt < 8 := by
  unfold Dev.stepLevel
  dsimp only
  split
  · omega
  · exact bits_lt _ 61 59
  · decide

end

/-! ### The budget -/

/-- The word of DAMP_BUDGET (R233). -/
def budgetWord (step level lvl : Nat) : Nat := step * 2 ^ 32 + level * 2 ^ 29 + bits lvl 35 32 * 2 ^ 24 + bits lvl 23 0

theorem bits_budgetWord {step level : Nat} (hs : step < 2 ^ 32) (hl : level < 8) (lvl : Nat) :
    bits (budgetWord step level lvl) 63 32 = step ∧ bits (budgetWord step level lvl) 31 29 = level ∧
    bits (budgetWord step level lvl) 27 24 = bits lvl 35 32 ∧ bits (budgetWord step level lvl) 23 0 = bits lvl 23 0 := by
  have hdraft := bits_lt lvl 35 32
  have hprefill := bits_lt lvl 23 0
  rw [budgetWord]
  generalize bits lvl 35 32 = x at *
  generalize bits lvl 23 0 = y at *
  simp only [bits, Nat.shiftRight_eq_div_pow]
  omega

/-- The count of steps that took longer than the period (R233). -/
def Dev.countLate (d : Dev) (p t : Nat) : Dev :=
  if d.fld (pGEN p) rDAMP_CTL.off 31 16 * 1000 < t then d.count (pGEN p) rDAMP_STAT.off 63 48 1 else d

/-- A draft cap kept for the rows of its step (R224). -/
def Dev.keepBudget (d : Dev) (p step cap : Nat) : Dev :=
  d.setPart p { d.part p with budgets := Tab.set (fun _ => 0) (d.part p).budgets step (cap + 1) }

theorem Dev.endStep_eq (d : Dev) (p : Nat) (k : Word) (t : Nat) : d.endStep p k t =
    let debt := d.stepDebt p t
    let level := d.stepLevel p debt
    let lvl := d.rd (pGEN p) (rDAMP_LVL.at level)
    let step := (k.toNat + 1) % 2 ^ 32
    (((d.countLate p t).wr (pGEN p) rDAMP_DEBT.off debt).wr (pGEN p) rDAMP_BUDGET.off (budgetWord step level lvl)).keepBudget
      p step (bits lvl 35 32) := rfl

theorem Dev.fld_countLate (d : Dev) (p t : Nat) : (d.countLate p t).fld (pGEN p) rDAMP_STAT.off 63 48 =
    min 65535 (d.fld (pGEN p) rDAMP_STAT.off 63 48 + if d.fld (pGEN p) rDAMP_CTL.off 31 16 * 1000 < t then 1 else 0) := by
  unfold Dev.countLate
  split
  · exact Dev.fld_count_one _ _ _ _ _ (by decide) (by decide)
  · have hlt : d.fld (pGEN p) rDAMP_STAT.off 63 48 < 65536 := bits_lt _ 63 48
    omega

theorem Dev.countLate_frame (d : Dev) (p t : Nat) : d.countLate p t = { d with regs := (d.countLate p t).regs } := by
  unfold Dev.countLate
  split <;> rfl

/-- A budget kept is found by its step, and the last one published stands for a step that has none (R232). -/
theorem Dev.draftCap_keepBudget (d : Dev) (p cap n : Nat) : (d.keepBudget p (n % 2 ^ 32) cap).draftCap p n = cap := by
  have hset : Tab.set (fun _ => 0) (d.part p).budgets (n % 2 ^ 32) (cap + 1) =
      Tab.insert (n % 2 ^ 32) (cap + 1) (Tab.drop (d.part p).budgets (n % 2 ^ 32)) := by
    rw [Tab.set_eq, if_neg (Nat.succ_ne_zero cap)]
  have hfind := Tab.find?_insert (cap + 1) fun x hx => (Tab.mem_drop (t := (d.part p).budgets) (k := n % 2 ^ 32).mp hx).2
  simp only [Dev.draftCap, Dev.keepBudget, Dev.part_setPart_same, hset, hfind, Nat.add_sub_cancel]

theorem Dev.draftCap_of_none {d : Dev} {p n : Nat} (h : ∀ x ∈ (d.part p).budgets, x.1 ≠ n % 2 ^ 32) :
    d.draftCap p n = d.fld (pGEN p) rDAMP_BUDGET.off 27 24 := by
  have hnone : ((d.part p).budgets.find? fun x => x.1 == n % 2 ^ 32) = none :=
    List.find?_eq_none.mpr fun x hx => by simpa using h x hx
  simp only [Dev.draftCap, hnone]

/-! ### The end of a step -/

/-- Step k no longer open. -/
def Dev.dropStep (d : Dev) (p : Nat) (k : Word) : Dev :=
  d.setPart p { d.part p with damp := (d.part p).damp.filter fun y => y.k != k }

theorem exec_damperStepEnd_of_ended {s : State} {p : Fin 64} {k : Word} {y : DampStep} {t : Nat} (hl : s.dev.live = true)
    (hy : (s.dev.part p).damp.find? (fun y => y.k == k) = some y) (ht : y.ended = some t) :
    exec (.damperStepEnd p k) s = .next (on s fun d => (d.dropStep p k).endStep p k (t - y.start)) := by
  refine (run_when_true (q := fun _ => true) (f := fun _ d => match (d.part p).damp.find? fun y => y.k == k with
    | some y => match y.ended with
      | some t => (d.dropStep p k).endStep p k (t - y.start)
      | none => d
    | none => d) hl rfl).trans ?_
  simp only [on, hy, ht]

/-- What the end of a step leaves in the registers of its page and in its partition (R232, R233). -/
structure StepEnded (d e : Dev) (p : Nat) (k : Word) (t : Nat) : Prop where
  debt : e.rd (pGEN p) rDAMP_DEBT.off = d.stepDebt p t
  step : e.fld (pGEN p) rDAMP_BUDGET.off 63 32 = (k.toNat + 1) % 2 ^ 32
  level : e.fld (pGEN p) rDAMP_BUDGET.off 31 29 = d.stepLevel p (d.stepDebt p t)
  draft : e.fld (pGEN p) rDAMP_BUDGET.off 27 24 = bits (d.rd (pGEN p) (rDAMP_LVL.at (d.stepLevel p (d.stepDebt p t)))) 35 32
  prefill : e.fld (pGEN p) rDAMP_BUDGET.off 23 0 = bits (d.rd (pGEN p) (rDAMP_LVL.at (d.stepLevel p (d.stepDebt p t)))) 23 0
  cap : e.draftCap p (k.toNat + 1) = e.fld (pGEN p) rDAMP_BUDGET.off 27 24
  late : e.fld (pGEN p) rDAMP_STAT.off 63 48 =
    min 65535 (d.fld (pGEN p) rDAMP_STAT.off 63 48 + if d.fld (pGEN p) rDAMP_CTL.off 31 16 * 1000 < t then 1 else 0)
  damp : (e.part p).damp = (d.part p).damp
  memory : SameMemory d e
  cores : e.cores = d.cores

theorem Dev.stepDebt_lt (d : Dev) (p t : Nat) : d.stepDebt p t < 2 ^ 64 := by
  have hcap : d.fld (pGEN p) rDAMP_CTL.off 15 0 < 2 ^ 16 := bits_lt _ 15 0
  have hle : d.stepDebt p t ≤ d.fld (pGEN p) rDAMP_CTL.off 15 0 * 1000 := Nat.min_le_left _ _
  omega

theorem Dev.endStep_ends (d : Dev) (p : Nat) (k : Word) (t : Nat) : StepEnded d (d.endStep p k t) p k t := by
  rw [Dev.endStep_eq]
  dsimp only
  generalize hdebt : d.stepDebt p t = debt
  generalize hlevel : d.stepLevel p debt = level
  generalize hlvl : d.rd (pGEN p) (rDAMP_LVL.at level) = lvl
  obtain ⟨hstep, hlev, hdraft, hprefill⟩ :=
    bits_budgetWord (Nat.mod_lt (k.toNat + 1) (by decide : 0 < 2 ^ 32)) (hlevel ▸ d.stepLevel_lt) lvl
  have hlate := d.fld_countLate p t
  have hframe := d.countLate_frame p t
  generalize hx : d.countLate p t = x at *
  generalize hword : budgetWord ((k.toNat + 1) % 2 ^ 32) level lvl = w at *
  have hfld (hi lo : Nat) (h : hi < 64) :
      (((x.wr (pGEN p) rDAMP_DEBT.off debt).wr (pGEN p) rDAMP_BUDGET.off w).keepBudget p ((k.toNat + 1) % 2 ^ 32)
        (bits lvl 35 32)).fld (pGEN p) rDAMP_BUDGET.off hi lo = bits w hi lo := Dev.fld_wr_same _ _ _ _ _ _ h
  subst hdebt hlevel hlvl
  refine ⟨?_, (hfld _ _ (by decide)).trans hstep, (hfld _ _ (by decide)).trans hlev, (hfld _ _ (by decide)).trans hdraft,
    (hfld _ _ (by decide)).trans hprefill, ?_, ?_, ?_, ?_, ?_⟩
  · refine (Dev.rd_wr_other _ _ _ _ _ _ (regKey_off_ne (by decide))).trans ((Dev.rd_wr_same _ _ _ _).trans ?_)
    exact Nat.mod_eq_of_lt (d.stepDebt_lt p t)
  · rw [hfld _ _ (by decide), hdraft]
    exact Dev.draftCap_keepBudget _ p _ (k.toNat + 1)
  · refine (Dev.fld_wr_other _ _ _ _ _ _ _ _ (regKey_off_ne (by decide))).trans ?_
    exact (Dev.fld_wr_other _ _ _ _ _ _ _ _ (regKey_off_ne (by decide))).trans hlate
  · rw [Dev.keepBudget, Dev.part_setPart_same, hframe]
    rfl
  · rw [hframe]
    exact ⟨rfl, rfl⟩
  · rw [hframe]
    rfl

/-! ### DAMP_STEP -/

theorem exec_dampStepWrite_of_writable {s : State} {a : Access} {p : Fin 64} {v : Word}
    (h : s.dev.writable a (pGEN p) rDAMP_STEP.off true = true) : exec (.dampStepWrite a p v) s = .next (on s fun d =>
      (if (d.part p).boundary then (d.wr (pGEN p) rDAMP_STEP.off v.toNat).setPart p
          { d.part p with heldSteps := (d.part p).heldSteps ++ [v] }
        else (d.wr (pGEN p) rDAMP_STEP.off v.toNat).startStep p v).emit (.readback 0 false)) :=
  run_regWrite (fun _ d => let d := d.wr (pGEN p) rDAMP_STEP.off v.toNat
    if (d.part p).boundary then d.setPart p { d.part p with heldSteps := (d.part p).heldSteps ++ [v] } else d.startStep p v) h

theorem Dev.mem_damp_startStep (d : Dev) (p : Nat) (k : Word) :
    ({ k := k, start := d.now, last := 0, ended := none } : DampStep) ∈ ((d.startStep p k).part p).damp := by
  rw [Dev.startStep, Dev.part_setPart_same]
  exact List.mem_append_right _ (List.mem_singleton.mpr rfl)

/-- A change of one partition and of the registers. -/
theorem onlyPart_setPart_wr (d : Dev) (p page off v : Nat) (x : Part) (o : Out) :
    OnlyPart p d (((d.wr page off v).setPart p x).emit o) :=
  ⟨rfl, fun _ hq => Dev.part_setPart_other _ _ _ _ hq⟩

/-! ### DAMP_CTL -/

theorem rDAMP_CTL_sound : FieldsSound rDAMP_CTL.fields := by decide

theorem bits_writeDampCtl (old v : Nat) : ∀ h ∈ [(63, 62), (61, 59), (55, 52), (47, 32), (31, 16), (15, 0)],
    bits (rDAMP_CTL.write old .full v) h.1 h.2 = bits v h.1 h.2 := by
  have hrw : ∀ h ∈ [(63, 62), (61, 59), (55, 52), (47, 32), (31, 16), (15, 0)],
      ∃ f ∈ rDAMP_CTL.fields, (f.hi, f.lo) = h ∧ f.acc = .rw := by decide
  intro h hh
  obtain ⟨f, hf, rfl, hacc⟩ := hrw h hh
  exact rDAMP_CTL.bits_write rDAMP_CTL_sound hf hacc old v

/-- A field among low bits that are put back as they were. -/
theorem bits_putBits_low {v old hi hi' lo' : Nat} (h : hi' ≤ hi) :
    bits (putBits v hi 0 (bits old hi 0)) hi' lo' = bits old hi' lo' := by
  refine Nat.eq_of_testBit_eq fun i => ?_
  rw [testBit_bits, testBit_bits, testBit_putBits _ _ _ _ _ (Nat.zero_le hi), Nat.sub_zero, testBit_bits, Nat.zero_add]
  by_cases hi0 : i < hi' + 1 - lo'
  · have hin : lo' + i ≤ hi := by omega
    have hlt : lo' + i < hi + 1 - 0 := by omega
    rw [if_pos ⟨Nat.zero_le _, hin⟩, decide_eq_true hlt, Bool.true_and]
  · simp only [hi0, decide_false, Bool.false_and]

/-- DAMP_CTL as a write leaves it before mode 11b is looked at: whole, or mode and level alone while a request runs (R234). -/
def Dev.takeDampCtl (d : Dev) (a : Access) (p : Nat) (v : Word) : Dev :=
  let e := d.store8 a (pGEN p) rDAMP_CTL.off rDAMP_CTL v
  if (d.part p).running = 0 then e
  else e.setFld (pGEN p) rDAMP_CTL.off 58 0 (bits (d.rd (pGEN p) rDAMP_CTL.off) 58 0)

section
variable {d : Dev} {a : Access} {p : Nat} {v : Word} (hf : a.width = .full)
include hf

theorem Dev.fld_store8_dampCtl {h : Nat × Nat} (hh : h ∈ [(63, 62), (61, 59), (55, 52), (47, 32), (31, 16), (15, 0)]) :
    (d.store8 a (pGEN p) rDAMP_CTL.off rDAMP_CTL v).fld (pGEN p) rDAMP_CTL.off h.1 h.2 = bits v.toNat h.1 h.2 := by
  have h64 : ∀ h ∈ [(63, 62), (61, 59), (55, 52), (47, 32), (31, 16), (15, 0)], h.1 < 64 := by decide
  rw [Dev.store8, hf, Dev.fld_wr_same _ _ _ _ _ _ (h64 h hh), bits_writeDampCtl _ _ h hh]

/-- Mode and level take at any time. -/
theorem Dev.takeDampCtl_mode : (d.takeDampCtl a p v).fld (pGEN p) rDAMP_CTL.off 63 62 = bits v.toNat 63 62 ∧
    (d.takeDampCtl a p v).fld (pGEN p) rDAMP_CTL.off 61 59 = bits v.toNat 61 59 := by
  have hmode := Dev.fld_store8_dampCtl (d := d) (p := p) (v := v) hf (h := (63, 62)) (by decide)
  have hlevel := Dev.fld_store8_dampCtl (d := d) (p := p) (v := v) hf (h := (61, 59)) (by decide)
  unfold Dev.takeDampCtl
  dsimp only
  split
  · exact ⟨hmode, hlevel⟩
  · exact ⟨(Dev.fld_setFld_field _ _ _ _ _ _ _ _ (by decide) (by decide) (by decide)).trans hmode,
      (Dev.fld_setFld_field _ _ _ _ _ _ _ _ (by decide) (by decide) (by decide)).trans hlevel⟩

/-- The other fields take while no request runs. -/
theorem Dev.takeDampCtl_rest {h : Nat × Nat} (hh : h ∈ [(55, 52), (47, 32), (31, 16), (15, 0)]) :
    (d.takeDampCtl a p v).fld (pGEN p) rDAMP_CTL.off h.1 h.2 =
      if (d.part p).running = 0 then bits v.toNat h.1 h.2 else d.fld (pGEN p) rDAMP_CTL.off h.1 h.2 := by
  have hin : ∀ h ∈ [(55, 52), (47, 32), (31, 16), (15, 0)],
      h ∈ [(63, 62), (61, 59), (55, 52), (47, 32), (31, 16), (15, 0)] ∧ h.1 ≤ 58 := by decide
  obtain ⟨hall, h58⟩ := hin h hh
  unfold Dev.takeDampCtl
  dsimp only
  split
  · exact Dev.fld_store8_dampCtl hf hall
  · rw [Dev.fld, Dev.rd_setFld_same _ _ _ _ _ _ (by decide) (by decide), bits_putBits_low h58, Dev.fld]

theorem exec_dampCtlWrite_of_mode {s : State} {p : Fin 64} (h : s.dev.writable a (pGEN p) rDAMP_CTL.off false = true)
    (hv : bits v.toNat 63 62 ≠ 3) :
    exec (.dampCtlWrite a p v) s = .next (on s fun d => (d.takeDampCtl a p v).emit (.readback 0 false)) := by
  refine (run_regWrite (fun _ d => if (d.takeDampCtl a p v).fld (pGEN p) rDAMP_CTL.off 63 62 = 3 then
    (d.takeDampCtl a p v).setFld (pGEN p) rDAMP_CTL.off 63 62 (bits (d.rd (pGEN p) rDAMP_CTL.off) 63 62)
    else d.takeDampCtl a p v) h).trans ?_
  rw [on, (Dev.takeDampCtl_mode hf).1, if_neg hv, on]

end

theorem Dev.takeDampCtl_onlyRegs (d : Dev) (a : Access) (p : Nat) (v : Word) : OnlyRegs d (d.takeDampCtl a p v) := by
  unfold Dev.takeDampCtl
  dsimp only
  split <;> rfl

/-! ### DAMP_STAT -/

theorem rDAMP_STAT_sound : FieldsSound rDAMP_STAT.fields := by decide

/-- Every bit of DAMP_STAT belongs to a count that a read clears. -/
theorem afterRead_dampStat (old : Nat) : rDAMP_STAT.afterRead old .full % 2 ^ 64 = 0 := by
  have hclear {f : Field} (hf : f ∈ rDAMP_STAT.fields) (hacc : f.acc = .rc) :=
    rDAMP_STAT.bits_afterRead_rc rDAMP_STAT_sound hf hacc old
  have hsteps := hclear (f := ⟨"late_steps", 63, 48, .rc, 0⟩) (by decide) rfl
  have hlayers := hclear (f := ⟨"late_layers", 47, 32, .rc, 0⟩) (by decide) rfl
  have hrows := hclear (f := ⟨"degraded_rows", 31, 0, .rc, 0⟩) (by decide) rfl
  simp only [bits, Nat.shiftRight_eq_div_pow] at hsteps hlayers hrows
  omega

theorem exec_dampStatRead_of_writable {s : State} {a : Access} {p : Fin 64}
    (h : s.dev.writable a (pGEN p) rDAMP_STAT.off false = true) : exec (.dampStatRead a p) s = .next (on s fun d =>
      (d.wr (pGEN p) rDAMP_STAT.off (rDAMP_STAT.afterRead (d.rd (pGEN p) rDAMP_STAT.off) a.width)).emit
        (.readback (BitVec.ofNat 64 (a.width.view (d.rd (pGEN p) rDAMP_STAT.off))) false)) :=
  run_regReadOf (r := rDAMP_STAT) (fun d => d.rd (pGEN p) rDAMP_STAT.off) (fun _ e => e) h

/-! ### The statement -/

/-- Settles O28: the end of a step publishes the level of its debt, and the Damper's registers take what is written. -/
theorem damperComplete : Obligations.DamperComplete := by
  intro a p v s page c b
  refine ⟨fun y t hl hy ht => runs_of_next (exec_damperStepEnd_of_ended hl hy ht) ?ended,
    fun hw => runs_of_next (exec_dampStepWrite_of_writable hw) ?step,
    fun hw hf hv => runs_of_next (exec_dampCtlWrite_of_mode hf hw hv) ?control,
    fun hw hf => runs_of_next (exec_dampStatRead_of_writable hw) ⟨rfl, ?_, by rw [hf]; rfl⟩⟩
  case ended =>
    have h := (s.dev.dropStep p v).endStep_ends p v (t - y.start)
    refine ⟨h.debt, h.step, fun hm => h.level.trans (Dev.stepLevel_off hm), fun hm => h.level.trans (Dev.stepLevel_fixed hm),
      fun hm hq => catchUp_level (Nat.pos_of_ne_zero hq) (h.level.trans (Dev.stepLevel_catchUp hm rfl hq)), ?_, h.cap,
      fun n hn => Dev.draftCap_of_none hn, ?_, h.late, h.damp.trans ?_, h.memory, h.cores⟩
    · rw [h.level]
      exact h.draft
    · rw [h.level]
      exact h.prefill
    · rw [Dev.dropStep, Dev.part_setPart_same]
  case step =>
    have hrd : (s.dev.wr page rDAMP_STEP.off v.toNat).rd page rDAMP_STEP.off = v.toNat :=
      (Dev.rd_wr_same _ _ _ _).trans (Nat.mod_eq_of_lt v.isLt)
    cases hb : (s.dev.part p).boundary
    · rw [if_neg Bool.false_ne_true]
      exact ⟨onlyPart_setPart_wr _ _ _ _ _ _ _, hrd, fun _ => (s.dev.wr page rDAMP_STEP.off v.toNat).mem_damp_startStep p v,
        fun h => absurd h Bool.false_ne_true⟩
    · rw [if_pos rfl]
      refine ⟨onlyPart_setPart_wr _ _ _ _ _ _ _, hrd, fun h => absurd h.symm Bool.false_ne_true, fun _ => ?_⟩
      rw [Dev.emit_part, Dev.part_setPart_same]
  case control =>
    obtain ⟨hmode, hlevel⟩ := Dev.takeDampCtl_mode (d := s.dev) (p := p) (v := v) hf
    refine ⟨?_, hmode, hlevel, fun h hh => Dev.takeDampCtl_rest hf hh⟩
    exact congrArg (fun d : Dev => d.emit (.readback 0 false)) (s.dev.takeDampCtl_onlyRegs a p v)
  · rw [hf]
    exact (Dev.rd_wr_same _ _ _ _).trans (afterRead_dampStat _)

end Sys2Proof.Machine
end

section
/-! SUPPORT. Records that leave trace memory into an accumulate window whose buffer is a scratchpad: why PhaseCountersComplete and
AshRecorderComplete fail (R56, R256, R261, R265). -/

namespace Sys2Proof.Machine

open Sys2Proof.Safety

/-- Partition 0 with state x and granule 0 mapped, in which window 0 covers bytes 0 to 255 and has its buffer at the start of the
scratchpad of core 0. No write of STV_WIN0 enables such a window (R268), but the two statements speak of every state, and what they
say of the cores when a record leaves trace memory does not stand under `Direct`, which alone keeps windows away from its place. -/
def scratchWindow (x : Part) : State :=
  let d := ((Dev.reset.wr (pSTV 0) (rSTV_WIN.at 0) (2 ^ 63)).wr (pSTV 0) (rSTV_WIN_N.at 0) 64).wr (pSTV 0) (rSTV_WIN_BUF.at 0)
    scratchBase
  { pending := [], dev := { d with
      tier := { Tier.reset with map := [(0, { valid := true, world := true })] }
      parts := [(0, x)] } }

/-- A closed step record of 576 zeros waits for the phase trace, whose ring begins at 0. -/
def waitingStep : State := scratchWindow { phases := { trace := [List.replicate 576 0] } }

/-- A record of the runtime without a body waits for the ash log, whose area begins at 0. -/
def waitingAsh : State := scratchWindow { ash := { pos := 16, nrec := 1, queue := [ashRecord 0x80 1 0 []] } }

/-- The live segments of core 0 that an outcome leaves. -/
def segmentsAfter : Host.Outcome State Fault Refusal → Option NSet
  | .next t => some (t.dev.lv 0).segLive
  | _ => none

/-- A command after which another set of segments of core 0 is live has not left the cores as they were. -/
theorem not_runs_cores_of_segments {c : Instr} {s : State} {l : NSet} (h : segmentsAfter (exec c s) = some l)
    (hl : l ≠ (s.dev.lv 0).segLive) : ¬ Runs c s fun e => e.cores = s.dev.cores := by
  rintro ⟨e, hrun, hcores⟩
  rw [hrun] at h
  have hlv : e.lv 0 = s.dev.lv 0 := congrArg Core.live (Dev.core_of_cores hcores 0)
  exact hl ((Option.some.inj h).symm.trans (congrArg Live.segLive hlv))

/-- The words of the step record that meet the window are added into its buffer, and segment 0 of core 0 becomes live. -/
theorem segmentsAfter_waitingStep : segmentsAfter (exec (.traceRecordWritten 0) waitingStep) = some [0] := by
  decide +kernel

/-- The words of the ash record are added there too. -/
theorem segmentsAfter_waitingAsh : segmentsAfter (exec (.traceRecordWritten 0) waitingAsh) = some [0] := by
  decide +kernel

/-- Refutes O29: its third clause says that the oldest waiting record, wherever in the ring its place is, leaves the cores as they
were; a record whose place meets a window with its buffer in a scratchpad is added there, and a segment becomes live. -/
theorem not_phaseCountersComplete : ¬ Obligations.PhaseCountersComplete := by
  intro h
  obtain ⟨-, -, hwritten, -⟩ := h ⟨.mgmt, true, .full⟩ 0 0 waitingStep
  obtain ⟨e, hrun, -, -, hcores, -⟩ := hwritten (List.replicate 576 0) [] (by decide) rfl
  exact not_runs_cores_of_segments segmentsAfter_waitingStep (by decide) ⟨e, hrun, hcores⟩

/-- Refutes O30: its last clause says the same of the oldest record of the ash log, and fails at the same window. -/
theorem not_ashRecorderComplete : ¬ Obligations.AshRecorderComplete := by
  intro h
  obtain ⟨-, -, -, hwritten⟩ := h ⟨.mgmt, true, .full⟩ 0 0 waitingAsh
  obtain ⟨e, hrun, -, -, hcores, -⟩ := hwritten (ashRecord 0x80 1 0 []) [] (by decide) rfl rfl
  exact not_runs_cores_of_segments segmentsAfter_waitingAsh (by decide) ⟨e, hrun, hcores⟩

end Sys2Proof.Machine
end

section
/-! SUPPORT. A scan whose gradient lies across a granule that switches and one that its own read puts into re-fetch: why
StoveCommandsComplete fails (R171, R179, R187, R281). -/

namespace Sys2Proof.Machine

open Sys2Proof.Safety

/-- Granule 0 switches, and granule 1 migrates and still lists a held write that puts 0x80 and 0x7F at its start. The table of prefetch
stream 0 of partition 0, of 5 layers, lies in granule 1: layer 0 is tile 1024, and the line of the later layers is poisoned and has a
source. No step leaves a held write on a granule that does not switch (R171), but the statement speaks of every device. -/
def staleHold : Dev :=
  let d := ((Dev.reset.wr pTIER (strmCtl 0 0) (2 ^ 63 + 5 * 2 ^ 16)).wr pTIER (rSTRM_TBL.at 0) 0x4000040).wr pTIER (rTIER_PSRC.at 0)
    0x4000100
  { d with
    mem := [(0x4000043, 4), (0x4000048, 1), (0x4000112, 1)]
    poison := [0x100002]
    tier := { Tier.reset with
      map := [(0, { valid := true, world := true, slow := true, state := stSwitching }),
              (1, { valid := true, world := true, slow := true, state := stCopying })]
      mig := [(1, { held := [(0x4000000, [0x80, 0x7F], false)] })] } }

/-- A scan of one owned entry, whose single FP32 gradient has its low half in granule 0 and its high half in granule 1. -/
def scanAcross : StoveCmd :=
  { op := 2, word := 0, gs := 0, step := 0, seed := 0, stochastic := false, sched := [], shard := 0, nent := 1, coef := 0, stat := 0,
    mto := 0, entries := [natLe 8 (2 ^ 12 + 2 ^ 14) ++ natLe 8 0 ++ natLe 8 1 ++ natLe 8 0x3FFFFFE] }

/-- The read of the scan makes layer 0 late, its table is asked for, granule 1 enters re-fetch and gives its held write up: the gradient
that the scan then counts is 0. -/
theorem nonfin_stoveStep_staleHold :
    ((staleHold.stoveStep 0 scanAcross).stove 0).map (fun c => c.part.nonfin) = some 0 := by decide +kernel

/-- Refutes O31: its clause on a piece of a scan counts the gradients as they read before the read of the scan; the gradient of
`scanAcross` is infinite then, by the held write of granule 1. -/
theorem not_stoveCommandsComplete : ¬ Obligations.StoveCommandsComplete := by
  intro h
  obtain ⟨-, hscan, -⟩ := h.2 staleHold 0 scanAcross (by decide) (by decide) rfl
  obtain ⟨-, c', hc', -, hcount⟩ := hscan rfl (by decide) (by decide +kernel)
  have hzero : c'.part.nonfin = 0 := by
    have := nonfin_stoveStep_staleHold
    rw [hc'] at this
    exact Option.some.inj this
  rw [hzero] at hcount
  exact absurd hcount (by decide +kernel)

end Sys2Proof.Machine
end

section
/-! SUPPORT. The signal of an engine: what it leaves, and what it adds to a counter (R392, R394). -/

namespace Sys2Proof.Machine

open Sys2Proof.Safety

/-! ### What a message on the fabric leaves -/

theorem Dev.departOn_frame (d : Dev) (port : Option Nat) (k : Packet) :
    d.departOn port k = { d with fab := (d.departOn port k).fab, out := (d.departOn port k).out } := by
  unfold Dev.departOn
  split
  · rfl
  · split <;> rfl

theorem Dev.sendOn_frame (d : Dev) (port : Option Nat) (dst vc : Nat) (m : Message) :
    d.sendOn port dst vc m = { d with fab := (d.sendOn port dst vc m).fab, out := (d.sendOn port dst vc m).out } := by
  unfold Dev.sendOn
  split
  · rfl
  · exact Dev.departOn_frame _ _ _

/-! ### What a signal leaves -/

theorem Dev.log_frame (d : Dev) (page : Nat) (x : LogEntry) : d.log page x = { d with regs := (d.log page x).regs } := by
  unfold Dev.log
  split <;> rfl

theorem Dev.misfit_frame (d : Dev) (p n : Nat) :
    d.misfit p n = { d with regs := (d.misfit p n).regs, vex := (d.misfit p n).vex, out := (d.misfit p n).out } := by
  rw [Dev.misfit, Dev.log_frame, Dev.partEvt_frame]
  rfl

/-- A signal touches registers and links alone. -/
theorem Dev.signal1_frame (d : Dev) (p n : Nat) : d.signal1 p n =
    { d with regs := (d.signal1 p n).regs, vex := (d.signal1 p n).vex, fab := (d.signal1 p n).fab, out := (d.signal1 p n).out } := by
  unfold Dev.signal1 Dev.signal Dev.applySignal
  dsimp only
  split
  · rw [Dev.send, Dev.sendOn_frame]
  split
  · split
    · rfl
    · rw [Dev.partEvt_frame]
      rfl
  · rw [Dev.misfit_frame]

section
variable {page off : Nat} (ho : off < 0x10000)
include ho

theorem Dev.log_rd_other {pg : Nat} (hpg : page ≠ pg) (d : Dev) (x : LogEntry) : (d.log pg x).rd page off = d.rd page off := by
  have hne {o : Nat} (hoff : o < 0x10000) : regKey page off ≠ regKey pg o := regKey_ne ho hoff (.inl hpg)
  unfold Dev.log
  split
  · exact Dev.rd_setFld_other _ _ _ _ _ _ _ _ (hne (by decide))
  · rw [Dev.rd_wr_other _ _ _ _ _ _ (hne (by decide)), Dev.rd_wr_other _ _ _ _ _ _ (hne (by decide)),
      Dev.rd_wr_other _ _ _ _ _ _ (hne (by decide)), Dev.rd_wr_other _ _ _ _ _ _ (hne (by decide))]

/-- A signal of an ember's own partition leaves the registers of every page above those of the partitions. -/
theorem Dev.signal1_rd (hp : 0x200 ≤ page) {p n : Nat} (hpart : p < 64) (hn : n < 16384) (d : Dev) : (d.signal1 p n).rd page off = d.rd page off := by
  have hpp : page ≠ pPART p := by simp only [pPART]; omega
  have hvex : page ≠ pVEX := by simp only [pVEX]; omega
  have hemb : page ≠ pEMB n := by simp only [pEMB]; omega
  have hval : regKey page off ≠ regKey (pEMB n) (valOff n) :=
    regKey_ne ho (by simp only [valOff, Reg.at, rEMB_VAL]; omega) (.inl hemb)
  unfold Dev.signal1 Dev.signal Dev.applySignal
  dsimp only
  split
  · rw [Dev.send, Dev.sendOn_frame]
    rfl
  split
  · split
    · exact Dev.rd_wr_other _ _ _ _ _ _ hval
    · exact (Dev.partEvt_rd ho hpp hvex _ _).trans (Dev.rd_wr_other _ _ _ _ _ _ hval)
  · exact (Dev.log_rd_other ho hemb _ _).trans ((Dev.rd_setFld_other _ _ _ _ _ _ _ _
      (regKey_ne ho (by decide) (.inl hpp))).trans (Dev.partEvt_rd ho hpp hvex d evKind))

end

/-! ### What it adds -/

/-- A local counter with room gains 1. -/
theorem Dev.emberValue_signal1 {d : Dev} {p n : Nat} (hr : d.emberRemote n = false) (hk : d.emberKind n = ebCounter)
    (hv : d.emberValue n + 1 < 2 ^ 64) : (d.signal1 p n).emberValue n = d.emberValue n + 1 := by
  have hsignal : d.signal1 p n = d.wr (pEMB n) (valOff n) (d.emberValue n + 1) := by
    rw [Dev.signal1, Dev.signal, hr, if_neg Bool.false_ne_true, Dev.applySignal, if_pos hk]
    exact if_pos hv
  rw [hsignal, Dev.emberValue, Dev.rd_wr_same, Nat.mod_eq_of_lt hv]

end Sys2Proof.Machine
end

section
/-! SUPPORT. How a command of the Stove ends: its result, its flags and its ember (R273, R281). -/

namespace Sys2Proof.Machine

open Sys2Proof.Safety

/-! ### The command in progress -/

@[simp] theorem Dev.stove_setStove (d : Dev) (p : Nat) (c : Option StoveCmd) : (d.setStove p c).stove p = c := by
  rw [Dev.stove, Dev.setStove, Dev.part_setPart_same]

@[simp] theorem Dev.setStove_setStove (d : Dev) (p : Nat) (b c : Option StoveCmd) :
    (d.setStove p b).setStove p c = d.setStove p c := by
  rw [Dev.setStove, Dev.setStove, Dev.setStove, Dev.part_setPart_same, Dev.setPart_setPart]

/-! ### The end -/

/-- The flags that an update leaves: those of its groups and of the entry in progress. -/
def StoveCmd.allFlags (c : StoveCmd) : NFlags := c.part.flags.or (c.sums.foldl (fun g x => g.or x.2.flags) {})

/-- The status after a command: its result, no longer busy, and the flags of an update (R281). -/
def Dev.showResult (d : Dev) (p : Nat) (c : StoveCmd) : Dev :=
  let d := (d.setFld (pSTV p) stvSts 7 0 c.result).setBit (pSTV p) stvSts 8 false
  let fl := c.allFlags
  if c.op != 1 then d else
    let d := d.setPart p { d.part p with updOvf := fl.ovf }
    ((d.setBit (pSTV p) stvSts 16 (fl.ovf || d.bit (pSTV p) stvSts 16)).setBit (pSTV p) stvSts 17 fl.inv).setBit (pSTV p) stvSts 18 fl.nan

/-- The unit is idle again, with the ember not yet signalled. -/
def Dev.idleStove (d : Dev) (p : Nat) (c : StoveCmd) : Dev := ((d.showResult p c).phEnd p (stovePhase c.op)).setStove p none

section
variable {s : State} {p : Fin 64} {c : StoveCmd} (hl : s.dev.live = true) (hc : s.dev.stove p = some c)
include hl hc

theorem exec_stoveCommandDone_of_visible (hf : c.finished = true) (hv : s.dev.engineVisible = true) :
    exec (.stoveCommandDone p) s = .next (on s fun d => (d.idleStove p c).stoveSignal p c.word) := by
  change execStoveCommandDone p s = _
  simp only [execStoveCommandDone, State.run, hc, Dev.when, hl, hf, hv, Bool.and_true, if_true, on]
  rfl

omit hl in
theorem exec_stoveCommandDone_of_hidden (hv : s.dev.engineVisible = false) : exec (.stoveCommandDone p) s = .next s := by
  change execStoveCommandDone p s = _
  simp only [execStoveCommandDone, State.run, hc, Dev.when, hv, Bool.and_false, Bool.false_eq_true, if_false]

end

/-- What the end of a command leaves before its ember is signalled. -/
structure StoveIdle (d e : Dev) (p : Nat) (c : StoveCmd) : Prop where
  idle : e.stove p = none
  result : e.fld (pSTV p) stvSts 7 0 = c.result % 256
  free : e.bit (pSTV p) stvSts 8 = false
  memory : SameMemory d e
  rd : ∀ page off, page < 0x1C0 → off < 0x10000 → e.rd page off = d.rd page off

theorem Dev.rd_showResult (d : Dev) (p : Nat) (c : StoveCmd) {page off : Nat} (hp : page < 0x1C0) (ho : off < 0x10000) :
    (d.showResult p c).rd page off = d.rd page off := by
  have hne : regKey page off ≠ regKey (pSTV p) stvSts := regKey_ne ho (by decide) (.inl (by simp only [pSTV]; omega))
  have hset (e : Dev) (hi lo n : Nat) : (e.setFld (pSTV p) stvSts hi lo n).rd page off = e.rd page off :=
    Dev.rd_setFld_other _ _ _ _ _ _ _ _ hne
  unfold Dev.showResult
  dsimp only
  split
  · exact (hset _ _ _ _).trans (hset _ _ _ _)
  · exact (hset _ _ _ _).trans ((hset _ _ _ _).trans ((hset _ _ _ _).trans ((hset _ _ _ _).trans (hset _ _ _ _))))

theorem Dev.showResult_status (d : Dev) (p : Nat) (c : StoveCmd) : (d.showResult p c).fld (pSTV p) stvSts 7 0 = c.result % 256 ∧
    (d.showResult p c).bit (pSTV p) stvSts 8 = false := by
  have hfld (e : Dev) {b : Nat} (hb : 8 ≤ b) (hb' : b < 64) (v : Bool) :
      (e.setBit (pSTV p) stvSts b v).fld (pSTV p) stvSts 7 0 = e.fld (pSTV p) stvSts 7 0 :=
    Dev.fld_setBit_field _ _ _ _ _ _ _ hb' (.inr (by omega))
  have hbit (e : Dev) {b : Nat} (hb : 8 < b) (hb' : b < 64) (v : Bool) :
      (e.setBit (pSTV p) stvSts b v).bit (pSTV p) stvSts 8 = e.bit (pSTV p) stvSts 8 :=
    Dev.bit_setBit_bit _ _ _ _ _ _ hb' (by omega)
  have hresult : ((d.setFld (pSTV p) stvSts 7 0 c.result).setBit (pSTV p) stvSts 8 false).fld (pSTV p) stvSts 7 0 = c.result % 256 :=
    (hfld _ (by decide) (by decide) _).trans (Dev.fld_setFld_same _ _ _ _ _ _ (by decide) (by decide))
  have hfree := Dev.bit_setBit_same (d.setFld (pSTV p) stvSts 7 0 c.result) (pSTV p) stvSts 8 false (by decide)
  unfold Dev.showResult
  dsimp only
  split
  · exact ⟨hresult, hfree⟩
  · rw [hfld _ (by decide) (by decide), hfld _ (by decide) (by decide), hfld _ (by decide) (by decide), Dev.setPart_fld,
      hbit _ (by decide) (by decide), hbit _ (by decide) (by decide), hbit _ (by decide) (by decide), Dev.setPart_bit]
    exact ⟨hresult, hfree⟩

theorem Dev.showResult_memory (d : Dev) (p : Nat) (c : StoveCmd) : SameMemory d (d.showResult p c) := by
  unfold Dev.showResult
  dsimp only
  split <;> exact ⟨rfl, rfl⟩

/-- The status of the Stove is no phase account. -/
theorem offAccounts_stvSts (p : Nat) : OffAccounts (pSTV p) stvSts := ⟨by decide, .inr (.inr (by decide))⟩

theorem Dev.idleStove_idle (d : Dev) (p : Nat) (c : StoveCmd) : StoveIdle d (d.idleStove p c) p c := by
  have hsts : (d.idleStove p c).rd (pSTV p) stvSts = (d.showResult p c).rd (pSTV p) stvSts :=
    Dev.rd_phSync_off (offAccounts_stvSts p) _ p
  obtain ⟨hresult, hfree⟩ := d.showResult_status p c
  obtain ⟨hmem, hpoison⟩ := d.showResult_memory p c
  have hend := Upkeep.phEnd (d.showResult p c) p (stovePhase c.op)
  exact ⟨Dev.stove_setStove _ _ _, by rw [Dev.fld, hsts]; exact hresult, by rw [Dev.bit_eq_testBit, hsts, ← Dev.bit_eq_testBit]; exact hfree,
    ⟨hend.mem.trans hmem, hend.poison.trans hpoison⟩,
    fun page off hp ho => (Dev.phSync_rd _ hp ho _).trans (d.rd_showResult p c hp ho)⟩

/-- An engine's signal at the end of a command leaves the command, its status and memory. -/
theorem stoveSignal_leaves {p : Nat} (hp : p < 64) (d : Dev) (v : Word) : let e := d.stoveSignal p v
    e.stove p = d.stove p ∧ e.rd (pSTV p) stvSts = d.rd (pSTV p) stvSts ∧ SameMemory d e := by
  unfold Dev.stoveSignal
  dsimp only
  split
  · refine ⟨?_, Dev.signal1_rd (by decide) (by simp only [pSTV]; omega) hp (bits_lt _ _ _) d, ?_⟩ <;> rw [Dev.signal1_frame]
    · rfl
    · exact ⟨rfl, rfl⟩
  · exact ⟨rfl, rfl, rfl, rfl⟩

theorem emberValue_stoveSignal {d : Dev} {p : Nat} {v : Word} (h15 : v.toNat.testBit 15 = true)
    (hown : d.ownsEmber p (bits v.toNat 13 0) = true) (hr : d.emberRemote (bits v.toNat 13 0) = false)
    (hk : d.emberKind (bits v.toNat 13 0) = ebCounter) (hv : d.emberValue (bits v.toNat 13 0) + 1 < 2 ^ 64) :
    (d.stoveSignal p v).emberValue (bits v.toNat 13 0) = d.emberValue (bits v.toNat 13 0) + 1 := by
  rw [Dev.stoveSignal, h15, hown, Bool.and_self, if_pos rfl]
  exact Dev.emberValue_signal1 hr hk hv

/-- An ember's page and the offsets of its two registers. -/
theorem ember_regs {n : Nat} (hn : n < 16384) : pEMB n < 0x1C0 ∧ cfgOff n < 0x10000 ∧ valOff n < 0x10000 := by
  simp only [pEMB, cfgOff, valOff, Reg.at, rEMB_CFG, rEMB_VAL]
  omega

/-- The end of a finished command whose results are visible, with its ember. -/
theorem stoveCommandDone_ends {d : Dev} {p : Fin 64} (c : StoveCmd) : let e := (d.idleStove p c).stoveSignal p c.word
    e.stove p = none ∧ e.fld (pSTV p) stvSts 7 0 = c.result % 256 ∧ e.bit (pSTV p) stvSts 8 = false ∧ SameMemory d e ∧
      (c.word.toNat.testBit 15 = true → let m := bits c.word.toNat 13 0; d.ownsEmber p m = true → d.emberRemote m = false →
        d.emberKind m = ebCounter → d.emberValue m + 1 < 2 ^ 64 → e.emberValue m = d.emberValue m + 1) := by
  have h := d.idleStove_idle p c
  obtain ⟨hstove, hsts, hmem, hpoison⟩ := stoveSignal_leaves p.isLt (d.idleStove p c) c.word
  refine ⟨hstove.trans h.idle, ?_, ?_, ⟨hmem.trans h.memory.1, hpoison.trans h.memory.2⟩, ?_⟩
  · rw [Dev.fld, hsts]
    exact h.result
  · rw [Dev.bit_eq_testBit, hsts, ← Dev.bit_eq_testBit]
    exact h.free
  · intro h15 m hown hr hk hv
    obtain ⟨hpage, hcfg, hval⟩ := ember_regs (n := m) (bits_lt _ _ _)
    have hvalue : (d.idleStove p c).emberValue m = d.emberValue m := h.rd _ _ hpage hval
    have hcfg' := h.rd _ _ hpage hcfg
    have howns : (d.idleStove p c).ownsEmber p m = d.ownsEmber p m := by
      unfold Dev.ownsEmber Dev.fld
      rw [h.rd (pPART p) rPART_EMB.off (by simp only [pPART]; omega) (by decide)]
    refine (emberValue_stoveSignal h15 (howns.trans hown) ?_ ?_ (by rw [hvalue]; exact hv)).trans (by rw [hvalue])
    · rw [Dev.emberRemote, Dev.bit, Dev.fld, hcfg']
      exact hr
    · rw [Dev.emberKind, Dev.fld, hcfg']
      exact hk

end Sys2Proof.Machine
end

section
/-! SUPPORT. How the work of a Stove command goes on after a wait: its mirrors are acknowledged, refused or late, or its lines are
here (R279, R282). -/

namespace Sys2Proof.Machine

open Sys2Proof.Safety

/-! ### Work that goes on -/

section
variable {d : Dev} {p : Nat} {c : StoveCmd}

/-- With no add that waits, a command that is ready is worked as far as it can go. -/
theorem Dev.stoveGo_ready (hc : d.stove p = some c) (hr : c.ready = true) (ha : (d.part p).heldAdds = []) :
    d.stoveGo p = d.stoveRun p c.fuel := by
  have hflush : d.flushAdds p = d := by rw [Dev.flushAdds, ha, List.isEmpty_nil, if_pos rfl]
  simp only [Dev.stoveGo, hflush, hc, hr, Bool.true_or, if_true]

/-- A command that has ended is worked no further. -/
theorem Dev.stoveRun_stoveEnd (d : Dev) (p : Nat) (c : StoveCmd) (r k : Nat) :
    (d.stoveEnd p c r).stoveRun p k = d.stoveEnd p c r := by
  cases k with
  | zero => rfl
  | succ k => simp only [Dev.stoveRun, Dev.stoveEnd, Dev.stove_setStove, Bool.true_or, if_true]

/-- A command that ends at its next piece of work has then ended. -/
theorem Dev.stoveRun_of_step {r k : Nat} (hc : d.stove p = some c) (hf : c.finished = false) (hm : c.mirrors = [])
    (ht : d.inTest ukEngine (pSTV p) = false) (hs : d.stoveStep p c = d.stoveEnd p c r) :
    d.stoveRun p (k + 1) = d.stoveEnd p c r := by
  simp only [Dev.stoveRun, hc, hf, hm, ht, hs, Dev.stoveRun_stoveEnd, List.isEmpty_nil, Bool.not_true, Bool.or_false,
    Bool.false_eq_true, if_false, ite_self]

/-- An update or a mirror ends with 0 after its last entry. -/
theorem Dev.stoveStep_past (ho : c.op = 1 ∨ c.op = 4) (hn : c.entries.length ≤ c.next) : d.stoveStep p c = d.stoveEnd p c 0 := by
  have h3 : c.op ≠ 3 := by omega
  have h5 : c.op ≠ 5 := by omega
  rw [Dev.stoveStep, if_neg h3, if_neg h5, if_pos hn]

end

/-! ### The four events -/

section
variable {s : State} {p : Fin 64} {c : StoveCmd} (hl : s.dev.live = true) (hc : s.dev.stove p = some c) (hf : c.finished = false)
include hl hc hf

theorem exec_mirrorAckReceive_of_awaited {n : Nat} {ok : Bool} (hm : c.mirrors = [n]) (hh : s.dev.hears = true) :
    exec (.mirrorAckReceive p n ok) s = .next (on s fun d =>
      if ok then (d.stoveNext p { c with mirrors := [] }).stoveGo p else d.stoveEnd p c 6) := by
  change execMirrorAckReceive p n ok s = _
  simp only [execMirrorAckReceive, State.run, hc, Dev.when, hl, hh, hf, hm, Bool.not_false, Bool.and_true, beq_self_eq_true, if_true, on]

theorem exec_mirrorTimeout_of_due {n : Nat} (hm : c.mirrors = [n]) (ht : c.deadline ≤ s.dev.now) :
    exec (.mirrorTimeout p) s = .next (on s fun d => d.stoveEnd p c 6) := by
  change execMirrorTimeout p s = _
  simp only [execMirrorTimeout, State.run, hc, Dev.when, hl, hf, hm, ht, List.isEmpty_cons, decide_true, Bool.not_false,
    Bool.and_true, if_true, on]

theorem exec_stovePoisonResume_of_ready (hm : c.mirrors = []) (hr : c.ready = true) (ha : (s.dev.part p).heldAdds = []) :
    exec (.stovePoisonResume p) s = .next (on s fun d => d.stoveRun p c.fuel) := by
  change execStovePoisonResume p s = _
  simp only [execStovePoisonResume, State.run, hc, Dev.when, hl, hf, hm, Option.all_some, List.isEmpty_nil, Bool.not_false,
    Bool.and_true, if_true, on, Dev.stoveGo_ready hc hr ha]

end

/-- A command past the entry whose mirror it awaited. -/
def StoveCmd.pastEntry (c : StoveCmd) : StoveCmd := { c with mirrors := [], next := c.next + 1, slab := 0, closed := false }

/-- The acknowledgement of the last entry's mirror ends the command. -/
theorem stoveGo_acknowledged {d : Dev} {p : Nat} {c : StoveCmd} (hf : c.finished = false) (hn : c.next + 1 = c.entries.length)
    (ho : c.op = 1 ∨ c.op = 4) (hr : c.ready = true) (ha : (d.part p).heldAdds = []) (ht : d.inTest ukEngine (pSTV p) = false) :
    (d.stoveNext p { c with mirrors := [] }).stoveGo p = d.setStove p
      (some { c with mirrors := [], next := c.next + 1, slab := 0, closed := false, result := 0, finished := true }) := by
  change (d.setStove p (some c.pastEntry)).stoveGo p = _
  have hc : (d.setStove p (some c.pastEntry)).stove p = some c.pastEntry := Dev.stove_setStove _ _ _
  have ha' : ((d.setStove p (some c.pastEntry)).part p).heldAdds = [] := by
    rw [Dev.setStove, Dev.part_setPart_same]
    exact ha
  have hstep := Dev.stoveStep_past (d := d.setStove p (some c.pastEntry)) (p := p) (c := c.pastEntry) ho hn.ge
  rw [Dev.stoveGo_ready hc hr ha', StoveCmd.fuel, Nat.add_comm, Dev.stoveRun_of_step hc hf rfl ht hstep, Dev.stoveEnd,
    Dev.setStove_setStove]
  rfl

end Sys2Proof.Machine
end

section
/-! SUPPORT. Writes one after another that go straight to memory and lie apart: each can be read back, nothing else differs, and
none is held (R171, R265). -/

namespace Sys2Proof.Machine

open Sys2Proof.Safety

/-! ### Loads -/

/-- Bytes read one by one. -/
theorem Dev.load_congr {d e : Dev} {a n : Nat} (h : ∀ x, a ≤ x → x < a + n → e.load x 1 = d.load x 1) : e.load a n = d.load a n :=
  memLoad_congr fun x hlo hhi => List.head_eq_of_cons_eq (h x hlo hhi)

theorem apart_byte {a n b m x : Nat} (h : Apart a n b m) (hlo : b ≤ x) (hhi : x < b + m) : Apart a n x 1 := by
  unfold Apart at h ⊢
  omega

/-- A range apart from every range that may differ reads as before. -/
theorem load_of_outsideSame {rs : List (Nat × Nat)} {d e : Dev} (h : OutsideSame rs d e) {a n : Nat}
    (ha : ∀ r ∈ rs, Apart r.1 r.2 a n) : e.load a n = d.load a n :=
  Dev.load_congr fun x hlo hhi => h x fun r hr => apart_byte (ha r hr) hlo hhi

theorem outsideSame_refl (rs : List (Nat × Nat)) (d : Dev) : OutsideSame rs d d := fun _ _ => rfl

theorem outsideSame_trans {rs : List (Nat × Nat)} {d e f : Dev} (h : OutsideSame rs d e) (g : OutsideSame rs e f) : OutsideSame rs d f :=
  fun x hx => (g x hx).trans (h x hx)

theorem outsideSame_of_mem {rs : List (Nat × Nat)} {d e : Dev} (h : e.mem = d.mem) : OutsideSame rs d e := fun x _ => by
  rw [Dev.load, h, Dev.load]

/-- A load of fewer bytes is the front of the load. -/
theorem Dev.loadNat_of_load {d : Dev} {a n v : Nat} {bs : List Byte} (h : d.load a (natLe n v ++ bs).length = natLe n v ++ bs) :
    d.loadNat a n = v % 256 ^ n := by
  have htake : d.load a n = natLe n v := by
    rw [d.load_take a (show n ≤ (natLe n v ++ bs).length by rw [List.length_append, natLe_length]; omega), h,
      List.take_left' (natLe_length n v)]
  rw [Dev.loadNat, htake, leNat_natLe]

theorem memLoad_add (m : Tab Byte) (a k n : Nat) : memLoad m a (k + n) = memLoad m a k ++ memLoad m (a + k) n := by
  induction k generalizing a with
  | zero => simp [memLoad]
  | succ k ih =>
    rw [show k + 1 + n = (k + n) + 1 by omega, memLoad, memLoad, ih, show a + 1 + k = a + (k + 1) by omega]
    rfl

/-- A number that follows other bytes. -/
theorem Dev.loadNat_after {d : Dev} {a n v : Nat} {bs : List Byte} (h : d.load a (bs ++ natLe n v).length = bs ++ natLe n v) :
    d.loadNat (a + bs.length) n = v % 256 ^ n := by
  rw [Dev.load, List.length_append, natLe_length, memLoad_add] at h
  obtain ⟨-, htail⟩ := List.append_inj h (memLoad_length _ _ _)
  rw [Dev.loadNat, Dev.load, htail, leNat_natLe]

/-! ### One write -/

section
variable {d : Dev} {a : Nat} {bs : List Byte}

theorem load_store_same (h : Open d a bs.length) : (d.store a bs).load a bs.length = bs := by
  rw [← Dev.put_of_no_window h.window]
  exact load_put_same h

/-- A write differs from what was there within its range alone. -/
theorem outsideSame_store (hw : whereIs a = .tier) {rs : List (Nat × Nat)} {r : Nat × Nat} (hr : r ∈ rs) (hlo : r.1 ≤ a)
    (hhi : a + bs.length ≤ r.1 + r.2) : OutsideSame rs d (d.store a bs) := fun x hx => by
  have hap := hx r hr
  unfold Apart at hap
  exact d.load_store_other hw (by omega)

end

/-- Part of a range that can be written can be written. -/
theorem direct_sub {d : Dev} {a n b m : Nat} (h : Direct d a n) (hm : 0 < m) (hlo : a ≤ b) (hhi : b + m ≤ a + n)
    (hg : b / granBytes = a / granBytes) : Direct d b m := by
  obtain ⟨hend, hopen, hwin⟩ := h
  refine ⟨by omega, fun g hmem => ?_, ?_⟩
  · rw [granules, if_neg (by omega)] at hmem
    obtain ⟨i, hi, rfl⟩ := List.mem_map.mp hmem
    have hi' := List.mem_range.mp hi
    refine hopen _ ?_
    rw [granules, if_neg (by omega)]
    refine List.mem_map.mpr ⟨i, List.mem_range.mpr ?_, by rw [hg]⟩
    simp only [granBytes] at hi' hg ⊢
    omega
  · rw [hg]
    rw [Dev.windowAt, List.find?_eq_none] at hwin ⊢
    intro w hw hc
    refine hwin w hw ?_
    simp only [Bool.and_eq_true, decide_eq_true_eq] at hc ⊢
    exact ⟨⟨hc.1.1, by omega⟩, by omega⟩

/-! ### Several writes -/

/-- Writes, the first first. -/
def Dev.writes (d : Dev) (ws : List (Nat × List Byte)) : Dev := d.each ws fun w e => e.store w.1 w.2

@[simp] theorem Dev.writes_landing (d : Dev) (ws : List (Nat × List Byte)) : (d.writes ws).landing = d.landing :=
  Dev.each_keeps Dev.landing (fun _ _ e => e.store_landing _ _) d

theorem Dev.writes_settledPart (d : Dev) (p : Nat) (ws : List (Nat × List Byte)) : (d.writes ws).settledPart p = d.settledPart p :=
  Dev.each_keeps (fun e => e.settledPart p) (fun _ _ e => e.store_settledPart p _ _) d

/-- The ranges of writes. -/
def spansOf (ws : List (Nat × List Byte)) : List (Nat × Nat) := ws.map fun w => (w.1, w.2.length)

theorem outsideSame_writes {ws : List (Nat × List Byte)} (hw : ∀ w ∈ ws, whereIs w.1 = .tier) {rs : List (Nat × Nat)}
    (hrs : ∀ r ∈ spansOf ws, r ∈ rs) (d : Dev) : OutsideSame rs d (d.writes ws) := by
  induction ws generalizing d with
  | nil => exact outsideSame_refl rs d
  | cons w ws ih =>
    exact outsideSame_trans (outsideSame_store (hw w (by simp)) (hrs (w.1, w.2.length) (by simp [spansOf])) (Nat.le_refl _) (Nat.le_refl _))
      (ih (fun v hv => hw v (by simp [hv])) (fun r hr => hrs r (by rw [spansOf, List.map_cons]; exact .tail _ hr)) _)

/-- Each write that lies apart from those after it can be read back. -/
theorem load_writes {ws : List (Nat × List Byte)} {d : Dev} (ho : ∀ w ∈ ws, Open d w.1 w.2.length)
    (hp : (spansOf ws).Pairwise fun q r => Apart q.1 q.2 r.1 r.2) {w : Nat × List Byte} (h : w ∈ ws) :
    (d.writes ws).load w.1 w.2.length = w.2 := by
  induction ws generalizing d with
  | nil => cases h
  | cons v ws ih =>
    obtain ⟨hv, hp⟩ := List.pairwise_cons.mp hp
    have ho' : ∀ u ∈ ws, Open (d.store v.1 v.2) u.1 u.2.length := fun u hu => (ho u (by simp [hu])).of_landing (d.store_landing _ _)
    rcases List.mem_cons.mp h with rfl | h
    · have hrest := outsideSame_writes (fun u hu => (ho' u hu).tier) (fun _ hr => hr) (d.store w.1 w.2)
      exact (load_of_outsideSame hrest fun r hr => (hv r hr).symm).trans (load_store_same (ho w (by simp)))
    · exact ih ho' hp h

/-! ### Writes that are held -/

/-- The writes held for each granule (R171). -/
def Dev.heldWrites (d : Dev) : Nat → List (Nat × List Byte × Bool) := fun g => (d.mig g).held

theorem Dev.heldWrites_of_tier {d e : Dev} (h : e.tier = d.tier) : e.heldWrites = d.heldWrites := by
  funext g
  rw [Dev.heldWrites, Dev.mig, h, Dev.heldWrites, Dev.mig]

theorem Dev.markDirty_heldWrites (d : Dev) (a n : Nat) : (d.markDirty a n).heldWrites = d.heldWrites := by
  refine Dev.each_keeps Dev.heldWrites (fun t _ e => ?_) d
  dsimp only
  split
  · funext g
    by_cases hg : g = t / 1024
    · rw [hg, Dev.heldWrites, Dev.mig_setMig, Dev.heldWrites]
    · rw [Dev.heldWrites, Dev.mig_setMig_other _ _ hg, Dev.heldWrites]
  · rfl

/-- A write that is not held leaves the writes that are. -/
theorem Dev.noteWrite_heldWrites (d : Dev) (a n : Nat) : (d.noteWrite a n).heldWrites = d.heldWrites := by
  have hsettle (e : Dev) (g : Nat) : (e.settle g).heldWrites = e.heldWrites := by
    unfold Dev.settle
    dsimp only
    split
    · exact (Dev.heldWrites_of_tier (Dev.phEnd_tier _ _ _)).trans rfl
    · rfl
  have hwarm (e : Dev) : (e.warm a n).heldWrites = e.heldWrites :=
    Dev.each_keeps Dev.heldWrites (fun _ _ _ => by dsimp only; split <;> rfl) e
  have hstaged (e : Dev) : (e.dropStaged a n).heldWrites = e.heldWrites := by
    unfold Dev.dropStaged
    split <;> rfl
  exact (hsettle _ _).trans ((hwarm _).trans ((Dev.heldWrites_of_tier (Dev.invalidate_tier _ a n)).trans
    ((hstaged _).trans (d.markDirty_heldWrites a n))))

/-- Every piece of a range has a byte in it. -/
theorem pieces_nonempty {a n : Nat} {r : Nat × Nat} (h : r ∈ pieces granBytes a n) : r.1 < a + n := by
  unfold pieces at h
  split at h
  · cases h
  · obtain ⟨i, hi, rfl⟩ := List.mem_map.mp h
    have hi' := List.mem_range.mp hi
    simp only [granBytes] at hi' ⊢
    omega

theorem heldWrites_store {d : Dev} {a : Nat} {bs : List Byte} (h : Open d a bs.length) :
    (d.store a bs).heldWrites = d.heldWrites := by
  rw [d.store_of_tier bs h.tier]
  have hpieces (l : List (Nat × Nat)) (hl : ∀ r ∈ l, r ∈ pieces granBytes a bs.length) (e : Dev) (he : e.switches = d.switches) :
      (e.storePieces a bs l).heldWrites = e.heldWrites := by
    induction l generalizing e with
    | nil => rfl
    | cons r l ih =>
      obtain ⟨hlo, -, -⟩ := mem_pieces (hl r (by simp))
      have hstill : e.switches (r.1 / granBytes) = false := by
        have := h.still (r.1 - a) (by have := pieces_nonempty (hl r (by simp)); omega)
        rwa [Nat.add_sub_cancel' hlo, ← he] at this
      have hone (b : List Byte) : (e.storeGran r.1 b false).heldWrites = e.heldWrites := by
        rw [Dev.storeGran_eq, hstill, if_neg Bool.false_ne_true, Dev.noteWrite_heldWrites]
        rfl
      have hkeep (b : List Byte) : (e.storeGran r.1 b false).switches = e.switches :=
        congrArg Ground.switches (e.storeGran_ground 0 r.1 b)
      exact (ih (fun q hq => hl q (by simp [hq])) _ ((hkeep _).trans he)).trans (hone _)
  exact hpieces _ (fun _ hr => hr) d rfl

theorem heldWrites_writes {ws : List (Nat × List Byte)} {d : Dev} (ho : ∀ w ∈ ws, Open d w.1 w.2.length) :
    (d.writes ws).heldWrites = d.heldWrites := by
  induction ws generalizing d with
  | nil => rfl
  | cons w ws ih =>
    exact (ih fun u hu => (ho u (by simp [hu])).of_landing (d.store_landing _ _)).trans (heldWrites_store (ho w (by simp)))

theorem Tab.get_listed_or {α : Type} (f : Nat → α) (t : Tab α) (k : Nat) : Tab.get f t k = f k ∨ (k, Tab.get f t k) ∈ t := by
  induction t with
  | nil => exact .inl rfl
  | cons x t ih =>
    obtain ⟨j, v⟩ := x
    by_cases h : j = k
    · subst h
      simp [Tab.get]
    · rcases ih with ih | ih
      · exact .inl (by simp [Tab.get, h, ih])
      · exact .inr (by simp [Tab.get, h, ih])

/-- When every write of an engine is visible, no granule holds one. -/
theorem heldWrites_of_visible {d : Dev} (h : d.engineVisible = true) : d.heldWrites = fun _ => [] := by
  funext g
  rcases Tab.get_listed_or (fun _ => ({} : Migration)) d.tier.mig g with hg | hg
  · rw [Dev.heldWrites, Dev.mig, hg]
  · rw [Dev.engineVisible, Bool.not_eq_true', List.any_eq_false] at h
    have := h _ hg
    rwa [Bool.not_eq_true, Bool.not_eq_false', List.isEmpty_iff] at this

theorem rangeVisible_of_none_held {d : Dev} (h : d.heldWrites = fun _ => []) (a n : Nat) : d.rangeVisible a n = true := by
  have hall : (granules a n).all (fun g => (d.mig g).held.isEmpty) = true := by
    rw [List.all_eq_true]
    intro g _
    exact List.isEmpty_iff.mpr (congrFun h g)
  rw [Dev.rangeVisible, hall, Bool.or_true]

end Sys2Proof.Machine
end

section
/-! SUPPORT. A slab of a mirror that arrives (R264, R279): when it is taken, and what it leaves. -/

namespace Sys2Proof.Machine

open Sys2Proof.Safety

/-- The entry of the shard table that a mirror names. -/
def Dev.mirrored (d : Dev) (p : Nat) (m : MirrorEntry) : ShardEntry := .ofBytes (d.loadNew (d.shardAt p m.entry) 64)

/-- The slab written to its entry; the first clears complete. -/
def Dev.landMirror (d : Dev) (p : Nat) (m : MirrorEntry) : Dev :=
  (if m.isFirst then d.storeNat (d.shardAt p m.entry + 60) 1 0 else d).landSlab (d.mirrored p m) m

/-- A mirror that is whole with its last slab, as it waits to be visible. -/
def Dev.mirrorDone (d : Dev) (p : Nat) (m : MirrorEntry) : MirrorDone :=
  ⟨m.srcDev, m.srcPart, m.entry, d.shardAt p m.entry, m.step,
    (d.shardAt p m.entry, 64) :: (mirrorTensors m (d.mirrored p m)).map fun t => (t.1, t.2 * (d.mirrored p m).count)⟩

/-- A slab that can be taken is landed; the last one makes its mirror wait to be acknowledged. -/
def Dev.takeMirror (d : Dev) (p : Nat) (m : MirrorEntry) : Dev :=
  let e := d.landMirror p m
  if m.isLast then (e.setPart p { e.part p with mirrorsDone := (e.part p).mirrorsDone ++ [d.mirrorDone p m] }).endMirrors p else e

theorem exec_mirrorReceive_of_heard {s : State} {p : Fin 64} (m : MirrorEntry) (hl : s.dev.live = true) (hh : s.dev.hears = true) :
    exec (.mirrorReceive p m) s = .next (on s fun d =>
      if !d.mirrorOk p m then d.answerMirror m.srcDev m.srcPart m.entry false else d.takeMirror p m) :=
  run_when_true (f := fun _ d =>
    if !d.mirrorOk p m then d.answerMirror m.srcDev m.srcPart m.entry false else d.takeMirror p m) hl hh

theorem Dev.answerMirror_frame (d : Dev) (dev part entry : Nat) (ok : Bool) : d.answerMirror dev part entry ok =
    { d with fab := (d.answerMirror dev part entry ok).fab, out := (d.answerMirror dev part entry ok).out } :=
  Dev.sendOn_frame _ _ _ _ _

theorem Dev.answerMirror_mem (d : Dev) (dev part entry : Nat) (ok : Bool) : (d.answerMirror dev part entry ok).mem = d.mem := by
  rw [Dev.answerMirror_frame]

section
variable {d : Dev} {p : Nat} {m : MirrorEntry}

/-- When a slab can be taken. -/
theorem mirrorOk_iff : d.mirrorOk p m = true ↔ let at_ := d.shardAt p m.entry; let e := d.mirrored p m; let w := d.partWorld p
    let lies := fun t : Nat × Nat => d.placed t.1 (t.2 * e.count) t.2 = true ∧ d.tierOk p w t.1 (t.2 * e.count) = true
    m.entry < d.fld (pSTV p) rSTV_SHARD.off 47 32 ∧ d.tierOk p w at_ 64 = true ∧ d.poisoned at_ 64 = false ∧
      mirrorFits e m = true ∧ lies (e.b, 2) ∧ lies (e.r, 1) ∧ (m.m ≠ [] → lies (e.m, 2)) := by
  dsimp only
  simp only [Dev.mirrorOk, Bool.and_eq_true, decide_eq_true_eq, Bool.not_eq_true', and_assoc]
  cases hm : m.m <;> simp [mirrorTensors, hm, Dev.mirrored, and_assoc]

/-- The writes of a slab. -/
def slabWrites (e : ShardEntry) (m : MirrorEntry) : List (Nat × List Byte) :=
  [(e.b + 2 * (slabElems * m.slab), m.b), (e.r + slabElems * m.slab, m.r)] ++
    if m.m.isEmpty then [] else [(e.m + 2 * (slabElems * m.slab), m.m)]

theorem Dev.landSlab_eq (d : Dev) (e : ShardEntry) (m : MirrorEntry) : d.landSlab e m = d.writes (slabWrites e m) := by
  rw [Dev.landSlab, slabWrites]
  split <;> rfl

theorem spansOf_slabWrites (e : ShardEntry) (m : MirrorEntry) : spansOf (slabWrites e m) =
    [(e.b + 2 * (slabElems * m.slab), m.b.length), (e.r + slabElems * m.slab, m.r.length)] ++
      if m.m.isEmpty then [] else [(e.m + 2 * (slabElems * m.slab), m.m.length)] := by
  rw [slabWrites]
  split <;> rfl

/-- What a slab writes: b, r, and m where it has one. -/
theorem mem_slabWrites (e : ShardEntry) (m : MirrorEntry) :
    (e.b + 2 * (slabElems * m.slab), m.b) ∈ slabWrites e m ∧ (e.r + slabElems * m.slab, m.r) ∈ slabWrites e m ∧
      (m.m ≠ [] → (e.m + 2 * (slabElems * m.slab), m.m) ∈ slabWrites e m) :=
  ⟨by simp [slabWrites], by simp [slabWrites], fun h => by simp [slabWrites, h]⟩

/-- A slab that fits brings bytes for each tensor that it writes. -/
theorem slabWrites_nonempty {e : ShardEntry} (h : mirrorFits e m = true) {w : Nat × List Byte} (hw : w ∈ slabWrites e m) :
    0 < w.2.length := by
  simp only [mirrorFits, Bool.and_eq_true, decide_eq_true_eq, beq_iff_eq] at h
  obtain ⟨⟨⟨⟨-, hslab⟩, hb⟩, hr⟩, -⟩ := h
  have hn : 0 < min slabElems (e.count - slabElems * m.slab) := Nat.lt_min.mpr ⟨by decide, by omega⟩
  rw [slabWrites, List.mem_append] at hw
  rcases hw with hw | hw
  · simp only [List.mem_cons, List.not_mem_nil, or_false] at hw
    rcases hw with rfl | rfl <;> dsimp only <;> omega
  · split at hw
    · cases hw
    next hm =>
      obtain rfl := List.mem_singleton.mp hw
      exact List.length_pos_iff.mpr fun h => hm (List.isEmpty_iff.mpr h)

/-- The entries of a shard table lie at multiples of 64. -/
theorem Dev.shardAt_granule (d : Dev) (p i k : Nat) (hk : k < 64) : (d.shardAt p i + k) / granBytes = d.shardAt p i / granBytes := by
  simp only [Dev.shardAt, granBytes]
  omega

end

/-! ### A slab that is taken -/

section
variable {d : Dev} {p : Nat} {m : MirrorEntry} (hfits : mirrorFits (d.mirrored p m) m = true)
  (hsep : Separate d ((d.shardAt p m.entry + 56, 5) :: spansOf (slabWrites (d.mirrored p m) m)))
include hsep

/-- The state of the mirror, 5 bytes of its entry, can be written, whole or its last byte. -/
theorem open_mirrorMark : Open d (d.shardAt p m.entry + 56) 5 ∧ Open d (d.shardAt p m.entry + 60) 1 := by
  have hmark : Direct d (d.shardAt p m.entry + 56) 5 := hsep.1 _ List.mem_cons_self
  refine ⟨.of_direct (by decide) hmark, .of_direct (by decide) (direct_sub hmark (by decide) (by omega) (by omega) ?_)⟩
  rw [d.shardAt_granule _ _ _ (by decide), d.shardAt_granule _ _ _ (by decide)]

/-- Complete is cleared within the state of the mirror. -/
theorem clearMark_outside : OutsideSame [(d.shardAt p m.entry + 56, 5)] d (d.storeNat (d.shardAt p m.entry + 60) 1 0) :=
  outsideSame_store (r := (d.shardAt p m.entry + 56, 5)) (open_mirrorMark hsep).2.tier List.mem_cons_self
    (Nat.add_le_add_left (by decide) _) (by rw [natLe_length]; dsimp only; omega)

include hfits

theorem open_slabWrites {w : Nat × List Byte} (hw : w ∈ slabWrites (d.mirrored p m) m) : Open d w.1 w.2.length :=
  .of_direct (slabWrites_nonempty hfits hw) (hsep.1 _ (.tail _ (List.mem_map.mpr ⟨w, hw, rfl⟩)))

/-- What a slab that is taken leaves, before its mirror is whole. -/
structure SlabLanded (d e : Dev) (p : Nat) (m : MirrorEntry) : Prop where
  slab : ∀ w ∈ slabWrites (d.mirrored p m) m, e.load w.1 w.2.length = w.2
  outside : OutsideSame ((d.shardAt p m.entry + 56, 5) :: spansOf (slabWrites (d.mirrored p m) m)) d e
  first : m.isFirst = true → e.loadNat (d.shardAt p m.entry + 60) 1 = 0
  landing : e.landing = d.landing
  held : e.heldWrites = d.heldWrites
  part : e.settledPart p = d.settledPart p

theorem landMirror_lands : SlabLanded d (d.landMirror p m) p m := by
  obtain ⟨-, hopen⟩ := open_mirrorMark hsep
  obtain ⟨hmark, hpair⟩ := List.pairwise_cons.mp hsep.2
  have hslab {w} (hw : w ∈ slabWrites (d.mirrored p m) m) := open_slabWrites hfits hsep hw
  have hrest (e : Dev) : OutsideSame (spansOf (slabWrites (d.mirrored p m) m)) e (e.writes (slabWrites (d.mirrored p m) m)) :=
    outsideSame_writes (fun w hw => (hslab hw).tier) (fun _ hr => hr) e
  have hwiden {rs : List (Nat × Nat)} {f e : Dev} (h : OutsideSame rs f e)
      (hrs : ∀ r ∈ rs, r ∈ (d.shardAt p m.entry + 56, 5) :: spansOf (slabWrites (d.mirrored p m) m)) :
      OutsideSame ((d.shardAt p m.entry + 56, 5) :: spansOf (slabWrites (d.mirrored p m) m)) f e := fun x hx => h x fun r hr => hx r (hrs r hr)
  have hland {e : Dev} (he : e.landing = d.landing) : ∀ w ∈ slabWrites (d.mirrored p m) m, Open e w.1 w.2.length :=
    fun w hw => (hslab hw).of_landing he
  rw [Dev.landMirror]
  cases hfirst : m.isFirst
  · rw [if_neg Bool.false_ne_true, Dev.landSlab_eq]
    exact ⟨fun w hw => load_writes (hland rfl) hpair hw, hwiden (hrest d) fun _ hr => .tail _ hr,
      fun h => absurd (hfirst.symm.trans h) Bool.false_ne_true, d.writes_landing _, heldWrites_writes (hland rfl), d.writes_settledPart p _⟩
  · rw [if_pos rfl, Dev.landSlab_eq]
    have he : (d.storeNat (d.shardAt p m.entry + 60) 1 0).landing = d.landing := d.store_landing _ _
    refine ⟨fun w hw => load_writes (hland he) hpair hw, ?_, fun _ => ?_, (Dev.writes_landing _ _).trans he,
      (heldWrites_writes (hland he)).trans (heldWrites_store hopen), (Dev.writes_settledPart _ p _).trans (d.store_settledPart p _ _)⟩
    · exact outsideSame_trans (hwiden (clearMark_outside hsep) fun r hr => List.mem_singleton.mp hr ▸ List.mem_cons_self)
        (hwiden (hrest _) fun _ hr => .tail _ hr)
    · have hapart : ∀ r ∈ spansOf (slabWrites (d.mirrored p m) m), Apart r.1 r.2 (d.shardAt p m.entry + 60) 1 := fun r hr => by
        have := hmark r hr
        unfold Apart at this ⊢
        omega
      have hload : (d.storeNat (d.shardAt p m.entry + 60) 1 0).load (d.shardAt p m.entry + 60) (natLe 1 0).length = natLe 1 0 :=
        load_store_same (by rw [natLe_length]; exact hopen)
      rw [Dev.loadNat, load_of_outsideSame (hrest _) hapart]
      rw [natLe_length] at hload
      rw [hload, leNat_natLe, Nat.zero_mod]

/-- What a slab that is taken leaves. -/
structure SlabTaken (d e : Dev) (p : Nat) (m : MirrorEntry) : Prop where
  slab : ∀ w ∈ slabWrites (d.mirrored p m) m, e.load w.1 w.2.length = w.2
  outside : OutsideSame ((d.shardAt p m.entry + 56, 5) :: spansOf (slabWrites (d.mirrored p m) m)) d e
  first : m.isLast = false → m.isFirst = true → e.loadNat (d.shardAt p m.entry + 60) 1 = 0
  last : m.isLast = true → e.loadNat (d.shardAt p m.entry + 56) 4 = m.step % 2 ^ 32 ∧ e.loadNat (d.shardAt p m.entry + 60) 1 = 1

omit hsep hfits in
theorem slabTaken_of_mem {e f : Dev} (h : SlabTaken d e p m) (hm : f.mem = e.mem) : SlabTaken d f p m := by
  have hload (a n : Nat) : f.load a n = e.load a n := by rw [Dev.load, hm, Dev.load]
  have hnat (a n : Nat) : f.loadNat a n = e.loadNat a n := congrArg leNat (hload a n)
  exact ⟨fun w hw => (hload _ _).trans (h.slab w hw), fun x hx => (hload x 1).trans (h.outside x hx),
    fun hl hf => (hnat _ _).trans (h.first hl hf), fun hl => ⟨(hnat _ _).trans (h.last hl).1, (hnat _ _).trans (h.last hl).2⟩⟩

omit hsep hfits in
/-- A mirror that comes to wait alone, when every write is visible, is marked and acknowledged at once. -/
theorem endMirrors_alone {e : Dev} {x : MirrorDone} (hdone : (e.part p).mirrorsDone = []) (hv : e.heldWrites = fun _ => []) :
    (e.setPart p { e.part p with mirrorsDone := (e.part p).mirrorsDone ++ [x] }).endMirrors p =
      ((e.setPart p { e.part p with mirrorsDone := [] }).store (x.addr + 56) (natLe 4 x.step ++ natLe 1 1)).answerMirror
        x.dev x.part x.entry true := by
  have hspans (y : Part) : (x.spans.all fun r => (e.setPart p y).rangeVisible r.1 r.2) = true :=
    List.all_eq_true.mpr fun r _ => rangeVisible_of_none_held (d := e.setPart p y) hv r.1 r.2
  rw [hdone, List.nil_append]
  simp only [Dev.endMirrors, Dev.part_setPart_same, hspans, Bool.not_true, Bool.false_eq_true, if_false, Dev.setPart_setPart]

theorem takeMirror_takes (hdone : (d.part p).mirrorsDone = []) (hv : d.engineVisible = true) : SlabTaken d (d.takeMirror p m) p m := by
  have h := landMirror_lands hfits hsep
  rw [Dev.takeMirror]
  dsimp only
  cases hlast : m.isLast
  · rw [if_neg Bool.false_ne_true]
    exact ⟨h.slab, h.outside, fun _ hf => h.first hf, fun hl => absurd (hlast.symm.trans hl) Bool.false_ne_true⟩
  · rw [if_pos rfl, endMirrors_alone ((Dev.part_of_settledPart (·.mirrorsDone) (fun _ => rfl) h.part).trans hdone)
      (h.held.trans (heldWrites_of_visible hv))]
    refine slabTaken_of_mem ?_ (Dev.answerMirror_mem _ _ _ _ _)
    obtain ⟨hmark, -⟩ := List.pairwise_cons.mp hsep.2
    generalize d.landMirror p m = e at h ⊢
    change SlabTaken d ((e.setPart p { e.part p with mirrorsDone := [] }).store (d.shardAt p m.entry + 56)
      (natLe 4 m.step ++ natLe 1 1)) p m
    have hopen : Open (e.setPart p { e.part p with mirrorsDone := [] }) (d.shardAt p m.entry + 56)
        (natLe 4 m.step ++ natLe 1 1).length :=
      (open_mirrorMark hsep).1.of_landing h.landing
    have hload := load_store_same hopen
    have hcomplete := Dev.loadNat_after hload
    rw [natLe_length, Nat.add_assoc] at hcomplete
    have hout : OutsideSame [(d.shardAt p m.entry + 56, 5)] e ((e.setPart p { e.part p with mirrorsDone := [] }).store
        (d.shardAt p m.entry + 56) (natLe 4 m.step ++ natLe 1 1)) :=
      outsideSame_trans (outsideSame_of_mem rfl) (outsideSame_store (r := (d.shardAt p m.entry + 56, 5)) hopen.tier List.mem_cons_self
        (Nat.le_refl _) (Nat.le_refl _))
    refine ⟨fun w hw => (load_of_outsideSame hout fun r hr => ?_).trans (h.slab w hw), outsideSame_trans h.outside fun x hx =>
      hout x fun r hr => hx r (List.mem_singleton.mp hr ▸ List.mem_cons_self), fun hl => absurd (hlast.symm.trans hl).symm Bool.false_ne_true,
      fun _ => ⟨Dev.loadNat_of_load hload, hcomplete⟩⟩
    obtain rfl := List.mem_singleton.mp hr
    exact hmark (w.1, w.2.length) (List.mem_map.mpr ⟨w, hw, rfl⟩)

end

end Sys2Proof.Machine
end

section
/-! SUPPORT. A write by an agent into an accumulate window: a word that is added, what lies past the end of the window, and what is
discarded or poisoned (R265 to R267). -/

namespace Sys2Proof.Machine

open Sys2Proof.Safety

/-! ### Phase accounts -/

theorem Dev.phCount_frame (d : Dev) (p o hi lo n : Nat) : d.phCount p o hi lo n = { d with regs := (d.phCount p o hi lo n).regs } := by
  unfold Dev.phCount
  dsimp only
  split <;> rfl

/-- An agent that starts or ends work in a phase changes registers and the accounts of its partition alone. -/
theorem Dev.phSet_phSync_frame (d : Dev) (p n k : Nat) : ∃ ph rs, (d.phSync p).phSet p n k =
    { d.setPart p { d.part p with phases := ph } with regs := rs } := by
  unfold Dev.phSync
  split
  · exact ⟨_, d.regs, rfl⟩
  · dsimp only
    rw [Dev.each_regs (fun a e => by
      split
      · rfl
      · rw [Dev.phCount_frame (e.phCount _ _ _ _ _), Dev.phCount_frame e]) d, Dev.phSet, Dev.setPart_setPart, Dev.part_setPart_same]
    exact ⟨_, _, rfl⟩

/-- What an agent that starts work leaves. -/
structure PhaseKept (p : Nat) (d e : Dev) : Prop where
  memory : SameMemory d e
  cores : e.cores = d.cores
  tier : e.tier = d.tier
  vex : e.vex = d.vex
  heldAdds : (e.part p).heldAdds = (d.part p).heldAdds
  wins : (e.part p).wins = (d.part p).wins
  landing : e.landing = d.landing
  rd : ∀ off, off < 0x10000 → e.rd (pSTV p) off = d.rd (pSTV p) off

theorem phaseKept_of {p n k : Nat} {d e : Dev} (he : e = (d.phSync p).phSet p n k) (hl : e.landing = d.landing) : PhaseKept p d e := by
  have hrd (off : Nat) (ho : off < 0x10000) : e.rd (pSTV p) off = d.rd (pSTV p) off := by
    rw [he]
    exact Dev.rd_phSync_off ⟨ho, .inr (.inl (by simp only [pSTV]; omega))⟩ d p
  obtain ⟨ph, rs, hframe⟩ := d.phSet_phSync_frame p n k
  have hpart : e.part p = { d.part p with phases := ph } := by
    rw [he, hframe]
    exact Dev.part_setPart_same d p _
  refine ⟨?_, ?_, ?_, ?_, by rw [hpart], by rw [hpart], hl, hrd⟩ <;> rw [he, hframe]
  · exact ⟨rfl, rfl⟩
  all_goals rfl

theorem phaseKept_phStart (d : Dev) (p n : Nat) : PhaseKept p d (d.phStart p n) :=
  phaseKept_of rfl (Dev.landing_of_sight fun _ => Dev.phStart_sight _ _ _ _)

theorem phaseKept_phEnd (d : Dev) (p n : Nat) : PhaseKept p d (d.phEnd p n) :=
  phaseKept_of rfl (Dev.landing_of_sight fun _ => Dev.phEnd_sight _ _ _ _)

/-! ### An add into an element -/

/-- Where no granule switches, an engine sees what memory holds. -/
theorem Dev.loadNew_of_still {d : Dev} {a n : Nat} (h : ∀ g ∈ granules a n, (d.gran g).state ≠ stSwitching) :
    d.loadNew a n = d.load a n := by
  have hnone : d.switching a n = none := List.find?_eq_none.mpr fun g hg => by simp [h g hg]
  rw [Dev.loadNew, hnone, Option.isNone_none, if_pos rfl]

/-- The element of a window that a word at an offset belongs to. -/
def Dev.windowElem (d : Dev) (p w off : Nat) : Nat := d.winBuf p w + d.winWidth p w * (off / 4)

/-- The first word of some bytes. -/
def firstWord (bs : List Byte) : Lane := BitVec.ofNat 32 (leNat (bs.take 4))

/-- The add of a word at an offset of a window (R266). -/
def Dev.windowItem (d : Dev) (p w off : Nat) (x : Lane) : HeldAdd :=
  { win := w, addr := d.windowElem p w off, bf16 := d.winBf16 p w, mode := d.winMode p w (off / 4) x, word := x }

/-- The sum of a word and its element, as the element's format gives it. -/
def Dev.windowSum (d : Dev) (p w off : Nat) (x : Lane) : Nat × Bool :=
  windowAdd (if d.winBf16 p w then layBf16 else layFp32) (d.winMode p w (off / 4) x)
    (d.loadNat (d.windowElem p w off) (d.winWidth p w)) x

section
variable {d e : Dev} {p w : Nat} (hrd : ∀ off, off < 0x10000 → off ≠ stvSts → e.rd (pSTV p) off = d.rd (pSTV p) off)
include hrd

/-- The words of a window that stand in registers. -/
theorem window_of_rd (hw : w < 16) : e.winBuf p w = d.winBuf p w ∧ e.winBf16 p w = d.winBf16 p w ∧ e.winWidth p w = d.winWidth p w ∧
    e.winBase p w = d.winBase p w := by
  have hbuf := hrd (rSTV_WIN_BUF.at w) (by simp only [Reg.at, rSTV_WIN_BUF]; omega) (by simp only [Reg.at, rSTV_WIN_BUF, stvSts, rSTV_CMD_STS]; omega)
  have hwin := hrd (rSTV_WIN.at w) (by simp only [Reg.at, rSTV_WIN]; omega) (by simp only [Reg.at, rSTV_WIN, stvSts, rSTV_CMD_STS]; omega)
  have hfmt : e.winBf16 p w = d.winBf16 p w := by simp only [Dev.winBf16, Dev.bit_eq_testBit, hwin]
  exact ⟨by simp only [Dev.winBuf, Dev.fld, hbuf], hfmt, by rw [Dev.winWidth, hfmt, Dev.winWidth], by simp only [Dev.winBase, Dev.fld, hwin]⟩

theorem windowItem_of_rd (hw : w < 16) (hwins : (e.part p).wins = (d.part p).wins) (off : Nat) (x : Lane) :
    e.windowItem p w off x = d.windowItem p w off x := by
  obtain ⟨hbuf, hfmt, hwidth, -⟩ := window_of_rd hrd hw
  have hkey := hrd (rSTV_WIN_KEY.at w) (by simp only [Reg.at, rSTV_WIN_KEY]; omega) (by simp only [Reg.at, rSTV_WIN_KEY, stvSts, rSTV_CMD_STS]; omega)
  have hmode : e.winMode p w (off / 4) x = d.winMode p w (off / 4) x := by
    unfold Dev.winMode Dev.winKey
    rw [hkey, hwins]
  rw [Dev.windowItem, Dev.windowElem, hbuf, hfmt, hwidth, hmode, Dev.windowItem, Dev.windowElem]

end

/-- What the add of a word leaves: the sum in its element, and every other byte, the cores and the windows as before. -/
structure WordAdded (d e : Dev) (p a n sum : Nat) : Prop where
  sum : e.loadNat a n = sum
  outside : OutsideSame [(a, n)] d e
  cores : e.cores = d.cores
  landing : e.landing = d.landing
  rd : ∀ off, off < 0x10000 → off ≠ stvSts → e.rd (pSTV p) off = d.rd (pSTV p) off

/-- A store of a sum, with the flag of one that saturated. -/
theorem wordAdded_store {d : Dev} {p a n : Nat} (r : Nat × Bool) (ho : Open d a n) : WordAdded d
    (if r.2 then (d.storeNat a n r.1).setBit (pSTV p) stvSts 16 true else d.storeNat a n r.1) p a n (r.1 % 256 ^ n) := by
  have ho' : Open d a (natLe n r.1).length := by rw [natLe_length]; exact ho
  have hload := load_store_same ho'
  have hsum : (d.storeNat a n r.1).loadNat a n = r.1 % 256 ^ n := by
    rw [natLe_length] at hload
    rw [Dev.loadNat, Dev.storeNat, hload, leNat_natLe]
  have hout : OutsideSame [(a, n)] d (d.storeNat a n r.1) :=
    outsideSame_store (r := (a, n)) ho.tier List.mem_cons_self (Nat.le_refl _) (by rw [natLe_length])
  have hrd (off : Nat) (hoff : off < 0x10000) : (d.storeNat a n r.1).rd (pSTV p) off = d.rd (pSTV p) off :=
    Dev.store_rd ho.tier ⟨hoff, .inr (.inl (by simp only [pSTV]; omega))⟩ d _
  split
  · exact ⟨hsum, hout, d.store_cores ho.tier _, (Dev.landing_setFld (offWindows_of (by decide) (.inr (by decide))) _ _ _ _).trans
      (d.store_landing a _), fun off hoff hne =>
        (Dev.rd_setFld_other _ _ _ _ _ _ _ _ (regKey_ne hoff (by decide) (.inr hne))).trans (hrd off hoff)⟩
  · exact ⟨hsum, hout, d.store_cores ho.tier _, d.store_landing a _, fun off hoff _ => hrd off hoff⟩

/-- What goes before and after an add in the phase accounts is no part of it. -/
theorem WordAdded.within {d f g e : Dev} {p a n sum : Nat} (h : WordAdded f g p a n sum) (hs : PhaseKept p d f) (he : PhaseKept p g e) :
    WordAdded d e p a n sum where
  sum := by rw [← h.sum, Dev.loadNat, Dev.load, he.memory.1]; rfl
  outside := outsideSame_trans (outsideSame_trans (outsideSame_of_mem hs.memory.1) h.outside) (outsideSame_of_mem he.memory.1)
  cores := he.cores.trans (h.cores.trans hs.cores)
  landing := he.landing.trans (h.landing.trans hs.landing)
  rd off ho hne := (he.rd off ho).trans ((h.rd off ho hne).trans (hs.rd off ho))

/-- An add that nothing keeps waiting takes place at once. -/
theorem wordAdded_addTo {d : Dev} {p n : Nat} {x : HeldAdd} (hn : (if x.bf16 then 2 else 4) = n)
    (ha : (d.part p).heldAdds = []) (hc : d.companionOwns x.addr n = false) (hp : d.poisoned x.addr n = false) (ho : Open d x.addr n) :
    WordAdded d (d.addTo p x) p x.addr n
      ((windowAdd (if x.bf16 then layBf16 else layFp32) x.mode (d.loadNatNew x.addr n) x.word).1 % 256 ^ n) := by
  rw [Dev.addTo]
  simp only [hn, ha, hc, hp, List.any_nil, Bool.false_eq_true, if_false]
  exact wordAdded_store _ ho

/-- One aligned word written into an enabled window is added to its element. -/
theorem windowPut_word {d : Dev} {p w off : Nat} {bs : List Byte} (hw : w < 16) (ha : (d.part p).heldAdds = [])
    (hoff : off % 4 = 0) (hb : bs.length = 4) (hc : d.companionOwns (d.windowElem p w off) (d.winWidth p w) = false)
    (hp : d.poisoned (d.windowElem p w off) (d.winWidth p w) = false) (hd : Direct d (d.windowElem p w off) (d.winWidth p w)) :
    WordAdded d (d.windowPut p w off bs false) p (d.windowElem p w off) (d.winWidth p w)
      ((d.windowSum p w off (firstWord bs)).1 % 256 ^ d.winWidth p w) := by
  have hstart := phaseKept_phStart d p phBackward
  have hput : d.windowPut p w off bs false = ((d.phStart p phBackward).addTo p
      ((d.phStart p phBackward).windowItem p w off (firstWord bs))).phEnd p phBackward := by
    simp [Dev.windowPut, hoff, hb, words32, Dev.each, Dev.addWord, Dev.windowItem, Dev.windowElem, firstWord]
  rw [hput, windowItem_of_rd (fun off ho _ => hstart.rd off ho) hw hstart.wins]
  refine WordAdded.within ?_ hstart (phaseKept_phEnd _ p phBackward)
  generalize d.phStart p phBackward = f at hstart
  obtain ⟨hmem, hpoison⟩ := hstart.memory
  have hstill : ∀ g ∈ granules (d.windowElem p w off) (d.winWidth p w), (f.gran g).state ≠ stSwitching := fun g hg => by
    rw [Dev.gran, hstart.tier]
    exact hd.2.1 g hg
  have hload : f.loadNatNew (d.windowElem p w off) (d.winWidth p w) = d.loadNat (d.windowElem p w off) (d.winWidth p w) := by
    rw [Dev.loadNatNew, Dev.loadNew_of_still hstill, Dev.load, hmem]
    rfl
  have hopen : Open f (d.windowElem p w off) (d.winWidth p w) :=
    (Open.of_direct (by rw [Dev.winWidth]; split <;> decide) hd).of_landing hstart.landing
  have h := wordAdded_addTo (d := f) (p := p) (n := d.winWidth p w) (x := d.windowItem p w off (firstWord bs)) rfl
    (hstart.heldAdds.trans ha) (by rw [Dev.companionOwns, hstart.vex]; exact hc) (by rw [Dev.poisoned, hpoison]; exact hp) hopen
  rw [show f.loadNatNew (d.windowItem p w off (firstWord bs)).addr (d.winWidth p w) = _ from hload] at h
  exact h

/-! ### A write into a window -/

/-- A write at an offset within an enabled window: its bytes inside go to the window, the rest past its end (R265). -/
def Dev.writeWindow (d : Dev) (p w off : Nat) (bs : List Byte) (bad : Bool) : Dev :=
  let n := 4 * d.winN p w - off
  let e := d.windowPut p w off (bs.take n) bad
  if bs.length ≤ n then e else e.put (e.winBase p w + off + n) (bs.drop n) bad

theorem exec_stoveWindowWrite_of_on {s : State} {p : Fin 64} {w : Fin 16} {off : Nat} (bs : List Byte) (bad : Bool)
    (hl : s.dev.live = true) (hon : s.dev.winOn p w = true) (hoff : off < 4 * s.dev.winN p w) :
    exec (.stoveWindowWrite p w off bs bad) s = .next (on s fun d => d.writeWindow p w off bs bad) :=
  run_when_true (q := fun d => d.winOn p w && off < 4 * d.winN p w) (f := fun _ d => d.writeWindow p w off bs bad) hl
    (by rw [hon, decide_eq_true hoff]; rfl)

section
variable {d : Dev} {p w off : Nat} {bs : List Byte} {bad : Bool}

/-- A write that ends within the window. -/
theorem writeWindow_inside (h : off + bs.length ≤ 4 * d.winN p w) : d.writeWindow p w off bs bad = d.windowPut p w off bs bad := by
  have hn : bs.length ≤ 4 * d.winN p w - off := by omega
  rw [Dev.writeWindow]
  simp only [hn, if_true, List.take_of_length_le hn]

/-- Any other write only sets badwr. -/
theorem windowPut_odd (h : off % 4 ≠ 0 ∨ bs.length % 4 ≠ 0) :
    d.windowPut p w off bs bad = d.setBit (pSTV p) stvSts 19 true := by
  have hodd : (off % 4 != 0 || bs.length % 4 != 0) = true := by simpa using h
  rw [Dev.windowPut, if_pos hodd]

/-- A poisoned write adds nothing. -/
theorem windowPut_poisoned (ho : off % 4 = 0) (hb : bs.length % 4 = 0) :
    d.windowPut p w off bs true = d.addPoison (d.windowElem p w off) (d.winWidth p w * (bs.length / 4)) := by
  simp only [Dev.windowPut, ho, hb, bne_self_eq_false, Bool.or_self, Bool.false_eq_true, if_false, if_true, Dev.windowElem]

/-- Every line of a range that is poisoned is poisoned. -/
theorem mem_poison_addPoison {a n l : Nat} (hlo : a / 64 ≤ l) (hhi : 64 * l < a + n) : l ∈ (d.addPoison a n).poison :=
  NSet.mem_addRange.mpr (.inr ⟨hlo, by omega⟩)

/-- A write of the last word of a window and of what follows it. -/
theorem writeWindow_over (hw : w < 16) (ha : (d.part p).heldAdds = []) (hoff : off % 4 = 0) (hb : 4 < bs.length)
    (hend : off + 4 = 4 * d.winN p w) (hc : d.companionOwns (d.windowElem p w off) (d.winWidth p w) = false)
    (hp : d.poisoned (d.windowElem p w off) (d.winWidth p w) = false)
    (hs : Separate d [(d.windowElem p w off, d.winWidth p w), (d.winBase p w + off + 4, bs.length - 4)]) :
    let e := d.writeWindow p w off bs false
    e.loadNat (d.windowElem p w off) (d.winWidth p w) = (d.windowSum p w off (firstWord bs)).1 % 256 ^ d.winWidth p w ∧
      e.load (d.winBase p w + off + 4) (bs.length - 4) = bs.drop 4 ∧
      OutsideSame [(d.windowElem p w off, d.winWidth p w), (d.winBase p w + off + 4, bs.length - 4)] d e := by
  have hn : 4 * d.winN p w - off = 4 := by omega
  have hlong : ¬ bs.length ≤ 4 := by omega
  have hlen : (bs.drop 4).length = bs.length - 4 := List.length_drop
  obtain ⟨hdirect, hap⟩ := hs
  have hap := List.rel_of_pairwise_cons hap List.mem_cons_self
  have h := windowPut_word hw ha hoff (bs := bs.take 4) (by rw [List.length_take]; omega) hc hp (hdirect _ List.mem_cons_self)
  have hfirst : firstWord (bs.take 4) = firstWord bs := by rw [firstWord, List.take_take, Nat.min_self, firstWord]
  obtain ⟨-, -, -, hbase⟩ := window_of_rd h.rd hw
  rw [Dev.writeWindow]
  simp only [hn, hlong, if_false, hbase]
  have hopen : Open (d.windowPut p w off (bs.take 4) false) (d.winBase p w + off + 4) (bs.drop 4).length := by
    rw [hlen]
    exact (Open.of_direct (by omega) (hdirect _ (.tail _ List.mem_cons_self))).of_landing h.landing
  have hout : OutsideSame [(d.winBase p w + off + 4, bs.length - 4)] (d.windowPut p w off (bs.take 4) false)
      ((d.windowPut p w off (bs.take 4) false).put (d.winBase p w + off + 4) (bs.drop 4) false) := by
    rw [Dev.put_of_no_window hopen.window]
    exact outsideSame_store (r := (d.winBase p w + off + 4, bs.length - 4)) hopen.tier List.mem_cons_self (Nat.le_refl _)
      (by rw [hlen])
  refine ⟨?_, hlen ▸ load_put_same hopen, outsideSame_trans (fun x hx => h.outside x fun r hr => hx r ?_)
    (fun x hx => hout x fun r hr => hx r (.tail _ hr))⟩
  · rw [Dev.loadNat, load_of_outsideSame hout fun r hr => by
      obtain rfl := List.mem_singleton.mp hr
      exact hap.symm]
    exact hfirst ▸ h.sum
  · exact List.mem_singleton.mp hr ▸ List.mem_cons_self

end

end Sys2Proof.Machine
end

section
/-! SUPPORT. The words of an accumulate window as an agent writes them (R266, R268). -/

namespace Sys2Proof.Machine

open Sys2Proof.Safety

/-! ### The four words -/

/-- Word 0 as a write leaves it: an enabled window takes its disabling alone, and one that is not sound is not enabled (R268). -/
def Dev.takeWin (d : Dev) (a : Access) (p w : Nat) (v : Word) : Dev :=
  if d.winOn p w then
    if a.reaches 63 63 && !v.toNat.testBit 63 then d.setBit (pSTV p) (rSTV_WIN.at w) 63 false else d
  else
    let e := d.store8 a (pSTV p) (rSTV_WIN.at w) rSTV_WIN v
    if e.winOn p w && !e.winSound p w then e.setBit (pSTV p) (rSTV_WIN.at w) 63 false else e

/-- Words 1 and 2 as a write leaves them: those of an enabled window stay. -/
def Dev.takeWinWord (d : Dev) (a : Access) (p w : Nat) (r : Reg) (v : Word) : Dev :=
  if d.winOn p w then d else d.store8 a (pSTV p) (r.at w) r v

/-- The rounding of a context, with the seed of its learning. -/
def Dev.contextKey (d : Dev) (p c : Nat) : WinKey :=
  { stochastic := d.bit (pPART p) (rPART_CTX.at c) 62, seed := d.rd (pLRN p) (rLRN_SEED.at c) }

/-- Word 3 as a write leaves it: it also draws the rounding of the window's context. -/
def Dev.takeWinKey (d : Dev) (a : Access) (p w : Nat) (v : Word) : Dev :=
  let e := d.store8 a (pSTV p) (rSTV_WIN_KEY.at w) rSTV_WIN_KEY v
  e.setPart p { e.part p with
    wins := Tab.set (fun _ => {}) (e.part p).wins w (e.contextKey p (e.fld (pSTV p) (rSTV_WIN.at w) 55 52)) }

/-- Where the four words of a window stand. -/
theorem winWord_offsets (w : Nat) : 0x400 + 0x20 * w + 8 * 1 = rSTV_WIN_N.at w ∧ 0x400 + 0x20 * w + 8 * 2 = rSTV_WIN_BUF.at w ∧
    0x400 + 0x20 * w + 8 * 3 = rSTV_WIN_KEY.at w := by
  simp only [Reg.at, rSTV_WIN_N, rSTV_WIN_BUF, rSTV_WIN_KEY]
  omega

section
variable {s : State} {a : Access} {p : Fin 64} {w : Fin 16} {v : Word}

theorem exec_stvWinWrite_enable (h : s.dev.writable a (pSTV p) (0x400 + 0x20 * w.val) false = true) :
    exec (.stvWinWrite a p w 0 v) s = .next (on s fun d => (d.takeWin a p w v).emit (.readback 0 false)) :=
  run_regWrite (fun _ d => d.takeWin a p w v) h

theorem exec_stvWinWrite_size (h : s.dev.writable a (pSTV p) (0x400 + 0x20 * w.val + 8 * 1) false = true) :
    exec (.stvWinWrite a p w 1 v) s = .next (on s fun d => (d.takeWinWord a p w rSTV_WIN_N v).emit (.readback 0 false)) := by
  rw [on, Dev.takeWinWord, ← (winWord_offsets w).1]
  exact run_regWrite (fun _ d => if d.winOn p w then d else d.store8 a (pSTV p) (0x400 + 0x20 * w.val + 8 * 1) rSTV_WIN_N v) h

theorem exec_stvWinWrite_buffer (h : s.dev.writable a (pSTV p) (0x400 + 0x20 * w.val + 8 * 2) false = true) :
    exec (.stvWinWrite a p w 2 v) s = .next (on s fun d => (d.takeWinWord a p w rSTV_WIN_BUF v).emit (.readback 0 false)) := by
  rw [on, Dev.takeWinWord, ← (winWord_offsets w).2.1]
  exact run_regWrite (fun _ d => if d.winOn p w then d else d.store8 a (pSTV p) (0x400 + 0x20 * w.val + 8 * 2) rSTV_WIN_BUF v) h

theorem exec_stvWinWrite_key (h : s.dev.writable a (pSTV p) (0x400 + 0x20 * w.val + 8 * 3) false = true) :
    exec (.stvWinWrite a p w 3 v) s = .next (on s fun d => (d.takeWinKey a p w v).emit (.readback 0 false)) := by
  rw [on, Dev.takeWinKey, ← (winWord_offsets w).2.2]
  exact run_regWrite (fun _ d =>
    let e := d.store8 a (pSTV p) (0x400 + 0x20 * w.val + 8 * 3) rSTV_WIN_KEY v
    e.setPart p { e.part p with
      wins := Tab.set (fun _ => {}) (e.part p).wins w (e.contextKey p (e.fld (pSTV p) (rSTV_WIN.at w) 55 52)) }) h

end

/-! ### What each write leaves -/

theorem bits_writeWin (old v : Nat) : bits (rSTV_WIN.write old .full v) 63 63 = bits v 63 63 ∧
    bits (rSTV_WIN.write old .full v) 47 0 = bits v 47 0 :=
  have hsound : FieldsSound rSTV_WIN.fields := by decide
  ⟨rSTV_WIN.bits_write (f := ⟨"en", 63, 63, .rw, 0⟩) hsound (by decide) rfl old v,
    rSTV_WIN.bits_write (f := ⟨"base", 47, 0, .rw, 0⟩) hsound (by decide) rfl old v⟩

/-- The key is written whole. -/
theorem write_winKey (old : Nat) (v : Word) : rSTV_WIN_KEY.write old .full v.toNat % 2 ^ 64 = v.toNat := by
  have hsound : FieldsSound rSTV_WIN_KEY.fields := by decide
  have hstep := rSTV_WIN_KEY.bits_write (f := ⟨"step", 63, 32, .rw, 0⟩) hsound (by decide) rfl old v.toNat
  have htag := rSTV_WIN_KEY.bits_write (f := ⟨"tag", 31, 0, .rw, 0⟩) hsound (by decide) rfl old v.toNat
  have hv := v.isLt
  simp only [bits, Nat.shiftRight_eq_div_pow] at hstep htag
  omega

section
variable {d : Dev} {a : Access} {p w : Nat} {v : Word}

/-- A window that is not enabled takes a word whole. -/
theorem store8_win (hf : a.width = .full) : (d.store8 a (pSTV p) (rSTV_WIN.at w) rSTV_WIN v).winBase p w = bits v.toNat 47 0 ∧
    (d.store8 a (pSTV p) (rSTV_WIN.at w) rSTV_WIN v).winOn p w = v.toNat.testBit 63 := by
  obtain ⟨hen, hbase⟩ := bits_writeWin (d.rd (pSTV p) (rSTV_WIN.at w)) v.toNat
  rw [Dev.store8, hf]
  exact ⟨(Dev.fld_wr_same _ _ _ _ _ _ (by decide)).trans hbase, (Dev.bit_wr_same _ _ _ _ _ (by decide)).trans (testBit_of_bits hen)⟩

/-- Clearing en disables a window and leaves its base. -/
theorem setBit_winOff (d : Dev) (p w : Nat) : ((d.setBit (pSTV p) (rSTV_WIN.at w) 63 false).winOn p w = false) ∧
    (d.setBit (pSTV p) (rSTV_WIN.at w) 63 false).winBase p w = d.winBase p w :=
  ⟨Dev.bit_setBit_same _ _ _ _ _ (by decide), Dev.fld_setBit_field _ _ _ _ _ _ _ (by decide) (.inr (by decide))⟩

theorem takeWin_off (hf : a.width = .full) (hon : d.winOn p w = true) (hv : v.toNat.testBit 63 = false) :
    d.takeWin a p w v = d.setBit (pSTV p) (rSTV_WIN.at w) 63 false := by
  have hreach : a.reaches 63 63 = true := by simp [Access.reaches, hf]
  rw [Dev.takeWin, if_pos hon, hreach, hv]
  exact if_pos rfl

theorem takeWin_kept (hon : d.winOn p w = true) (hv : v.toNat.testBit 63 = true) : d.takeWin a p w v = d := by
  rw [Dev.takeWin, if_pos hon, hv, Bool.not_true, Bool.and_false, if_neg Bool.false_ne_true]

theorem takeWin_on (hf : a.width = .full) (hon : d.winOn p w = false) : let e := d.takeWin a p w v
    OnlyRegs d e ∧ e.winBase p w = bits v.toNat 47 0 ∧
      e.winOn p w = (v.toNat.testBit 63 && (d.store8 a (pSTV p) (rSTV_WIN.at w) rSTV_WIN v).winSound p w) := by
  obtain ⟨hbase, hen⟩ := store8_win (d := d) (p := p) (w := w) (v := v) hf
  obtain ⟨hoff, hkeep⟩ := setBit_winOff (d.store8 a (pSTV p) (rSTV_WIN.at w) rSTV_WIN v) p w
  rw [Dev.takeWin, hon, if_neg Bool.false_ne_true]
  dsimp only
  rw [hen]
  split
  next h =>
    rw [Bool.and_eq_true, Bool.not_eq_true'] at h
    exact ⟨rfl, hkeep.trans hbase, by rw [hoff, h.2, Bool.and_false]⟩
  next h =>
    refine ⟨rfl, hbase, hen.trans ?_⟩
    revert h
    cases v.toNat.testBit 63 <;> simp

theorem takeWinWord_kept (r : Reg) (hon : d.winOn p w = true) : d.takeWinWord a p w r v = d := if_pos hon

theorem takeWinWord_taken (r : Reg) (hon : d.winOn p w = false) :
    d.takeWinWord a p w r v = d.store8 a (pSTV p) (r.at w) r v := by
  rw [Dev.takeWinWord, hon, if_neg Bool.false_ne_true]

theorem store8_winN (hf : a.width = .full) : (d.store8 a (pSTV p) (rSTV_WIN_N.at w) rSTV_WIN_N v).winN p w = bits v.toNat 39 0 := by
  rw [Dev.store8, hf]
  exact (Dev.fld_wr_same _ _ _ _ _ _ (by decide)).trans
    (rSTV_WIN_N.bits_write (f := ⟨"n", 39, 0, .rw, 0⟩) (by decide) (by decide) rfl _ _)

theorem store8_winBuf (hf : a.width = .full) :
    (d.store8 a (pSTV p) (rSTV_WIN_BUF.at w) rSTV_WIN_BUF v).winBuf p w = bits v.toNat 47 0 := by
  rw [Dev.store8, hf]
  exact (Dev.fld_wr_same _ _ _ _ _ _ (by decide)).trans
    (rSTV_WIN_BUF.bits_write (f := ⟨"buf", 47, 0, .rw, 0⟩) (by decide) (by decide) rfl _ _)

/-- The key of a window, with the rounding of its context. -/
theorem takeWinKey_draws (hf : a.width = .full) (hw : w < 16) : let e := d.takeWinKey a p w v
    e.rd (pSTV p) (rSTV_WIN_KEY.at w) = v.toNat ∧
      e.winKey p w = d.contextKey p (d.fld (pSTV p) (rSTV_WIN.at w) 55 52) := by
  have hkey : rSTV_WIN_KEY.at w < 0x10000 := by simp only [Reg.at, rSTV_WIN_KEY]; omega
  have hother {page off : Nat} (ho : off < 0x10000) (h : page ≠ pSTV p ∨ off ≠ rSTV_WIN_KEY.at w) :
      (d.store8 a (pSTV p) (rSTV_WIN_KEY.at w) rSTV_WIN_KEY v).rd page off = d.rd page off :=
    Dev.rd_wr_other _ _ _ _ _ _ (regKey_ne ho hkey h)
  have hfield : (d.store8 a (pSTV p) (rSTV_WIN_KEY.at w) rSTV_WIN_KEY v).fld (pSTV p) (rSTV_WIN.at w) 55 52 =
      d.fld (pSTV p) (rSTV_WIN.at w) 55 52 := by
    rw [Dev.fld, hother (by simp only [Reg.at, rSTV_WIN]; omega) (.inr (by simp only [Reg.at, rSTV_WIN, rSTV_WIN_KEY]; omega)), Dev.fld]
  have hcontext (c : Nat) (hc : c < 16) : (d.store8 a (pSTV p) (rSTV_WIN_KEY.at w) rSTV_WIN_KEY v).contextKey p c = d.contextKey p c := by
    rw [Dev.contextKey, Dev.bit_eq_testBit, Dev.contextKey, Dev.bit_eq_testBit,
      hother (by simp only [Reg.at, rPART_CTX]; omega) (.inl (by simp only [pPART, pSTV]; omega)),
      hother (by simp only [Reg.at, rLRN_SEED]; omega) (.inl (by simp only [pLRN, pSTV]; omega))]
  refine ⟨?_, ?_⟩
  · rw [Dev.takeWinKey, Dev.store8, hf]
    exact (Dev.rd_wr_same _ _ _ _).trans (write_winKey _ v)
  · rw [Dev.winKey, Dev.takeWinKey, Dev.part_setPart_same, Tab.get_set_same, hfield]
    exact hcontext _ (bits_lt _ _ _)

end

end Sys2Proof.Machine
end

section
/-! The statement on the events of the Stove dies (R265 to R268, R279, R281, R282). -/

namespace Sys2Proof.Machine

open Sys2Proof.Safety

/-- Settles O32: each event of the Stove is a short use of what its own function leaves. -/
theorem stoveEventsComplete : Obligations.StoveEventsComplete := by
  unfold Obligations.StoveEventsComplete
  intro p s
  refine ⟨fun c hl hc => ⟨fun _ hv => exec_stoveCommandDone_of_hidden hc hv,
      fun hf hv => runs_of_next (exec_stoveCommandDone_of_visible hl hc hf hv) (stoveCommandDone_ends c),
      fun n hf hm => ⟨fun hh => runs_of_next (exec_mirrorAckReceive_of_awaited hl hc hf hm hh) ?refused,
        fun hh hn ho hr ha ht => runs_of_next (exec_mirrorAckReceive_of_awaited hl hc hf hm hh)
          ((if_pos rfl).trans (stoveGo_acknowledged hf hn ho hr ha ht)),
        fun ht => runs_of_next (exec_mirrorTimeout_of_due hl hc hf hm ht) rfl⟩,
      fun hf hm hr ha => exec_stovePoisonResume_of_ready hl hc hf hm hr ha⟩,
    fun m hl hh => ⟨fun hok hdone hv hsep => runs_of_next (exec_mirrorReceive_of_heard m hl hh) ?taken,
      fun hok => runs_of_next (exec_mirrorReceive_of_heard m hl hh) ?turned⟩,
    fun w off bs bad hl hon hoff => ⟨fun ha hc hp halign =>
        ⟨fun hb hd => runs_of_next (exec_stoveWindowWrite_of_on bs false hl hon hoff) ?word,
           fun hb hend hsep => runs_of_next (exec_stoveWindowWrite_of_on bs false hl hon hoff) ?past⟩,
      fun hodd hin => ?odd, fun halign hb hin => runs_of_next (exec_stoveWindowWrite_of_on bs true hl hon hoff) ?poison⟩,
    fun a w j v hw hf => ⟨fun hon => ⟨?disable, ?kept⟩, fun hon => ⟨?enable, ?size, ?buffer⟩, ?key⟩⟩
  case refused => exact if_neg Bool.false_ne_true
  case taken =>
    have hgo : s.dev.mirrorOk p m = true := mirrorOk_iff.mpr hok
    obtain ⟨-, -, -, hfits, -⟩ := hok
    rw [← spansOf_slabWrites] at hsep
    have h := takeMirror_takes hfits hsep hdone hv
    obtain ⟨hb, hr, hm⟩ := mem_slabWrites (s.dev.mirrored p m) m
    simp only [hgo, Bool.not_true, Bool.false_eq_true, if_false]
    refine ⟨h.slab _ hb, h.slab _ hr, fun hne => h.slab _ (hm hne), h.last, h.first, ?_⟩
    rw [← spansOf_slabWrites]
    exact h.outside
  case turned =>
    have hno : s.dev.mirrorOk p m = false := Bool.eq_false_iff.mpr fun h => hok (mirrorOk_iff.mp h)
    simp only [hno, Bool.not_false, if_true]
    rw [Dev.answerMirror_frame]
    exact ⟨⟨rfl, rfl⟩, rfl⟩
  case word =>
    have h := windowPut_word w.isLt ha halign hb hc hp hd
    rw [writeWindow_inside (by omega)]
    exact ⟨h.sum, h.outside, h.cores⟩
  case past => exact writeWindow_over w.isLt ha halign hb hend hc hp hsep
  case odd =>
    rw [exec_stoveWindowWrite_of_on bs bad hl hon hoff, on, writeWindow_inside hin, windowPut_odd hodd]
    rfl
  case poison =>
    rw [writeWindow_inside hin, windowPut_poisoned halign hb]
    exact ⟨rfl, rfl, fun l => mem_poison_addPoison⟩
  case disable =>
    rintro rfl hv
    refine runs_of_next (exec_stvWinWrite_enable hw) ?_
    rw [takeWin_off hf hon hv]
    exact ⟨rfl, setBit_winOff s.dev p w⟩
  case kept =>
    rintro (⟨rfl, hv⟩ | rfl | rfl)
    · rw [exec_stvWinWrite_enable hw, on, takeWin_kept hon hv, on]
    · rw [exec_stvWinWrite_size hw, on, takeWinWord_kept _ hon, on]
    · rw [exec_stvWinWrite_buffer hw, on, takeWinWord_kept _ hon, on]
  case enable =>
    rintro rfl
    obtain ⟨hregs, h⟩ := takeWin_on (v := v) hf hon
    exact runs_of_next (exec_stvWinWrite_enable hw) ⟨by rw [hregs]; rfl, h⟩
  case size =>
    rintro rfl
    refine runs_of_next (exec_stvWinWrite_size hw) ?_
    rw [takeWinWord_taken _ hon]
    exact ⟨rfl, store8_winN hf⟩
  case buffer =>
    rintro rfl
    refine runs_of_next (exec_stvWinWrite_buffer hw) ?_
    rw [takeWinWord_taken _ hon]
    exact ⟨rfl, store8_winBuf hf⟩
  case key =>
    rintro rfl
    exact runs_of_next (exec_stvWinWrite_key hw)
      ⟨onlyPart_setPart_wr _ _ _ _ _ _ _, takeWinKey_draws hf w.isLt⟩

end Sys2Proof.Machine
end


section
/-! SUPPORT. A Flue descriptor whose status word goes to a scratchpad: why FlueComplete fails (R54, R56, R306). -/

namespace Sys2Proof.Machine

open Sys2Proof.Safety

/-- A descriptor of partition 0 that names the first word of the scratchpad of core 0 for its status word. R306 asks of that word's
place only that the partition may write it, and the partition owns core 0 here. -/
def scratchStatus : Submitted :=
  { addr := 0, part := 0, bytes := some (List.replicate 48 0 ++ natLe 8 scratchBase ++ List.replicate 8 0) }

/-- The Flue engine of die 0 at the end of that descriptor, with core 0 in the core set of partition 0. -/
def statusToScratch : State :=
  { pending := [], dev := { Dev.reset.wr (pPART 0) (rPART_CORE.at 0) 1 with flues := [(0, { active := some scratchStatus })] } }

/-- The status word is written there, and segment 0 of core 0 becomes live. -/
theorem segmentsAfter_statusToScratch : segmentsAfter (exec (.flueDescriptorDone 0) statusToScratch) = some [0] := by
  decide +kernel

/-- Refutes O35: its clause on the end of a descriptor says of every status word that the cores are left as they were; the one of
`scratchStatus` makes a segment of core 0 live. -/
theorem not_flueComplete : ¬ Obligations.FlueComplete := by
  intro h
  obtain ⟨-, -, hend⟩ := h.1 0 statusToScratch (by decide)
  obtain ⟨-, hvisible⟩ := hend scratchStatus rfl rfl
  obtain ⟨e, hrun, -, hcores, -⟩ := hvisible (by decide +kernel)
  exact not_runs_cores_of_segments segmentsAfter_statusToScratch (by decide) ⟨e, hrun, hcores⟩

end Sys2Proof.Machine
end

section
/-! SUPPORT. What the attempts of loads and re-fetches leave, and the pieces of the statement on comparators, Ethernet ports and the
attestation mailbox (R291, R376, R457 to R459). -/

namespace Sys2Proof.Machine

open Sys2Proof.Safety

/-! ### What attempts leave of the other pages -/

/-- Nothing but what stands behind the partitions, and what is sent, has changed. -/
def OnlyLoads (d e : Dev) : Prop := e = { d with parts := e.parts, out := e.out }

theorem OnlyLoads.trans {d e f : Dev} (h : OnlyLoads d e) (k : OnlyLoads e f) : OnlyLoads d f :=
  Eq.trans k (congrArg (fun x : Dev => { x with parts := f.parts, out := f.out }) h)

theorem onlyLoads_setWeights (d : Dev) (p : Nat) (w : Weights) : OnlyLoads d (d.setWeights p w) := rfl

theorem onlyLoads_tryChunk (d : Dev) (p c k : Nat) : OnlyLoads d (d.tryChunk p c k) := by
  unfold Dev.tryChunk
  dsimp only
  split
  · rfl
  · split <;> rfl

theorem onlyLoads_pump (d : Dev) (p n : Nat) : OnlyLoads d (d.pump p n) := by
  induction n generalizing d with
  | zero => rfl
  | succ n ih =>
    unfold Dev.pump
    dsimp only
    split
    · rfl
    split
    · split
      · exact (onlyLoads_tryChunk d p _ _).trans (ih _)
      · rfl
    · split
      · exact ((onlyLoads_setWeights d p _).trans (onlyLoads_tryChunk _ p _ _)).trans (ih _)
      · rfl

/-- A register, and the storage connections that are lost. -/
structure PortView where
  reg : Nat
  lost : NSet

def Dev.portView (d : Dev) (page off : Nat) : PortView := ⟨d.rd page off, d.eth.lost⟩

section
variable {page off : Nat} (hp : page < 0x1C0) (ht : page ≠ pTIER) (ho : off < 0x10000)
include hp ho

theorem Dev.wgtEnd_rd_low (d : Dev) (p r : Nat) : (d.wgtEnd p r).rd page off = d.rd page off := by
  have hne : regKey page off ≠ regKey (pWGT p) wgtSts := regKey_ne ho (by decide) (.inl (by simp only [pWGT]; omega))
  exact (Dev.rd_setFld_other _ _ _ _ _ _ _ _ hne).trans (Dev.rd_setFld_other _ _ _ _ _ _ _ _ hne)

theorem Dev.fetchSettle_portView (d : Dev) (p : Nat) : (d.fetchSettle p).portView page off = d.portView page off := by
  have hpump : (d.pump p 300).portView page off = d.portView page off := by
    rw [onlyLoads_pump d p 300]
    rfl
  unfold Dev.fetchSettle
  dsimp only
  split
  · rw [← hpump, Dev.portView, Dev.portView, (Upkeep.phEnd _ _ _).eth]
    refine congrArg (PortView.mk · _) ((Dev.phSync_rd _ hp ho p).trans (Dev.wgtEnd_rd_low hp ho _ p 0))
  · exact hpump

theorem Dev.failAttempt_portView (d : Dev) (p : Nat) (c : ChunkTry) : (d.failAttempt p c).portView page off = d.portView page off := by
  unfold Dev.failAttempt
  dsimp only
  split
  · rfl
  · exact (Dev.fetchSettle_portView hp ho _ _).trans (congrArg (·.portView page off) (onlyLoads_tryChunk d p _ _))

include ht

theorem Dev.failTile_portView (d : Dev) (t : Nat) : (d.failTile t).portView page off = d.portView page off := by
  have hleft (e : Dev) (ts : List Nat) : (e.leavePoisoned ts).portView page off = e.portView page off := by
    refine Dev.each_keeps (fun e => e.portView page off) (fun t _ e => ?_) e
    dsimp only
    split
    · rfl
    · exact congrArg (PortView.mk · _) (Dev.rd_setFld_other _ _ _ _ _ _ _ _ (regKey_ne ho (by decide) (.inl ht)))
  have hsettle (e : Dev) (g : Nat) : (e.settle g).portView page off = e.portView page off := by
    rw [Dev.portView, Dev.rd_settle _ _ hp ho, (Upkeep.settle _ _).eth, Dev.portView]
  exact (hsettle _ _).trans ((hleft _ _).trans rfl)

theorem Dev.tryRefetch_portView (d : Dev) (t k : Nat) : (d.tryRefetch t k).portView page off = d.portView page off := by
  unfold Dev.tryRefetch
  dsimp only
  split
  · exact Dev.failTile_portView hp ht ho d t
  · split
    · exact Dev.failTile_portView hp ht ho d t
    · rfl

/-- Attempts that fail on a port leave the registers of the link pages, and the connections that are lost. -/
theorem Dev.failPort_portView (d : Dev) (port : Nat) (conn : Option (Nat × Nat)) :
    (d.failPort port conn).portView page off = d.portView page off := by
  refine (Dev.each_keeps (fun e => e.portView page off)
    (fun p _ e => Dev.each_keeps (fun e => e.portView page off) (fun c _ e => Dev.failAttempt_portView hp ho e p c) e) _).trans
    (Dev.each_keeps (fun e => e.portView page off) (fun x _ e => ?_) d)
  dsimp only
  split
  · exact Dev.tryRefetch_portView hp ht ho e _ _
  · rfl

end

/-! ### Interrupts -/

/-- A cause that occurs is set, and leaves the other registers of its page. -/
theorem Dev.bit_raiseInt (d : Dev) {page n : Nat} (hv : page ≠ pVEX) (hn : n < 64) :
    (d.raiseInt page n).bit page rINT_STS.off n = true := by
  have hset := d.bit_setBit_same page rINT_STS.off n true hn
  unfold Dev.raiseInt Dev.route
  dsimp only
  split
  · split
    · rw [Dev.bit, Dev.fld, Dev.vector_rd (bits_lt _ 8 0) (by decide) hv]
      exact hset
    · exact hset
  · exact hset

theorem Dev.raiseInt_rd (d : Dev) {page off n : Nat} (hv : page ≠ pVEX) (ho : off < 0x10000) (h : off ≠ rINT_STS.off) :
    (d.raiseInt page n).rd page off = d.rd page off := by
  have hset : (d.setBit page rINT_STS.off n true).rd page off = d.rd page off :=
    Dev.rd_setFld_other _ _ _ _ _ _ _ _ (regKey_ne ho (by decide) (.inr h))
  unfold Dev.raiseInt Dev.route
  dsimp only
  split
  · split
    · exact (Dev.vector_rd (bits_lt _ 8 0) ho hv _).trans hset
    · exact hset
  · exact hset

theorem Dev.raiseInt_sameMemory (d : Dev) (page n : Nat) : SameMemory d (d.raiseInt page n) := by
  rw [Dev.raiseInt_frame]
  exact ⟨rfl, rfl⟩

theorem Dev.bit_of_rd {d e : Dev} {page off : Nat} (h : e.rd page off = d.rd page off) (b : Nat) :
    e.bit page off b = d.bit page off b := by simp only [Dev.bit, Dev.fld, h]

theorem Dev.fld_of_rd {d e : Dev} {page off : Nat} (h : e.rd page off = d.rd page off) (hi lo : Nat) :
    e.fld page off hi lo = d.fld page off hi lo := by simp only [Dev.fld, h]

/-! ### Comparators (R457) -/

/-- A claim by software touches neither of the bits of a comparator. -/
theorem Dev.bit_softClaim (d : Dev) (page off v : Nat) {b : Nat} (hb : b < 32) : (d.softClaim page off v).bit page off b = d.bit page off b := by
  unfold Dev.softClaim Dev.claim Dev.unclaim
  dsimp only
  split
  · split
    · exact Dev.bit_setBit_bit _ _ _ _ _ _ (by decide) (by omega)
    · refine (Dev.bit_setFld_field _ _ _ _ _ _ _ (by decide) (by decide) (.inr (by omega))).trans
        ((Dev.bit_setFld_field _ _ _ _ _ _ _ (by decide) (by decide) (.inr (by omega))).trans
          (Dev.bit_setBit_bit _ _ _ _ _ _ (by decide) (by omega)))
  · split
    · refine (Dev.bit_setFld_field _ _ _ _ _ _ _ (by decide) (by decide) (.inr (by omega))).trans
        ((Dev.bit_setFld_field _ _ _ _ _ _ _ (by decide) (by decide) (.inr (by omega))).trans
          (Dev.bit_setBit_bit _ _ _ _ _ _ (by decide) (by omega)))
    · exact Dev.bit_setBit_bit _ _ _ _ _ _ (by decide) (by omega)
  · rfl

theorem onlyRegs_trans {d e f : Dev} (h : OnlyRegs d e) (k : OnlyRegs e f) : OnlyRegs d f :=
  Eq.trans k (congrArg (fun x : Dev => { x with regs := f.regs, out := f.out }) h)

theorem onlyRegs_setFld (d : Dev) (page off hi lo n : Nat) : OnlyRegs d (d.setFld page off hi lo n) := rfl

theorem onlyRegs_setBit (d : Dev) (page off b : Nat) (v : Bool) : OnlyRegs d (d.setBit page off b v) := rfl

theorem onlyRegs_claim (d : Dev) (page off kind id : Nat) : OnlyRegs d (d.claim page off kind id).1 := by
  unfold Dev.claim
  split
  · exact onlyRegs_setBit _ _ _ _ _
  · exact onlyRegs_trans (onlyRegs_trans (onlyRegs_setBit _ _ _ _ _) (onlyRegs_setFld _ _ _ _ _ _)) (onlyRegs_setFld _ _ _ _ _ _)

theorem onlyRegs_unclaim (d : Dev) (page off kind id : Nat) : OnlyRegs d (d.unclaim page off kind id) := by
  unfold Dev.unclaim
  split
  · exact onlyRegs_trans (onlyRegs_trans (onlyRegs_setBit _ _ _ _ _) (onlyRegs_setFld _ _ _ _ _ _)) (onlyRegs_setFld _ _ _ _ _ _)
  · rfl

theorem onlyRegs_softClaim (d : Dev) (page off v : Nat) : OnlyRegs d (d.softClaim page off v) := by
  unfold Dev.softClaim
  dsimp only
  split
  · exact onlyRegs_claim d page off _ _
  · split
    · exact onlyRegs_unclaim d page off _ _
    · exact onlyRegs_setBit _ _ _ _ _
  · rfl

theorem rMOD_TCLM_sound : FieldsSound rMOD_TCLM.fields := by decide

/-- A write of the claim register of a comparator that sets arm arms it. -/
theorem Dev.bit_tclm_of_arm {d : Dev} {a : Access} {n : Nat} {v : Word} (hf : a.width = .full) (hv : v.toNat.testBit 0 = true) :
    ((d.store8 a pMOD (rMOD_TCLM.at n) rMOD_TCLM v).softClaim pMOD (rMOD_TCLM.at n) v.toNat).bit pMOD (rMOD_TCLM.at n) 0 = true := by
  rw [Dev.bit_softClaim _ _ _ _ (by decide), Dev.store8, hf, Dev.bit_wr_same _ _ _ _ _ (by decide), ← hv]
  exact testBit_of_bits (rMOD_TCLM.bits_write (f := ⟨"arm", 0, 0, .rw, 0⟩) rMOD_TCLM_sound (by decide) rfl _ _)

section
variable {a : Access} {n : Fin 4} {v : Word} {s : State}

theorem exec_modTclmArmWrite_of_arm (hw : s.dev.writable a pMOD (rMOD_TCLM.at n) true = true) (hv : v.toNat.testBit 0 = true) :
    exec (.modTclmArmWrite a n v) s = .next (on s fun d =>
      ((d.store8 a pMOD (rMOD_TCLM.at n) rMOD_TCLM v).softClaim pMOD (rMOD_TCLM.at n) v.toNat).emit (.readback 0 false)) := by
  refine (exec_if_pos (q := fun _ => v.toNat.testBit 0 = true) (f := fun d => d.tclmWrite a n v) rfl hv).trans ?_
  rw [on, Dev.tclmWrite, Dev.regWrite_writable _ hw, on]

/-- What a comparator that fires does. -/
def Dev.fireComparator (d : Dev) (n : Nat) : Dev :=
  ((d.setBit pMOD (rMOD_TCLM.at n) 0 false).setBit pMOD (rMOD_TCLM.at n) 1 true).raiseInt pMOD (n + 1)

theorem exec_comparatorFire_of_due (hg : s.dev.pow.pwrGood = true) (hl : s.dev.ltcOn = true)
    (hb : s.dev.bit pMOD (rMOD_TCLM.at n) 0 = true) (ht : s.dev.rd pMOD (rMOD_TCMP.at n) ≤ s.dev.now) :
    exec (.comparatorFire n) s = .next (on s fun d => d.fireComparator n) :=
  exec_if_pos (q := fun d => (d.pow.pwrGood && d.ltcOn && d.bit pMOD (rMOD_TCLM.at n) 0 &&
    decide (d.rd pMOD (rMOD_TCMP.at n) ≤ d.now)) = true) rfl (by simp [hg, hl, hb, ht])

theorem exec_comparatorFire_of_not_due (h : ¬ (s.dev.bit pMOD (rMOD_TCLM.at n) 0 = true ∧
    s.dev.rd pMOD (rMOD_TCMP.at n) ≤ s.dev.now)) : exec (.comparatorFire n) s = .next s := by
  change execComparatorFire n s = _
  rw [execComparatorFire, State.run, if_neg]
  simp only [Bool.and_eq_true, decide_eq_true_eq]
  exact fun hd => h ⟨hd.1.2, hd.2⟩

end

theorem Dev.fireComparator_fires (d : Dev) (n : Fin 4) : let e := d.fireComparator n; e.bit pMOD (rMOD_TCLM.at n) 0 = false ∧
    e.bit pMOD (rMOD_TCLM.at n) 1 = true ∧ e.bit pMOD rINT_STS.off (n + 1) = true ∧ SameMemory d e ∧ e.ltc = d.ltc := by
  intro e
  have hoff : rMOD_TCLM.at n < 0x10000 ∧ rMOD_TCLM.at n ≠ rINT_STS.off := by
    have := n.isLt
    simp only [Reg.at, rMOD_TCLM, rINT_STS]
    omega
  have hrd : e.rd pMOD (rMOD_TCLM.at n) =
      ((d.setBit pMOD (rMOD_TCLM.at n) 0 false).setBit pMOD (rMOD_TCLM.at n) 1 true).rd pMOD (rMOD_TCLM.at n) :=
    Dev.raiseInt_rd _ (by decide) hoff.1 hoff.2
  have hmem := Dev.raiseInt_sameMemory ((d.setBit pMOD (rMOD_TCLM.at n) 0 false).setBit pMOD (rMOD_TCLM.at n) 1 true) pMOD (n + 1)
  refine ⟨?_, ?_, Dev.bit_raiseInt _ (by decide) (by omega), ⟨hmem.1.trans rfl, hmem.2.trans rfl⟩, ?_⟩
  · rw [Dev.bit_of_rd hrd, Dev.bit_setBit_bit _ _ _ _ _ _ (by decide) (by decide), Dev.bit_setBit_same _ _ _ _ _ (by decide)]
  · rw [Dev.bit_of_rd hrd, Dev.bit_setBit_same _ _ _ _ _ (by decide)]
  · exact (congrArg (·.ltc) (Dev.raiseInt_frame _ _ _)).trans rfl

/-! ### The check-value unit of an Ethernet port (R458) -/

theorem Dev.holds_claim {d : Dev} {page off kind id : Nat} (hk : kind < 256) (hi : id < 0x10000) (hfree : d.held page off = false) :
    (d.claim page off kind id).1.holds page off kind id = true ∧ (d.claim page off kind id).2 = true := by
  have hclaim : d.claim page off kind id =
      (((d.setBit page off 63 true).setFld page off 55 48 kind).setFld page off 47 32 id, true) := by
    rw [Dev.claim, hfree, if_neg Bool.false_ne_true]
  rw [hclaim]
  refine ⟨?_, rfl⟩
  rw [Dev.holds, Dev.held, Dev.bit_setFld_field _ _ _ _ _ _ _ (by decide) (by decide) (by decide),
    Dev.bit_setFld_field _ _ _ _ _ _ _ (by decide) (by decide) (by decide), Dev.bit_setBit_same _ _ _ _ _ (by decide),
    Dev.fld_setFld_field _ _ _ _ _ _ _ _ (by decide) (by decide) (by decide), Dev.fld_setFld_same _ _ _ _ _ _ (by decide) (by decide),
    Dev.fld_setFld_same _ _ _ _ _ _ (by decide) (by decide)]
  simp [Nat.mod_eq_of_lt hk, Nat.mod_eq_of_lt hi]

theorem Dev.holds_unclaim (d : Dev) (page off kind id : Nat) : (d.unclaim page off kind id).holds page off kind id = false := by
  unfold Dev.unclaim
  split
  · rw [Dev.holds, Dev.held, Dev.bit_setFld_field _ _ _ _ _ _ _ (by decide) (by decide) (by decide),
      Dev.bit_setFld_field _ _ _ _ _ _ _ (by decide) (by decide) (by decide), Dev.bit_setBit_same _ _ _ _ _ (by decide)]
    rfl
  next h => simpa using h

theorem Dev.rd_claim_other (d : Dev) {page off pg o : Nat} (h : regKey pg o ≠ regKey page off) (kind id : Nat) :
    (d.claim page off kind id).1.rd pg o = d.rd pg o := by
  unfold Dev.claim
  split
  · exact Dev.rd_setFld_other _ _ _ _ _ _ _ _ h
  · exact (Dev.rd_setFld_other _ _ _ _ _ _ _ _ h).trans ((Dev.rd_setFld_other _ _ _ _ _ _ _ _ h).trans
      (Dev.rd_setFld_other _ _ _ _ _ _ _ _ h))

theorem Dev.rd_unclaim_other (d : Dev) {page off pg o : Nat} (h : regKey pg o ≠ regKey page off) (kind id : Nat) :
    (d.unclaim page off kind id).rd pg o = d.rd pg o := by
  unfold Dev.unclaim
  split
  · exact (Dev.rd_setFld_other _ _ _ _ _ _ _ _ h).trans ((Dev.rd_setFld_other _ _ _ _ _ _ _ _ h).trans
      (Dev.rd_setFld_other _ _ _ _ _ _ _ _ h))
  · rfl

/-- What another register holds makes no difference to who holds a unit. -/
theorem Dev.holds_of_rd {d e : Dev} {page off : Nat} (h : e.rd page off = d.rd page off) (kind id : Nat) :
    e.holds page off kind id = d.holds page off kind id := by
  simp only [Dev.holds, Dev.held, Dev.bit, Dev.fld, h]

section
variable {d : Dev} {n : Fin 2}

theorem regKey_port_ne_claim (n : Nat) : regKey (pETH n) rETH_PORT.off ≠ regKey (pETH n) rCLAIM.off :=
  regKey_ne (by decide) (by decide) (.inr (by decide))

/-- A port that is switched on with its unit free gets it, and trains where it may. -/
theorem Dev.ethStart_of_free (hon : d.bit (pETH n) rETH_PORT.off 63 = true) (hfree : d.held (pETH n) rCLAIM.off = false) :
    let e := d.ethStart n
    OnlyRegs d e ∧ e.bit (pETH n) rETH_PORT.off 63 = true ∧ e.holds (pETH n) rCLAIM.off ethHolder n = true ∧
      e.ethState n = if decide (2 ≤ d.level) && d.pow.refclkB then 1 else d.ethState n := by
  obtain ⟨hholds, hgot⟩ := Dev.holds_claim (d := d) (page := pETH n) (off := rCLAIM.off) (kind := ethHolder) (id := n) (by decide)
    (by omega) hfree
  have hnot : d.ethOn n = false := by rw [Dev.ethOn, Dev.holds, hfree]; simp
  have hclaim : d.ethClaim n = (d.claim (pETH n) rCLAIM.off ethHolder n).1 := by
    rw [Dev.ethClaim, hon, hnot, if_neg (by decide)]
    exact if_pos hgot
  have hport : (d.claim (pETH n) rCLAIM.off ethHolder n).1.rd (pETH n) rETH_PORT.off = d.rd (pETH n) rETH_PORT.off :=
    Dev.rd_claim_other d (regKey_port_ne_claim n) _ _
  have hlevel : (d.claim (pETH n) rCLAIM.off ethHolder n).1.level = d.level :=
    Dev.fld_of_rd (Dev.rd_claim_other d (regKey_ne (by decide) (by decide) (.inr (by decide))) _ _) _ _
  have hone : (d.claim (pETH n) rCLAIM.off ethHolder n).1.ethOn n = true := by
    rw [Dev.ethOn, hholds, Dev.bit_of_rd hport, hon]
    rfl
  have hpow : (d.claim (pETH n) rCLAIM.off ethHolder n).1.pow = d.pow := congrArg (·.pow) (onlyRegs_claim d _ _ _ _)
  intro e
  have he : e = if decide (2 ≤ d.level) && d.pow.refclkB then
      (d.claim (pETH n) rCLAIM.off ethHolder n).1.setFld (pETH n) rETH_PORT.off 51 48 1
      else (d.claim (pETH n) rCLAIM.off ethHolder n).1 := by
    simp only [e, Dev.ethStart, hclaim, hone, hlevel, hpow, Bool.true_and]
  by_cases ht : (decide (2 ≤ d.level) && d.pow.refclkB) = true
  · rw [if_pos ht] at he ⊢
    rw [he]
    refine ⟨onlyRegs_trans (onlyRegs_claim d _ _ _ _) (onlyRegs_setFld _ _ _ _ _ _), ?_, ?_,
      Dev.fld_setFld_same _ _ _ _ _ _ (by decide) (by decide)⟩
    · rw [Dev.bit_setFld_field _ _ _ _ _ _ _ (by decide) (by decide) (by decide), Dev.bit_of_rd hport, hon]
    · rw [Dev.holds_of_rd (Dev.rd_setFld_other _ _ _ _ _ _ _ _ (regKey_port_ne_claim n).symm), hholds]
  · rw [if_neg ht] at he ⊢
    rw [he]
    exact ⟨onlyRegs_claim d _ _ _ _, (Dev.bit_of_rd hport 63).trans hon, hholds, Dev.fld_of_rd hport 51 48⟩

/-- One whose unit another holds stays off, and refused is set. -/
theorem Dev.ethStart_of_held (hon : d.bit (pETH n) rETH_PORT.off 63 = true) (hheld : d.held (pETH n) rCLAIM.off = true)
    (hother : d.holds (pETH n) rCLAIM.off ethHolder n = false) : let e := d.ethStart n
    OnlyRegs d e ∧ e.bit (pETH n) rETH_PORT.off 63 = false ∧ e.bit (pETH n) rCLAIM.off 62 = true ∧ e.ethState n = d.ethState n := by
  have hclaim : d.ethClaim n = (d.setBit (pETH n) rCLAIM.off 62 true).setBit (pETH n) rETH_PORT.off 63 false := by
    rw [Dev.ethClaim, Dev.ethOn, hon, hother, Dev.claim, hheld]
    rfl
  have hoff : (d.ethClaim n).bit (pETH n) rETH_PORT.off 63 = false := by
    rw [hclaim, Dev.bit_setBit_same _ _ _ _ _ (by decide)]
  have he : d.ethStart n = d.ethClaim n := by
    simp only [Dev.ethStart, Dev.ethOn, hoff, Bool.false_and, Bool.false_eq_true, if_false]
  intro e
  have he : e = d.ethClaim n := he
  rw [he]
  refine ⟨?_, hoff, ?_, ?_⟩ <;> rw [hclaim]
  · exact onlyRegs_trans (onlyRegs_setBit _ _ _ _ _) (onlyRegs_setBit _ _ _ _ _)
  · rw [Dev.bit_setBit_other _ _ _ _ _ _ _ _ (regKey_port_ne_claim n).symm, Dev.bit_setBit_same _ _ _ _ _ (by decide)]
  · exact (Dev.fld_setBit_field _ _ _ _ _ _ _ (by decide) (by decide)).trans (Dev.fld_setBit_other _ _ _ _ _ _ _ _ _ (regKey_port_ne_claim n))

end

end Sys2Proof.Machine
end

section
/-! SUPPORT. Comparators, Ethernet ports and the attestation mailbox (R290, R291, R376, R457 to R459). -/

namespace Sys2Proof.Machine

open Sys2Proof.Safety

/-! ### Ethernet ports -/

section
variable {a : Access} {n : Fin 2} {v : Word} {s : State}

/-- What a write of the enable of an Ethernet port does (R376, R458). -/
def Dev.ethSwitch (d : Dev) (n : Nat) (up : Bool) : Dev :=
  if up then if d.ethOn n then d else Dev.ethStart (d.setBit (pETH n) rETH_PORT.off 63 true) n
  else (((d.setFld (pETH n) rETH_PORT.off 51 48 0).failPort n none).unclaim (pETH n) rCLAIM.off ethHolder n).setBit (pETH n)
    rETH_PORT.off 63 false

theorem exec_ethPortEnWrite_of_full (hw : s.dev.writable a (pETH n) rETH_PORT.off false = true) (hf : a.width = .full) :
    exec (.ethPortEnWrite a n v) s = .next (on s fun d => (d.ethSwitch n (v.toNat.testBit 63)).emit (.readback 0 false)) := by
  refine (run_regWrite (fun _ d => if !a.reaches 63 63 then d else d.ethSwitch n (v.toNat.testBit 63)) hw).trans ?_
  simp only [Access.reaches, hf, Bool.not_true, Bool.false_eq_true, if_false]

theorem exec_ethPortRead_of_writable (hw : s.dev.writable a (pETH n) rETH_PORT.off false = true) :
    exec (.ethPortRead a n) s = .next (on s fun d =>
      (d.wr (pETH n) rETH_PORT.off (rETH_PORT.afterRead (d.rd (pETH n) rETH_PORT.off) a.width)).emit
        (.readback (BitVec.ofNat 64 (a.width.view (d.rd (pETH n) rETH_PORT.off))) false)) :=
  run_regReadOf (r := rETH_PORT) (fun d => d.rd (pETH n) rETH_PORT.off) (fun _ e => e) hw

end

section
variable {d : Dev} {n : Fin 2}

theorem pETH_lt (n : Fin 2) : pETH n < 0x1C0 := by simp only [pETH]; omega

theorem pETH_ne_pTIER (n : Fin 2) : pETH n ≠ pTIER := by simp only [pETH, pTIER]; omega

theorem Dev.failPort_port (d : Dev) (n : Fin 2) (port : Nat) (conn : Option (Nat × Nat)) :
    (d.failPort port conn).rd (pETH n) rETH_PORT.off = d.rd (pETH n) rETH_PORT.off := by
  have h := Dev.failPort_portView (pETH_lt n) (pETH_ne_pTIER n) (off := rETH_PORT.off) (by decide) d port conn
  simp only [Dev.portView, PortView.mk.injEq] at h
  exact h.1

theorem Dev.failPort_lost (d : Dev) (port : Nat) (conn : Option (Nat × Nat)) : (d.failPort port conn).eth.lost = d.eth.lost := by
  have h := Dev.failPort_portView (page := pMOD) (off := 0) (by decide) (by decide) (by decide) d port conn
  simp only [Dev.portView, PortView.mk.injEq] at h
  exact h.2

theorem Dev.ethSwitch_free (hoff : d.ethOn n = false) (hfree : d.held (pETH n) rCLAIM.off = false) : let e := d.ethSwitch n true
    OnlyRegs d e ∧ e.bit (pETH n) rETH_PORT.off 63 = true ∧ e.holds (pETH n) rCLAIM.off ethHolder n = true ∧
      e.ethState n = if decide (2 ≤ d.level) && d.pow.refclkB then 1 else d.ethState n := by
  have hfree' : (d.setBit (pETH n) rETH_PORT.off 63 true).held (pETH n) rCLAIM.off = false :=
    (Dev.bit_setBit_other _ _ _ _ _ _ _ _ (regKey_port_ne_claim n).symm).trans hfree
  have hlevel : (d.setBit (pETH n) rETH_PORT.off 63 true).level = d.level :=
    Dev.fld_setBit_other _ _ _ _ _ _ _ _ _ (regKey_ne (by decide) (by decide) (.inr (by decide)))
  have hstate : (d.setBit (pETH n) rETH_PORT.off 63 true).ethState n = d.ethState n :=
    Dev.fld_setBit_field _ _ _ _ _ _ _ (by decide) (by decide)
  obtain ⟨honly, hon, hholds, htrains⟩ := Dev.ethStart_of_free (Dev.bit_setBit_same d (pETH n) rETH_PORT.off 63 true (by decide)) hfree'
  rw [Dev.ethSwitch, if_pos rfl, hoff, if_neg Bool.false_ne_true]
  refine ⟨onlyRegs_trans (onlyRegs_setBit _ _ _ _ _) honly, hon, hholds, htrains.trans ?_⟩
  rw [hlevel, hstate]
  rfl

theorem Dev.ethSwitch_held (hheld : d.held (pETH n) rCLAIM.off = true) (hother : d.holds (pETH n) rCLAIM.off ethHolder n = false) :
    let e := d.ethSwitch n true
    OnlyRegs d e ∧ e.bit (pETH n) rETH_PORT.off 63 = false ∧ e.bit (pETH n) rCLAIM.off 62 = true ∧ e.ethState n = d.ethState n := by
  have hrd : (d.setBit (pETH n) rETH_PORT.off 63 true).rd (pETH n) rCLAIM.off = d.rd (pETH n) rCLAIM.off :=
    Dev.rd_setFld_other _ _ _ _ _ _ _ _ (regKey_port_ne_claim n).symm
  obtain ⟨honly, hoff, hrefused, hstate⟩ := Dev.ethStart_of_held (Dev.bit_setBit_same d (pETH n) rETH_PORT.off 63 true (by decide))
    ((Dev.bit_of_rd hrd 63).trans hheld) ((Dev.holds_of_rd hrd _ _).trans hother)
  have hnot : d.ethOn n = false := by rw [Dev.ethOn, hother, Bool.and_false]
  rw [Dev.ethSwitch, if_pos rfl, hnot, if_neg Bool.false_ne_true]
  exact ⟨onlyRegs_trans (onlyRegs_setBit _ _ _ _ _) honly, hoff, hrefused,
    hstate.trans (Dev.fld_setBit_field _ _ _ _ _ _ _ (by decide) (by decide))⟩

theorem Dev.ethSwitch_off : let e := d.ethSwitch n false
    e.bit (pETH n) rETH_PORT.off 63 = false ∧ e.ethState n = 0 ∧ e.holds (pETH n) rCLAIM.off ethHolder n = false := by
  have hdown : ((d.setFld (pETH n) rETH_PORT.off 51 48 0).failPort n none).ethState n = 0 :=
    (Dev.fld_of_rd (Dev.failPort_port _ n _ _) 51 48).trans (Dev.fld_setFld_same _ _ _ _ _ _ (by decide) (by decide))
  rw [Dev.ethSwitch, if_neg Bool.false_ne_true]
  refine ⟨Dev.bit_setBit_same _ _ _ _ _ (by decide), ?_, ?_⟩
  · refine (Dev.fld_setBit_field _ _ _ _ _ _ _ (by decide) (by decide)).trans (Eq.trans ?_ hdown)
    exact Dev.fld_of_rd (Dev.rd_unclaim_other _ (regKey_port_ne_claim n) _ _) 51 48
  · exact (Dev.holds_of_rd (Dev.rd_setFld_other _ _ _ _ _ _ _ _ (regKey_port_ne_claim n).symm) _ _).trans (Dev.holds_unclaim _ _ _ _ _)

theorem rETH_PORT_sound : FieldsSound rETH_PORT.fields := by decide

end

/-! ### Links that are lost, and frames -/

section
variable {n : Fin 2} {s : State} (hl : s.dev.live = true)
include hl

theorem exec_ethernetPortTrained_of_training (ht : s.dev.ethState n = 1) (hon : s.dev.ethOn n = true) (hr : s.dev.pow.refclkB = true) :
    exec (.ethernetPortTrained n) s = .next (on s fun d => d.setFld (pETH n) rETH_PORT.off 51 48 ethUp) :=
  run_when_true (q := fun d => d.ethState n == 1 && d.ethOn n && d.pow.refclkB)
    (f := fun _ d => d.setFld (pETH n) rETH_PORT.off 51 48 ethUp) hl (by simp [ht, hon, hr])

/-- What the loss of a link, or of one connection through it, does (R291). -/
def Dev.ethLose (d : Dev) (n : Nat) : Option (Fin 64 × Fin 512) → Dev
  | none => (d.setFld (pETH n) rETH_PORT.off 51 48 (if d.ethOn n && d.pow.refclkB then 1 else 0)).failPort n none
  | some x =>
    if x.2 < d.nconn x.1 && d.connPort x.1 x.2 == n then
      Dev.failPort { d with eth := { d.eth with lost := d.eth.lost.add (d.connAt x.1 x.2) } } n (some (x.1.val, x.2.val))
    else d

/-- What a frame that arrives does (R290, R376). -/
def Dev.ethReceive (d : Dev) (n : Nat) (frame : List Byte) : Dev :=
  let body := frame.take (frame.length - 4)
  let d := d.setFld (pETH n) rETH_CRCVAL.off 31 0 (crc32.feed crc32.init body)
  if crc32.of body = leNat (frame.drop (frame.length - 4)) then d else d.count (pETH n) rETH_PORT.off 31 0 1

theorem exec_ethernetLinkDown_of_up (hu : s.dev.ethState n = ethUp) (conn : Option (Fin 64 × Fin 512)) :
    exec (.ethernetLinkDown n conn) s = .next (on s fun d => d.ethLose n conn) := by
  refine (run_when_true (q := fun d => d.ethState n == ethUp) (f := fun _ d => match conn with
    | none => (d.setFld (pETH n) rETH_PORT.off 51 48 (if d.ethOn n && d.pow.refclkB then 1 else 0)).failPort n none
    | some x =>
      if x.2 < d.nconn x.1 && d.connPort x.1 x.2 == n then
        Dev.failPort { d with eth := { d.eth with lost := d.eth.lost.add (d.connAt x.1 x.2) } } n (some (x.1.val, x.2.val))
      else d) hl (by simp [hu])).trans ?_
  cases conn <;> rfl

theorem exec_ethernetPacketReceive_of_up {frame : List Byte} (hu : s.dev.ethState n = ethUp) (h4 : 4 ≤ frame.length)
    (h9 : frame.length ≤ 9216) : exec (.ethernetPacketReceive n frame) s = .next (on s fun d => d.ethReceive n frame) :=
  run_when_true (q := fun d => d.ethState n == ethUp && 4 ≤ frame.length && frame.length ≤ 9216)
    (f := fun _ d => d.ethReceive n frame) hl (by simp [hu, h4, h9])

omit hl in
theorem exec_ethernetPacketReceive_of_long {frame : List Byte} (h9 : 9216 < frame.length) :
    exec (.ethernetPacketReceive n frame) s = .next s := by
  change execEthernetPacketReceive n frame s = _
  rw [execEthernetPacketReceive, State.run, Dev.when_false _ (.inr (by simp; omega))]

end

section
variable {d : Dev} {n : Fin 2}

theorem Dev.ethState_ethLose_none (d : Dev) (n : Fin 2) :
    (d.ethLose n none).ethState n = if d.ethOn n && d.pow.refclkB then 1 else 0 := by
  refine (Dev.fld_of_rd (Dev.failPort_port _ n _ _) 51 48).trans ((Dev.fld_setFld_same _ _ _ _ _ _ (by decide) (by decide)).trans ?_)
  split <;> rfl

/-- A lost connection leaves its port up, and is noted. -/
theorem Dev.ethLose_some (d : Dev) (n : Fin 2) (q : Fin 64 × Fin 512) : (d.ethLose n (some q)).ethState n = d.ethState n ∧
    (q.2 < d.nconn q.1 → d.connPort q.1 q.2 = n → d.connAt q.1 q.2 ∈ (d.ethLose n (some q)).eth.lost) := by
  unfold Dev.ethLose
  dsimp only
  split
  · refine ⟨Dev.fld_of_rd (Dev.failPort_port _ n _ _) 51 48, fun _ _ => ?_⟩
    rw [Dev.failPort_lost]
    exact NSet.mem_add.mpr (.inl rfl)
  next h => exact ⟨rfl, fun hc hp => absurd (by simp [hc, hp]) h⟩

theorem Dev.ethReceive_counts (d : Dev) (n : Fin 2) (frame : List Byte) : let m := frame.length - 4
    OnlyRegs d (d.ethReceive n frame) ∧ (d.ethReceive n frame).ethState n = d.ethState n ∧
      (d.ethReceive n frame).fld (pETH n) rETH_PORT.off 31 0 = if crc32.of (frame.take m) = leNat (frame.drop m)
        then d.fld (pETH n) rETH_PORT.off 31 0 else min (2 ^ 32 - 1) (d.fld (pETH n) rETH_PORT.off 31 0 + 1) := by
  intro m
  have hne : regKey (pETH n) rETH_PORT.off ≠ regKey (pETH n) rETH_CRCVAL.off := regKey_ne (by decide) (by decide) (.inr (by decide))
  unfold Dev.ethReceive
  dsimp only
  split
  · exact ⟨onlyRegs_setFld _ _ _ _ _ _, Dev.fld_setFld_other _ _ _ _ _ _ _ _ _ _ hne, Dev.fld_setFld_other _ _ _ _ _ _ _ _ _ _ hne⟩
  · refine ⟨onlyRegs_trans (onlyRegs_setFld _ _ _ _ _ _) (onlyRegs_setFld _ _ _ _ _ _), ?_, ?_⟩
    · exact (Dev.fld_setFld_field _ _ _ _ _ _ _ _ (by decide) (by decide) (by decide)).trans
        (Dev.fld_setFld_other _ _ _ _ _ _ _ _ _ _ hne)
    · rw [Dev.fld_count_one _ _ _ _ _ (by decide) (by decide), Dev.fld_setFld_other _ _ _ _ _ _ _ _ _ _ hne]

end

/-! ### The attestation mailbox -/

theorem rATT_REQ_sound : FieldsSound rATT_REQ.fields := by decide
theorem rATT_RSP_sound : FieldsSound rATT_RSP.fields := by decide

/-- What a write of ATT_REQ leaves there (R459). -/
def attReqNew (a : Access) (old : Nat) (v : Word) : Nat :=
  let new := rATT_REQ.write old a.width v.toNat
  if old.testBit 63 then putBits (putBits new 12 0 (bits old 12 0)) 62 62
    (if a.reaches 63 63 && v.toNat.testBit 63 then 1 else bits new 62 62)
  else new

theorem exec_attReqGo_of_writable {a : Access} {v : Word} {s : State} (hw : s.dev.writable a pATT rATT_REQ.off false = true) :
    exec (.attReqGo a v) s = .next (on s fun d =>
      (d.wr pATT rATT_REQ.off (attReqNew a (d.rd pATT rATT_REQ.off) v)).emit (.readback 0 false)) := by
  refine (run_regWrite (fun d e => let new := rATT_REQ.write (d.rd pATT rATT_REQ.off) a.width v.toNat
    if (d.rd pATT rATT_REQ.off).testBit 63 then e.wr pATT rATT_REQ.off (putBits (putBits new 12 0 (bits (d.rd pATT rATT_REQ.off) 12 0)) 62 62
        (if a.reaches 63 63 && v.toNat.testBit 63 then 1 else bits new 62 62))
    else e.wr pATT rATT_REQ.off new) hw).trans ?_
  simp only [on, attReqNew]
  split <;> rfl

/-- What a field holds once a full write has been taken, by its access. -/
theorem Reg.bits_write_field (r : Reg) {f : Field} (hl : FieldsSound r.fields) (hf : f ∈ r.fields) (old v : Nat) :
    bits (r.write old .full v) f.hi f.lo = f.write old v % 2 ^ (f.hi + 1 - f.lo) :=
  (bits_putFields hl hf).trans (by simp only [Field.within, if_true])

/-- go is set by a write that sets it, and never cleared by one. -/
theorem testBit_writeReq (old v : Nat) : (rATT_REQ.write old .full v).testBit 63 = (old.testBit 63 || v.testBit 63) := by
  have h := rATT_REQ.bits_write_field (f := ⟨"go", 63, 63, .w1s, 0⟩) rATT_REQ_sound (by decide) old v
  have hbit (x : Nat) : (bits x 63 63).testBit 0 = x.testBit 63 := by rw [testBit_bits]; simp
  rw [← hbit (rATT_REQ.write _ _ _), h, Nat.testBit_mod_two_pow]
  simp only [Field.write, Nat.testBit_or, hbit]
  rfl

section
variable {a : Access} {v : Word} {old : Nat} (hf : a.width = .full)
include hf

theorem attReqNew_idle (h : old.testBit 63 = false) : (attReqNew a old v).testBit 63 = v.toNat.testBit 63 ∧
    bits (attReqNew a old v) 12 0 = bits v.toNat 12 0 := by
  rw [attReqNew, h, if_neg Bool.false_ne_true, hf, testBit_writeReq, h, Bool.false_or]
  exact ⟨rfl, rATT_REQ.bits_write (f := ⟨"len", 12, 0, .rw, 0⟩) rATT_REQ_sound (by decide) rfl _ _⟩

theorem attReqNew_busy (h : old.testBit 63 = true) : (attReqNew a old v).testBit 63 = true ∧
    bits (attReqNew a old v) 12 0 = bits old 12 0 ∧ (v.toNat.testBit 63 = true → (attReqNew a old v).testBit 62 = true) := by
  have hgo := testBit_writeReq old v.toNat
  rw [h, Bool.true_or] at hgo
  rw [attReqNew, h, if_pos rfl, hf]
  refine ⟨Eq.trans (testBit_of_bits ?_) hgo, ?_, fun hv => ?_⟩
  · rw [bits_putBits_other _ _ _ _ _ _ (by decide) (by decide), bits_putBits_other _ _ _ _ _ _ (by decide) (by decide)]
  · rw [bits_putBits_other _ _ _ _ _ _ (by decide) (by decide), bits_putBits_same _ _ _ _ (by decide)]
    exact Nat.mod_eq_of_lt (bits_lt _ _ _)
  · refine (testBit_of_bits (w := 2 ^ 62) ?_).trans (by decide)
    rw [bits_putBits_same _ _ _ _ (by decide)]
    simp [Access.reaches, hf, hv, bits]

end

/-- The words of a response, one after another (R459). -/
def Dev.fillResponse (d : Dev) (bs : List Byte) (l : List Nat) : Dev :=
  d.each l fun i e => e.wr pATT (rATT_RSP_BUF.at i) (leNat ((bs.drop (8 * i)).take 8))

theorem leNat_word_lt (l : List Byte) : leNat (l.take 8) < 2 ^ 64 :=
  (leNat_lt _).trans_le (Nat.pow_le_pow_right (by decide) (List.length_take_le 8 l))

theorem onlyRegs_fillResponse (d : Dev) (bs : List Byte) (l : List Nat) : OnlyRegs d (d.fillResponse bs l) := by
  induction l generalizing d with
  | nil => rfl
  | cons i l ih => exact onlyRegs_trans (e := d.wr pATT _ _) rfl (ih _)

/-- A word that is filled holds its bytes of the response. -/
theorem Dev.rd_fillResponse (d : Dev) (bs : List Byte) {l : List Nat} {i : Nat} (hi : i ∈ l) :
    (d.fillResponse bs l).rd pATT (rATT_RSP_BUF.at i) = leNat ((bs.drop (8 * i)).take 8) := by
  have hkeep (e : Dev) (l : List Nat) (h : e.rd pATT (rATT_RSP_BUF.at i) = leNat ((bs.drop (8 * i)).take 8)) :
      (e.fillResponse bs l).rd pATT (rATT_RSP_BUF.at i) = leNat ((bs.drop (8 * i)).take 8) := by
    induction l generalizing e with
    | nil => exact h
    | cons j l ih =>
      refine ih _ ?_
      by_cases hj : j = i
      · rw [hj, Dev.rd_wr_same, Nat.mod_eq_of_lt (leNat_word_lt _)]
      · rw [Dev.rd_wr_other _ _ _ _ _ _ (by simp only [regKey, Reg.at, rATT_RSP_BUF]; omega), h]
  induction l generalizing d with
  | nil => cases hi
  | cons j l ih =>
    rcases List.mem_cons.mp hi with rfl | hl
    · exact hkeep _ l ((Dev.rd_wr_same _ _ _ _).trans (Nat.mod_eq_of_lt (leNat_word_lt _)))
    · exact ih _ hl

/-- What a response does: its bytes, its length with ready, and its cause (R459). -/
def Dev.respond (d : Dev) (bs : List Byte) : Dev :=
  ((d.fillResponse bs (List.range ((bs.length + 7) / 8))).wr pATT rATT_RSP.off (2 ^ 63 + bs.length % 4096)).raiseInt pATT 1

theorem exec_attResponseReady_of_asked {s : State} {bs : List Byte} (hl : s.dev.live = true) (hm : s.dev.fen.mgtOk = true)
    (ha : s.dev.fen.attAnswer ≠ []) (hr : s.dev.bit pATT rATT_RSP.off 63 = false) (hb : s.dev.bit pATT rBLK_STS.off 1 = false)
    (h1 : 1 ≤ bs.length) (h4 : bs.length ≤ 4096) : exec (.attResponseReady bs) s = .next (on s fun d => d.respond bs) :=
  run_when_true (q := fun d => d.fen.mgtOk && !d.fen.attAnswer.isEmpty && !d.bit pATT rATT_RSP.off 63 && !d.bit pATT rBLK_STS.off 1
      && 1 ≤ bs.length && bs.length ≤ 4096) (f := fun _ d => d.respond bs) hl (by simp [hm, ha, hr, hb, h1, h4])

theorem Dev.respond_fills (d : Dev) {bs : List Byte} (hlen : bs.length ≤ 4096) : let e := d.respond bs
    e.bit pATT rATT_RSP.off 63 = true ∧ e.fld pATT rATT_RSP.off 12 0 = bs.length % 4096 ∧ e.bit pATT rINT_STS.off 1 = true ∧
      SameMemory d e ∧ ∀ i, 8 * i < bs.length → e.rd pATT (rATT_RSP_BUF.at i) = leNat ((bs.drop (8 * i)).take 8) := by
  intro e
  have hrsp : e.rd pATT rATT_RSP.off = 2 ^ 63 + bs.length % 4096 := by
    refine (Dev.raiseInt_rd _ (by decide) (by decide) (by decide)).trans ((Dev.rd_wr_same _ _ _ _).trans ?_)
    omega
  refine ⟨?_, ?_, Dev.bit_raiseInt _ (by decide) (by decide), ?_, fun i hi => ?_⟩
  · rw [Dev.bit_eq_testBit, hrsp, Nat.testBit_two_pow_add_eq, Nat.testBit_lt_two_pow (by omega)]
    rfl
  · rw [Dev.fld, hrsp, bits, Nat.shiftRight_zero]
    omega
  · have hmem := Dev.raiseInt_sameMemory ((d.fillResponse bs (List.range ((bs.length + 7) / 8))).wr pATT rATT_RSP.off
      (2 ^ 63 + bs.length % 4096)) pATT 1
    have hfill := onlyRegs_fillResponse d bs (List.range ((bs.length + 7) / 8))
    exact ⟨hmem.1.trans (congrArg (·.mem) hfill), hmem.2.trans (congrArg (·.poison) hfill)⟩
  · have hoff : rATT_RSP_BUF.at i < 0x10000 ∧ rATT_RSP_BUF.at i ≠ rINT_STS.off ∧ rATT_RSP_BUF.at i ≠ rATT_RSP.off := by
      simp only [Reg.at, rATT_RSP_BUF, rINT_STS, rATT_RSP]
      omega
    obtain ⟨hlt, hint, hne⟩ := hoff
    refine (Dev.raiseInt_rd _ (by decide) hlt hint).trans ((Dev.rd_wr_other _ _ _ _ _ _ (regKey_ne hlt (by decide) (.inr hne))).trans ?_)
    exact Dev.rd_fillResponse d bs (List.mem_range.mpr (by omega))

theorem exec_attRspReadyClear_of_writable {a : Access} {v : Word} {s : State} (hw : s.dev.writable a pATT rATT_RSP.off false = true) :
    exec (.attRspReadyClear a v) s = .next (on s fun d => (d.store8 a pATT rATT_RSP.off rATT_RSP v).emit (.readback 0 false)) :=
  run_regWrite (fun _ d => d.store8 a pATT rATT_RSP.off rATT_RSP v) hw

/-- ready is cleared where 1 is written. -/
theorem Dev.bit_store8_ready {d : Dev} {a : Access} {v : Word} (hf : a.width = .full) (hv : v.toNat.testBit 63 = true) :
    (d.store8 a pATT rATT_RSP.off rATT_RSP v).bit pATT rATT_RSP.off 63 = false := by
  have h := rATT_RSP.bits_write_field (f := ⟨"ready", 63, 63, .w1c, 0⟩) rATT_RSP_sound (by decide) (d.rd pATT rATT_RSP.off) v.toNat
  have hone : bits v.toNat 63 63 = 1 := by
    have hbit := testBit_bits v.toNat 63 63 0
    rw [hv] at hbit
    have hlt := bits_lt v.toNat 63 63
    rcases Nat.lt_succ_iff_lt_or_eq.mp hlt with h0 | h1
    · simp [Nat.lt_one_iff.mp h0] at hbit
    · exact h1
  have hzero : bits (rATT_RSP.write (d.rd pATT rATT_RSP.off) .full v.toNat) 63 63 = 0 := by
    refine h.trans ?_
    have hlt := bits_lt (d.rd pATT rATT_RSP.off) 63 63
    simp only [Field.write, hone, Nat.and_one_is_mod]
    omega
  rw [Dev.store8, hf, Dev.bit, Dev.fld_wr_same _ _ _ _ _ _ (by decide), hzero]
  rfl

/-! ### The statement -/

/-- Settles O57: comparators, ports and the mailbox do what their commands and events give. -/
theorem portsAndMailboxComplete : Obligations.PortsAndMailboxComplete := by
  intro a v s
  refine ⟨fun n => ⟨fun hw hv => runs_of_next (exec_modTclmArmWrite_of_arm hw hv) ?arm,
      fun hg hl hdue => runs_of_next (exec_comparatorFire_of_due hg hl hdue.1 hdue.2) (s.dev.fireComparator_fires n),
      exec_comparatorFire_of_not_due⟩,
    fun n => ⟨fun hw hf => ⟨fun hv hoff hfree => runs_of_next (exec_ethPortEnWrite_of_full hw hf) ?claim,
        fun hv hheld hother => runs_of_next (exec_ethPortEnWrite_of_full hw hf) ?refuse,
        fun hv => runs_of_next (exec_ethPortEnWrite_of_full hw hf) ?down,
        runs_of_next (exec_ethPortRead_of_writable hw) ?read⟩,
      fun hl => ⟨exec_ethernetPortTrained_of_training hl,
        fun hu => ⟨runs_of_next (exec_ethernetLinkDown_of_up hl hu none) (s.dev.ethState_ethLose_none n),
          fun q => runs_of_next (exec_ethernetLinkDown_of_up hl hu (some q)) ?lose,
          fun frame h4 => ⟨fun h9 => runs_of_next (exec_ethernetPacketReceive_of_up hl hu h4 h9) ?frame,
            exec_ethernetPacketReceive_of_long⟩⟩⟩⟩,
    fun hw hf => runs_of_next (exec_attReqGo_of_writable hw) ?request,
    fun bs hl hm ha hr hb h1 h4 => runs_of_next (exec_attResponseReady_of_asked hl hm ha hr hb h1 h4) (s.dev.respond_fills h4),
    fun hw hf hv => runs_of_next (exec_attRspReadyClear_of_writable hw) ⟨rfl, Dev.bit_store8_ready hf hv⟩⟩
  case arm =>
    have hf : a.width = .full := by
      simp only [Dev.writable, Bool.not_true, Bool.false_or, Bool.and_eq_true, beq_iff_eq] at hw
      exact hw.2
    exact ⟨onlyRegs_trans (onlyRegs_trans (e := s.dev.store8 a _ _ _ v) rfl (onlyRegs_softClaim _ _ _ _)) rfl, Dev.bit_tclm_of_arm hf hv⟩
  case claim =>
    rw [hv]
    obtain ⟨honly, hrest⟩ := Dev.ethSwitch_free hoff hfree
    exact ⟨onlyRegs_trans honly rfl, hrest⟩
  case refuse =>
    rw [hv]
    obtain ⟨honly, hrest⟩ := Dev.ethSwitch_held hheld hother
    exact ⟨onlyRegs_trans honly rfl, hrest⟩
  case down =>
    rw [hv]
    exact Dev.ethSwitch_off
  case read =>
    rw [hf]
    exact ⟨rfl, (Dev.fld_wr_same _ _ _ _ _ _ (by decide)).trans
        (rETH_PORT.bits_afterRead_rc (f := ⟨"icrc_bad", 31, 0, .rc, 0⟩) rETH_PORT_sound (by decide) rfl _),
      (Dev.fld_wr_same _ _ _ _ _ _ (by decide)).trans
        (rETH_PORT.bits_afterRead_other (f := ⟨"state", 51, 48, .ro, 0⟩) rETH_PORT_sound (by decide) (by decide) _), rfl⟩
  case lose =>
    obtain ⟨hstate, hlost⟩ := s.dev.ethLose_some n q
    exact ⟨hstate.trans hu, hlost⟩
  case frame =>
    obtain ⟨honly, hstate, hcount⟩ := s.dev.ethReceive_counts n frame
    exact ⟨honly, hstate.trans hu, hcount⟩
  case request =>
    refine ⟨rfl, fun hidle => ?_, fun hbusy => ?_⟩
    · obtain ⟨hgo, hlen⟩ := attReqNew_idle (v := v) hf ((s.dev.bit_eq_testBit _ _ _).symm.trans hidle)
      exact ⟨(Dev.bit_wr_same _ _ _ _ _ (by decide)).trans hgo, (Dev.fld_wr_same _ _ _ _ _ _ (by decide)).trans hlen⟩
    · obtain ⟨hgo, hlen, hlost⟩ := attReqNew_busy (v := v) hf ((s.dev.bit_eq_testBit _ _ _).symm.trans hbusy)
      exact ⟨(Dev.bit_wr_same _ _ _ _ _ (by decide)).trans hgo, (Dev.fld_wr_same _ _ _ _ _ _ (by decide)).trans hlen,
        fun hv => (Dev.bit_wr_same _ _ _ _ _ (by decide)).trans (hlost hv)⟩

end Sys2Proof.Machine
end

section
/-! SUPPORT. What the work on loads and commits leaves beside the weights of its partition, and how a command of the Weights unit is
taken and ends (R285, R288, R309). -/

namespace Sys2Proof.Machine

open Sys2Proof.Safety

/-! ### What is kept -/

/-- Memory, the counter, the fabric's registers, and the registers of the Weights page of a partition but those listed. -/
structure Kept (p : Nat) (xs : List Nat) (d e : Dev) : Prop where
  memory : SameMemory d e
  rd : ∀ off, off ∉ xs → e.rd (pWGT p) off = d.rd (pWGT p) off
  fab : ∀ off, off < 0x10000 → e.rd pFAB off = d.rd pFAB off
  ltc : e.ltc = d.ltc

section
variable {p : Nat} {xs ys : List Nat} {d e f : Dev}

theorem Kept.refl (p : Nat) (xs : List Nat) (d : Dev) : Kept p xs d d := ⟨⟨rfl, rfl⟩, fun _ _ => rfl, fun _ _ => rfl, rfl⟩

theorem Kept.trans (h : Kept p xs d e) (k : Kept p xs e f) : Kept p xs d f where
  memory := ⟨k.memory.1.trans h.memory.1, k.memory.2.trans h.memory.2⟩
  rd off ho := (k.rd off ho).trans (h.rd off ho)
  fab off ho := (k.fab off ho).trans (h.fab off ho)
  ltc := k.ltc.trans h.ltc

theorem Kept.mono (h : Kept p xs d e) (hs : xs ⊆ ys) : Kept p ys d e :=
  ⟨h.memory, fun off ho => h.rd off fun hx => ho (hs hx), h.fab, h.ltc⟩

theorem Kept.widen (h : Kept p [] d e) : Kept p ys d e := h.mono (List.nil_subset _)

theorem Kept.fld (h : Kept p xs d e) {off : Nat} (ho : off ∉ xs) (hi lo : Nat) : e.fld (pWGT p) off hi lo = d.fld (pWGT p) off hi lo :=
  Dev.fld_of_rd (h.rd off ho) hi lo

theorem Kept.bit (h : Kept p xs d e) {off : Nat} (ho : off ∉ xs) (b : Nat) : e.bit (pWGT p) off b = d.bit (pWGT p) off b :=
  Dev.bit_of_rd (h.rd off ho) b

theorem Kept.now (h : Kept p xs d e) : e.now = d.now := by rw [Dev.now, h.ltc, Dev.now]

theorem Kept.slotState (h : Kept p xs d e) {i : Nat} (hi : slotOff i ∉ xs) : e.slotState p i = d.slotState p i := h.fld hi 63 61

theorem Kept.slotEpoch (h : Kept p xs d e) {i : Nat} (hi : slotOff i ∉ xs) : e.slotEpoch p i = d.slotEpoch p i := h.fld hi 31 0

theorem Kept.slotPins (h : Kept p xs d e) {i : Nat} (hi : slotOff i ∉ xs) : e.slotPins p i = d.slotPins p i := h.fld hi 55 32

/-- Nothing but registers of the Weights page has changed. -/
theorem kept_wr (d : Dev) (p off v : Nat) : Kept p [off] d (d.wr (pWGT p) off v) where
  memory := ⟨rfl, rfl⟩
  rd o ho := Dev.rd_wr_other _ _ _ _ _ _ (by simp only [List.mem_singleton] at ho; simp only [regKey]; omega)
  fab o ho := Dev.rd_wr_other _ _ _ _ _ _ (by simp only [regKey, pFAB, pWGT]; omega)
  ltc := rfl

theorem kept_setFld (d : Dev) (p off hi lo n : Nat) : Kept p [off] d (d.setFld (pWGT p) off hi lo n) := kept_wr d p off _

theorem kept_setBit (d : Dev) (p off b : Nat) (v : Bool) : Kept p [off] d (d.setBit (pWGT p) off b v) := kept_setFld d p off b b _

/-- What changes no register, no memory and not the counter. -/
theorem kept_of_regs {d e : Dev} (p : Nat) (hm : SameMemory d e) (hr : e.regs = d.regs) (hl : e.ltc = d.ltc) : Kept p [] d e :=
  ⟨hm, fun _ _ => by rw [Dev.rd, hr, Dev.rd], fun _ _ => by rw [Dev.rd, hr, Dev.rd], hl⟩

theorem kept_setWeights (d : Dev) (p q : Nat) (w : Weights) : Kept p [] d (d.setWeights q w) := kept_of_regs p ⟨rfl, rfl⟩ rfl rfl

theorem kept_setGroup (d : Dev) (p g : Nat) (x : Group) : Kept p [] d (d.setGroup g x) := kept_of_regs p ⟨rfl, rfl⟩ rfl rfl

theorem OnlyLoads.kept (h : OnlyLoads d e) (p : Nat) : Kept p [] d e :=
  kept_of_regs p ⟨congrArg (·.mem) h, congrArg (·.poison) h⟩ (congrArg (·.regs) h) (congrArg (·.ltc) h)

/-- A register is one of a page, whatever its offset. -/
theorem Dev.rd_page (d : Dev) (page off : Nat) : d.rd page off = d.rd (page + off / 0x10000) (off % 0x10000) := by
  have hkey : regKey page off = regKey (page + off / 0x10000) (off % 0x10000) := by simp only [regKey]; omega
  rw [Dev.rd, hkey, Dev.rd]

/-- What leaves the registers of every page from those of the Weights on, and the fabric's. -/
theorem kept_of_pages {d e : Dev} (p : Nat) (hm : SameMemory d e) (hl : e.ltc = d.ltc)
    (h : ∀ page off, off < 0x10000 → page = pFAB ∨ pWGT p ≤ page → e.rd page off = d.rd page off) : Kept p [] d e where
  memory := hm
  rd off _ := by
    rw [e.rd_page, d.rd_page]
    exact h _ _ (Nat.mod_lt _ (by decide)) (.inr (Nat.le_add_right _ _))
  fab off ho := h _ _ ho (.inl rfl)
  ltc := hl

end

/-! ### Work that leaves the weights -/

@[simp] theorem Dev.weights_setWeights (d : Dev) (p : Nat) (w : Weights) : (d.setWeights p w).weights p = w := by
  rw [Dev.weights, Dev.setWeights, Dev.part_setPart_same]

theorem Dev.wr_weights (d : Dev) (page off v p : Nat) : (d.wr page off v).weights p = d.weights p :=
  congrArg Part.weights (d.wr_part page off v p)

theorem Dev.setFld_weights (d : Dev) (page off hi lo n p : Nat) : (d.setFld page off hi lo n).weights p = d.weights p :=
  congrArg Part.weights (d.setFld_part page off hi lo n p)

theorem Dev.setBit_weights (d : Dev) (page off b : Nat) (v : Bool) (p : Nat) : (d.setBit page off b v).weights p = d.weights p :=
  congrArg Part.weights (d.setBit_part page off b v p)

/-- Beside what is kept, the weights of the partition are as they were. -/
structure Aside (p : Nat) (d e : Dev) : Prop extends Kept p [] d e where
  weights : e.weights p = d.weights p

section
variable {p : Nat} {d e f : Dev}

theorem Aside.refl (p : Nat) (d : Dev) : Aside p d d := ⟨.refl p [] d, rfl⟩

theorem Aside.trans (h : Aside p d e) (k : Aside p e f) : Aside p d f := ⟨h.toKept.trans k.toKept, k.weights.trans h.weights⟩

theorem Aside.each {α : Type} {l : List α} {f : α → Dev → Dev} (h : ∀ x e, Aside p e (f x e)) (d : Dev) : Aside p d (d.each l f) := by
  induction l generalizing d with
  | nil => exact .refl p d
  | cons x l ih => exact (h x d).trans (ih (f x d))

/-- An agent that starts or ends work in a phase. -/
theorem aside_phSet_phSync (d : Dev) (p n k : Nat) : Aside p d ((d.phSync p).phSet p n k) := by
  have hrd (page off : Nat) (ho : off < 0x10000) (h : page = pFAB ∨ pWGT p ≤ page) :
      ((d.phSync p).phSet p n k).rd page off = d.rd page off :=
    Dev.rd_phSync_off ⟨ho, by simp only [pFAB, pWGT] at h; omega⟩ d p
  obtain ⟨ph, rs, hframe⟩ := d.phSet_phSync_frame p n k
  refine ⟨kept_of_pages p ?_ ?_ hrd, ?_⟩ <;> rw [hframe]
  · exact ⟨rfl, rfl⟩
  · rfl
  · have hpart := Dev.part_setPart_same d p { d.part p with phases := ph }
    have hweights := congrArg Part.weights hpart
    exact hweights

theorem aside_phStart (d : Dev) (p n : Nat) : Aside p d (d.phStart p n) := aside_phSet_phSync d p n _

theorem aside_phEnd (d : Dev) (p n : Nat) : Aside p d (d.phEnd p n) := aside_phSet_phSync d p n _

/-- A message on the fabric. -/
theorem aside_toMember (d : Dev) (p g i vc : Nat) (m : Message) : Aside p d (d.toMember g i vc m) := by
  rw [Dev.toMember, Dev.send, Dev.sendOn_frame]
  exact ⟨kept_of_regs p ⟨rfl, rfl⟩ rfl rfl, rfl⟩

theorem aside_sendOpen (d : Dev) (p g slot epoch : Nat) : Aside p d (d.sendOpen g slot epoch) :=
  Aside.each (fun m e => aside_toMember e p g m 0 _) d

theorem aside_sendVote (d : Dev) (p : Nat) : Aside p d (d.sendVote p) := by
  unfold Dev.sendVote
  dsimp only
  split
  · exact .refl p d
  · exact aside_toMember d p _ _ _ _

theorem aside_partEvt (d : Dev) (p b : Nat) : Aside p d (d.partEvt p b) := by
  have hrd (page off : Nat) (ho : off < 0x10000) (h : page = pFAB ∨ pWGT p ≤ page) : (d.partEvt p b).rd page off = d.rd page off := by
    simp only [pFAB, pWGT] at h
    exact Dev.partEvt_rd ho (by simp only [pPART]; omega) (by simp only [pVEX]; omega) d b
  refine ⟨kept_of_pages p ?_ ?_ hrd, ?_⟩ <;> rw [Dev.partEvt_frame]
  · exact ⟨rfl, rfl⟩
  · rfl

end

end Sys2Proof.Machine
end

section
/-! SUPPORT. How a command of the Weights unit is taken and ends, and what the slots go through (R285, R288, R302, R309, R329). -/

namespace Sys2Proof.Machine

open Sys2Proof.Safety

/-! ### Offsets -/

theorem slotOff_ne_sts (i : Nat) : slotOff i ≠ wgtSts := by simp only [slotOff, wgtSts, Reg.at, rWGT_SLOT, rWGT_STS]; omega

theorem slotOff_ne_slotOff {i j : Nat} (h : i ≠ j) : slotOff i ≠ slotOff j := by simp only [slotOff, Reg.at, rWGT_SLOT]; omega

theorem slotOff_ne_man (i j : Nat) : slotOff i ≠ rWGT_SLOT_MAN.at j := by
  simp only [slotOff, Reg.at, rWGT_SLOT, rWGT_SLOT_MAN]; omega

theorem man_ne_sts (i : Nat) : rWGT_SLOT_MAN.at i ≠ wgtSts := by simp only [wgtSts, Reg.at, rWGT_SLOT_MAN, rWGT_STS]; omega

/-! ### How a command is taken -/

section
variable {a : Access} {p : Nat} {v : Word} {s : State} {n : Nat} {during : Bool}

/-- A command with no reserved field set takes its effect when none is in progress, or when it is one that acts during another. -/
theorem run_wgtCommand {w : Word} {work : Dev → Dev} (hop : wgtOp w = n) (hw : s.dev.writable a (pWGT p) rWGT_CMD.off true = true)
    (hres : bits v.toNat 56 42 = 0) (hfree : during = true ∨ s.dev.bit (pWGT p) wgtSts 8 = false) :
    s.run (fun d => if wgtOp w != n then d else d.wgtCommand a p v during work) =
      .next (on s fun d => (work d).emit (.readback 0 false)) := by
  have hgo : (s.dev.bit (pWGT p) wgtSts 8 && !during) = false := by rcases hfree with h | h <;> simp [h]
  rw [State.run, on, hop, bne_self_eq_false, if_neg Bool.false_ne_true, Dev.wgtCommand, Dev.regWrite_writable _ hw]
  rw [hgo, hres, if_neg Bool.false_ne_true]
  rfl

end

/-! ### How a command ends -/

section
variable (d : Dev) (p r : Nat)

@[simp] theorem Dev.wgtEnd_weights : (d.wgtEnd p r).weights p = d.weights p :=
  (Dev.setBit_weights _ _ _ _ _ p).trans (Dev.setFld_weights _ _ _ _ _ _ p)

theorem kept_wgtEnd : Kept p [wgtSts] d (d.wgtEnd p r) := (kept_setFld d p _ _ _ _).trans (kept_setBit _ p _ _ _)

theorem Dev.wgtEnd_result : (d.wgtEnd p r).fld (pWGT p) wgtSts 7 0 = r % 256 :=
  (Dev.fld_setBit_field _ _ _ _ _ _ _ (by decide) (by decide)).trans (Dev.fld_setFld_same _ _ _ _ _ _ (by decide) (by decide))

theorem Dev.wgtEnd_busy :
    (d.wgtEnd p r).bit (pWGT p) wgtSts 8 = ((d.weights p).fetching.isSome || (d.weights p).held.isSome) :=
  Dev.bit_setBit_same _ _ _ _ _ (by decide)

/-- The count of chunks and the chunk that failed stay. -/
theorem Dev.wgtEnd_fld {hi lo : Nat} (h : 8 < lo) :
    (d.wgtEnd p r).fld (pWGT p) wgtSts hi lo = d.fld (pWGT p) wgtSts hi lo :=
  (Dev.fld_setBit_field _ _ _ _ _ _ _ (by decide) (.inl h)).trans
    (Dev.fld_setFld_field _ _ _ _ _ _ _ _ (by decide) (by decide) (.inl (by omega)))

theorem kept_wgtWait (v : Word) : Kept p [wgtSts] d (d.wgtWait p v) :=
  (kept_setWeights d p p _).widen.trans (kept_setBit _ p _ _ _)

theorem Dev.wgtWait_waits (v : Word) : ((d.wgtWait p v).weights p).held = some v ∧ (d.wgtWait p v).bit (pWGT p) wgtSts 8 = true := by
  refine ⟨?_, Dev.bit_setBit_same _ _ _ _ _ (by decide)⟩
  rw [Dev.wgtWait, Dev.setBit_weights, Dev.weights_setWeights]

/-- What is left of a commit that is over. -/
def Weights.uncommitted (w : Weights) : Weights := { w with commitSlot := none, vote := none, frozen := false, voteRound := 0, allYes := false }

theorem kept_commitOver : Kept p [] d (d.commitOver p) := by
  unfold Dev.commitOver
  dsimp only
  split
  · exact kept_setWeights d p p _
  · exact (aside_phEnd d p phWaiting).toKept.trans (kept_setWeights _ p p _)

theorem Dev.commitOver_weights : (d.commitOver p).weights p = (d.weights p).uncommitted := by
  unfold Dev.commitOver
  dsimp only
  split
  · rw [Dev.weights_setWeights, Weights.uncommitted]
  · rw [Dev.weights_setWeights, (aside_phEnd d p phWaiting).weights, Weights.uncommitted]

end

/-! ### Slots -/

section
variable (d : Dev) (p i : Nat)

theorem Dev.slotState_setSlotState {st : Nat} (h : st < 8) : (d.setSlotState p i st).slotState p i = st :=
  (Dev.fld_setFld_same _ _ _ _ _ _ (by decide) (by decide)).trans (Nat.mod_eq_of_lt h)

theorem kept_setSlotState (st : Nat) : Kept p [slotOff i] d (d.setSlotState p i st) := kept_setFld d p _ _ _ _

/-- The fields of a slot's register below its state stay. -/
theorem Dev.fld_setSlotState {hi lo : Nat} (st : Nat) (h : hi < 61) :
    (d.setSlotState p i st).fld (pWGT p) (slotOff i) hi lo = d.fld (pWGT p) (slotOff i) hi lo :=
  Dev.fld_setFld_field _ _ _ _ _ _ _ _ (by decide) (by decide) (.inr h)

/-- What a slot that becomes free leaves of the weights. -/
def Weights.without (w : Weights) (i : Nat) : Weights :=
  { w with regions := Tab.set (fun _ => []) w.regions i [], verified := w.verified.del i, localLoad := w.localLoad.del i,
           groupOf := Tab.set (fun _ => 0) w.groupOf i 0 }

theorem Dev.emptySlot_weights : (d.emptySlot p i).weights p = (d.weights p).without i := by
  unfold Dev.emptySlot Weights.without
  rw [Dev.weights_setWeights]

theorem kept_emptySlot : Kept p [slotOff i, rWGT_SLOT_MAN.at i] d (d.emptySlot p i) :=
  (((kept_wr d p (slotOff i) 0).mono (by simp)).trans ((kept_wr _ p (rWGT_SLOT_MAN.at i) 0).mono (by simp))).trans
    (kept_setWeights _ p p _).widen

theorem Dev.rd_emptySlot : (d.emptySlot p i).rd (pWGT p) (slotOff i) = 0 := by
  have hman := (kept_wr (d.wr (pWGT p) (slotOff i) 0) p (rWGT_SLOT_MAN.at i) 0).rd (slotOff i) (by simp [slotOff_ne_man])
  exact ((kept_setWeights _ p p _).rd _ (by simp)).trans (hman.trans (Dev.rd_wr_same _ _ _ _))

theorem Dev.setSlotState_weights (st : Nat) : (d.setSlotState p i st).weights p = d.weights p := Dev.setFld_weights _ _ _ _ _ _ p

theorem Dev.slotState_emptySlot : (d.emptySlot p i).slotState p i = slFree := by
  rw [Dev.slotState, Dev.fld, Dev.rd_emptySlot]
  rfl

theorem Dev.regionsOf_emptySlot : (d.emptySlot p i).regionsOf p i = [] := by
  rw [Dev.regionsOf, Dev.emptySlot_weights, Weights.without, Tab.get_set_same]

theorem kept_retireSlot : Kept p [slotOff i, rWGT_SLOT_MAN.at i] d (d.retireSlot p i) := by
  unfold Dev.retireSlot
  split
  · exact (kept_emptySlot d p i).trans (aside_partEvt _ p evSlot).toKept.widen
  · exact .refl _ _ _

theorem Dev.retireSlot_weights : (d.retireSlot p i).weights p = d.weights p ∨ (d.retireSlot p i).weights p = (d.weights p).without i := by
  unfold Dev.retireSlot
  split
  · exact .inr ((aside_partEvt _ p evSlot).weights.trans (d.emptySlot_weights p i))
  · exact .inl rfl

/-- An old slot is free when no pin is on it. -/
theorem Dev.slotState_retireSlot (h : d.slotState p i = slOld) :
    (d.retireSlot p i).slotState p i = if d.slotPins p i = 0 then slFree else slOld := by
  unfold Dev.retireSlot
  by_cases hp : d.slotPins p i = 0
  · rw [h, hp, if_pos (by decide), if_pos rfl, (aside_partEvt _ p evSlot).slotState (by simp), Dev.slotState_emptySlot]
  · rw [if_neg (by simp [hp]), if_neg hp, h]

theorem Dev.retireSlot_of_other {st : Nat} (h : d.slotState p i = st) (hst : st ≠ slOld) : d.retireSlot p i = d := by
  rw [Dev.retireSlot, if_neg (by simp [h, hst])]

theorem Dev.retireSlot_fab : (d.retireSlot p i).fab = d.fab := by
  unfold Dev.retireSlot
  split
  · rw [Dev.partEvt_frame]
    rfl
  · rfl

end

theorem Dev.regionsOf_wgtEnd (d : Dev) (p r i : Nat) : (d.wgtEnd p r).regionsOf p i = d.regionsOf p i := by
  rw [Dev.regionsOf, Dev.wgtEnd_weights, Dev.regionsOf]

/-! ### A slot that becomes current -/

/-- A slot has become current with an epoch (R288). -/
structure Commits (p i epoch : Nat) (d e : Dev) : Prop where
  memory : SameMemory d e
  pages : ∀ off, off < 0x10000 → e.rd pFAB off = d.rd pFAB off
  fab : e.fab = d.fab
  state : e.slotState p i = slCurrent
  epoch : e.slotEpoch p i = epoch % 2 ^ 32
  old : ∀ j, d.currentSlot p = some j → j ≠ i → e.slotState p j = if d.slotPins p j = 0 then slFree else slOld
  groupOf : Tab.get (fun _ => 0) (e.weights p).groupOf i = Tab.get (fun _ => 0) (d.weights p).groupOf i
  fetching : (e.weights p).fetching = (d.weights p).fetching
  held : (e.weights p).held = (d.weights p).held

/-- The slot takes its epoch and its state. -/
def Dev.crown (d : Dev) (p i epoch : Nat) : Dev := (d.setFld (pWGT p) (slotOff i) 31 0 epoch).setSlotState p i slCurrent

theorem kept_crown (d : Dev) (p i epoch : Nat) : Kept p [slotOff i] d (d.crown p i epoch) :=
  (kept_setFld d p (slotOff i) 31 0 epoch).trans (kept_setSlotState _ p i slCurrent)

theorem Dev.crown_weights (d : Dev) (p i epoch : Nat) : (d.crown p i epoch).weights p = d.weights p :=
  (Dev.setSlotState_weights _ p i _).trans (Dev.setFld_weights _ _ _ _ _ _ p)

theorem Dev.crown_current (d : Dev) (p i epoch : Nat) :
    (d.crown p i epoch).slotState p i = slCurrent ∧ (d.crown p i epoch).slotEpoch p i = epoch % 2 ^ 32 :=
  ⟨Dev.slotState_setSlotState _ p i (by decide),
    (Dev.fld_setSlotState _ p i _ (by decide)).trans (Dev.fld_setFld_same _ _ _ _ _ _ (by decide) (by decide))⟩

theorem Dev.commitSlot_of_none {d : Dev} {p : Nat} (h : d.currentSlot p = none) (i epoch : Nat) :
    d.commitSlot p i epoch = d.crown p i epoch := by
  simp only [Dev.commitSlot, h]
  rfl

theorem Dev.commitSlot_of_some {d : Dev} {p j : Nat} (h : d.currentSlot p = some j) (i epoch : Nat) :
    d.commitSlot p i epoch = ((d.setSlotState p j slOld).crown p i epoch).retireSlot p j := by
  simp only [Dev.commitSlot, h]
  rfl

theorem commits_commitSlot (d : Dev) (p i epoch : Nat) : Commits p i epoch d (d.commitSlot p i epoch) := by
  cases hcur : d.currentSlot p with
  | none =>
    rw [Dev.commitSlot_of_none hcur]
    have hk := kept_crown d p i epoch
    obtain ⟨hstate, hepoch⟩ := d.crown_current p i epoch
    exact ⟨hk.memory, hk.fab, rfl, hstate, hepoch, fun j hj => absurd (hcur.symm.trans hj) nofun, rfl, rfl, rfl⟩
  | some j =>
    rw [Dev.commitSlot_of_some hcur]
    have hold := kept_setSlotState d p j slOld
    have hk := kept_crown (d.setSlotState p j slOld) p i epoch
    obtain ⟨hstate, hepoch⟩ := (d.setSlotState p j slOld).crown_current p i epoch
    by_cases hij : j = i
    · subst hij
      rw [Dev.retireSlot_of_other _ p j hstate (by decide)]
      exact ⟨(hold.trans hk).memory, (hold.trans hk).fab, rfl, hstate, hepoch,
        fun k hk hne => absurd (Option.some.inj (hcur.symm.trans hk)).symm hne, rfl, rfl, rfl⟩
    · have hfree : slotOff i ∉ [slotOff j, rWGT_SLOT_MAN.at j] := by
        simp [slotOff_ne_slotOff (Ne.symm hij), slotOff_ne_man]
      have hret := kept_retireSlot ((d.setSlotState p j slOld).crown p i epoch) p j
      have hj : slotOff j ∉ [slotOff i] := by simp [slotOff_ne_slotOff hij]
      have hjold : ((d.setSlotState p j slOld).crown p i epoch).slotState p j = slOld :=
        (hk.slotState hj).trans (d.slotState_setSlotState p j (by decide))
      have hpins : ((d.setSlotState p j slOld).crown p i epoch).slotPins p j = d.slotPins p j :=
        (hk.slotPins hj).trans (d.fld_setSlotState p j slOld (by decide))
      have hall : Kept p [slotOff j, slotOff i, rWGT_SLOT_MAN.at j] d
          (((d.setSlotState p j slOld).crown p i epoch).retireSlot p j) :=
        ((hold.mono (by simp)).trans (hk.mono (by simp))).trans (hret.mono (by simp))
      have hw := ((d.setSlotState p j slOld).crown p i epoch).retireSlot_weights p j
      have hwd : ((d.setSlotState p j slOld).crown p i epoch).weights p = d.weights p :=
        (Dev.crown_weights _ p i epoch).trans (d.setSlotState_weights p j slOld)
      rw [hwd] at hw
      refine ⟨hall.memory, hall.fab, Dev.retireSlot_fab _ p j, (hret.slotState hfree).trans hstate,
        (hret.slotEpoch hfree).trans hepoch, fun k hk _ => ?_, ?_, ?_, ?_⟩
      · rw [← Option.some.inj (hcur.symm.trans hk), Dev.slotState_retireSlot _ p j hjold, hpins]
      all_goals rcases hw with h | h <;> rw [h]
      · exact Tab.get_set_other _ _ _ (Ne.symm hij)
      all_goals rfl

/-! ### The turn boundary of a slot's group -/

/-- A bit that is set changes no field, of any register, that does not hold its place. -/
theorem Dev.fld_setBit_apart (d : Dev) (pg o : Nat) (v : Bool) {b hi lo : Nat} (hb : b < 64) (h : b < lo ∨ hi < b) (page off : Nat) :
    (d.setBit pg o b v).fld page off hi lo = d.fld page off hi lo := by
  by_cases hk : regKey page off = regKey pg o
  · have hrd (e : Dev) : e.rd page off = e.rd pg o := by rw [Dev.rd, hk, Dev.rd]
    have hfld := d.fld_setBit_field pg o b hi lo v hb h
    simp only [Dev.fld, hrd] at hfld ⊢
    exact hfld
  · exact Dev.fld_setBit_other _ _ _ _ _ _ _ _ _ hk

/-- The end of a turn boundary clears one bit of one register. -/
theorem Dev.turnOver_cases (d : Dev) (p i : Nat) : d.turnOver p i = d ∨ ∃ g, d.turnOver p i = d.setBit pFAB (gsts g) 54 false := by
  unfold Dev.turnOver
  split
  · exact .inl rfl
  · split
    · exact .inr ⟨_, rfl⟩
    · exact .inl rfl

theorem Dev.turnOver_weights (d : Dev) (p i : Nat) : (d.turnOver p i).weights p = d.weights p := by
  rcases d.turnOver_cases p i with h | ⟨g, h⟩ <;> rw [h]
  exact Dev.setBit_weights _ _ _ _ _ p

theorem Dev.turnOver_sameMemory (d : Dev) (p i : Nat) : SameMemory d (d.turnOver p i) := by
  rcases d.turnOver_cases p i with h | ⟨g, h⟩ <;> rw [h] <;> exact ⟨rfl, rfl⟩

/-- A field that does not hold that bit stays. -/
theorem Dev.fld_turnOver (d : Dev) (p i page off : Nat) {hi lo : Nat} (h : hi < 54 ∨ 54 < lo) :
    (d.turnOver p i).fld page off hi lo = d.fld page off hi lo := by
  rcases d.turnOver_cases p i with ht | ⟨g, ht⟩ <;> rw [ht]
  exact Dev.fld_setBit_apart d pFAB (gsts g) false (by decide) h.symm page off

/-- No turn boundary stays open of the group of a slot, when that group is the partition's. -/
def TurnClosed (p i : Nat) (d e : Dev) : Prop := ∀ k, k < 1024 → Tab.get (fun _ => 0) (d.weights p).groupOf i = k + 1 →
  d.groupState k ≠ gFree → (d.group k).part = p → e.bit pFAB (gsts k) 54 = false

theorem turnClosed_turnOver (d : Dev) (p i : Nat) : TurnClosed p i d (d.turnOver p i) := by
  intro k _ hg hs hp
  have hturn : d.turnOver p i = d.setBit pFAB (gsts k) 54 false := by
    unfold Dev.turnOver
    rw [hg]
    exact if_pos (by simp [hs, hp])
  rw [hturn, Dev.bit_setBit_same _ _ _ _ _ (by decide)]

theorem gsts_lt {k : Nat} (h : k < 1024) : gsts k < 0x10000 := by simp only [gsts, Reg.at, rFAB_GSTS]; omega

/-- What is kept of the fabric's registers keeps it closed. -/
theorem TurnClosed.of_kept {p i q : Nat} {xs : List Nat} {d e f : Dev} (h : TurnClosed p i d e) (hk : Kept q xs e f) : TurnClosed p i d f :=
  fun k hlt hg hs hp => (Dev.bit_of_rd (hk.fab _ (gsts_lt hlt)) 54).trans (h k hlt hg hs hp)

/-- What comes before and leaves the groups makes no difference. -/
theorem TurnClosed.of_commits {p i epoch : Nat} {d e f : Dev} (hc : Commits p i epoch d e) (h : TurnClosed p i e f) : TurnClosed p i d f := by
  intro k hlt hg hs hp
  have hgroup : e.group k = d.group k := by rw [Dev.group, hc.fab, Dev.group]
  have hstate : e.groupState k = d.groupState k := Dev.fld_of_rd (hc.pages _ (gsts_lt hlt)) 63 60
  exact h k hlt (hc.groupOf.trans hg) (by rwa [hstate]) (by rwa [hgroup])

end Sys2Proof.Machine
end

section
/-! SUPPORT. The epoch commit: opens, votes and outcomes (R301 to R303). -/

namespace Sys2Proof.Machine

open Sys2Proof.Safety

/-! ### Rounds of the vote barrier -/

/-- Rounds that are done change the number of the round and the AND of the votes alone. -/
structure Voting (p : Nat) (d e : Dev) : Prop extends Kept p [] d e where
  weights : ∃ r y, e.weights p = { d.weights p with voteRound := r, allYes := y }

theorem Aside.voting {p : Nat} {d e : Dev} (h : Aside p d e) : Voting p d e := ⟨h.toKept, _, _, h.weights⟩

theorem Voting.trans {p : Nat} {d e f : Dev} (h : Voting p d e) (k : Voting p e f) : Voting p d f := by
  obtain ⟨r, y, hw⟩ := h.weights
  obtain ⟨r', y', hw'⟩ := k.weights
  exact ⟨h.toKept.trans k.toKept, r', y', by rw [hw', hw]⟩

theorem voting_advanceVotes (d : Dev) (p n : Nat) : Voting p d (d.advanceVotes p n) := by
  induction n generalizing d with
  | zero => exact (Aside.refl p d).voting
  | succ n ih =>
    have hround (r : Nat) (y : Bool) : Voting p d (d.setWeights p { d.weights p with voteRound := r, allYes := y }) :=
      ⟨kept_setWeights d p p _, r, y, Dev.weights_setWeights _ _ _⟩
    unfold Dev.advanceVotes
    dsimp only
    split
    · split
      · exact (Aside.refl p d).voting
      · exact ((hround _ _).trans (aside_sendVote _ p).voting).trans (ih _)
    · exact (Aside.refl p d).voting

/-! ### The arrival at the vote barrier -/

/-- What a vote leaves before its first message: the vote, and a loading slot voted. -/
def Dev.votes (d : Dev) (p : Nat) (yes : Bool) : Dev :=
  let d := d.setWeights p { d.weights p with vote := some yes, voteRound := 0, allYes := yes }
  if d.slotState p ((d.weights p).commitSlot.getD 0) == slLoading then d.setSlotState p ((d.weights p).commitSlot.getD 0) slVoted else d

theorem voting_castVote (d : Dev) (p : Nat) (yes : Bool) : Voting p (d.votes p yes) (d.castVote p yes) := by
  have h := (aside_sendVote (d.votes p yes) p).voting.trans (voting_advanceVotes _ p 14)
  have hcast : d.castVote p yes = ((d.votes p yes).sendVote p).advanceVotes p 14 := by
    rw [Dev.votes, Dev.weights_setWeights, Dev.castVote]
  rwa [hcast]

/-- A vote of the member on the slot of its open commit. -/
structure Voted (p i : Nat) (yes : Bool) (d e : Dev) : Prop extends Kept p [slotOff i] d e where
  weights : ∃ r y, e.weights p = { d.weights p with vote := some yes, voteRound := r, allYes := y }
  slot : e.slotState p i = if d.slotState p i = slLoading then slVoted else d.slotState p i
  fields : ∀ hi lo, hi < 61 → e.fld (pWGT p) (slotOff i) hi lo = d.fld (pWGT p) (slotOff i) hi lo

theorem voted_castVote {d : Dev} {p i : Nat} (hi : (d.weights p).commitSlot.getD 0 = i) (yes : Bool) : Voted p i yes d (d.castVote p yes) := by
  have hv := voting_castVote d p yes
  obtain ⟨r, y, hw⟩ := hv.weights
  have hset := kept_setWeights d p p { d.weights p with vote := some yes, voteRound := 0, allYes := yes }
  have hstate : (d.setWeights p { d.weights p with vote := some yes, voteRound := 0, allYes := yes }).slotState p i = d.slotState p i :=
    hset.slotState (by simp)
  have hvotes : d.votes p yes = if d.slotState p i = slLoading
      then (d.setWeights p { d.weights p with vote := some yes, voteRound := 0, allYes := yes }).setSlotState p i slVoted
      else d.setWeights p { d.weights p with vote := some yes, voteRound := 0, allYes := yes } := by
    simp only [Dev.votes, Dev.weights_setWeights, hi, hstate, beq_iff_eq]
  have hweights : (d.votes p yes).weights p = { d.weights p with vote := some yes, voteRound := 0, allYes := yes } := by
    rw [hvotes]
    split
    · exact Dev.weights_setWeights _ _ _
    · exact Dev.weights_setWeights _ _ _
  have hkept : Kept p [slotOff i] d (d.votes p yes) := by
    rw [hvotes]
    split
    · exact hset.widen.trans (kept_setSlotState _ p i _)
    · exact hset.widen
  refine ⟨hkept.trans hv.toKept.widen, ⟨r, y, by rw [hw, hweights]⟩, ?_, fun hi' lo h => ?_⟩
  · rw [hv.slotState (by simp), hvotes]
    split
    · exact Dev.slotState_setSlotState _ p i (by decide)
    · exact hstate
  · rw [hv.fld (by simp), hvotes]
    split
    · exact (Dev.fld_setSlotState _ p i _ h).trans (hset.fld (by simp) _ _)
    · exact hset.fld (by simp) _ _

/-! ### An open that is heard -/

theorem Dev.currentSlot_of_kept {p : Nat} {xs : List Nat} {d e : Dev} (h : Kept p xs d e) (hx : ∀ j, slotOff j ∉ xs) :
    e.currentSlot p = d.currentSlot p :=
  List.find?_congr fun j _ => by rw [h.slotState (hx j)]

theorem Dev.epochNow_of_kept {p : Nat} {xs : List Nat} {d e : Dev} (h : Kept p xs d e) (hx : ∀ j, slotOff j ∉ xs) :
    e.epochNow p = d.epochNow p := by
  simp only [Dev.epochNow, Dev.currentSlot_of_kept h hx, h.slotEpoch (hx _)]

/-- The weights once an open is heard. -/
def Weights.opened (w : Weights) (i g epoch deadline : Nat) : Weights :=
  { w with commitSlot := some i, commitGroup := g, commitEpoch := epoch, vote := none, frozen := false, voteRound := 0, allYes := false,
           groupOf := if w.localLoad.contains i then w.groupOf else Tab.set (fun _ => 0) w.groupOf i (g + 1), deadline := deadline }

/-- What an open leaves before any vote of its own. -/
def Dev.opens (d : Dev) (p i g epoch : Nat) : Dev :=
  let e := d.setWeights p ((d.weights p).opened i g epoch (d.now + d.fld (pWGT p) rWGT_CTL.off 31 0 * 1000000))
  if (d.weights p).localLoad.contains i then e
  else
    let n := (e.group g).commits + 1
    e.setGroup g { e.group g with commits := n, votes := (e.group g).votes.filter fun v => v.1 == n }

theorem kept_opens (d : Dev) (p i g epoch : Nat) : Kept p [] d (d.opens p i g epoch) := by
  unfold Dev.opens
  dsimp only
  split
  · exact kept_setWeights d p p _
  · exact (kept_setWeights d p p _).trans (kept_setGroup _ p g _)

theorem Dev.opens_weights (d : Dev) (p i g epoch : Nat) : (d.opens p i g epoch).weights p =
    (d.weights p).opened i g epoch (d.now + d.fld (pWGT p) rWGT_CTL.off 31 0 * 1000000) := by
  unfold Dev.opens
  dsimp only
  split
  · exact Dev.weights_setWeights _ _ _
  · exact Dev.weights_setWeights _ _ _

theorem Dev.hearOpen_eq (d : Dev) (p i g epoch : Nat) : d.hearOpen p i g epoch =
    if epoch != ((d.opens p i g epoch).epochNow p + 1) % 2 ^ 32
    then ((d.opens p i g epoch).castVote p false).setFld (pWGT p) wgtSts 7 0 0x08 else (d.opens p i g epoch).voteFailed p := rfl

/-- Does a member vote no at once, since the slot has failed? -/
def Dev.hasFailed (d : Dev) (p i : Nat) : Bool :=
  !(d.weights p).localLoad.contains i && d.slotState p i == slLoading && d.bit (pWGT p) (slotOff i) 60

theorem Dev.voteFailed_of_open {d : Dev} {p i : Nat} (hi : (d.weights p).commitSlot = some i) (hv : (d.weights p).vote = none) :
    d.voteFailed p = if d.hasFailed p i then d.castVote p false else d := by
  simp only [Dev.voteFailed, hi, hv, Dev.hasFailed, Option.isNone_none, Bool.true_and]
  rfl

theorem Dev.voteFailed_of_closed {d : Dev} {p : Nat} (h : (d.weights p).commitSlot = none ∨ (d.weights p).vote ≠ none) :
    d.voteFailed p = d := by
  unfold Dev.voteFailed
  dsimp only
  split
  · rfl
  next i hi =>
    have hvote : (d.weights p).vote.isNone = false := by
      rcases h with h | h
      · exact absurd (hi.symm.trans h) nofun
      · exact Option.isNone_eq_false_iff.mpr (Option.isSome_iff_ne_none.mpr h)
    rw [hvote]
    rfl

/-- An open that a member hears: the timeout starts, and a vote of its own is a no. -/
structure Opened (p i epoch : Nat) (d e : Dev) : Prop where
  memory : SameMemory d e
  slot : (e.weights p).commitSlot = some i
  opened : (e.weights p).commitEpoch = epoch
  deadline : (e.weights p).deadline = d.now + d.fld (pWGT p) rWGT_CTL.off 31 0 * 1000000
  wrong : epoch ≠ (d.epochNow p + 1) % 2 ^ 32 → (e.weights p).vote = some false ∧ e.fld (pWGT p) wgtSts 7 0 = 8
  failed : epoch = (d.epochNow p + 1) % 2 ^ 32 → d.hasFailed p i = true → (e.weights p).vote = some false ∧ e.slotState p i = slVoted
  sound : epoch = (d.epochNow p + 1) % 2 ^ 32 → d.hasFailed p i = false → (e.weights p).vote = none ∧ e.slotState p i = d.slotState p i
  sts : epoch = (d.epochNow p + 1) % 2 ^ 32 → e.fld (pWGT p) wgtSts 7 0 = d.fld (pWGT p) wgtSts 7 0

theorem opened_hearOpen (d : Dev) (p i g epoch : Nat) : Opened p i epoch d (d.hearOpen p i g epoch) := by
  have hk := kept_opens d p i g epoch
  have hw := d.opens_weights p i g epoch
  have hepoch : (d.opens p i g epoch).epochNow p = d.epochNow p := Dev.epochNow_of_kept hk (by simp)
  have hslot : ((d.opens p i g epoch).weights p).commitSlot = some i := by rw [hw, Weights.opened]
  have hnone : ((d.opens p i g epoch).weights p).vote = none := by rw [hw, Weights.opened]
  have hopened : ((d.opens p i g epoch).weights p).commitEpoch = epoch := by rw [hw, Weights.opened]
  have hdeadline : ((d.opens p i g epoch).weights p).deadline = d.now + d.fld (pWGT p) rWGT_CTL.off 31 0 * 1000000 := by
    rw [hw, Weights.opened]
  have hfailed : (d.opens p i g epoch).hasFailed p i = d.hasFailed p i := by
    rw [Dev.hasFailed, hw, hk.slotState (by simp), hk.bit (by simp), Dev.hasFailed]
    rfl
  have hvoted := voted_castVote (d := d.opens p i g epoch) (p := p) (i := i) (by rw [hslot]; rfl) false
  obtain ⟨r, y, hvw⟩ := hvoted.weights
  have hsts : wgtSts ∉ [slotOff i] := by simp [(slotOff_ne_sts i).symm]
  rw [Dev.hearOpen_eq, hepoch]
  by_cases hne : epoch = (d.epochNow p + 1) % 2 ^ 32
  · rw [if_neg (by simpa using hne), Dev.voteFailed_of_open hslot hnone, hfailed]
    cases hf : d.hasFailed p i
    · rw [if_neg Bool.false_ne_true]
      exact ⟨hk.memory, hslot, hopened, hdeadline, fun h => absurd hne h, fun _ h => absurd (hf.symm.trans h) Bool.false_ne_true,
        fun _ _ => ⟨hnone, hk.slotState (by simp)⟩, fun _ => hk.fld (by simp) _ _⟩
    · rw [if_pos rfl]
      have hload : d.slotState p i = slLoading := by
        simp only [Dev.hasFailed, Bool.and_eq_true, beq_iff_eq] at hf
        exact hf.1.2
      have hall : Kept p [slotOff i] d ((d.opens p i g epoch).castVote p false) := hk.widen.trans hvoted.toKept
      refine ⟨hall.memory, by rw [hvw]; exact hslot, by rw [hvw]; exact hopened, by rw [hvw]; exact hdeadline, fun h => absurd hne h,
        fun _ _ => ⟨by rw [hvw], ?_⟩, fun _ h => absurd (h.symm.trans hf) Bool.false_ne_true,
        fun _ => hall.fld hsts _ _⟩
      rw [hvoted.slot, hk.slotState (by simp), if_pos hload]
  · rw [if_pos (by simpa using hne)]
    have hset := kept_setFld ((d.opens p i g epoch).castVote p false) p wgtSts 7 0 0x08
    have hall : Kept p [slotOff i, wgtSts] d (((d.opens p i g epoch).castVote p false).setFld (pWGT p) wgtSts 7 0 0x08) :=
      (hk.widen.trans (hvoted.toKept.mono (by simp))).trans (hset.mono (by simp))
    have hweights : (((d.opens p i g epoch).castVote p false).setFld (pWGT p) wgtSts 7 0 0x08).weights p =
        ((d.opens p i g epoch).castVote p false).weights p := Dev.setFld_weights _ _ _ _ _ _ p
    exact ⟨hall.memory, by rw [hweights, hvw]; exact hslot, by rw [hweights, hvw]; exact hopened, by rw [hweights, hvw]; exact hdeadline,
      fun _ => ⟨by rw [hweights, hvw], Dev.fld_setFld_same _ _ _ _ _ _ (by decide) (by decide)⟩,
      fun h => absurd h hne, fun h => absurd h hne, fun h => absurd h hne⟩

/-! ### Outcomes -/

/-- The result of a command and the end of its commit, which come last. -/
theorem Dev.finish_sts (d : Dev) (p r : Nat) : ((d.wgtEnd p r).commitOver p).fld (pWGT p) wgtSts 7 0 = r % 256 :=
  ((kept_commitOver _ p).fld (by simp) _ _).trans (d.wgtEnd_result p r)

theorem kept_finish (d : Dev) (p r : Nat) : Kept p [wgtSts] d ((d.wgtEnd p r).commitOver p) :=
  (kept_wgtEnd d p r).trans (kept_commitOver _ p).widen

theorem Dev.finish_slotState (d : Dev) (p r i : Nat) : ((d.wgtEnd p r).commitOver p).slotState p i = d.slotState p i :=
  (kept_finish d p r).slotState (by simp [slotOff_ne_sts])

theorem Dev.finish_slotEpoch (d : Dev) (p r i : Nat) : ((d.wgtEnd p r).commitOver p).slotEpoch p i = d.slotEpoch p i :=
  (kept_finish d p r).slotEpoch (by simp [slotOff_ne_sts])

theorem Dev.finish_weights (d : Dev) (p r : Nat) : ((d.wgtEnd p r).commitOver p).weights p = (d.weights p).uncommitted :=
  Dev.commitOver_weights _ p

theorem Dev.finish_busy (d : Dev) (p r : Nat) : ((d.wgtEnd p r).commitOver p).bit (pWGT p) wgtSts 8 =
    ((d.weights p).fetching.isSome || (d.weights p).held.isSome) :=
  ((kept_commitOver _ p).bit (by simp) _).trans (d.wgtEnd_busy p r)

end Sys2Proof.Machine
end

section
/-! SUPPORT. What a look at ranges to be read leaves (R180, R346), and the operations of the commands of WGT_CMD (R286, R295, R301 to R303,
R309). -/

namespace Sys2Proof.Machine

open Sys2Proof.Safety

/-! ### Looks at what is to be read -/

section
variable {page off : Nat} (h : OffAccounts page off) (ht : page ≠ pTIER) (he : page ≠ pERR)
include h ht he

theorem Dev.enterRefetch_rd (d : Dev) (g : Nat) : (d.enterRefetch g).rd page off = d.rd page off := by
  have ho := h.1
  have hleft (ts : List Nat) : (d.leavePoisoned ts).rd page off = d.rd page off := by
    refine Dev.each_keeps (fun e => e.rd page off) (fun t _ e => ?_) d
    split
    · rfl
    · exact Dev.rd_setFld_other _ _ _ _ _ _ _ _ (regKey_ne ho (by decide) (.inl ht))
  have hstart (e : Dev) (q n : Nat) : (e.phStart q n).rd page off = e.rd page off := Dev.rd_phSync_off h e q
  unfold Dev.enterRefetch
  dsimp only
  split
  · rfl
  split
  · rfl
  split
  · exact hleft _
  split
  · exact hstart _ _ _
  split
  · exact (hstart _ _ _).trans (Dev.rd_giveBack _ _ _ he ho)
  · rfl

theorem Dev.refetchRange_rd (d : Dev) (a n : Nat) : (d.refetchRange a n).rd page off = d.rd page off := by
  unfold Dev.refetchRange
  split
  · exact Dev.each_keeps (fun e => e.rd page off) (fun g _ e => Dev.enterRefetch_rd h ht he e g) d
  · rfl

theorem Dev.readGate_rd (d : Dev) (rs : List (Nat × Nat)) : (d.readGate rs).1.rd page off = d.rd page off := by
  unfold Dev.readGate
  split
  · exact Dev.each_keeps (fun e => e.rd page off)
      (fun r _ e => Dev.each_keeps (fun e => e.rd page off) (fun _ _ e => e.toCompanion_rd _ _ _) e) d
  split
  · rfl
  split
  · rfl
  · exact Dev.each_keeps (fun e => e.rd page off) (fun r _ e => Dev.refetchRange_rd h ht he e r.1 r.2) d

end

theorem Upkeep.readGate (d : Dev) (rs : List (Nat × Nat)) : Upkeep d (d.readGate rs).1 := by
  unfold Dev.readGate
  split
  · exact Upkeep.each (fun (r : Nat × Nat) e => Upkeep.snoop e r.1 r.2) d
  split
  · exact .refl d
  split
  · exact .refl d
  · exact Upkeep.each (fun (r : Nat × Nat) e => Upkeep.refetchRange e r.1 r.2) d

theorem aside_readGate (d : Dev) (p : Nat) (rs : List (Nat × Nat)) : Aside p d (d.readGate rs).1 where
  toKept := kept_of_pages p (Upkeep.readGate d rs).sameMemory (congrArg (·.ltc) (Upkeep.readGate d rs).frame) fun page off ho h => by
    simp only [pFAB, pWGT] at h
    exact Dev.readGate_rd ⟨ho, by omega⟩ (by simp only [pTIER]; omega) (by simp only [pERR]; omega) d rs
  weights := Dev.part_of_settledPart (·.weights) (fun _ => rfl) (Dev.settledPart_of_sight (d.readGate_sight p rs))

theorem Dev.readGate_of_wait {d : Dev} {rs : List (Nat × Nat)} (h : (d.readGate rs).2 = .wait) : d.readGate rs = ((d.readGate rs).1, .wait) :=
  Prod.ext rfl h

/-- Where nothing is to be waited for, the look leaves everything. -/
theorem Dev.readGate_of_clear {d : Dev} {rs : List (Nat × Nat)} (h : (d.readGate rs).2 = .clear) : d.readGate rs = (d, .clear) := by
  unfold Dev.readGate at h ⊢
  split at h
  · cases h
  next ho =>
    rw [if_neg ho]
    split at h
    · cases h
    next hs =>
      rw [if_neg hs]
      split at h
      next hp => rw [if_pos hp]
      · dsimp only at h
        split at h <;> cases h

/-! ### open -/

/-- The entries of a region list. -/
def Dev.regionList (d : Dev) (base n : Nat) : List (Nat × Nat) :=
  ((List.range n).map fun k => d.loadNat (base + 8 * k) 8).map fun e => (bits e 15 0, bits e 31 16)

/-- What an open leaves of the weights. -/
def Weights.loading (w : Weights) (i : Nat) (v : Word) (rs : List (Nat × Nat)) : Weights :=
  { w with regions := Tab.set (fun _ => []) w.regions i rs, verified := w.verified.del i,
           localLoad := if wgtLocal v then w.localLoad.add i else w.localLoad.del i,
           groupOf := Tab.set (fun _ => 0) w.groupOf i (if wgtLocal v then 0 else wgtGroup v + 1) }

/-- A slot that an open takes. -/
def Dev.takeSlot (d : Dev) (p i : Nat) (v : Word) (rs : List (Nat × Nat)) : Dev :=
  (((d.setWeights p ((d.weights p).loading i v rs)).wr (pWGT p) (slotOff i) 0).setSlotState p i slLoading).wgtEnd p 0

section
variable {d : Dev} {p i n base : Nat} {v : Word} (hst : d.slotState p i = slFree)
  (hn : d.fld (pWGT p) (rWGT_SLOT_NREG.at i) 44 32 = n) (hbase : bits v.toNat 31 0 * 0x10000 = base) (h1 : 1 ≤ n) (h4 : n ≤ 4096)
  (hok : d.tierOk p (d.partWorld p) base (8 * n) = true)
include hst hn hbase h1 h4 hok

theorem Dev.openEpochSlot_wait (hg : (d.readGate [(base, 8 * n)]).2 = .wait) :
    d.openEpochSlot p i v = (d.readGate [(base, 8 * n)]).1.wgtWait p v := by
  unfold Dev.openEpochSlot
  dsimp only
  rw [hn, hbase, if_neg (by simp [hst]), if_neg (by simp [hok]; omega), Dev.readGate_of_wait hg]

theorem Dev.openEpochSlot_clear (hg : (d.readGate [(base, 8 * n)]).2 = .clear)
    (howned : ∀ r ∈ d.regionList base n, ∀ k, k < r.2 → (d.gran (r.1 + k)).valid = true ∧ (d.gran (r.1 + k)).part = p)
    (hapart : ∀ j, j < 4 → j ≠ i → d.slotState p j ≠ slFree → ∀ o ∈ d.regionsOf p j, ∀ r ∈ d.regionList base n,
      r.2 = 0 ∨ o.2 = 0 ∨ Apart r.1 r.2 o.1 o.2) :
    d.openEpochSlot p i v = d.takeSlot p i v (d.regionList base n) := by
  unfold Dev.openEpochSlot
  dsimp only
  rw [hn, hbase, if_neg (by simp [hst]), if_neg (by simp [hok]; omega), Dev.readGate_of_clear hg]
  dsimp only
  refine if_neg fun h => ?_
  rcases Bool.or_eq_true_iff.mp h with h | h
  · refine absurd ?_ (Bool.not_eq_true _ ▸ (Bool.not_eq_true' _).mp h)
    simp only [List.all_eq_true, List.mem_range, Bool.and_eq_true, beq_iff_eq]
    exact howned
  · simp only [List.any_eq_true, List.mem_filter, List.mem_range, Bool.and_eq_true, bne_iff_ne, decide_eq_true_eq] at h
    obtain ⟨j, ⟨hj, hne, hused⟩, o, ho, r, hr, ⟨⟨hr0, ho0⟩, hlo⟩, hhi⟩ := h
    rcases hapart j hj hne hused o ho r hr with h | h | h
    · exact hr0 h
    · exact ho0 h
    · rcases h with h | h <;> omega

end

/-- A slot that is taken is loading, with its list and no pin. -/
structure Taken (p i : Nat) (rs : List (Nat × Nat)) (d e : Dev) : Prop where
  kept : Kept p [slotOff i, wgtSts] d e
  state : e.slotState p i = slLoading
  regions : e.regionsOf p i = rs
  pins : e.slotPins p i = 0
  result : e.fld (pWGT p) wgtSts 7 0 = 0

theorem taken_takeSlot (d : Dev) (p i : Nat) (v : Word) (rs : List (Nat × Nat)) : Taken p i rs d (d.takeSlot p i v rs) := by
  have hin : slotOff i ∉ [wgtSts] := by simp [slotOff_ne_sts]
  have hzero := Dev.rd_wr_same (d.setWeights p ((d.weights p).loading i v rs)) (pWGT p) (slotOff i) 0
  have hkept := (kept_setWeights d p p ((d.weights p).loading i v rs)).widen.trans (kept_wr _ p (slotOff i) 0)
  have hweights := (Dev.wr_weights (d.setWeights p ((d.weights p).loading i v rs)) (pWGT p) (slotOff i) 0 p).trans
    (Dev.weights_setWeights d p _)
  rw [Dev.takeSlot]
  generalize (d.setWeights p ((d.weights p).loading i v rs)).wr (pWGT p) (slotOff i) 0 = b at *
  have hend := kept_wgtEnd (b.setSlotState p i slLoading) p 0
  refine ⟨?_, (hend.slotState hin).trans (Dev.slotState_setSlotState _ p i (by decide)), ?_, ?_, Dev.wgtEnd_result _ p 0⟩
  · exact (hkept.mono (by simp)).trans (((kept_setSlotState b p i _).mono (by simp)).trans (hend.mono (by simp)))
  · rw [Dev.regionsOf, Dev.wgtEnd_weights, Dev.setSlotState_weights, hweights, Weights.loading, Tab.get_set_same]
  · refine (hend.slotPins hin).trans ((Dev.fld_setSlotState b p i _ (by decide)).trans ?_)
    rw [Dev.fld, hzero]
    rfl

/-! ### verify -/

section
variable {d : Dev} {p : Nat} {v : Word} (hst : d.slotState p (wgtSlot v) = slLoading)
include hst

theorem Dev.verifySlot_wait (hg : (d.readGate (d.manifestRange p (d.fld (pWGT p) rWGT_MAN.off 47 0))).2 = .wait) :
    d.verifySlot p v = (d.readGate (d.manifestRange p (d.fld (pWGT p) rWGT_MAN.off 47 0))).1.wgtWait p v := by
  rw [Dev.verifySlot, hst, if_neg (by decide), Dev.readGate_of_wait hg]

theorem Dev.verifySlot_clear (hg : (d.readGate (d.manifestRange p (d.fld (pWGT p) rWGT_MAN.off 47 0))).2 = .clear) :
    d.verifySlot p v = d.verifyChecks p (wgtSlot v) (wgtGroup v) := by
  rw [Dev.verifySlot, hst, if_neg (by decide), Dev.readGate_of_clear hg]

end

/-- A slot whose manifest is verified. -/
def Dev.latchManifest (d : Dev) (p i a : Nat) : Dev :=
  ((d.setWeights p { d.weights p with verified := (d.weights p).verified.add i }).wr (pWGT p) (rWGT_SLOT_MAN.at i) a).wgtEnd p 0

theorem Dev.verifyChecks_of_sound {d : Dev} {p i g : Nat} {a : Nat} (ha : d.fld (pWGT p) rWGT_MAN.off 47 0 = a)
    (hst : d.slotState p i = slLoading) (hg : (d.weights p).localLoad.contains i = true ∨ d.groupState g = gReady)
    (hform : d.manifestForm p a = true) (hpart : (d.manifest a).part = p)
    (hplace : ((d.manifest a).member, (d.manifest a).members) = d.loadGroup p i g)
    (hin : ∀ c, c < (d.manifest a).nchunk →
      inRegions (d.regionsOf p i) (d.chunk (d.manifest a) a c).dest (d.chunk (d.manifest a) a c).len = true) :
    d.verifyChecks p i g = if d.signaturesOk (d.manifest a) a then d.latchManifest p i a else d.wgtEnd p 4 := by
  have hgroup : (!(d.weights p).localLoad.contains i && d.groupState g != gReady) = false := by
    rcases hg with h | h
    · rw [h]
      rfl
    · rw [h, bne_self_eq_false, Bool.and_false]
  have hall : (List.range (d.manifest a).nchunk).all
      (fun c => inRegions (d.regionsOf p i) (d.chunk (d.manifest a) a c).dest (d.chunk (d.manifest a) a c).len) = true := by
    simpa only [List.all_eq_true, List.mem_range] using hin
  unfold Dev.verifyChecks
  dsimp only
  rw [ha, if_neg (by simp [hst]), hgroup, if_neg Bool.false_ne_true, hform, if_neg (by decide)]
  cases d.signaturesOk (d.manifest a) a
  · rw [if_pos (by decide), if_neg Bool.false_ne_true]
  · rw [if_neg (by decide), if_neg (by simp [hpart, hplace]), hall, if_neg (by decide), if_pos rfl, Dev.latchManifest]

theorem Dev.latchManifest_latches (d : Dev) (p i : Nat) {a : Nat} (ha : a < 2 ^ 64) : SameMemory d (d.latchManifest p i a) ∧
    i ∈ ((d.latchManifest p i a).weights p).verified ∧ (d.latchManifest p i a).rd (pWGT p) (rWGT_SLOT_MAN.at i) = a ∧
    (d.latchManifest p i a).fld (pWGT p) wgtSts 7 0 = 0 := by
  have hman := (kept_setWeights d p p { d.weights p with verified := (d.weights p).verified.add i }).widen.trans
    (kept_wr _ p (rWGT_SLOT_MAN.at i) a)
  have hend := kept_wgtEnd ((d.setWeights p { d.weights p with verified := (d.weights p).verified.add i }).wr (pWGT p)
    (rWGT_SLOT_MAN.at i) a) p 0
  refine ⟨((hman.mono (ys := [rWGT_SLOT_MAN.at i, wgtSts]) (by simp)).trans (hend.mono (by simp))).memory, ?_, ?_, Dev.wgtEnd_result _ p 0⟩
  · rw [Dev.latchManifest, Dev.wgtEnd_weights, Dev.wr_weights, Dev.weights_setWeights]
    exact NSet.mem_add.mpr (.inl rfl)
  · exact ((kept_wgtEnd _ p 0).rd _ (by simp [man_ne_sts])).trans ((Dev.rd_wr_same _ _ _ _).trans (Nat.mod_eq_of_lt ha))

/-! ### commit-open -/

/-- An open of a commit by its own command: no vote yet, or a no of a member of a group whose slot has failed. -/
structure OpensCommit (p i : Nat) (alone : Bool) (d e : Dev) : Prop where
  memory : SameMemory d e
  slot : (e.weights p).commitSlot = some i
  opened : (e.weights p).commitEpoch = (d.epochNow p + 1) % 2 ^ 32
  deadline : (e.weights p).deadline = d.now + d.fld (pWGT p) rWGT_CTL.off 31 0 * 1000000
  result : e.fld (pWGT p) wgtSts 7 0 = 0
  failed : d.bit (pWGT p) (slotOff i) 60 = true → alone = false → (e.weights p).vote = some false
  sound : ¬ (d.bit (pWGT p) (slotOff i) 60 = true ∧ alone = false) → (e.weights p).vote = none ∧ e.slotState p i = slLoading

/-- An open that follows the end of its command, by what stands before it. -/
theorem opensCommit_hearOpen {d b : Dev} {p i g : Nat} {alone : Bool} (hk : Kept p [wgtSts] d b) (hst : d.slotState p i = slLoading)
    (hsts : b.fld (pWGT p) wgtSts 7 0 = 0) (hal : (b.weights p).localLoad.contains i = alone) :
    OpensCommit p i alone d (b.hearOpen p i g ((d.epochNow p + 1) % 2 ^ 32)) := by
  have hslot : slotOff i ∉ [wgtSts] := by simp [slotOff_ne_sts]
  have hepoch : b.epochNow p = d.epochNow p := Dev.epochNow_of_kept hk fun j => by simp [slotOff_ne_sts]
  have ho := opened_hearOpen b p i g ((d.epochNow p + 1) % 2 ^ 32)
  have hnext : (d.epochNow p + 1) % 2 ^ 32 = (b.epochNow p + 1) % 2 ^ 32 := by rw [hepoch]
  have hfailed : b.hasFailed p i = (!alone && d.bit (pWGT p) (slotOff i) 60) := by
    rw [Dev.hasFailed, hal, hk.slotState hslot, hst, hk.bit hslot, beq_self_eq_true, Bool.and_true]
  refine ⟨⟨ho.memory.1.trans hk.memory.1, ho.memory.2.trans hk.memory.2⟩, ho.slot, ho.opened, ?_, (ho.sts hnext).trans hsts,
    fun hf ha => (ho.failed hnext (by rw [hfailed, hf, ha]; rfl)).1, fun hn => ?_⟩
  · rw [ho.deadline, hk.now, hk.fld (by decide)]
  · have hnot : b.hasFailed p i = false := by
      rw [hfailed]
      cases hb : d.bit (pWGT p) (slotOff i) 60
      · exact Bool.and_false _
      · cases ha : alone
        · exact absurd ⟨hb, ha⟩ hn
        · rfl
    obtain ⟨hvote, hstate⟩ := ho.sound hnext hnot
    exact ⟨hvote, hstate.trans ((hk.slotState hslot).trans hst)⟩

/-- What commit-open does (R301, R303). -/
def Dev.commitOpen (d : Dev) (p i g : Nat) (alone : Bool) : Dev :=
  if alone then ((d.setWeights p { d.weights p with localLoad := (d.weights p).localLoad.add i }).wgtEnd p 0).hearOpen p i g
    ((d.epochNow p + 1) % 2 ^ 32)
  else ((d.wgtEnd p 0).sendOpen g i ((d.epochNow p + 1) % 2 ^ 32)).hearOpen p i g ((d.epochNow p + 1) % 2 ^ 32)

theorem opensCommit_commitOpen {d : Dev} {p i g : Nat} {alone : Bool} (hst : d.slotState p i = slLoading)
    (hal : alone = false → (d.weights p).localLoad.contains i = false) : OpensCommit p i alone d (d.commitOpen p i g alone) := by
  cases alone with
  | true =>
    refine opensCommit_hearOpen ((kept_setWeights d p p _).widen.trans (kept_wgtEnd _ p 0)) hst (Dev.wgtEnd_result _ p 0) ?_
    rw [Dev.wgtEnd_weights, Dev.weights_setWeights]
    exact NSet.contains_add_same _ _
  | false =>
    have hsend := aside_sendOpen (d.wgtEnd p 0) p g i ((d.epochNow p + 1) % 2 ^ 32)
    refine opensCommit_hearOpen ((kept_wgtEnd d p 0).trans hsend.toKept.widen) hst
      ((hsend.fld (by simp) _ _).trans (Dev.wgtEnd_result _ p 0)) ?_
    rw [hsend.weights, Dev.wgtEnd_weights, hal rfl]

/-! ### ready and fail -/

section
variable {d : Dev} {p i : Nat} {yes : Bool} (hst : d.slotState p i = slLoading)
include hst

theorem Dev.voteCommand_alone_yes (hal : (d.weights p).localLoad.contains i = true) (hf : d.bit (pWGT p) (slotOff i) 60 = false) :
    d.voteCommand p i true = ((d.commitSlot p i ((d.epochNow p + 1) % 2 ^ 32)).wgtEnd p 0).commitOver p := by
  unfold Dev.voteCommand
  dsimp only
  rw [hal, if_pos rfl, if_neg (by simp [hst]), hf]
  rfl

theorem Dev.voteCommand_alone_no (hal : (d.weights p).localLoad.contains i = true)
    (hno : yes = false ∨ d.bit (pWGT p) (slotOff i) 60 = true) : d.voteCommand p i yes = (d.wgtEnd p 9).commitOver p := by
  unfold Dev.voteCommand
  dsimp only
  rw [hal, if_pos rfl, if_neg (by simp [hst])]
  exact if_neg (by rcases hno with h | h <;> simp [h])

/-- A vote in a group is cast, and the unit stays busy. -/
theorem Dev.voteCommand_group (hal : (d.weights p).localLoad.contains i = false) (hs : (d.weights p).commitSlot = some i)
    (hv : (d.weights p).vote = none) : let e := d.voteCommand p i yes
    (e.weights p).vote = some (yes && !d.bit (pWGT p) (slotOff i) 60) ∧ e.slotState p i = slVoted ∧ e.bit (pWGT p) wgtSts 8 = true := by
  have hmay : d.mayVote p i = true := by simp [Dev.mayVote, hs, hv, hst]
  have hbusy := d.bit_setBit_same (pWGT p) wgtSts 8 true (by decide)
  have hset := kept_setBit d p wgtSts 8 true
  have hin : slotOff i ∉ [wgtSts] := by simp [slotOff_ne_sts]
  have hw : (d.setBit (pWGT p) wgtSts 8 true).weights p = d.weights p := Dev.setBit_weights _ _ _ _ _ p
  intro e
  have hcmd : e = (if yes then (d.setBit (pWGT p) wgtSts 8 true).phStart p phWaiting else d.setBit (pWGT p) wgtSts 8 true).castVote p
      (yes && !(d.setBit (pWGT p) wgtSts 8 true).bit (pWGT p) (slotOff i) 60) := by
    simp only [e, Dev.voteCommand, hal, hmay, Bool.false_eq_true, if_false, Bool.not_true]
  generalize d.setBit (pWGT p) wgtSts 8 true = b at hcmd hset hbusy hw
  have haside : Aside p b (if yes then b.phStart p phWaiting else b) := by
    split
    · exact aside_phStart b p phWaiting
    · exact .refl p b
  generalize (if yes then b.phStart p phWaiting else b) = c at hcmd haside
  have hvoted := voted_castVote (d := c) (p := p) (i := i) (by rw [haside.weights, hw, hs]; rfl) (yes && !b.bit (pWGT p) (slotOff i) 60)
  obtain ⟨r, y, hvw⟩ := hvoted.weights
  rw [hcmd]
  refine ⟨by rw [hvw, hset.bit hin], ?_, ?_⟩
  · rw [hvoted.slot, haside.slotState (by simp), hset.slotState hin, if_pos hst]
  · rw [hvoted.bit (by simp [(slotOff_ne_sts i).symm]), haside.bit (by simp), hbusy]

omit hst in
theorem Dev.voteCommand_refused (hst : d.slotState p i ≠ slLoading) : d.voteCommand p i yes = d.wgtEnd p 2 := by
  have hmay : d.mayVote p i = false := by simp [Dev.mayVote, hst]
  unfold Dev.voteCommand
  dsimp only
  split
  · exact if_pos (by simp [hst])
  · rw [hmay]
    rfl

end

end Sys2Proof.Machine
end

section
/-! SUPPORT. The commands of WGT_CMD act on epoch slots as their rules give (R285 to R288, R295, R301 to R303, R309, R329). -/

namespace Sys2Proof.Machine

open Sys2Proof.Safety

/-! ### Commands taken while none is in progress -/

section
variable {a : Access} {p : Fin 64} {v : Word} {s : State} (hw : s.dev.writable a (pWGT p) rWGT_CMD.off true = true)
  (hres : bits v.toNat 56 42 = 0)
include hw hres

section
variable (hfree : s.dev.bit (pWGT p) wgtSts 8 = false)
include hfree

theorem exec_openSlot_of_free (hop : wgtOp v = 1) :
    exec (.openSlot a p v) s = .next (on s fun d => (d.openEpochSlot p (wgtSlot v) v).emit (.readback 0 false)) :=
  run_wgtCommand (work := fun d => d.openEpochSlot p (wgtSlot v) v) hop hw hres (.inr hfree)

theorem exec_verify_of_free (hop : wgtOp v = 2) :
    exec (.verify a p v) s = .next (on s fun d => (d.verifySlot p v).emit (.readback 0 false)) :=
  run_wgtCommand (work := fun d => d.verifySlot p v) hop hw hres (.inr hfree)

theorem exec_fetch_of_free (hop : wgtOp v = 3) :
    exec (.fetch a p v) s = .next (on s fun d => (d.startFetch p (wgtSlot v)).emit (.readback 0 false)) :=
  run_wgtCommand (work := fun d => d.startFetch p (wgtSlot v)) hop hw hres (.inr hfree)

theorem exec_ready_of_free (hop : wgtOp v = 6) :
    exec (.ready a p v) s = .next (on s fun d => (d.voteCommand p (wgtSlot v) true).emit (.readback 0 false)) :=
  run_wgtCommand (work := fun d => d.voteCommand p (wgtSlot v) true) hop hw hres (.inr hfree)

theorem exec_fail_of_free (hop : wgtOp v = 7) :
    exec (.fail a p v) s = .next (on s fun d => (d.voteCommand p (wgtSlot v) false).emit (.readback 0 false)) :=
  run_wgtCommand (work := fun d => d.voteCommand p (wgtSlot v) false) hop hw hres (.inr hfree)

/-- What commit-open meets before it opens. -/
theorem exec_commitOpen_of_free (hop : wgtOp v = 5) : exec (.commitOpen a p v) s = .next (on s fun d =>
    (if d.slotState p (wgtSlot v) != slLoading then d.wgtEnd p 0x02
      else if wgtLocal v || (d.weights p).localLoad.contains (wgtSlot v) then d.commitOpen p (wgtSlot v) (wgtGroup v) true
      else if d.groupState (wgtGroup v) != gReady || (d.group (wgtGroup v)).own != 0 then d.wgtEnd p 0x0B
      else d.commitOpen p (wgtSlot v) (wgtGroup v) false).emit (.readback 0 false)) :=
  run_wgtCommand (work := fun d => if d.slotState p (wgtSlot v) != slLoading then d.wgtEnd p 0x02
      else if wgtLocal v || (d.weights p).localLoad.contains (wgtSlot v) then d.commitOpen p (wgtSlot v) (wgtGroup v) true
      else if d.groupState (wgtGroup v) != gReady || (d.group (wgtGroup v)).own != 0 then d.wgtEnd p 0x0B
      else d.commitOpen p (wgtSlot v) (wgtGroup v) false) hop hw hres (.inr hfree)

theorem exec_commitOpen_of_sound (hop : wgtOp v = 5) (hst : s.dev.slotState p (wgtSlot v) = slLoading)
    (hgo : (wgtLocal v = true ∨ (s.dev.weights p).localLoad.contains (wgtSlot v) = true) ∨
      s.dev.groupState (wgtGroup v) = gReady ∧ (s.dev.group (wgtGroup v)).own = 0) :
    exec (.commitOpen a p v) s = .next (on s fun d => (d.commitOpen p (wgtSlot v) (wgtGroup v)
      (wgtLocal v || (d.weights p).localLoad.contains (wgtSlot v))).emit (.readback 0 false)) := by
  rw [exec_commitOpen_of_free hw hres hfree hop, on, if_neg (by simp [hst]), on]
  cases hal : wgtLocal v || (s.dev.weights p).localLoad.contains (wgtSlot v)
  · obtain ⟨hg, hown⟩ := hgo.resolve_left (by simpa only [Bool.or_eq_false_iff, not_or, Bool.not_eq_true] using hal)
    rw [if_neg Bool.false_ne_true, if_neg (by simp [hg, hown])]
  · rw [if_pos rfl]

theorem exec_releaseSlot_of_free (hop : wgtOp v = 11) : exec (.releaseSlot a p v) s = .next (on s fun d =>
    (if d.slotState p (wgtSlot v) == slLoading then ((d.turnOver p (wgtSlot v)).emptySlot p (wgtSlot v)).wgtEnd p 0
      else d.wgtEnd p 0x02).emit (.readback 0 false)) :=
  run_wgtCommand (work := fun d => if d.slotState p (wgtSlot v) == slLoading
    then ((d.turnOver p (wgtSlot v)).emptySlot p (wgtSlot v)).wgtEnd p 0 else d.wgtEnd p 0x02) hop hw hres (.inr hfree)

/-- A command in a state that does not permit it ends with 0x02. -/
theorem exec_refused {c : Instr} (hc : c = .openSlot a p v ∧ wgtOp v = 1 ∧ s.dev.slotState p (wgtSlot v) ≠ slFree ∨
    c = .verify a p v ∧ wgtOp v = 2 ∧ s.dev.slotState p (wgtSlot v) ≠ slLoading ∨
    c = .fetch a p v ∧ wgtOp v = 3 ∧ s.dev.slotState p (wgtSlot v) ≠ slLoading ∨
    c = .commitOpen a p v ∧ wgtOp v = 5 ∧ s.dev.slotState p (wgtSlot v) ≠ slLoading ∨
    c = .ready a p v ∧ wgtOp v = 6 ∧ s.dev.slotState p (wgtSlot v) ≠ slLoading ∨
    c = .fail a p v ∧ wgtOp v = 7 ∧ s.dev.slotState p (wgtSlot v) ≠ slLoading ∨
    c = .releaseSlot a p v ∧ wgtOp v = 11 ∧ s.dev.slotState p (wgtSlot v) ≠ slLoading) :
    exec c s = .next (on s fun d => (d.wgtEnd p 2).emit (.readback 0 false)) := by
  rcases hc with ⟨rfl, hop, hst⟩ | ⟨rfl, hop, hst⟩ | ⟨rfl, hop, hst⟩ | ⟨rfl, hop, hst⟩ | ⟨rfl, hop, hst⟩ |
    ⟨rfl, hop, hst⟩ | ⟨rfl, hop, hst⟩
  · rw [exec_openSlot_of_free hw hres hfree hop, on, on, Dev.openEpochSlot]
    dsimp only
    rw [if_pos (by simp [hst])]
  · rw [exec_verify_of_free hw hres hfree hop, on, on, Dev.verifySlot, if_pos (by simp [hst]), Dev.verifyChecks]
    dsimp only
    rw [if_pos (by simp [hst])]
  · rw [exec_fetch_of_free hw hres hfree hop, on, on, Dev.startFetch]
    dsimp only
    rw [if_pos (by simp [hst])]
  · rw [exec_commitOpen_of_free hw hres hfree hop, on, on, if_pos (by simp [hst])]
  · rw [exec_ready_of_free hw hres hfree hop, on, on, Dev.voteCommand_refused hst]
  · rw [exec_fail_of_free hw hres hfree hop, on, on, Dev.voteCommand_refused hst]
  · rw [exec_releaseSlot_of_free hw hres hfree hop, on, on, if_neg (by simp [hst])]

end

/-! ### Commands on a commit that is open -/

section
variable (hs : (s.dev.weights p).commitSlot = some (wgtSlot v))
include hs

theorem exec_freeze_of_open (hop : wgtOp v = 8)
    (hst : s.dev.slotState p (wgtSlot v) = slVoted ∨ s.dev.slotState p (wgtSlot v) = slLoading) :
    exec (.freeze a p v) s = .next (on s fun d =>
      ((d.setWeights p { d.weights p with frozen := true }).setFld (pWGT p) wgtSts 7 0 0).emit (.readback 0 false)) := by
  have hin : s.dev.inCommit p (wgtSlot v) = true := by rcases hst with h | h <;> simp [Dev.inCommit, hs, h]
  refine (run_wgtCommand (during := true) (work := fun d => if d.inCommit p (wgtSlot v)
    then (d.setWeights p { d.weights p with frozen := true }).setFld (pWGT p) wgtSts 7 0 0
    else if d.bit (pWGT p) wgtSts 8 then d.setBit (pWGT p) wgtSts 9 true else d.wgtEnd p 0x02) hop hw hres (.inl rfl)).trans ?_
  rw [on, hin, if_pos rfl, on]

theorem exec_forceCommit_of_voted (hop : wgtOp v = 9) (hst : s.dev.slotState p (wgtSlot v) = slVoted) :
    exec (.forceCommit a p v) s = .next (on s fun d =>
      ((((d.commitSlot p (wgtSlot v) (d.weights p).commitEpoch).turnOver p (wgtSlot v)).wgtEnd p 0).commitOver p).emit
        (.readback 0 false)) := by
  have hin : s.dev.undecided p (wgtSlot v) = true := by simp [Dev.undecided, hs, hst]
  refine (run_wgtCommand (during := true) (work := fun d => if d.undecided p (wgtSlot v)
    then (((d.commitSlot p (wgtSlot v) (d.weights p).commitEpoch).turnOver p (wgtSlot v)).wgtEnd p 0).commitOver p
    else if d.bit (pWGT p) wgtSts 8 then d.setBit (pWGT p) wgtSts 9 true else d.wgtEnd p 0x02) hop hw hres (.inl rfl)).trans ?_
  rw [on, hin, if_pos rfl, on]

theorem exec_abandon_of_open (hop : wgtOp v = 10)
    (hst : s.dev.slotState p (wgtSlot v) = slVoted ∨ s.dev.slotState p (wgtSlot v) = slLoading) :
    exec (.abandon a p v) s = .next (on s fun d =>
      ((((d.setSlotState p (wgtSlot v) slLoading).turnOver p (wgtSlot v)).wgtEnd p 0).commitOver p).emit (.readback 0 false)) := by
  have hin : s.dev.inCommit p (wgtSlot v) = true := by rcases hst with h | h <;> simp [Dev.inCommit, hs, h]
  refine (run_wgtCommand (during := true) (work := fun d => if d.inCommit p (wgtSlot v)
    then (((d.setSlotState p (wgtSlot v) slLoading).turnOver p (wgtSlot v)).wgtEnd p 0).commitOver p
    else if d.bit (pWGT p) wgtSts 8 then d.setBit (pWGT p) wgtSts 9 true else d.wgtEnd p 0x02) hop hw hres (.inl rfl)).trans ?_
  rw [on, hin, if_pos rfl, on]

end

end

/-! ### What they leave -/

/-- A command that waits for what it reads is kept, and leaves the slots and memory. -/
theorem readGate_wgtWait (d : Dev) (p : Nat) (rs : List (Nat × Nat)) (v : Word) : let e := (d.readGate rs).1.wgtWait p v
    (e.weights p).held = some v ∧ e.bit (pWGT p) wgtSts 8 = true ∧ (∀ i, e.slotState p i = d.slotState p i) ∧ SameMemory d e := by
  have haside := aside_readGate d p rs
  have hwait := kept_wgtWait (d.readGate rs).1 p v
  obtain ⟨hheld, hbusy⟩ := Dev.wgtWait_waits (d.readGate rs).1 p v
  exact ⟨hheld, hbusy, fun i => (hwait.slotState (by simp [slotOff_ne_sts])).trans (haside.slotState (by simp)),
    (haside.toKept.widen.trans hwait).memory⟩

section
variable (d : Dev) (p i : Nat)

/-- A slot whose commit ends with it current. -/
structure Current (p i epoch : Nat) (d e : Dev) : Prop where
  state : e.slotState p i = slCurrent
  epoch : e.slotEpoch p i = epoch
  old : ∀ j, d.currentSlot p = some j → j ≠ i → e.slotState p j = if d.slotPins p j = 0 then slFree else slOld
  ended : (e.weights p).commitSlot = none
  result : e.fld (pWGT p) wgtSts 7 0 = 0

theorem current_finish {d e f : Dev} {p i epoch : Nat} (hc : Commits p i epoch d e)
    (hstate : ∀ j, f.slotState p j = e.slotState p j) (hepoch : f.slotEpoch p i = e.slotEpoch p i) :
    Current p i (epoch % 2 ^ 32) d ((f.wgtEnd p 0).commitOver p) := by
  refine ⟨?_, ?_, fun j hj hne => ?_, by rw [Dev.finish_weights]; rfl, Dev.finish_sts f p 0⟩
  · rw [Dev.finish_slotState, hstate, hc.state]
  · rw [Dev.finish_slotEpoch, hepoch, hc.epoch]
  · rw [Dev.finish_slotState, hstate, hc.old j hj hne]

theorem forceCommit_leaves (epoch : Nat) : let e := (((d.commitSlot p i epoch).turnOver p i).wgtEnd p 0).commitOver p
    Current p i (epoch % 2 ^ 32) d e ∧ TurnClosed p i d e ∧ SameMemory d e := by
  have hc := commits_commitSlot d p i epoch
  have hturn := (d.commitSlot p i epoch).turnOver_sameMemory p i
  have hfin := kept_finish ((d.commitSlot p i epoch).turnOver p i) p 0
  exact ⟨current_finish hc (fun j => Dev.fld_turnOver _ p i _ _ (.inr (by decide))) (Dev.fld_turnOver _ p i _ _ (.inl (by decide))),
    ((turnClosed_turnOver _ p i).of_kept hfin).of_commits hc,
    hfin.memory.1.trans (hturn.1.trans hc.memory.1), hfin.memory.2.trans (hturn.2.trans hc.memory.2)⟩

theorem decideYes_leaves : let e := ((d.commitSlot p i ((d.epochNow p + 1) % 2 ^ 32)).wgtEnd p 0).commitOver p
    Current p i ((d.epochNow p + 1) % 2 ^ 32) d e ∧ SameMemory d e := by
  have hc := commits_commitSlot d p i ((d.epochNow p + 1) % 2 ^ 32)
  have hfin := kept_finish (d.commitSlot p i ((d.epochNow p + 1) % 2 ^ 32)) p 0
  have hcur := current_finish hc (fun _ => rfl) rfl
  rw [Nat.mod_mod] at hcur
  exact ⟨hcur, hfin.memory.1.trans hc.memory.1, hfin.memory.2.trans hc.memory.2⟩

/-- The outcome no of a load outside any group. -/
theorem decideNo_leaves : let e := (d.wgtEnd p 9).commitOver p
    e.slotState p i = d.slotState p i ∧ (e.weights p).commitSlot = none ∧ e.fld (pWGT p) wgtSts 7 0 = 9 ∧ SameMemory d e :=
  ⟨d.finish_slotState p 9 i, by rw [Dev.finish_weights]; rfl, d.finish_sts p 9, (kept_finish d p 9).memory⟩

theorem release_leaves : let e := ((d.turnOver p i).emptySlot p i).wgtEnd p 0
    e.slotState p i = slFree ∧ e.regionsOf p i = [] ∧ TurnClosed p i d e ∧ e.fld (pWGT p) wgtSts 7 0 = 0 ∧ SameMemory d e := by
  have hend := kept_wgtEnd ((d.turnOver p i).emptySlot p i) p 0
  have hempty := kept_emptySlot (d.turnOver p i) p i
  have hturn := d.turnOver_sameMemory p i
  exact ⟨(hend.slotState (by simp [slotOff_ne_sts])).trans (Dev.slotState_emptySlot _ p i),
    (Dev.regionsOf_wgtEnd _ p 0 i).trans (Dev.regionsOf_emptySlot (d.turnOver p i) p i),
    ((turnClosed_turnOver d p i).of_kept hempty).of_kept hend, Dev.wgtEnd_result _ p 0,
    hend.memory.1.trans (hempty.memory.1.trans hturn.1), hend.memory.2.trans (hempty.memory.2.trans hturn.2)⟩

theorem abandon_leaves : let e := (((d.setSlotState p i slLoading).turnOver p i).wgtEnd p 0).commitOver p
    e.slotState p i = slLoading ∧ (e.weights p).commitSlot = none ∧ e.fld (pWGT p) wgtSts 7 0 = 0 ∧ TurnClosed p i d e ∧
      SameMemory d e := by
  have hset := kept_setSlotState d p i slLoading
  have hturn := (d.setSlotState p i slLoading).turnOver_sameMemory p i
  have hfin := kept_finish ((d.setSlotState p i slLoading).turnOver p i) p 0
  have hclosed : TurnClosed p i d ((d.setSlotState p i slLoading).turnOver p i) := fun k hlt hg hs hp =>
    turnClosed_turnOver (d.setSlotState p i slLoading) p i k hlt hg
      (by rwa [Dev.groupState, Dev.fld_of_rd (hset.fab _ (gsts_lt hlt))]) hp
  refine ⟨?_, by rw [Dev.finish_weights]; rfl, Dev.finish_sts _ p 0, hclosed.of_kept hfin,
    hfin.memory.1.trans hturn.1, hfin.memory.2.trans hturn.2⟩
  rw [Dev.finish_slotState]
  exact (Dev.fld_turnOver _ p i _ _ (.inr (by decide))).trans (d.slotState_setSlotState p i (by decide))

theorem freeze_leaves : let e := (d.setWeights p { d.weights p with frozen := true }).setFld (pWGT p) wgtSts 7 0 0
    (e.weights p).frozen = true ∧ e.slotState p i = d.slotState p i ∧ e.fld (pWGT p) wgtSts 7 0 = 0 ∧ SameMemory d e := by
  intro e
  have hw : e.weights p = { d.weights p with frozen := true } := Dev.weights_setWeights d p _
  have hset : Kept p [wgtSts] d e := (kept_setWeights d p p _).widen.trans (kept_setFld _ p wgtSts 7 0 0)
  exact ⟨by rw [hw], hset.slotState (by simp [slotOff_ne_sts]), Dev.fld_setFld_same _ _ _ _ _ _ (by decide) (by decide), hset.memory⟩

end

/-! ### The statement -/

/-- Settles O33: each command takes the operation of its rule, and the end of the operation shows in the slot and in WGT_STS. -/
theorem epochCommandsComplete : Obligations.EpochCommandsComplete := by
  intro a p v s hw hres i w st op gate sts g next only failed closed current
  have hcur {e : Dev} {epoch : Nat} (h : Current p i epoch s.dev e) (o : Out) : current (e.emit o) epoch :=
    ⟨h.state, h.epoch, h.old, h.ended, h.result⟩
  have hturn {e : Dev} (h : TurnClosed p i s.dev e) (o : Out) : closed (e.emit o) := h
  have habandon {e : Dev} (h : e.slotState p i = slLoading ∧ (e.weights p).commitSlot = none ∧ sts e = 0 ∧
      TurnClosed p i s.dev e ∧ SameMemory s.dev e) (o : Out) : (e.emit o).slotState p i = slLoading ∧
      ((e.emit o).weights p).commitSlot = none ∧ sts (e.emit o) = 0 ∧ closed (e.emit o) ∧ SameMemory s.dev (e.emit o) := h
  refine ⟨fun hfree => ⟨fun hop hst h1 h4 hok howned hapart => ⟨fun hg => ?openWait, fun hg => ?taken⟩,
      fun hop hst hgroup => ⟨fun hg => ?verifyWait, fun hg hform hpart hplace hin => ?verify⟩,
      fun hop hst hgo => ?commitOpen,
      fun hop hst hf => ⟨fun hal => ?readyAlone, fun hal hs hv => ?readyGroup⟩,
      fun hop hst hf hal => ?readyFailed,
      fun hop hst => ⟨fun hal => ?failAlone, fun hal hs hv => ?failGroup⟩,
      fun hop hst => ?release, fun c hc => exec_refused hw hres hfree hc⟩,
    fun hst hs => ⟨fun hop => ?freeze, fun hop hst => ?forceCommit, fun hop => ?abandon⟩⟩
  case openWait =>
    refine runs_of_next (exec_openSlot_of_free hw hres hfree hop) ?_
    rw [Dev.openEpochSlot_wait hst rfl rfl h1 h4 hok hg]
    obtain ⟨hheld, hbusy, hslots, hmem⟩ := readGate_wgtWait s.dev p
      [(bits v.toNat 31 0 * 0x10000, 8 * s.dev.fld (pWGT p) (rWGT_SLOT_NREG.at i) 44 32)] v
    exact ⟨hheld, hbusy, (hslots i).trans hst, sameMemory_emit hmem _⟩
  case taken =>
    have ht := taken_takeSlot s.dev p i v
      (s.dev.regionList (bits v.toNat 31 0 * 0x10000) (s.dev.fld (pWGT p) (rWGT_SLOT_NREG.at i) 44 32))
    refine runs_of_next (exec_openSlot_of_free hw hres hfree hop) ?_
    rw [Dev.openEpochSlot_clear hst rfl rfl h1 h4 hok hg howned hapart]
    exact ⟨ht.state, ht.regions, ht.pins, ht.result,
      fun j _ hj => ht.kept.slotState (by simp [slotOff_ne_sts, slotOff_ne_slotOff hj]), ht.kept.memory⟩
  case verifyWait =>
    refine runs_of_next (exec_verify_of_free hw hres hfree hop) ?_
    rw [Dev.verifySlot_wait hst hg]
    obtain ⟨hheld, hbusy, -, hmem⟩ := readGate_wgtWait s.dev p
      (s.dev.manifestRange p (s.dev.fld (pWGT p) rWGT_MAN.off 47 0)) v
    exact ⟨hheld, hbusy, sameMemory_emit hmem _⟩
  case verify =>
    refine runs_of_next (exec_verify_of_free hw hres hfree hop) ?_
    rw [Dev.verifySlot_clear hst hg, Dev.verifyChecks_of_sound rfl hst hgroup hform hpart hplace hin]
    by_cases hsig : s.dev.signaturesOk (s.dev.manifest (s.dev.fld (pWGT p) rWGT_MAN.off 47 0))
        (s.dev.fld (pWGT p) rWGT_MAN.off 47 0) = true
    · rw [if_pos hsig, if_pos hsig]
      exact s.dev.latchManifest_latches p i ((bits_lt _ 47 0).trans (by decide))
    · rw [if_neg hsig, if_neg hsig]
      exact ⟨(kept_wgtEnd s.dev p 4).memory, rfl, s.dev.wgtEnd_result p 4⟩
  case commitOpen =>
    refine runs_of_next (exec_commitOpen_of_sound hw hres hfree hop hst hgo) ?_
    have ho := opensCommit_commitOpen (g := g) (alone := wgtLocal v || w.localLoad.contains i) hst
      fun h => (Bool.or_eq_false_iff.mp h).2
    refine ⟨ho.slot, ho.opened, ho.deadline, ho.result, ho.memory, ?_⟩
    split
    next h => exact ho.failed h.1 (Bool.or_eq_false_iff.mpr h.2)
    next h => exact ho.sound fun hf => h ⟨hf.1, Bool.or_eq_false_iff.mp hf.2⟩
  case readyAlone =>
    refine runs_of_next (exec_ready_of_free hw hres hfree hop) ?_
    rw [Dev.voteCommand_alone_yes hst hal (by simpa [failed] using hf)]
    obtain ⟨hc, hmem⟩ := decideYes_leaves s.dev p i
    exact ⟨hcur hc _, sameMemory_emit hmem _⟩
  case readyGroup =>
    refine runs_of_next (exec_ready_of_free hw hres hfree hop) ?_
    obtain ⟨hvote, hrest⟩ := Dev.voteCommand_group (yes := true) hst hal hs hv
    have hok : s.dev.bit (pWGT p) (slotOff i) 60 = false := by simpa [failed] using hf
    exact ⟨hvote.trans (by rw [hok]; rfl), hrest⟩
  case readyFailed =>
    refine runs_of_next (exec_ready_of_free hw hres hfree hop) ?_
    rw [Dev.voteCommand_alone_no hst hal (.inr hf)]
    obtain ⟨hstate, hrest⟩ := decideNo_leaves s.dev p i
    exact ⟨hstate.trans hst, hrest⟩
  case failAlone =>
    refine runs_of_next (exec_fail_of_free hw hres hfree hop) ?_
    rw [Dev.voteCommand_alone_no hst hal (.inl rfl)]
    obtain ⟨hstate, hover, hresult, -⟩ := decideNo_leaves s.dev p i
    exact ⟨hstate.trans hst, hover, hresult⟩
  case failGroup =>
    refine runs_of_next (exec_fail_of_free hw hres hfree hop) ?_
    exact Dev.voteCommand_group (yes := false) hst hal hs hv
  case release =>
    refine runs_of_next (exec_releaseSlot_of_free hw hres hfree hop) ?_
    rw [if_pos (by simpa using hst)]
    obtain ⟨hstate, hregions, hclosed, hresult, hmem⟩ := release_leaves s.dev p i
    exact ⟨hstate, hregions, hturn hclosed _, hresult, sameMemory_emit hmem _⟩
  case freeze =>
    refine runs_of_next (exec_freeze_of_open hw hres hs hop hst) ?_
    obtain ⟨hfrozen, hstate, hresult, hmem⟩ := freeze_leaves s.dev p i
    exact ⟨hfrozen, hstate, hresult, sameMemory_emit hmem _⟩
  case forceCommit =>
    refine runs_of_next (exec_forceCommit_of_voted hw hres hs hop hst) ?_
    obtain ⟨hc, hclosed, hmem⟩ := forceCommit_leaves s.dev p i w.commitEpoch
    exact ⟨hcur hc _, hturn hclosed _, sameMemory_emit hmem _⟩
  case abandon =>
    exact runs_of_next (exec_abandon_of_open hw hres hs hop hst) (habandon (abandon_leaves s.dev p i) _)

end Sys2Proof.Machine
end

section
/-! SUPPORT. Fetches and how they end, and the events of the vote (R296 to R298, R301, R302). -/

namespace Sys2Proof.Machine

open Sys2Proof.Safety

/-! ### Attempts that start -/

/-- Attempts that start change the chunks still to do alone. -/
structure Pumping (p : Nat) (d e : Dev) : Prop extends Kept p [] d e where
  weights : ∃ cs n f, e.weights p = { d.weights p with chunks := cs, nextChunk := n, failedChunk := f }

theorem Pumping.trans {p : Nat} {d e f : Dev} (h : Pumping p d e) (k : Pumping p e f) : Pumping p d f := by
  obtain ⟨_, _, _, hw⟩ := h.weights
  obtain ⟨_, _, _, hw'⟩ := k.weights
  exact ⟨h.toKept.trans k.toKept, _, _, _, by rw [hw', hw]⟩

theorem pumping_refl (p : Nat) (d : Dev) : Pumping p d d := ⟨.refl p [] d, _, _, _, rfl⟩

theorem pumping_setWeights (d : Dev) (p : Nat) (cs : List ChunkTry) (n : Nat) (f : Option Nat) :
    Pumping p d (d.setWeights p { d.weights p with chunks := cs, nextChunk := n, failedChunk := f }) :=
  ⟨kept_setWeights d p p _, cs, n, f, Dev.weights_setWeights _ _ _⟩

theorem pumping_tryChunk (d : Dev) (p c k : Nat) : Pumping p d (d.tryChunk p c k) := by
  refine ⟨(onlyLoads_tryChunk d p c k).kept p, ?_⟩
  unfold Dev.tryChunk
  dsimp only
  split
  · exact ⟨_, _, _, Dev.weights_setWeights _ _ _⟩
  · split
    · exact ⟨_, _, _, Dev.weights_setWeights _ _ _⟩
    · exact ⟨_, _, _, Dev.weights_setWeights _ _ _⟩

theorem pumping_pump (d : Dev) (p n : Nat) : Pumping p d (d.pump p n) := by
  induction n generalizing d with
  | zero => exact pumping_refl p d
  | succ n ih =>
    unfold Dev.pump
    dsimp only
    split
    · exact pumping_refl p d
    split
    · split
      · exact (pumping_tryChunk d p _ _).trans (ih _)
      · exact pumping_refl p d
    · split
      · exact ((pumping_setWeights d p _ ((d.weights p).nextChunk + 1) _).trans (pumping_tryChunk _ p _ _)).trans (ih _)
      · exact pumping_refl p d

/-- A fetch whose chunks have all arrived. -/
def Dev.fetchDone (d : Dev) (p : Nat) : Dev :=
  ((d.setWeights p { d.weights p with fetching := none }).wgtEnd p 0).phEnd p phFetch

/-- After an attempt the fetch goes on, or is done with no chunk left. -/
theorem Dev.fetchSettle_cases (d : Dev) (p : Nat) : ∃ b, Pumping p d b ∧
    (d.fetchSettle p = b ∨ (b.weights p).chunks = [] ∧ d.fetchSettle p = b.fetchDone p) := by
  refine ⟨d.pump p 300, pumping_pump d p 300, ?_⟩
  unfold Dev.fetchSettle
  dsimp only
  split
  next h =>
    simp only [Bool.and_eq_true, List.isEmpty_iff] at h
    exact .inr ⟨h.1.2, rfl⟩
  · exact .inl rfl

theorem Dev.fetchSettle_of_failing {d : Dev} {p : Nat} (h : (d.weights p).failing = true) : d.fetchSettle p = d := by
  have hpump : d.pump p 300 = d := by
    unfold Dev.pump
    exact if_pos h
  unfold Dev.fetchSettle
  dsimp only
  rw [hpump, h, if_neg (by simp)]

theorem kept_fetchDone (d : Dev) (p : Nat) : Kept p [wgtSts] d (d.fetchDone p) :=
  ((kept_setWeights d p p _).widen.trans (kept_wgtEnd _ p 0)).trans (aside_phEnd _ p phFetch).toKept.widen

theorem Dev.fetchDone_done (d : Dev) (p : Nat) : (d.fetchDone p).weights p = { d.weights p with fetching := none } ∧
    (d.fetchDone p).fld (pWGT p) wgtSts 7 0 = 0 ∧ (d.fetchDone p).bit (pWGT p) wgtSts 8 = (d.weights p).held.isSome ∧
    (d.fetchDone p).fld (pWGT p) wgtSts 43 24 = d.fld (pWGT p) wgtSts 43 24 := by
  have hend := aside_phEnd ((d.setWeights p { d.weights p with fetching := none }).wgtEnd p 0) p phFetch
  have hbusy := Dev.wgtEnd_busy (d.setWeights p { d.weights p with fetching := none }) p 0
  rw [Dev.weights_setWeights] at hbusy
  refine ⟨?_, (hend.fld (by simp) _ _).trans (Dev.wgtEnd_result _ p 0), (hend.bit (by simp) _).trans hbusy,
    (hend.fld (by simp) _ _).trans (Dev.wgtEnd_fld _ p 0 (by decide))⟩
  rw [Dev.fetchDone, hend.weights, Dev.wgtEnd_weights, Dev.weights_setWeights]

/-- A settled fetch keeps memory, and the count of its chunks. -/
theorem Dev.fetchSettle_keeps (d : Dev) (p : Nat) : SameMemory d (d.fetchSettle p) ∧
    (d.fetchSettle p).fld (pWGT p) wgtSts 43 24 = d.fld (pWGT p) wgtSts 43 24 := by
  obtain ⟨b, hb, h | ⟨-, h⟩⟩ := d.fetchSettle_cases p <;> rw [h]
  · exact ⟨hb.memory, hb.fld (by simp) _ _⟩
  · exact ⟨(hb.toKept.widen.trans (kept_fetchDone b p)).memory, (b.fetchDone_done p).2.2.2.trans (hb.fld (by simp) _ _)⟩

/-! ### fetch -/

/-- The weights of a fetch that starts. -/
def Weights.starting (w : Weights) (i : Nat) : Weights :=
  { w with fetching := some i, chunks := [], nextChunk := 0, failedChunk := none, refused := false, aborted := false }

/-- The slot and the weights of a fetch that starts. -/
def Dev.clearFailed (d : Dev) (p i : Nat) : Dev := (d.setWeights p ((d.weights p).starting i)).setBit (pWGT p) (slotOff i) 60 false

/-- The status while a fetch is in progress. -/
def Dev.busyFetch (d : Dev) (p : Nat) : Dev := (d.setFld (pWGT p) wgtSts 63 24 0).setBit (pWGT p) wgtSts 8 true

/-- What a fetch leaves before its first attempts. -/
def Dev.beginFetch (d : Dev) (p i : Nat) : Dev := ((d.clearFailed p i).busyFetch p).phStart p phFetch

theorem Dev.startFetch_of_verified {d : Dev} {p i : Nat} (hst : d.slotState p i = slLoading)
    (hv : (d.weights p).verified.contains i = true) : d.startFetch p i = (d.beginFetch p i).fetchSettle p := by
  have hno : ¬ ((d.slotState p i != slLoading || !(d.weights p).verified.contains i) = true) := by
    rw [hst, hv]
    decide
  unfold Dev.startFetch Dev.beginFetch Dev.busyFetch Dev.clearFailed Weights.starting
  dsimp only
  rw [if_neg hno]

section
variable (d : Dev) (p i : Nat)

theorem kept_clearFailed : Kept p [slotOff i] d (d.clearFailed p i) := (kept_setWeights d p p _).widen.trans (kept_setBit _ p _ _ _)

theorem Dev.clearFailed_clears : (d.clearFailed p i).weights p = (d.weights p).starting i ∧
    (d.clearFailed p i).bit (pWGT p) (slotOff i) 60 = false ∧ (d.clearFailed p i).slotState p i = d.slotState p i := by
  refine ⟨?_, Dev.bit_setBit_same _ _ _ _ _ (by decide), ?_⟩
  · rw [Dev.clearFailed, Dev.setBit_weights, Dev.weights_setWeights]
  · exact (Dev.fld_setBit_field _ _ _ _ _ _ _ (by decide) (by decide)).trans ((kept_setWeights d p p _).slotState (by simp))

theorem kept_busyFetch : Kept p [wgtSts] d (d.busyFetch p) := (kept_setFld d p wgtSts 63 24 0).trans (kept_setBit _ p wgtSts 8 true)

theorem Dev.busyFetch_weights : (d.busyFetch p).weights p = d.weights p := by
  rw [Dev.busyFetch, Dev.setBit_weights, Dev.setFld_weights]

theorem Dev.busyFetch_busy : (d.busyFetch p).bit (pWGT p) wgtSts 8 = true := Dev.bit_setBit_same _ _ _ _ _ (by decide)

theorem Dev.beginFetch_begins : SameMemory d (d.beginFetch p i) ∧
    (d.beginFetch p i).weights p = (d.weights p).starting i ∧ (d.beginFetch p i).bit (pWGT p) (slotOff i) 60 = false ∧
    (d.beginFetch p i).slotState p i = d.slotState p i ∧ (d.beginFetch p i).bit (pWGT p) wgtSts 8 = true := by
  have hin : slotOff i ∉ [wgtSts] := by simp [slotOff_ne_sts]
  have hclear := kept_clearFailed d p i
  obtain ⟨hweights, hbit, hstate⟩ := d.clearFailed_clears p i
  have hsts := kept_busyFetch (d.clearFailed p i) p
  have hstart := aside_phStart ((d.clearFailed p i).busyFetch p) p phFetch
  have hall : Kept p [slotOff i, wgtSts] d (d.beginFetch p i) :=
    ((hclear.mono (by simp)).trans (hsts.mono (by simp))).trans hstart.toKept.widen
  refine ⟨hall.memory, ?_, ?_, ?_, (hstart.bit (by simp) _).trans (Dev.busyFetch_busy _ p)⟩
  · rw [Dev.beginFetch, hstart.weights, Dev.busyFetch_weights, hweights]
  · rw [Dev.beginFetch, hstart.bit (by simp), hsts.bit hin, hbit]
  · rw [Dev.beginFetch, hstart.slotState (by simp), hsts.slotState hin, hstate]

end

theorem startFetch_leaves {d : Dev} {p i : Nat} (hst : d.slotState p i = slLoading) (hv : (d.weights p).verified.contains i = true)
    (hh : (d.weights p).held = none) : let e := d.startFetch p i
    e.bit (pWGT p) (slotOff i) 60 = false ∧ e.slotState p i = slLoading ∧ SameMemory d e ∧
      ((e.weights p).fetching = some i ∧ e.bit (pWGT p) wgtSts 8 = true ∨
        (e.weights p).fetching = none ∧ (e.weights p).chunks = [] ∧ e.fld (pWGT p) wgtSts 7 0 = 0 ∧ e.bit (pWGT p) wgtSts 8 = false) := by
  obtain ⟨hmem, hw, hclear, hstate, hbusy⟩ := d.beginFetch_begins p i
  have hin : slotOff i ∉ [wgtSts] := by simp [slotOff_ne_sts]
  rw [Dev.startFetch_of_verified hst hv]
  intro e
  obtain ⟨b, hb, h | ⟨hnone, h⟩⟩ := (d.beginFetch p i).fetchSettle_cases p
  all_goals
    obtain ⟨cs, n, f, hbw⟩ := hb.weights
    have he : e = _ := h
    rw [he]
  · refine ⟨(hb.bit (by simp) _).trans hclear, (hb.slotState (by simp)).trans (hstate.trans hst),
      ⟨hb.memory.1.trans hmem.1, hb.memory.2.trans hmem.2⟩, .inl ⟨?_, (hb.bit (by simp) _).trans hbusy⟩⟩
    rw [hbw, hw]
    rfl
  · have hdone := kept_fetchDone b p
    obtain ⟨hdw, hresult, hfree, -⟩ := b.fetchDone_done p
    refine ⟨(hdone.bit hin _).trans ((hb.bit (by simp) _).trans hclear),
      (hdone.slotState hin).trans ((hb.slotState (by simp)).trans (hstate.trans hst)),
      ⟨hdone.memory.1.trans (hb.memory.1.trans hmem.1), hdone.memory.2.trans (hb.memory.2.trans hmem.2)⟩,
      .inr ⟨by rw [hdw], by rw [hdw, hnone], hresult, ?_⟩⟩
    rw [hfree, hbw, hw]
    exact congrArg Option.isSome hh

theorem exec_abort_of_fetching {a : Access} {p : Fin 64} {v : Word} {s : State}
    (hw : s.dev.writable a (pWGT p) rWGT_CMD.off true = true) (hres : bits v.toNat 56 42 = 0) (hop : wgtOp v = 4)
    (hf : (s.dev.weights p).fetching = some (wgtSlot v)) : exec (.abort a p v) s = .next (on s fun d => Dev.emit
      (d.setWeights p { d.weights p with aborted := true, chunks := (d.weights p).chunks.filter ChunkTry.inFlight }) (.readback 0 false)) := by
  refine (run_wgtCommand (during := true) (work := fun d => if (d.weights p).fetching == some (wgtSlot v)
    then d.setWeights p { d.weights p with aborted := true, chunks := (d.weights p).chunks.filter ChunkTry.inFlight }
    else if d.bit (pWGT p) wgtSts 8 then d.setBit (pWGT p) wgtSts 9 true else d.wgtEnd p 0x02) hop hw hres (.inl rfl)).trans ?_
  rw [on, hf, if_pos (beq_self_eq_true _), on]

/-! ### The failure of a load -/

/-- The weights once a load has failed. -/
def Weights.failed (w : Weights) : Weights :=
  { w with fetching := none, chunks := [], failedChunk := none, refused := false, aborted := false }

/-- The slot of a load that has failed. -/
def Dev.markFailed (d : Dev) (p i : Nat) : Dev :=
  ((d.setWeights p (d.weights p).failed).setBit (pWGT p) (slotOff i) 60 true).phEnd p phFetch

/-- The result of a load that has failed (R298). -/
def Dev.failResult (d : Dev) (p : Nat) (w : Weights) : Dev :=
  if w.aborted then d.wgtEnd p 0x0A
  else if w.refused then d.wgtEnd p 0x06
  else (d.setFld (pWGT p) wgtSts 63 44 (w.failedChunk.getD 0)).wgtEnd p 0x07

theorem exec_loadFailed_of_failing {p : Fin 64} {s : State} {i : Nat} (hl : s.dev.live = true)
    (hi : (s.dev.weights p).fetching = some i) (hf : (s.dev.weights p).failing = true)
    (hc : ∀ c ∈ (s.dev.weights p).chunks, c.inFlight = false) : exec (.loadFailed p) s = .next (on s fun d =>
      ((d.markFailed p i).failResult p (d.weights p)).voteFailed p) := by
  have hany : ((s.dev.weights p).chunks.any ChunkTry.inFlight) = false := by
    simpa only [List.any_eq_false, Bool.not_eq_true] using hc
  change execLoadFailed p s = _
  rw [execLoadFailed, State.run, on]
  dsimp only
  rw [hi]
  dsimp only
  rw [Dev.when_true _ hl (by rw [hf, hany]; rfl)]
  simp only [Dev.markFailed, Dev.failResult, Weights.failed]

theorem Dev.markFailed_marks (d : Dev) (p i : Nat) : Kept p [slotOff i] d (d.markFailed p i) ∧
    (d.markFailed p i).weights p = (d.weights p).failed ∧ (d.markFailed p i).bit (pWGT p) (slotOff i) 60 = true ∧
    (d.markFailed p i).slotState p i = d.slotState p i := by
  have hw := kept_setWeights d p p (d.weights p).failed
  have hweights := Dev.weights_setWeights d p (d.weights p).failed
  rw [Dev.markFailed]
  generalize d.setWeights p (d.weights p).failed = b at *
  have hbit := kept_setBit b p (slotOff i) 60 true
  have hend := aside_phEnd (b.setBit (pWGT p) (slotOff i) 60 true) p phFetch
  refine ⟨(hw.widen.trans hbit).trans hend.toKept.widen, hend.weights.trans hweights,
    (hend.bit (by simp) _).trans (Dev.bit_setBit_same _ _ _ _ _ (by decide)), (hend.slotState (by simp)).trans ?_⟩
  exact (Dev.fld_setBit_field b (pWGT p) (slotOff i) 60 63 61 true (by decide) (by decide)).trans (hw.slotState (by simp))

theorem Dev.failResult_results (d : Dev) (p : Nat) (w : Weights) : Kept p [wgtSts] d (d.failResult p w) ∧
    (d.failResult p w).weights p = d.weights p ∧
    (d.failResult p w).bit (pWGT p) wgtSts 8 = ((d.weights p).fetching.isSome || (d.weights p).held.isSome) ∧
    (d.failResult p w).fld (pWGT p) wgtSts 7 0 = (if w.aborted then 0x0A else if w.refused then 0x06 else 0x07) ∧
    (w.aborted = false → w.refused = false → (d.failResult p w).fld (pWGT p) wgtSts 63 44 = w.failedChunk.getD 0 % 2 ^ 20) := by
  unfold Dev.failResult
  cases w.aborted
  · cases w.refused
    · refine ⟨(kept_setFld d p wgtSts 63 44 _).trans (kept_wgtEnd _ p 7), rfl, Dev.wgtEnd_busy _ p 7,
        Dev.wgtEnd_result _ p 7, fun _ _ => ?_⟩
      exact (Dev.wgtEnd_fld _ p 7 (by decide)).trans (Dev.fld_setFld_same _ _ _ _ _ _ (by decide) (by decide))
    · exact ⟨kept_wgtEnd d p 6, rfl, Dev.wgtEnd_busy _ p 6, Dev.wgtEnd_result _ p 6, fun _ h => nomatch h⟩
  · exact ⟨kept_wgtEnd d p 10, rfl, Dev.wgtEnd_busy _ p 10, Dev.wgtEnd_result _ p 10, fun h => nomatch h⟩

/-- A member that votes no since its slot has failed votes on the slot of its open commit. -/
theorem Dev.voteFailed_cases (d : Dev) (p : Nat) : d.voteFailed p = d ∨ ∃ j, Voted p j false d (d.voteFailed p) := by
  unfold Dev.voteFailed
  dsimp only
  split
  · exact .inl rfl
  next j hj =>
    split
    · exact .inr ⟨j, voted_castVote (by rw [hj]; rfl) false⟩
    · exact .inl rfl

/-- It leaves the loads, the other slots, and every field below the state of a slot. -/
theorem Dev.voteFailed_keeps (d : Dev) (p : Nat) : SameMemory d (d.voteFailed p) ∧
    ((d.voteFailed p).weights p).fetching = (d.weights p).fetching ∧ ((d.voteFailed p).weights p).failing = (d.weights p).failing ∧
    (∀ off hi lo, hi < 61 ∨ off = wgtSts → (d.voteFailed p).fld (pWGT p) off hi lo = d.fld (pWGT p) off hi lo) := by
  rcases d.voteFailed_cases p with h | ⟨j, h⟩
  · rw [h]
    exact ⟨⟨rfl, rfl⟩, rfl, rfl, fun _ _ _ _ => rfl⟩
  · obtain ⟨r, y, hw⟩ := h.weights
    refine ⟨h.memory, by rw [hw], by rw [hw]; rfl, fun off hi lo ho => ?_⟩
    by_cases hoff : off = slotOff j
    · rw [hoff]
      exact h.fields hi lo (ho.resolve_right fun hs => slotOff_ne_sts j (hoff.symm.trans hs))
    · exact h.fld (by simp [hoff]) hi lo

theorem loadFailed_leaves {d : Dev} {p i : Nat} (hh : (d.weights p).held = none) : let w := d.weights p
    let e := ((d.markFailed p i).failResult p w).voteFailed p
    (e.weights p).fetching = none ∧ (e.weights p).failing = false ∧ e.bit (pWGT p) (slotOff i) 60 = true ∧
      e.bit (pWGT p) wgtSts 8 = false ∧
      (w.commitSlot = some i → w.vote = none → w.localLoad.contains i = false → d.slotState p i = slLoading →
        (e.weights p).vote = some false ∧ e.slotState p i = slVoted) ∧
      (w.commitSlot = none ∨ w.vote ≠ none → (e.weights p).vote = w.vote ∧ e.slotState p i = d.slotState p i) ∧
      e.fld (pWGT p) wgtSts 7 0 = (if w.aborted then 0x0A else if w.refused then 0x06 else 0x07) ∧
      (w.aborted = false → w.refused = false → e.fld (pWGT p) wgtSts 63 44 = w.failedChunk.getD 0 % 2 ^ 20) ∧ SameMemory d e := by
  obtain ⟨hmark, hmw, hbit, hstate⟩ := d.markFailed_marks p i
  obtain ⟨hres, hrw, hbusy, hresult, hchunk⟩ := (d.markFailed p i).failResult_results p (d.weights p)
  have hin : slotOff i ∉ [wgtSts] := by simp [slotOff_ne_sts]
  intro w e
  have he : e = ((d.markFailed p i).failResult p (d.weights p)).voteFailed p := rfl
  generalize (d.markFailed p i).failResult p (d.weights p) = b at *
  have hbw : b.weights p = (d.weights p).failed := hrw.trans hmw
  have hbstate : b.slotState p i = d.slotState p i := (hres.slotState hin).trans hstate
  have hbbit : b.bit (pWGT p) (slotOff i) 60 = true := (hres.bit hin 60).trans hbit
  obtain ⟨hmem, hfetch, hfailing, hfld⟩ := b.voteFailed_keeps p
  rw [he]
  refine ⟨?_, ?_, ?_, ?_, fun hs hv hal hst => ?_, fun hno => ?_, ?_, fun ha hr => ?_, ?_⟩
  · rw [hfetch, hbw]
    rfl
  · rw [hfailing, hbw]
    rfl
  · rw [Dev.bit, hfld _ _ _ (.inl (by decide))]
    exact hbbit
  · rw [Dev.bit, hfld _ _ _ (.inr rfl)]
    refine hbusy.trans ?_
    rw [hmw, Weights.failed, hh]
    rfl
  · have hbs : (b.weights p).commitSlot = some i := by rw [hbw]; exact hs
    have hfailed : b.hasFailed p i = true := by
      rw [Dev.hasFailed, hbw, hbstate, hst, hbbit]
      change (!w.localLoad.contains i && _ && _) = true
      rw [hal]
      rfl
    rw [Dev.voteFailed_of_open hbs (by rw [hbw]; exact hv), hfailed, if_pos rfl]
    have hvoted := voted_castVote (d := b) (p := p) (i := i) (by rw [hbs]; rfl) false
    obtain ⟨r, y, hvw⟩ := hvoted.weights
    exact ⟨by rw [hvw], by rw [hvoted.slot, hbstate, if_pos hst]⟩
  · rw [Dev.voteFailed_of_closed (by rw [hbw]; exact hno), hbw]
    exact ⟨rfl, hbstate⟩
  · rw [hfld _ _ _ (.inr rfl), hresult]
  · rw [hfld _ _ _ (.inr rfl)]
    exact hchunk ha hr
  · exact ⟨hmem.1.trans (hres.memory.1.trans hmark.memory.1), hmem.2.trans (hres.memory.2.trans hmark.memory.2)⟩

end Sys2Proof.Machine
end

section
/-! SUPPORT. What a write of an engine leaves of the registers, and the chunks of a load that arrive or fail (R265 to R267, R287, R296 to
R298). -/

namespace Sys2Proof.Machine

open Sys2Proof.Safety

/-! ### A write of an engine, wherever it goes -/

theorem Dev.storeScratch_regs (d : Dev) (a : Nat) (bs : List Byte) : (d.storeScratch a bs false).regs = d.regs := by
  unfold Dev.storeScratch Dev.liveSegs
  dsimp only
  rw [if_neg Bool.false_ne_true]
  split <;> rfl

section
variable {page off hi lo : Nat} (h : OffAccounts page off) (ht : page ≠ pTIER) (he : page ≠ pERR) (hlo : 19 < lo)

include h in
theorem Dev.store_fld (d : Dev) (a : Nat) (bs : List Byte) : (d.store a bs).fld page off hi lo = d.fld page off hi lo := by
  refine Dev.fld_of_rd ?_ hi lo
  unfold Dev.store Dev.storeBad
  dsimp only
  split
  · exact Dev.each_keeps (fun e => e.rd page off) (fun _ _ e => Dev.storeGran_rd h e _ _) d
  · have hregs := Dev.each_keeps Dev.regs (l := pieces scratchBytes a bs.length)
      (f := fun r e => e.storeScratch r.1 ((bs.drop (r.1 - a)).take r.2) false) (fun _ _ e => e.storeScratch_regs _ _) d
    rw [Dev.rd, hregs, Dev.rd]
  · rfl

include h ht he hlo

/-- An add into a buffer may set the overflow flag of a Stove, a low bit of its status. -/
theorem Dev.addTo_fld (d : Dev) (q : Nat) (x : HeldAdd) : (d.addTo q x).fld page off hi lo = d.fld page off hi lo := by
  have hsnoop (n : Nat) : (d.snoop x.addr n).fld page off hi lo = d.fld page off hi lo :=
    Dev.fld_of_rd (Dev.each_keeps (fun e => e.rd page off) (fun _ _ e => e.toCompanion_rd _ _ _) d) hi lo
  have hrefetch (n : Nat) : (d.refetchRange x.addr n).fld page off hi lo = d.fld page off hi lo :=
    Dev.fld_of_rd (Dev.refetchRange_rd h ht he d x.addr n) hi lo
  unfold Dev.addTo
  dsimp only
  generalize (if x.bf16 = true then 2 else 4) = n, windowAdd _ _ _ _ = r
  split
  · rfl
  split
  · exact hsnoop _
  split
  · split
    · exact hrefetch _
    · exact hrefetch _
  · split
    · exact (Dev.fld_setBit_apart _ (pSTV q) stvSts true (by decide) (.inl (by omega)) page off).trans (Dev.store_fld h d _ _)
    · exact Dev.store_fld h d _ _

theorem Dev.windowPut_fld (d : Dev) (q w o : Nat) (bs : List Byte) : (d.windowPut q w o bs false).fld page off hi lo = d.fld page off hi lo := by
  unfold Dev.windowPut
  split
  · exact Dev.fld_setBit_apart d (pSTV q) stvSts true (by decide) (.inl (by omega)) page off
  · rw [if_neg Bool.false_ne_true]
    refine (Dev.fld_of_rd (Dev.rd_phSync_off h _ q) hi lo).trans ?_
    refine (Dev.each_keeps (fun e => e.fld page off hi lo) (fun x _ e => Dev.addTo_fld h ht he hlo e q _) _).trans ?_
    exact Dev.fld_of_rd (Dev.rd_phSync_off h d q) hi lo

theorem Dev.putIn_fld (d : Dev) (a : Nat) (bs : List Byte) (k : Nat) : (d.putIn a bs false k).fld page off hi lo = d.fld page off hi lo := by
  induction k generalizing d a bs with
  | zero => exact Dev.store_fld h d a bs
  | succ k ih =>
    unfold Dev.putIn
    dsimp only
    split
    · exact Dev.store_fld h d a bs
    · rw [ih, ih, Dev.windowPut_fld h ht he hlo]

theorem Dev.engineStore_fld (d : Dev) (q a : Nat) (bs : List Byte) : (d.engineStore q a bs).fld page off hi lo = d.fld page off hi lo := by
  unfold Dev.engineStore
  split
  · exact Dev.putIn_fld h ht he hlo d a bs 16
  · rfl

end

theorem Dev.engineStore_weights (d : Dev) (p q a : Nat) (bs : List Byte) : (d.engineStore q a bs).weights p = d.weights p :=
  Dev.part_of_settledPart (·.weights) (fun _ => rfl) (congrArg Prod.snd (d.engineStore_footing p q a bs))

/-! ### Chunk data -/

/-- The bytes of a chunk that have arrived, written to its destination. -/
def Dev.landChunk (d : Dev) (p : Nat) (x : Chunk) (data : List Byte) : Dev :=
  if data.isEmpty then d else d.engineStore p x.dest (data.take x.len)

section
variable (d : Dev) (p : Nat) (x : Chunk) (data : List Byte)

theorem Dev.landChunk_weights : (d.landChunk p x data).weights p = d.weights p := by
  unfold Dev.landChunk
  split
  · rfl
  · exact d.engineStore_weights p p x.dest _

theorem Dev.landChunk_fld {off hi lo : Nat} (ho : off < 0x10000) (hlo : 19 < lo) :
    (d.landChunk p x data).fld (pWGT p) off hi lo = d.fld (pWGT p) off hi lo := by
  unfold Dev.landChunk
  split
  · rfl
  · exact Dev.engineStore_fld ⟨ho, .inr (.inl (by simp only [pWGT]; omega))⟩ (by simp only [pWGT, pTIER]; omega)
      (by simp only [pWGT, pERR]; omega) hlo d p x.dest _

/-- What goes straight to memory stands at the destination, and nothing else has changed there. -/
theorem Dev.landChunk_lands (hle : data.length ≤ x.len) (hok : d.tierOk p (d.partWorld p) x.dest data.length = true)
    (hd : Direct d x.dest data.length) : (d.landChunk p x data).load x.dest data.length = data ∧
      OutsideSame [(x.dest, data.length)] d (d.landChunk p x data) := by
  unfold Dev.landChunk
  rw [List.take_of_length_le hle]
  cases data with
  | nil => exact ⟨rfl, fun _ _ => rfl⟩
  | cons b bs =>
    rw [if_neg (by simp)]
    refine ⟨load_engineStore hok hd, fun y hy => ?_⟩
    rw [Dev.engineStore, if_pos hok]
    refine load_put_other (Open.of_direct (by simp) hd) ?_
    have hap := hy _ (List.mem_singleton.mpr rfl)
    simp only [Apart] at hap
    omega

end

/-! ### The end of an attempt -/

section
variable {d : Dev} {p n : Nat} {c : ChunkTry}

/-- The record of a chunk of the load in progress. -/
def Dev.chunkRec (d : Dev) (p n : Nat) : Chunk := d.chunk (d.manifest (d.fetchMan p)) (d.fetchMan p) n

theorem Dev.tryOf_chunk (h : d.tryOf p n = some c) : c.chunk = n := by
  have hc := List.find?_some h
  simp only [Bool.and_eq_true, beq_iff_eq] at hc
  exact hc.1

/-- The chunks of a load but one. -/
def Weights.others (w : Weights) (n : Nat) : List ChunkTry := w.chunks.filter fun y => y.chunk != n

theorem Weights.mem_others {w : Weights} {n : Nat} {y : ChunkTry} (h : y ∈ w.others n) : y.chunk ≠ n := by
  simp only [Weights.others, List.mem_filter, bne_iff_ne] at h
  exact h.2

/-- A chunk that has arrived whole with its digest is counted. -/
def Dev.countChunk (d : Dev) (p n : Nat) (w : Weights) : Dev :=
  (d.setWeights p { w with chunks := w.others n }).setFld (pWGT p) wgtSts 43 24 (d.fld (pWGT p) wgtSts 43 24 + 1)

theorem Dev.endAttempt_arrived (hn : c.chunk = n) {data : List Byte} (ho : d.chunkOpen p (d.chunkRec p n) = true)
    (hlen : data.length = (d.chunkRec p n).len) (hsha : Config.sha384 data = (d.chunkRec p n).digest) :
    d.endAttempt p c data true = ((d.landChunk p (d.chunkRec p n) data).countChunk p n (d.weights p)).fetchSettle p := by
  subst hn
  rw [Dev.chunkRec] at ho hlen hsha
  unfold Dev.endAttempt
  dsimp only
  rw [ho, if_neg (by decide), hsha, hlen]
  simp only [beq_self_eq_true, Bool.and_self, if_true]
  rfl

theorem Dev.endAttempt_refused (hn : c.chunk = n) {data : List Byte} {whole : Bool} (ho : d.chunkOpen p (d.chunkRec p n) = false) :
    d.endAttempt p c data whole =
      d.setWeights p { d.weights p with chunks := ((d.weights p).others n).filter ChunkTry.inFlight, refused := true } := by
  subst hn
  rw [Dev.chunkRec] at ho
  unfold Dev.endAttempt
  dsimp only
  rw [ho]
  rfl

theorem Dev.endAttempt_error (hn : c.chunk = n) {data : List Byte} (ho : d.chunkOpen p (d.chunkRec p n) = true) :
    d.endAttempt p c data false = (d.landChunk p (d.chunkRec p n) data).failAttempt p c := by
  subst hn
  rw [Dev.chunkRec] at ho
  unfold Dev.endAttempt
  dsimp only
  rw [ho, if_neg (by decide)]
  rfl

/-- The last attempt of a chunk fails its load. -/
theorem Dev.failAttempt_last (hn : c.chunk = n) (hf : (d.weights p).failing = false) (hlast : d.maxAttempts p ≤ c.attempts + 1) :
    d.failAttempt p c = d.setWeights p { d.weights p with chunks := (d.weights p).others n, failedChunk := some n } := by
  subst hn
  have hnone : d.nextAttempt p (d.fetchMan p) c.chunk (c.attempts + 1) = none := by
    rw [Dev.nextAttempt, Nat.sub_eq_zero_of_le hlast]
    rfl
  have hchunk : (d.weights p).failedChunk = none := by
    simp only [Weights.failing, Bool.or_eq_false_iff, Option.isSome_eq_false_iff, Option.isNone_iff_eq_none] at hf
    exact hf.1.1
  have htry : d.tryChunk p c.chunk (c.attempts + 1) =
      d.setWeights p { d.weights p with chunks := (d.weights p).others c.chunk, failedChunk := some c.chunk } := by
    unfold Dev.tryChunk
    dsimp only
    rw [hnone, hchunk]
    rfl
  unfold Dev.failAttempt
  dsimp only
  rw [hf, if_neg Bool.false_ne_true, htry]
  refine Dev.fetchSettle_of_failing ?_
  rw [Dev.weights_setWeights]
  rfl

end

end Sys2Proof.Machine
end

section
/-! SUPPORT. A fetch, its attempts and its failure, and the vote of a member (R296 to R298, R301, R302). -/

namespace Sys2Proof.Machine

open Sys2Proof.Safety

/-! ### The end of an attempt -/

section
variable {p : Fin 64} {s : State} {n : Nat} {c : ChunkTry} (hl : s.dev.live = true) (hc : s.dev.tryOf p n = some c)
include hl hc

theorem exec_chunkAttemptEnd_arrived (data : List Byte) : exec (.chunkAttemptEnd p n (.arrived data)) s =
    .next (on s fun d => d.endAttempt p c data true) := by
  change execChunkAttemptEnd p n _ s = _
  rw [execChunkAttemptEnd, State.run, Dev.when_true _ hl (by rw [hc]; rfl), hc, on]

theorem exec_chunkAttemptEnd_error (data : List Byte) : exec (.chunkAttemptEnd p n (.error data)) s =
    .next (on s fun d => d.endAttempt p c data false) := by
  change execChunkAttemptEnd p n _ s = _
  rw [execChunkAttemptEnd, State.run, Dev.when_true _ hl (by rw [hc]; rfl), hc, on]

theorem exec_chunkAttemptTimeout_of_due {data : List Byte}
    (ht : c.start + s.dev.fld (pWGT p) rWGT_CTL.off 47 32 * 1000000 ≤ s.dev.now) :
    exec (.chunkAttemptTimeout p ⟨n, data⟩) s = .next (on s fun d => d.endAttempt p c data false) := by
  change execChunkAttemptTimeout p _ s = _
  rw [execChunkAttemptTimeout, State.run, Dev.when_true _ hl (by rw [hc]; rfl), hc, on]
  dsimp only
  rw [if_pos ht]

end

section
variable {d : Dev} {p n : Nat} {c : ChunkTry} (hn : c.chunk = n) {data : List Byte}
include hn

theorem endAttempt_arrived_leaves (ho : d.chunkOpen p (d.chunkRec p n) = true) (hlen : data.length = (d.chunkRec p n).len)
    (hsha : Config.sha384 data = (d.chunkRec p n).digest) : let x := d.chunkRec p n; let e := d.endAttempt p c data true
    e.fld (pWGT p) wgtSts 43 24 = (d.fld (pWGT p) wgtSts 43 24 + 1) % 2 ^ 20 ∧
      (d.tierOk p (d.partWorld p) x.dest x.len = true → Direct d x.dest x.len →
        e.load x.dest x.len = data ∧ OutsideSame [(x.dest, x.len)] d e) := by
  intro x e
  have he : e = ((d.landChunk p x data).countChunk p n (d.weights p)).fetchSettle p := Dev.endAttempt_arrived hn ho hlen hsha
  obtain ⟨hmem, hcount⟩ := ((d.landChunk p x data).countChunk p n (d.weights p)).fetchSettle_keeps p
  have hload (a k : Nat) : e.load a k = (d.landChunk p x data).load a k := by
    rw [he, Dev.load, hmem.1, Dev.load]
    rfl
  refine ⟨?_, fun hok hd => ?_⟩
  · rw [he, hcount, Dev.countChunk, Dev.fld_setFld_same _ _ _ _ _ _ (by decide) (by decide),
      Dev.landChunk_fld d p x data (by decide) (by decide)]
  · obtain ⟨hlands, houtside⟩ := d.landChunk_lands p x data (Nat.le_of_eq hlen) (hlen ▸ hok) (hlen ▸ hd)
    rw [← hlen]
    exact ⟨(hload _ _).trans hlands, fun y hy => (hload y 1).trans (houtside y hy)⟩

theorem endAttempt_last_leaves (ho : d.chunkOpen p (d.chunkRec p n) = true) (hf : (d.weights p).failing = false)
    (hlast : d.maxAttempts p ≤ c.attempts + 1) : let x := d.chunkRec p n; let e := d.endAttempt p c data false
    (e.weights p).failedChunk = some n ∧ (∀ y ∈ (e.weights p).chunks, y.chunk ≠ n) ∧
      (e.weights p).fetching = (d.weights p).fetching ∧ (data = [] → SameMemory d e) ∧
      (data.length ≤ x.len → d.tierOk p (d.partWorld p) x.dest data.length = true → Direct d x.dest data.length →
        e.load x.dest data.length = data ∧ OutsideSame [(x.dest, data.length)] d e) := by
  intro x e
  have hw := d.landChunk_weights p x data
  have hmax : (d.landChunk p x data).maxAttempts p = d.maxAttempts p :=
    congrArg (· + 1) (d.landChunk_fld p x data (off := rWGT_CTL.off) (by decide) (by decide))
  have he : e = (d.landChunk p x data).setWeights p
      { d.weights p with chunks := (d.weights p).others n, failedChunk := some n } := by
    have hlastOf := Dev.failAttempt_last (d := d.landChunk p x data) (p := p) hn (by rw [hw, hf]) (by rw [hmax]; exact hlast)
    rw [hw] at hlastOf
    exact (Dev.endAttempt_error hn ho).trans hlastOf
  have hew : e.weights p = { d.weights p with chunks := (d.weights p).others n, failedChunk := some n } := by
    rw [he, Dev.weights_setWeights]
  have hload (a k : Nat) : e.load a k = (d.landChunk p x data).load a k := by
    rw [he]
    rfl
  refine ⟨by rw [hew], fun y hy => ?_, by rw [hew], fun hnil => ?_, fun hle hok hd => ?_⟩
  · rw [hew] at hy
    exact Weights.mem_others hy
  · rw [he, hnil]
    exact ⟨rfl, rfl⟩
  · obtain ⟨hlands, houtside⟩ := d.landChunk_lands p x data hle hok hd
    exact ⟨(hload _ _).trans hlands, fun y hy => (hload y 1).trans (houtside y hy)⟩

theorem endAttempt_refused_leaves {whole : Bool} (ho : d.chunkOpen p (d.chunkRec p n) = false) : let e := d.endAttempt p c data whole
    (e.weights p).refused = true ∧ (∀ y ∈ (e.weights p).chunks, y.chunk ≠ n ∧ y.inFlight = true) ∧ SameMemory d e := by
  intro e
  have he : e = _ := Dev.endAttempt_refused hn ho
  rw [he, Dev.weights_setWeights]
  refine ⟨rfl, fun y hy => ?_, ⟨rfl, rfl⟩⟩
  obtain ⟨hin, hflight⟩ := List.mem_filter.mp hy
  exact ⟨Weights.mem_others hin, hflight⟩

end

/-! ### Opens and outcomes -/

section
variable {p : Fin 64} {s : State}

theorem exec_commitOpenReceive_of_ready {i : Fin 4} {g : Fin 1024} {epoch : BitVec 32} (hl : s.dev.live = true)
    (hh : s.dev.hears = true) (hg : s.dev.groupState g = gReady) : exec (.commitOpenReceive p i g epoch) s =
      .next (on s fun d => (d.sendOpen g i epoch.toNat).hearOpen p i g epoch.toNat) :=
  run_when_true (q := fun d => d.hears && d.groupState g == gReady)
    (f := fun _ d => (d.sendOpen g i epoch.toNat).hearOpen p i g epoch.toNat) hl (by simp [hh, hg])

theorem exec_commitTimeout_of_due {i : Nat} (hl : s.dev.live = true) (hs : (s.dev.weights p).commitSlot = some i)
    (hv : (s.dev.weights p).vote = none) (ht : (s.dev.weights p).deadline ≤ s.dev.now) : exec (.commitTimeout p) s = .next (on s fun d =>
      if (d.weights p).localLoad.contains i then d.commitOutcome p false else d.castVote p false) := by
  refine (run_when_true
    (q := fun d => (d.weights p).commitSlot.isSome && (d.weights p).vote.isNone && decide ((d.weights p).deadline ≤ d.now))
    (f := fun d e => if (d.weights p).localLoad.contains ((d.weights p).commitSlot.getD 0) then e.commitOutcome p false
      else e.castVote p false) hl (by simp [hs, hv, ht])).trans ?_
  rw [on, hs, Option.getD_some, on]

theorem exec_commitBarrierComplete_of_done {y : Bool} (hl : s.dev.live = true) (hs : (s.dev.weights p).commitSlot.isSome = true)
    (hv : (s.dev.weights p).vote = some y) (hf : (s.dev.weights p).frozen = false)
    (hr : s.dev.voteRounds p ≤ (s.dev.weights p).voteRound) : exec (.commitBarrierComplete p (s.dev.weights p).allYes) s =
      .next (on s fun d => d.commitOutcome p (s.dev.weights p).allYes) :=
  run_when_true (q := fun d => (d.weights p).commitSlot.isSome && (d.weights p).vote.isSome && !(d.weights p).frozen &&
      decide (d.voteRounds p ≤ (d.weights p).voteRound) && (s.dev.weights p).allYes == (d.weights p).allYes)
    (f := fun _ d => d.commitOutcome p (s.dev.weights p).allYes) hl (by simp [hs, hv, hf, hr])

theorem exec_commitBarrierComplete_of_not_done {o : Bool} (h : o ≠ (s.dev.weights p).allYes ∨ (s.dev.weights p).frozen = true ∨
    (s.dev.weights p).voteRound < s.dev.voteRounds p) : exec (.commitBarrierComplete p o) s = .next s := by
  have hno : ((s.dev.weights p).commitSlot.isSome && (s.dev.weights p).vote.isSome && !(s.dev.weights p).frozen &&
      decide (s.dev.voteRounds p ≤ (s.dev.weights p).voteRound) && o == (s.dev.weights p).allYes) = false := by
    rcases h with h | h | h
    · rw [beq_eq_false_iff_ne.mpr h, Bool.and_false]
    · simp [h]
    · simp [Nat.not_le.mpr h]
  change execCommitBarrierComplete p o s = _
  rw [execCommitBarrierComplete, State.run]
  dsimp only
  rw [Dev.when_false _ (.inr hno)]

end

section
variable (d : Dev) (p i : Nat) (hi : (d.weights p).commitSlot.getD 0 = i)
include hi

theorem commitOutcome_no_leaves : let e := d.commitOutcome p false
    (e.weights p).commitSlot = none ∧ SameMemory d e ∧
      e.bit (pWGT p) wgtSts 8 = ((d.weights p).fetching.isSome || (d.weights p).held.isSome) ∧
      (d.slotState p i = slVoted ∨ d.slotState p i = slLoading → e.slotState p i = slLoading) ∧ e.fld (pWGT p) wgtSts 7 0 = 9 := by
  intro e
  have he : e = ((if d.slotState p i == slVoted then d.setSlotState p i slLoading else d).wgtEnd p 9).commitOver p := by
    subst hi
    rfl
  have hkept : Kept p [slotOff i] d (if d.slotState p i == slVoted then d.setSlotState p i slLoading else d) := by
    split
    · exact kept_setSlotState d p i slLoading
    · exact .refl _ _ d
  have hw : (if d.slotState p i == slVoted then d.setSlotState p i slLoading else d).weights p = d.weights p := by
    split
    · exact Dev.setFld_weights _ _ _ _ _ _ _
    · rfl
  have hstate : d.slotState p i = slVoted ∨ d.slotState p i = slLoading →
      (if d.slotState p i == slVoted then d.setSlotState p i slLoading else d).slotState p i = slLoading := by
    rintro (h | h)
    · rw [h, if_pos (by decide), Dev.slotState_setSlotState _ p i (by decide)]
    · rw [h, if_neg (by decide), h]
  generalize (if d.slotState p i == slVoted then d.setSlotState p i slLoading else d) = b at *
  have hfin := kept_finish b p 9
  rw [he]
  refine ⟨by rw [Dev.finish_weights]; rfl, ⟨hfin.memory.1.trans hkept.memory.1, hfin.memory.2.trans hkept.memory.2⟩, ?_, fun h => ?_,
    Dev.finish_sts b p 9⟩
  · rw [Dev.finish_busy, hw]
  · rw [Dev.finish_slotState, hstate h]

theorem commitOutcome_yes_leaves : let e := d.commitOutcome p true
    Current p i ((d.weights p).commitEpoch % 2 ^ 32) d e ∧ SameMemory d e ∧
      e.bit (pWGT p) wgtSts 8 = ((d.weights p).fetching.isSome || (d.weights p).held.isSome) := by
  intro e
  have he : e = (((d.commitSlot p i (d.weights p).commitEpoch).turnOver p i).wgtEnd p 0).commitOver p := by
    subst hi
    rfl
  have hc := commits_commitSlot d p i (d.weights p).commitEpoch
  obtain ⟨hcur, -, hmem⟩ := forceCommit_leaves d p i (d.weights p).commitEpoch
  rw [he]
  refine ⟨hcur, hmem, ?_⟩
  rw [Dev.finish_busy, Dev.turnOver_weights, hc.fetching, hc.held]

end

/-! ### Votes that are heard -/

theorem Dev.group_setGroup (d : Dev) (g : Nat) (x : Group) : (d.setGroup g x).group g = x := Tab.get_set_same _ _ _ _

theorem Dev.weights_setGroup (d : Dev) (g p : Nat) (x : Group) : (d.setGroup g x).weights p = d.weights p := rfl

/-- No message of the round that is due has come. -/
theorem Dev.advanceVotes_of_none {d : Dev} {p : Nat} (h : (d.group (d.weights p).commitGroup).votes.find?
    (fun v => v.1 == (d.group (d.weights p).commitGroup).commits && v.2.1 == (d.weights p).voteRound) = none) (n : Nat) :
    d.advanceVotes p n = d := by
  cases n with
  | zero => rfl
  | succ n =>
    unfold Dev.advanceVotes
    dsimp only
    rw [h]

/-- The weights once a round is done with a vote. -/
def Weights.roundDone (w : Weights) (yes : Bool) : Weights := { w with voteRound := w.voteRound + 1, allYes := w.allYes && yes }

/-- The message of the round that is due has come. -/
theorem Dev.advanceVotes_of_due {d : Dev} {p : Nat} {v : Nat × Nat × Bool} (hr : (d.weights p).voteRound < d.voteRounds p)
    (h : (d.group (d.weights p).commitGroup).votes.find?
      (fun v => v.1 == (d.group (d.weights p).commitGroup).commits && v.2.1 == (d.weights p).voteRound) = some v) (n : Nat) :
    d.advanceVotes p (n + 1) = ((d.setWeights p ((d.weights p).roundDone v.2.2)).sendVote p).advanceVotes p n := by
  rw [Dev.advanceVotes, h]
  exact if_neg (Nat.not_le.mpr hr)

/-- After the last round nothing more is sent. -/
theorem Dev.sendVote_of_last {d : Dev} {p : Nat} (h : d.voteRounds p ≤ (d.weights p).voteRound) : d.sendVote p = d := if_pos h

section
variable {d : Dev} {p g : Nat} (hg : d.groupState g = gReady) (hp : (d.group g).part = p) (hvotes : (d.group g).votes = [])
  (hs : (d.weights p).commitSlot.isSome = true) (hcg : (d.weights p).commitGroup = g) (hf : (d.weights p).frozen = false)
  (hv : (d.weights p).vote.isSome = true)

/-- The vote of a round, kept with the group. -/
def Dev.keepVote (d : Dev) (g round : Nat) (yes : Bool) : Dev :=
  d.setGroup g { d.group g with votes := [((d.group g).commits, round, yes)] }

include hg hp hvotes hs hcg hf hv in
theorem Dev.hearVote_eq (round : Nat) (yes : Bool) :
    d.hearVote g (d.group g).commits round yes = (d.keepVote g round yes).advanceVotes p 14 := by
  subst hp
  unfold Dev.hearVote
  dsimp only
  rw [hg, if_neg (by decide), bne_self_eq_false, Bool.false_and, if_neg Bool.false_ne_true, hs, hcg, hf, hv, hvotes, beq_self_eq_true,
    beq_self_eq_true, if_neg (by decide), if_pos (by decide)]
  rfl

include hcg

/-- A vote of a later round waits. -/
theorem Dev.advanceVotes_keepVote_later {round : Nat} (hr : round ≠ (d.weights p).voteRound) (yes : Bool) (n : Nat) :
    (d.keepVote g round yes).advanceVotes p n = d.keepVote g round yes := by
  refine Dev.advanceVotes_of_none ?_ n
  rw [Dev.keepVote, Dev.weights_setGroup, hcg, Dev.group_setGroup]
  simp [hr]

/-- The vote of the round that is due is taken; it was the last round. -/
theorem Dev.advanceVotes_keepVote_due (hr : (d.weights p).voteRound + 1 = d.voteRounds p) (yes : Bool) (n : Nat) :
    (d.keepVote g (d.weights p).voteRound yes).advanceVotes p (n + 1) =
      (d.keepVote g (d.weights p).voteRound yes).setWeights p ((d.weights p).roundDone yes) := by
  have hbw : (d.keepVote g (d.weights p).voteRound yes).weights p = d.weights p := rfl
  have hbg : (d.keepVote g (d.weights p).voteRound yes).group g =
      { d.group g with votes := [((d.group g).commits, (d.weights p).voteRound, yes)] } := Dev.group_setGroup _ _ _
  have hrounds : (d.keepVote g (d.weights p).voteRound yes).voteRounds p = d.voteRounds p := by
    simp only [Dev.voteRounds, hbw, hcg, hbg]
    rfl
  generalize d.keepVote g (d.weights p).voteRound yes = b at *
  have hdue := Dev.advanceVotes_of_due (d := b) (p := p) (v := ((d.group g).commits, (d.weights p).voteRound, yes))
    (by rw [hrounds, hbw]; omega) (by rw [hbw, hcg, hbg]; simp) n
  rw [hbw] at hdue
  have hcw := Dev.weights_setWeights b p ((d.weights p).roundDone yes)
  have hcgroup : (b.setWeights p ((d.weights p).roundDone yes)).group g = b.group g := rfl
  rw [hdue]
  generalize b.setWeights p ((d.weights p).roundDone yes) = c at *
  have hrg : ((d.weights p).roundDone yes).commitGroup = g := hcg
  have hcrounds : c.voteRounds p = b.voteRounds p := by
    simp only [Dev.voteRounds, hcw, hrg, hcgroup, hbw, hcg]
    rfl
  have hlast : c.voteRounds p ≤ (c.weights p).voteRound := by
    rw [hcrounds, hrounds, hcw, ← hr]
    exact Nat.le_refl _
  rw [Dev.sendVote_of_last hlast]
  refine Dev.advanceVotes_of_none ?_ n
  rw [hcw, hrg, hcgroup, hbg]
  simp [Weights.roundDone]

end

theorem Dev.hasFailed_iff {d : Dev} {p i : Nat} : d.hasFailed p i = true ↔ d.slotState p i = slLoading ∧
    d.bit (pWGT p) (slotOff i) 60 = true ∧ (d.weights p).localLoad.contains i = false := by
  simp only [Dev.hasFailed, Bool.and_eq_true, Bool.not_eq_true', beq_iff_eq]
  exact ⟨fun h => ⟨h.1.2, h.2, h.1.1⟩, fun h => ⟨⟨h.2.2, h.1⟩, h.2.1⟩⟩

/-! ### The statement -/

/-- Settles O34: every event of a fetch and of a vote leaves the slot, the weights and WGT_STS as its rule gives. -/
theorem fetchAndVoteComplete : Obligations.FetchAndVoteComplete := by
  intro p s
  refine ⟨fun a v hw hres => ⟨fun hop hfree hst hv hh => ?fetch, fun hop hf => exec_abort_of_fetching hw hres hop hf⟩,
    fun c n hl hc => ⟨fun data ho hlen hsha => runs_of_next (exec_chunkAttemptEnd_arrived hl hc data) ?arrived,
      fun r data hr => ⟨fun ho => ?refused, fun ho hf hlast => ?last⟩⟩,
    fun i hl hi hf hc hh => runs_of_next (exec_loadFailed_of_failing hl hi hf hc) (loadFailed_leaves hh),
    fun i g epoch hl hh hg => runs_of_next (exec_commitOpenReceive_of_ready hl hh hg) ?opened,
    fun i hl hs => ⟨fun hv ht => runs_of_next (exec_commitTimeout_of_due hl hs hv ht) ?timeout,
      fun y hv hf hr => runs_of_next (exec_commitBarrierComplete_of_done hl (by rw [hs]; rfl) hv hf hr) ?barrier,
      fun o ho => exec_commitBarrierComplete_of_not_done ho⟩,
    fun g yes hg hp hvotes hs hcg hf hv => ⟨fun hr => ?due, fun round hr => ?later⟩⟩
  case fetch =>
    obtain ⟨hclear, hstate, hmem, hend⟩ := startFetch_leaves hst hv hh
    exact runs_of_next (exec_fetch_of_free hw hres hfree hop) ⟨hclear, hstate, sameMemory_emit hmem _, hend⟩
  case arrived =>
    exact endAttempt_arrived_leaves (Dev.tryOf_chunk hc) ho hlen hsha
  case refused =>
    have hleaves := endAttempt_refused_leaves (data := data) (whole := false) (Dev.tryOf_chunk hc) ho
    rcases hr with rfl | ⟨rfl, ht⟩
    · exact runs_of_next (exec_chunkAttemptEnd_error hl hc data) hleaves
    · exact runs_of_next (exec_chunkAttemptTimeout_of_due hl hc ht) hleaves
  case last =>
    have hleaves := endAttempt_last_leaves (data := data) (Dev.tryOf_chunk hc) ho hf hlast
    rcases hr with rfl | ⟨rfl, ht⟩
    · exact runs_of_next (exec_chunkAttemptEnd_error hl hc data) hleaves
    · exact runs_of_next (exec_chunkAttemptTimeout_of_due hl hc ht) hleaves
  case opened =>
    have hsend := aside_sendOpen s.dev p g i epoch.toNat
    have ho := opened_hearOpen (s.dev.sendOpen g i epoch.toNat) p i g epoch.toNat
    have hnow : (s.dev.sendOpen g i epoch.toNat).epochNow p = s.dev.epochNow p := Dev.epochNow_of_kept hsend.toKept (by simp)
    have hstate := hsend.slotState (i := i) (by simp)
    have hfailed : (s.dev.sendOpen g i epoch.toNat).hasFailed p i = s.dev.hasFailed p i := by
      rw [Dev.hasFailed, hsend.weights, hstate, hsend.bit (by simp), Dev.hasFailed]
    refine ⟨ho.slot, ho.opened, ⟨ho.memory.1.trans hsend.memory.1, ho.memory.2.trans hsend.memory.2⟩,
      ho.deadline.trans (by rw [hsend.now, hsend.fld (by simp)]), ?_⟩
    split
    next hne => exact ho.wrong (by rwa [hnow])
    next heq =>
      have hepoch := not_not.mp heq
      split
      next hf => exact ho.failed (by rwa [hnow]) (hfailed.trans (Dev.hasFailed_iff.mpr hf))
      next hf =>
        have hsound : s.dev.hasFailed p i = false := (Bool.not_eq_true _).mp fun h => hf (Dev.hasFailed_iff.mp h)
        obtain ⟨hvote, hkeep⟩ := ho.sound (by rwa [hnow]) (hfailed.trans hsound)
        exact ⟨hvote, hkeep.trans hstate⟩
  case timeout =>
    have hslot : (s.dev.weights p).commitSlot.getD 0 = i := by rw [hs]; rfl
    split
    next hal =>
      obtain ⟨hover, hmem, -, hstate, hresult⟩ := commitOutcome_no_leaves s.dev p i hslot
      exact ⟨hmem, hover, hresult, fun h => hstate (.inr h)⟩
    next hal =>
      have hvoted := voted_castVote hslot false
      obtain ⟨r, y, hvw⟩ := hvoted.weights
      exact ⟨hvoted.memory, by rw [hvw], fun h => by rw [hvoted.slot, if_pos h]⟩
  case barrier =>
    have hslot : (s.dev.weights p).commitSlot.getD 0 = i := by rw [hs]; rfl
    cases hall : (s.dev.weights p).allYes
    · obtain ⟨hover, hmem, hbusy, hstate, hresult⟩ := commitOutcome_no_leaves s.dev p i hslot
      exact ⟨hover, hmem, hbusy, fun h => hstate (.inl h), hresult⟩
    · obtain ⟨hcur, hmem, hbusy⟩ := commitOutcome_yes_leaves s.dev p i hslot
      exact ⟨hcur.ended, hmem, hbusy, hcur.state, hcur.epoch, hcur.result⟩
  case due =>
    rw [Dev.hearVote_eq hg hp hvotes hs hcg hf hv, Dev.advanceVotes_keepVote_due hcg hr]
    dsimp only
    rw [Dev.weights_setWeights]
    exact ⟨rfl, rfl⟩
  case later =>
    rw [Dev.hearVote_eq hg hp hvotes hs hcg hf hv, Dev.advanceVotes_keepVote_later hcg hr]
    exact ⟨rfl, congrArg Group.votes (Dev.group_setGroup _ _ _)⟩

end Sys2Proof.Machine
end
